-- ==== Sys2Proof/Word.lean ====
section
/-!
DEFINITION. The word types of the model and their plainest arithmetic: bytes, the register widths the part has,
and the reading of a bit field as a natural number.
-/

namespace Sys2Proof

abbrev Byte := BitVec 8
abbrev W16 := BitVec 16
abbrev W32 := BitVec 32
abbrev W64 := BitVec 64
/-- One 128-byte line as a single word, byte 0 in its low bits (R16). -/
abbrev Line := BitVec 1024

/-- Bits `[hi:lo]` of a word, as a number. -/
def fld {w : Nat} (x : BitVec w) (hi lo : Nat) : Nat :=
  (x.toNat >>> lo) % 2 ^ (hi + 1 - lo)

/-- Bits `[hi:lo]` replaced by the low bits of `v`. -/
def setFld {w : Nat} (x : BitVec w) (hi lo v : Nat) : BitVec w :=
  let m := (2 ^ (hi + 1 - lo) - 1) <<< lo
  (x &&& ~~~ (BitVec.ofNat w m)) ||| BitVec.ofNat w ((v % 2 ^ (hi + 1 - lo)) <<< lo)

/-- A truth value as 0 or 1. -/
def b2n (b : Bool) : Nat := if b then 1 else 0

/-- Division rounded up. -/
def cdiv (a b : Nat) : Nat := (a + b - 1) / b

end Sys2Proof
end

