-- ==== Sys2Proof/Syntax.lean ====
section
/-!
DEFINITION. The commands of the part: the operand records, and Instr with one constructor for each row of the table of
operations and events.
-/

namespace Sys2Proof

/-- Status codes of Table 0-6; `held` is no status: the access waits for the exit from a power state (R403). -/
inductive Status where
  | ok | perm | xlat | pois | tout | unav | peer | abrt | busy | held
deriving DecidableEq, Repr

/-- The dies that hold a control-space block and a PLL (Table 1-7). -/
inductive Die where
  | hub
  | hd (k : Fin 2)
  | cd (n : Fin 4)
deriving DecidableEq, Repr

/-- A tile of a compute die, `16 * cluster + logical tile` within its die (R21). -/
structure TileRef where
  die : Fin 4
  tile : Nat
deriving DecidableEq, Repr

/-- A resident block, `launching die * 2^32 + launch sequence number` (R88, R351). -/
structure BlockRef where
  die : Fin 4
  tile : Nat
  bid : Nat
deriving DecidableEq, Repr

/-- A group of a resident block. -/
structure GroupRef where
  die : Fin 4
  tile : Nat
  bid : Nat
  grp : Nat
deriving DecidableEq, Repr

def GroupRef.tileRef (g : GroupRef) : TileRef := ⟨g.die, g.tile⟩
def BlockRef.tileRef (b : BlockRef) : TileRef := ⟨b.die, b.tile⟩

/-- A write of a control register that has a row of its own: block, array index, privilege level, CTXID and value. -/
structure Wr where
  die : Die
  idx : Nat
  pl : Nat
  ctx : Nat
  val : W64
deriving DecidableEq, Repr

/-- Who sends an outbound request to root-port memory space (R362). -/
inductive PcieWho where
  | host (core : Nat)
  | mgmt (core : Nat)
  | dma (ch : Nat)
  | other
deriving DecidableEq, Repr

/-- How PCIe ends a request (R362). -/
inductive PcieEnd where
  | ok | unsupported | aborted | timeout | poisoned
deriving DecidableEq, Repr

/-- A TLP that a port takes: port, write or read, address or BAR0 offset, bytes, and the data of a write, least significant
byte first. -/
structure Tlp where
  port : Nat
  wr : Bool
  pa : Nat
  len : Nat
  data : Nat
deriving DecidableEq, Repr

/-- A TLP of an endpoint port at BAR2 (`bar2`) or at BAR0 (R367). -/
structure BarTlp where
  bar2 : Bool
  tlp : Tlp
deriving DecidableEq, Repr

/-- A PCIe or CXL link that goes down (`down`) or stays up, with the AER status it reports (R362, R419). -/
structure LinkLoss where
  aer : Nat
  down : Bool
deriving DecidableEq, Repr

/-- Bits shifted through a register of the test access port: how many, and their value, the first in bit 0 (R479). -/
structure Scan where
  len : Nat
  bits : Nat
deriving DecidableEq, Repr

/-- A scan under an instruction that acts as BYPASS: its code, which is BYPASS or no public one, and the bits (R479). -/
structure IrScan where
  ir : Nat
  scan : Scan
deriving DecidableEq, Repr

/-- What the self-tests at a reset find (R425): tiles that fail their array self-test, as (compute die, logical tile of the die), and DMA
channels that fail theirs, as (die index, channel). -/
structure SelfTest where
  tiles : List (Nat × Nat)
  chans : List (Nat × Nat)
deriving DecidableEq, Repr

/-- How the retrain of a die-to-die link ends: it fails, or it completes and the ends make known the versions `a` and `b`, (major,
highest minor) each (R425, R450). -/
inductive Retrain where
  | fails
  | ends (a b : List (Nat × Nat))
deriving DecidableEq, Repr

/-- The retrain of a Millrace port: the lanes that fail, and the versions its peer makes known (R374, R425). -/
structure PortTest where
  bad : List Nat
  peer : List (Nat × Nat)
deriving DecidableEq, Repr

/-- A Millrace packet as a port receives it (Table 13-2): port, virtual lane, source station, context, operation, unit and
packet numbers, LAST, ARG, STATUS, protocol major version, address, payload bytes and payload; and the arrival word and
number of units of the operation (R381). -/
structure Pkt where
  port : Nat
  vl : Nat
  src : Nat
  ctx : Nat
  opid : Nat
  unit : Nat
  seq : Nat
  last : Bool
  arg : Nat
  st : Status
  vmaj : Nat
  addr : Nat
  len : Nat
  data : Nat
  arrive : Nat
  units : Nat
deriving DecidableEq, Repr

/-- Energy of a die that a sample charges to a context, in nJ (R400, Table 14-6). -/
structure Share where
  die : Nat
  ctx : Nat
  nj : Nat
deriving DecidableEq, Repr

/-- Any write in control space: block, offset in the block, size in bytes. -/
structure CtlWrite where
  die : Die
  off : Nat
  size : Nat
  pl : Nat
  ctx : Nat
  val : W64
deriving DecidableEq, Repr

/-- A disturbed read of a block: pseudo-channel, block, and (symbol 0 to 67, difference) pairs (R265). -/
structure Disturb where
  p : Nat
  blk : Nat
  flips : List (Nat × Nat)
deriving DecidableEq, Repr

/-- An atomic operation as a requester sends it: operation 0 add, 1 saturating add, 2 min, 3 max, 4 and, 5 or, 6 xor,
7 exchange, 8 compare-and-swap; type 0 u32, 1 s32, 2 u64, 3 s64, 4 f32; operand and compare operand. -/
structure AtOp where
  op : Nat
  ty : Nat
  arg : Nat
  cmp : Nat
deriving DecidableEq, Repr

/-- A caching agent's request: agent of Table 10-2, the tile or core that it serves by its identifier of Table 11-10, physical
address, context, level, interleave field (0 for a request without one), streaming hint, and the type of the access that it serves
(0 read, 1 write, 2 atomic, 3 fetch; Table 11-16). -/
structure AgentReq where
  agent : Nat
  req : Nat
  pa : Nat
  ctx : Nat
  pl : Nat
  il : Nat
  strm : Bool
  typ : Nat
deriving DecidableEq, Repr

/-- A non-caching requester's request: requester identifier of Table 11-10, physical address, context, level, interleave
field (0 for none). -/
structure NcReq where
  req : Nat
  pa : Nat
  ctx : Nat
  pl : Nat
  il : Nat
deriving DecidableEq, Repr

/-- A Burr of a compute die, by its die index (R202). -/
structure BurrRef where
  die : Fin 4
  idx : Nat
deriving DecidableEq, Repr

/-- A sampler of a compute die (R237). -/
structure SmpRef where
  die : Fin 4
  unit : Nat
deriving DecidableEq, Repr

/-- The header of a firmware image as the root of trust finds it (R453): version, SVN, size in bytes, the settings schemas it reads,
and its mailbox protocol major version. -/
structure ImgHdr where
  ver : Nat
  svn : Nat
  size : Nat
  smin : Nat
  smax : Nat
  mbox : Nat
deriving DecidableEq, Repr

/-- On-die storage that finds an uncorrectable error (R422, Tables 15-2 to 15-4): tile storage with its array number, a set
and way of a cluster L2's data (with the half of the line) or tags, a Burr, a sampler, a DMA channel, a command processor's
storage, a line of a host die's caches, a core that reports a machine check, a word of the management SRAM. -/
inductive OnDie where
  | tile (t : TileRef) (arr : Nat)
  | l2data (agent set way half : Nat)
  | l2tag (agent set way : Nat)
  | burr (b : BurrRef)
  | sampler (u : SmpRef)
  | dma (d : Die) (ch : Nat)
  | cp (n : Fin 4)
  | l3 (k : Fin 2) (line : Nat)
  | core (k : Fin 2) (c : Nat)
  | mgmt (word : Nat)
deriving DecidableEq, Repr

/-- The commands of the part, one constructor for each row of the table of operations and events. -/
inductive Instr where
  /-- REGISTER_WRITE, R41: A write to a control-space register that has no row of its own is checked for size, alignment, privilege and domain state, and then performed under its access type. -/
  | registerWrite (w : CtlWrite)
  /-- BLOCK_PLACE, R82: Once room appears on a masked tile, a block of a launch is placed there, its local memory is zero-filled and its groups start. -/
  | blockPlace (t : TileRef) (seq : Nat)
  /-- INSTRUCTION_FETCH, R113: An instruction fetch that missed the instruction cache returns, and the group becomes ready; a non-OK status halts the block when a lane reaches that instruction. -/
  | instructionFetch (g : GroupRef) (ahead : Nat) (st : Status)
  /-- UNDEFINED_ENCODING, R116: A group issues an undefined encoding, and the block halts with STATUS PERM and ACCESS 0x7. -/
  | undefinedEncoding (g : GroupRef)
  /-- MOV, R122: Copies A or IMM to D. -/
  | mov (g : GroupRef)
  /-- ADD, R122: Integer add, wrapping or saturating. -/
  | add (g : GroupRef)
  /-- SUB, R122: Integer subtract, wrapping or saturating. -/
  | sub (g : GroupRef)
  /-- MUL, R122: Integer multiply, giving the low half or the saturated product. -/
  | mul (g : GroupRef)
  /-- MULHI, R122: Gives the high half of the double-width integer product. -/
  | mulhi (g : GroupRef)
  /-- MAD, R122: Gives the low half of A times B plus C, wrapping. -/
  | mad (g : GroupRef)
  /-- DIV, R70: Integer quotient under Table 2-8. -/
  | div (g : GroupRef)
  /-- REM, R70: Integer remainder under Table 2-8. -/
  | rem (g : GroupRef)
  /-- AND, R122: Bitwise AND. -/
  | and (g : GroupRef)
  /-- OR, R122: Bitwise OR. -/
  | or (g : GroupRef)
  /-- XOR, R122: Bitwise XOR. -/
  | xor (g : GroupRef)
  /-- SHL, R123: Shift left by an unreduced count. -/
  | shl (g : GroupRef)
  /-- SHR, R123: Logical or arithmetic shift right by an unreduced count. -/
  | shr (g : GroupRef)
  /-- MINMAX, R122: Integer minimum or maximum. -/
  | minmax (g : GroupRef)
  /-- BITOP, R123: CLZ, POPC, bit reverse or absolute value. -/
  | bitop (g : GroupRef)
  /-- SETP, R124: Computes a comparison, combines it with a predicate and writes p[D]. -/
  | setp (g : GroupRef)
  /-- FADD, R125: f32 or pf64 addition. -/
  | fadd (g : GroupRef)
  /-- FSUB, R125: f32 or pf64 subtraction. -/
  | fsub (g : GroupRef)
  /-- FMUL, R125: f32 or pf64 multiplication. -/
  | fmul (g : GroupRef)
  /-- FFMA, R125: f32 fused multiply-add with one rounding. -/
  | ffma (g : GroupRef)
  /-- FMINMAX, R125: f32 minimum or maximum, with -0 below +0. -/
  | fminmax (g : GroupRef)
  /-- FDIV, R125: Correctly rounded f32 division. -/
  | fdiv (g : GroupRef)
  /-- FUN1, R126: f32 square root, reciprocal or reciprocal square root, correctly rounded. -/
  | fun1 (g : GroupRef)
  /-- FUN2, R126: f32 2^A, log2 A or absolute value. -/
  | fun2 (g : GroupRef)
  /-- LMUL, R127: LN16 multiply, adding the logarithm fields. -/
  | lmul (g : GroupRef)
  /-- LDIV, R127: LN16 divide, subtracting the logarithm fields. -/
  | ldiv (g : GroupRef)
  /-- LPOW, R128: LN16 integer power. -/
  | lpow (g : GroupRef)
  /-- LROOT, R128: LN16 square root or reciprocal square root. -/
  | lroot (g : GroupRef)
  /-- LADD, R129: LN16 sum or difference through binary32, with two roundings. -/
  | ladd (g : GroupRef)
  /-- CVT, R130: Converts a register between non-block formats with the selected rounding. -/
  | cvt (g : GroupRef)
  /-- LMINMAX, R127: LN16 minimum or maximum. -/
  | lminmax (g : GroupRef)
  /-- LDG, R99: Global load, looked up in the L1 line by line. -/
  | ldg (g : GroupRef)
  /-- STG, R100: Global store, written through and entered into the merging write buffer. -/
  | stg (g : GroupRef)
  /-- LDL, R95: Local-memory load. -/
  | ldl (g : GroupRef)
  /-- STL, R95: Local-memory store. -/
  | stl (g : GroupRef)
  /-- LDU, R131: Loads a uniform register, once per issue. -/
  | ldu (g : GroupRef)
  /-- PRF, R134: Prefetches a line into L1 and L2, or into L2 only. -/
  | prf (g : GroupRef)
  /-- AADD, R135: Atomic add, combined across lanes in lane order. -/
  | aadd (g : GroupRef)
  /-- AADDS, R135: Saturating atomic add. -/
  | aadds (g : GroupRef)
  /-- AMIN, R135: Atomic minimum. -/
  | amin (g : GroupRef)
  /-- AMAX, R135: Atomic maximum. -/
  | amax (g : GroupRef)
  /-- AAND, R135: Atomic bitwise and. -/
  | aand (g : GroupRef)
  /-- AOR, R135: Atomic bitwise or. -/
  | aor (g : GroupRef)
  /-- AXOR, R135: Atomic bitwise xor. -/
  | axor (g : GroupRef)
  /-- AXCHG, R135: Atomic exchange. -/
  | axchg (g : GroupRef)
  /-- ACAS, R135: Atomic compare-and-swap. -/
  | acas (g : GroupRef)
  /-- BRA, R136: Relative branch, per lane. -/
  | bra (g : GroupRef)
  /-- JMP, R136: Jumps to a per-lane or uniform address. -/
  | jmp (g : GroupRef)
  /-- CALL, R136: Writes the link address and branches. -/
  | call (g : GroupRef)
  /-- EXIT, R91: The lane leaves its group permanently. -/
  | exit (g : GroupRef)
  /-- BAR, R92: The group arrives at the block barrier. -/
  | bar (g : GroupRef)
  /-- NOP, R136: No operation. -/
  | nop (g : GroupRef)
  /-- FENCE, R104: Acquire, release or full fence at a scope, invalidating the L1 or draining the write buffer at device or system scope. -/
  | fence (g : GroupRef)
  /-- WAITK, R139: The group waits until a completion counter reaches a value. -/
  | waitk (g : GroupRef)
  /-- RDK, R139: Reads a completion counter. -/
  | rdk (g : GroupRef)
  /-- RND, R141: Makes random draws, variates or predicates, or reads or sets the thread's generator state. -/
  | rnd (g : GroupRef)
  /-- TIME, R141: Samples the package timestamp or the tile cycle count. -/
  | time (g : GroupRef)
  /-- SEL, R141: Selects between A and B by a predicate. -/
  | sel (g : GroupRef)
  /-- PLOP, R141: Logical operation on predicates. -/
  | plop (g : GroupRef)
  /-- SHFL, R141: Shuffles a register across the lanes. -/
  | shfl (g : GroupRef)
  /-- VOTE, R141: Ballot, any or all across the lanes. -/
  | vote (g : GroupRef)
  /-- RDLANE, R141: Reads one lane's register into a uniform register. -/
  | rdlane (g : GroupRef)
  /-- MXI, R143: Issues a Millstone descriptor, which is accepted into the tile's queue. -/
  | mxi (g : GroupRef)
  /-- VXI, R143: Issues a vector-engine descriptor, which is accepted into the tile's queue. -/
  | vxi (g : GroupRef)
  /-- UMOV, R144: Uniform move. -/
  | umov (g : GroupRef)
  /-- UADD, R144: Uniform add. -/
  | uadd (g : GroupRef)
  /-- USUB, R144: Uniform subtract. -/
  | usub (g : GroupRef)
  /-- UMUL, R144: Uniform multiply, giving the low half. -/
  | umul (g : GroupRef)
  /-- UAND, R144: Uniform bitwise and. -/
  | uand (g : GroupRef)
  /-- UOR, R144: Uniform bitwise or. -/
  | uor (g : GroupRef)
  /-- USHL, R144: Uniform shift left. -/
  | ushl (g : GroupRef)
  /-- USHR, R144: Uniform shift right. -/
  | ushr (g : GroupRef)
  /-- MEMORY_RESPONSE, R110: A memory instruction of a thread receives its responses and completes, lane by lane, with a status. -/
  | memoryResponse (t : TileRef) (oid : Nat) (st : Status)
  /-- L1_FILL, R284: A line fill returns to the L1, is merged with the tile's own buffered stores and is installed unless poisoned. -/
  | l1Fill (t : TileRef) (st : Status)
  /-- WRITE_BUFFER_DRAIN, R287: The oldest write-buffer entry is sent to the cluster L2. -/
  | writeBufferDrain (t : TileRef)
  /-- WRITE_BUFFER_ACK, R287: The cluster L2 acknowledges a write-buffer entry, which is freed. -/
  | writeBufferAck (t : TileRef) (st : Status)
  /-- BLOCK_END, R91: After all its groups have ended, the block's stores drain, the release is performed, its resources are freed and its completion is reported. -/
  | blockEnd (b : BlockRef)
  /-- MMA, R161: Millstone descriptor that checks, reads its operand panels and accumulates A times B-transpose into an accumulator tile in fixed K order. -/
  | mma (t : TileRef) (n : Nat)
  /-- ACC_LOAD, R153: Copies M by N elements from local memory into an accumulator tile. -/
  | accLoad (t : TileRef)
  /-- ACC_STORE, R153: Copies M by N accumulator elements into local memory. -/
  | accStore (t : TileRef)
  /-- ACC_ZERO, R153: Sets an accumulator tile to +0.0. -/
  | accZero (t : TileRef)
  /-- MX_COUNTER_INCREMENT, R166: A Millstone descriptor completes and increments its counter; a non-OK status halts the block and aborts its later descriptors. -/
  | mxCounterIncrement (t : TileRef)
  /-- VX_LOAD, R184: Vector LOAD from local memory into a buffer. -/
  | vxLoad (t : TileRef) (n : Nat)
  /-- VX_STORE, R184: Vector STORE from a buffer into local memory. -/
  | vxStore (t : TileRef) (n : Nat)
  /-- CVTL, R189: Converts local memory in a format into a buffer. -/
  | cvtl (t : TileRef) (n : Nat)
  /-- CVTS, R189: Converts a buffer into local memory in a format, with its scale plane. -/
  | cvts (t : TileRef) (n : Nat)
  /-- CVTX, R189: Converts between buffer types. -/
  | cvtx (t : TileRef) (n : Nat)
  /-- VX_FILL, R184: Fills a buffer from the B' operand. -/
  | vxFill (t : TileRef) (n : Nat)
  /-- VX_COPY, R184: Copies or transposes a buffer. -/
  | vxCopy (t : TileRef) (n : Nat)
  /-- VX_ADD, R185: Element-wise add. -/
  | vxAdd (t : TileRef) (n : Nat)
  /-- VX_SUB, R185: Element-wise subtract. -/
  | vxSub (t : TileRef) (n : Nat)
  /-- VX_MUL, R185: Element-wise multiply. -/
  | vxMul (t : TileRef) (n : Nat)
  /-- VX_DIV, R185: Element-wise divide. -/
  | vxDiv (t : TileRef) (n : Nat)
  /-- VX_FMA, R185: Element-wise FP32 fused multiply-add. -/
  | vxFma (t : TileRef) (n : Nat)
  /-- VX_MIN, R185: Element-wise minimum. -/
  | vxMin (t : TileRef) (n : Nat)
  /-- VX_MAX, R185: Element-wise maximum. -/
  | vxMax (t : TileRef) (n : Nat)
  /-- VX_SIGN, R185: Element-wise absolute value or negation. -/
  | vxSign (t : TileRef) (n : Nat)
  /-- VX_CMP, R185: Element-wise comparison into a U32 result. -/
  | vxCmp (t : TileRef) (n : Nat)
  /-- VX_SEL, R184: Element-wise select by XC. -/
  | vxSel (t : TileRef) (n : Nat)
  /-- VX_BIT, R185: Element-wise bitwise, shift or remainder operation. -/
  | vxBit (t : TileRef) (n : Nat)
  /-- VX_FUN, R186: Correctly rounded unary function. -/
  | vxFun (t : TileRef) (n : Nat)
  /-- VX_REDUCE, R187: Reduction by the fixed pairwise tree. -/
  | vxReduce (t : TileRef) (n : Nat)
  /-- VX_RAND, R192: Random generation or drop-out from the lane generators. -/
  | vxRand (t : TileRef) (n : Nat)
  /-- GEN_GET, R195: Writes the 128 vector-lane generator states to local memory. -/
  | genGet (t : TileRef)
  /-- GEN_SET, R195: Loads the vector-lane generator states from local memory. -/
  | genSet (t : TileRef)
  /-- VX_COUNTER_INCREMENT, R198: A vector descriptor completes and increments its counter; a non-OK status halts the block. -/
  | vxCounterIncrement (t : TileRef)
  /-- BURR_LAUNCH_DELIVER, R219: A Burr launch is delivered once every selected Burr has a free pending place. -/
  | burrLaunchDeliver (die : Fin 4) (id : Nat)
  /-- BURR_PROGRAM_START, R219: A pending Burr program starts after the running one ends. -/
  | burrProgramStart (b : BurrRef)
  /-- BURR_MV, R213: Matrix-vector product over a memory operand. -/
  | burrMv (b : BurrRef) (n : Nat) (reads : List Disturb)
  /-- BURR_MVT, R213: Transposed matrix-vector product. -/
  | burrMvt (b : BurrRef) (n : Nat) (reads : List Disturb)
  /-- SCORE, R214: Scores queries against key rows. -/
  | score (b : BurrRef) (n : Nat) (reads : List Disturb)
  /-- WSUM, R215: Weighted value sum with running-maximum rescaling. -/
  | wsum (b : BurrRef) (n : Nat) (reads : List Disturb)
  /-- APPEND, R217: Converts rows and writes them to memory. -/
  | append (b : BurrRef) (n : Nat)
  /-- AXPY, R211: y = IMM times x plus y in scratch. -/
  | axpy (b : BurrRef)
  /-- BURR_REDUCE, R211: Sum or maximum of scratch rows by the tree. -/
  | burrReduce (b : BurrRef)
  /-- BURR_COPY, R223: Copies bytes between memory, scratch and the result slot, with the arrival-word increment for SUB 3. -/
  | burrCopy (b : BurrRef) (n : Nat) (reads : List Disturb)
  /-- BURR_FILL, R211: Fills scratch or memory with a pattern. -/
  | burrFill (b : BurrRef) (n : Nat)
  /-- GATE, R224: Waits on the gate count while reading ahead. -/
  | gate (b : BurrRef) (n : Nat) (reads : List Disturb)
  /-- BURR_FEED_ARRIVE, R222: A feed's bytes are written into a Burr's scratch and its gate count is incremented. -/
  | burrFeedArrive (b : BurrRef) (id : Nat)
  /-- BURR_LAUNCH_COMPLETE, R220: When every selected Burr has ended, the launch completion is written. -/
  | burrLaunchComplete (die : Fin 4) (id : Nat)
  /-- BURR_DISABLE, R232: A write of 0 to BUR_STATEi.EN aborts the running and pending programs and disables the Burr. -/
  | burrDisable (w : Wr)
  /-- BURR_ENABLE, R232: A write of 1 to BUR_STATEi.EN returns a DISABLED Burr to IDLE. -/
  | burrEnable (w : Wr)
  /-- SAMPLER_DELIVER, R238: A sampler descriptor is delivered to a unit with a free place and checked. -/
  | samplerDeliver (die : Fin 4) (id : Nat)
  /-- SAMPLER_START, R238: A pending sampler descriptor starts after the running one. -/
  | samplerStart (u : SmpRef)
  /-- SMP_SAMPLE, R242: Applies temperature, top-k, top-p and a draw, and writes the result record. -/
  | smpSample (u : SmpRef) (n : Nat)
  /-- SMP_HOST, R251: Copies logits to the host buffer and presents the request to host software. -/
  | smpHost (u : SmpRef) (n : Nat)
  /-- HOST_POLL, R251: Every 64 clk_tile the sampler reads RSPSEQ and, on a match, completes the HOST. -/
  | hostPoll (u : SmpRef)
  /-- HOST_TIMEOUT, R252: HTIMEOUT expires and the HOST completes with TOUT. -/
  | hostTimeout (u : SmpRef)
  /-- SAMPLER_DISABLE, R254: A write of 0 to SMP_STATEu.EN drains or aborts the sampler's work and disables it. -/
  | samplerDisable (w : Wr)
  /-- SAMPLER_ENABLE, R254: A write of 1 to SMP_STATEu.EN returns a DISABLED sampler to IDLE. -/
  | samplerEnable (w : Wr)
  /-- BAND_MODE_WRITE, R260: A write to MEM_BAND_MODE completes after every decoder uses the new mode. -/
  | bandModeWrite (w : Wr)
  /-- UNCORRECTABLE_REREAD, R269: The controller re-reads an uncorrectable block and then delivers it, treats it as poisoned, or poisons and records it. -/
  | uncorrectableReread (d : Disturb)
  /-- SCRUB_READ, R270: The patrol scrubber reads its next block and writes back, re-reads or leaves it. -/
  | scrubRead (d : Disturb) (crossed : Bool)
  /-- REFRESH, R272: The controller refreshes a bank when its interval expires. -/
  | refresh (p : Nat) (bank : Nat)
  /-- CHANNEL_RETRAIN, R278: Interface retraining of a channel completes or fails, counting toward TRC. -/
  | channelRetrain (die : Fin 4) (ch : Nat) (good : Bool)
  /-- PCH_THRESHOLD_CLEAR, R278: A W1C clear of THU, THC or TRC restarts its count, and returns the pseudo-channel to ONLINE when none remains set. -/
  | pchThresholdClear (w : Wr)
  /-- TG_START, R276: A write of 1 to TG_CTRL.START starts or refuses a traffic-generator run. -/
  | tgStart (w : Wr)
  /-- TG_ABORT, R277: A write of 1 to TG_CTRL.ABORT ends the run at the next block boundary. -/
  | tgAbort (w : Wr) (n : Nat) (reads : List Disturb)
  /-- TG_RUN_DONE, R276: A traffic-generator run finishes its passes, and STATE becomes DONE. -/
  | tgRunDone (die : Fin 4) (ch : Nat) (reads : List Disturb)
  /-- RETIRE_GO, R280: A write of MEM_RETIRE_CTRL.GO refuses the retirement or records the entry and starts the relayout. -/
  | retireGo (w : Wr)
  /-- RELAYOUT_COPY, R281: The relayout recalls the lines of its next region, copies the region to its donor and advances CURSOR. -/
  | relayoutCopy (reads : List Disturb)
  /-- RD_S, R299: The home receives a read for a shared copy. -/
  | rdS (a : AgentReq)
  /-- RD_X, R299: The home receives a read for ownership. -/
  | rdX (a : AgentReq)
  /-- UPG, R299: The home receives an upgrade from S to ownership. -/
  | upg (a : AgentReq)
  /-- ITOM, R299: The home receives an ownership request without data. -/
  | itom (a : AgentReq) (d : Line)
  /-- WB, R299: The home receives a dirty line. -/
  | wb (agent : Nat) (pa : Nat) (d : Line)
  /-- CLEAN_EVICT, R299: The home receives notice of a dropped clean line. -/
  | cleanEvict (agent : Nat) (pa : Nat)
  /-- RD_NC, R299: The home receives a non-caching coherent read. -/
  | rdNc (a : NcReq)
  /-- WR_NC, R300: The home receives a masked write, with an optional stash. -/
  | wrNc (a : NcReq) (mask : Nat) (d : Line) (stash : Option Nat)
  /-- AT_NC, R300: The home receives an atomic to be performed at the home. -/
  | atNc (a : NcReq) (op : AtOp)
  /-- FWD_S, R298: An owner receives a forward, sends the line and keeps S. -/
  | fwdS (agent : Nat) (pa : Nat) (wrote : Bool) (d : Line)
  /-- FWD_X, R298: An owner receives a forward, sends the line and drops it. -/
  | fwdX (agent : Nat) (pa : Nat) (wrote : Bool) (d : Line)
  /-- FWD_NC, R298: An owner receives a forward, sends the line and keeps its state. -/
  | fwdNc (agent : Nat) (pa : Nat) (wrote : Bool) (d : Line)
  /-- INV, R298: A sharer receives an invalidation, drops its copy and answers ACK. -/
  | inv (agent : Nat) (pa : Nat)
  /-- RECALL, R298: A holder receives a recall, writes back if dirty and drops the line. -/
  | recall (agent : Nat) (pa : Nat) (wrote : Bool) (d : Line)
  /-- PUSH_S, R300: An agent receives a stash and installs a clean copy. -/
  | pushS (agent : Nat) (pa : Nat)
  /-- DATA_S, R301: A requester receives the line in S and sends COMP. -/
  | dataS (agent : Nat) (pa : Nat)
  /-- DATA_E, R301: A requester receives the line in E and sends COMP. -/
  | dataE (agent : Nat) (pa : Nat)
  /-- DATA_X, R301: A requester receives the line in M and sends COMP. -/
  | dataX (agent : Nat) (pa : Nat)
  /-- GNT_X, R301: A requester receives ownership without data and sends COMP. -/
  | gntX (agent : Nat) (pa : Nat)
  /-- DATA_NC, R297: A non-caching requester receives data. -/
  | dataNc (req : Nat) (pa : Nat)
  /-- DONE, R300: A WR_NC or AT_NC requester receives completion, with the old value. -/
  | done (req : Nat) (pa : Nat)
  /-- ACK, R299: The home receives the answer to an INV or RECALL. -/
  | ack (agent : Nat) (pa : Nat)
  /-- FWD_ACK, R299: The home receives the answer to a forward, with its data. -/
  | fwdAck (agent : Nat) (pa : Nat)
  /-- WB_ACK, R292: An agent receives WB_ACK and frees its writeback-buffer entry. -/
  | wbAck (agent : Nat) (pa : Nat)
  /-- NACK, R303: A requester receives a refusal, possibly carrying TOKEN, and schedules its retry. -/
  | nack (who : Nat) (pa : Nat)
  /-- COMP, R296: The home receives COMP, and the line's transaction ends. -/
  | comp (agent : Nat) (pa : Nat)
  /-- NACK_RETRY, R303: The backoff after a NACK expires, and the request is re-resolved and resent. -/
  | nackRetry (who : Nat) (pa : Nat)
  /-- TOKEN_EXPIRE, R304: A token holder has not retried within 2 µs of the line becoming free, and the token is returned. -/
  | tokenExpire (who : Nat) (pa : Nat)
  /-- HOME_TIMEOUT, R305: The home timer expires with answers missing; the line is poisoned and the silent agents are marked down. -/
  | homeTimeout (pa : Nat)
  /-- AGENT_MARK_DOWN, R307: Homes mark agents down when their domain leaves running, and end transactions that await their COMP. -/
  | agentMarkDown (agent : Nat)
  /-- DIRECTORY_SWEEP, R306: Each home sweeps its directory and settles the entries that name down agents. -/
  | directorySweep (die : Die)
  /-- AGENT_MARK_UP, R307: The hub marks an agent up after its domain runs, its links retrain and every sweep has finished. -/
  | agentMarkUp (agent : Nat)
  /-- REQUEST_TIMEOUT, R308: REQTO expires without a final response, and the request completes with TOUT. -/
  | requestTimeout (who : Nat) (pa : Nat)
  /-- WALK_READ_RETURN, R318: A page-table walk read returns; the walk descends or ends, and the fill is checked under R314. -/
  | walkReadReturn (t : TileRef) (va : Nat) (st : Status)
  /-- CPT_WRITE, R327: CPT_CMD WRITE stages a CPT entry into the master copy. -/
  | cptWrite (w : Wr)
  /-- WRITE_SYNC, R329: CPT_CMD WRITE_SYNC writes a CPT entry and synchronises it. -/
  | writeSync (w : Wr)
  /-- CPT_SYNC, R329: CPT_CMD SYNC synchronises replicas and translations for a CTXID. -/
  | cptSync (w : Wr)
  /-- CPT_READ, R332: CPT_CMD READ places a CPT entry in the stage registers. -/
  | cptRead (w : Wr)
  /-- SET_ROOT, R332: CPT_CMD SET_ROOT writes TROOT only and increments GEN. -/
  | setRoot (w : Wr)
  /-- FDT_WRITE, R327: CPT_CMD FDT_WRITE writes a frame domain table entry. -/
  | fdtWrite (w : Wr)
  /-- FDT_SYNC, R329: CPT_CMD FDT_SYNC synchronises a frame's entry and translations. -/
  | fdtSync (w : Wr)
  /-- FDT_READ, R332: CPT_CMD FDT_READ reads an FDT entry into the stage register. -/
  | fdtRead (w : Wr)
  /-- CDT_WRITE, R366: CPT_CMD CDT_WRITE writes a CXL domain table entry. -/
  | cdtWrite (w : Wr)
  /-- CDT_SYNC, R366: CPT_CMD CDT_SYNC synchronises a CDT entry. -/
  | cdtSync (w : Wr)
  /-- CDT_READ, R366: CPT_CMD CDT_READ reads a CDT entry. -/
  | cdtRead (w : Wr)
  /-- REPLICA_UPDATE, R327: A replica takes up a new CPT, FDT or CDT value. -/
  | replicaUpdate (rep : Nat) (kind : Nat) (idx : Nat)
  /-- CPT_COMMAND_COMPLETE, R324: A running CPT command finishes, BUSY returns to 0 and STATUS takes its outcome. -/
  | cptCommandComplete
  /-- XLT_INV, R322: A write of XLT_INV_CMD.GO starts or refuses an invalidation of translations at a scope. -/
  | xltInv (w : Wr)
  /-- XLT_INV_COMPLETE, R323: The invalidation sweep and the accesses in flight finish, and the invalidation reports completion. -/
  | xltInvComplete
  /-- DMA_GO, R344: A write of DMA_CTRL.GO starts an IDLE, ASSIGNED channel at DMA_CHAIN. -/
  | dmaGo (w : Wr)
  /-- DMA_RESUME, R346: DMA_CTRL.RESUME continues a channel from FAULT, ERROR or PAUSED at its cursor. -/
  | dmaResume (w : Wr)
  /-- DMA_ABORT, R346: DMA_CTRL.ABORT ends the chain with ABRT. -/
  | dmaAbort (w : Wr)
  /-- DMA_PAUSE, R346: DMA_CTRL.PAUSE stops the channel at the next segment boundary. -/
  | dmaPause (w : Wr)
  /-- DMA_DISABLE, R359: DMA_CTRL.EN is written 0, the chain ends with ABRT and the channel is DISABLED. -/
  | dmaDisable (w : Wr)
  /-- DMA_ENABLE, R359: DMA_CTRL.EN is written 1 and returns a DISABLED channel to IDLE. -/
  | dmaEnable (w : Wr)
  /-- DMA_DESCRIPTOR_READ, R342: A DMA descriptor read returns and is checked. -/
  | dmaDescriptorRead (d : Die) (ch : Nat)
  /-- DMA_COPY, R341: Moves rows of bytes from the source to the destination. -/
  | dmaCopy (d : Die) (ch : Nat)
  /-- DMA_FILL, R341: Writes the 8-byte pattern over the destination. -/
  | dmaFill (d : Die) (ch : Nat)
  /-- DMA_WRITE, R341: Stores IMM after the earlier writes have been performed at system scope. -/
  | dmaWrite (d : Die) (ch : Nat)
  /-- TOLOCAL, R341: Copies into a resident block's local memory. -/
  | tolocal (d : Die) (ch : Nat)
  /-- FROMLOCAL, R341: Copies out of a resident block's local memory. -/
  | fromlocal (d : Die) (ch : Nat)
  /-- DMA_SEGMENT_RESPONSE, R345: A segment completes; the cursor advances, or the channel stops in FAULT or ERROR. -/
  | dmaSegmentResponse (d : Die) (ch : Nat)
  /-- CQ_DOORBELL, R348: A write of CQ_DOORBELLq advances TAIL or is refused. -/
  | cqDoorbell (w : Wr)
  /-- CQ_ENABLE, R347: A write of 1 to CQ_CFG.EN checks the version and enables the queue with HEAD and TAIL at 0. -/
  | cqEnable (w : Wr)
  /-- CQ_DISABLE, R359: A write of 0 to CQ_CFG.EN is refused with BUSY, or disables the queue. -/
  | cqDisable (w : Wr)
  /-- CMD_NOP, R351: Command NOP. -/
  | cmdNop (die : Fin 4) (q : Nat)
  /-- LAUNCH, R351: Command LAUNCH places one block on each masked tile. -/
  | launch (die : Fin 4) (q : Nat)
  /-- CMD_DMA, R351: Command DMA hands a chain to a channel once it is IDLE. -/
  | cmdDma (die : Fin 4) (q : Nat)
  /-- CMD_BURR, R351: Command BURR launches a Burr program. -/
  | cmdBurr (die : Fin 4) (q : Nat)
  /-- FEED, R222: Command FEED sends bytes to the scratch of selected Burrs. -/
  | feed (die : Fin 4) (q : Nat)
  /-- CMD_SAMPLE, R351: Command SAMPLE delivers a sampler descriptor. -/
  | cmdSample (die : Fin 4) (q : Nat)
  /-- WAITC, R351: Command WAITC waits until CQ_COUNT reaches a value. -/
  | waitc (die : Fin 4) (q : Nat)
  /-- WAITM, R351: Command WAITM starts waiting on a memory word. -/
  | waitm (die : Fin 4) (q : Nat)
  /-- WAITM_POLL, R351: Every 64 clk_fab WAITM reads its word and completes when the condition holds. -/
  | waitmPoll (die : Fin 4) (q : Nat)
  /-- WAITM_TIMEOUT, R352: A WAITM timeout expires and the command completes with TOUT. -/
  | waitmTimeout (die : Fin 4) (q : Nat)
  /-- CMD_WRITE, R351: Command WRITE stores 8 bytes after a release. -/
  | cmdWrite (die : Fin 4) (q : Nat)
  /-- CMD_TIME, R351: Command TIME stores the package timestamp. -/
  | cmdTime (die : Fin 4) (q : Nat)
  /-- CMD_FENCE, R351: Command FENCE waits for every earlier command to complete. -/
  | cmdFence (die : Fin 4) (q : Nat)
  /-- EVENT, R351: Command EVENT posts a SOFT event. -/
  | event (die : Fin 4) (q : Nat)
  /-- CMD_XLT_INV, R351: Command XLT_INV invalidates translations from the command stream. -/
  | cmdXltInv (die : Fin 4) (q : Nat)
  /-- CMD_CALL, R351: Command CALL executes a buffer of command words. -/
  | cmdCall (die : Fin 4) (q : Nat)
  /-- COMMAND_COMPLETE, R350: An asynchronous command completes, increments CQ_COUNT and posts CMD_DONE as its bits ask. -/
  | commandComplete (die : Fin 4) (id : Nat)
  /-- EVENT_PUSH_RETRY, R355: A held hardware producer retries its push each clk_fab until the queue has room. -/
  | eventPushRetry (d : Die) (prod : Nat)
  /-- EQ_POP, R355: EQ_OP POP removes entries, or is refused. -/
  | eqPop (w : Wr)
  /-- EQ_PUSH, R355: EQ_OP PUSH adds a SOFT event, or is refused. -/
  | eqPush (w : Wr)
  /-- EQ_ENABLE, R354: A write of 1 to EQ_CFG.EN activates the event queue and clears LOST. -/
  | eqEnable (w : Wr)
  /-- EQ_DISABLE, R359: A write of 0 to EQ_CFG.EN is refused while entries or held producers remain. -/
  | eqDisable (w : Wr)
  /-- PREEMPT, R356: CQ_PREEMPT PREEMPT stops the context's work on the die and saves its blocks to images. -/
  | preempt (w : Wr)
  /-- BLOCK_IMAGE_WRITTEN, R356: A block image is performed at device scope and its tile frees the block, or it is retained. -/
  | blockImageWritten (b : BlockRef)
  /-- PREEMPT_RESUME, R357: CQ_PREEMPT RESUME returns the context's units to service and restores its images. -/
  | preemptResume (w : Wr)
  /-- RESTORE, R357: CQ_PREEMPT RESTORE loads one image into a named tile and resumes the block. -/
  | restore (w : Wr)
  /-- BSAVE, R357: CQ_PREEMPT BSAVE writes each PAUSED Burr of the context to an image. -/
  | bsave (w : Wr)
  /-- BRESTORE, R357: CQ_PREEMPT BRESTORE loads Burr images, leaving the Burrs PAUSED. -/
  | brestore (w : Wr)
  /-- RELEASE, R357: CQ_PREEMPT RELEASE frees the context's halted or retained blocks. -/
  | release (w : Wr)
  /-- KILL, R357: CQ_PREEMPT KILL ends all the context's work on the die with ABRT. -/
  | kill (w : Wr)
  /-- PCIE_OUTBOUND, R362: An outbound request to root-port memory space is admitted or refused and mapped to a status. -/
  | pcieOutbound (who : PcieWho) (t : Tlp) (e : PcieEnd) (d : Nat)
  /-- ROOT_PORT_REQUEST, R363: A request from a device under a root port is checked against the window and the FDT. -/
  | rootPortRequest (t : Tlp)
  /-- INTERRUPT_WINDOW_WRITE, R363: A 4-byte write to the interrupt window delivers an interrupt to a host core. -/
  | interruptWindowWrite (t : Tlp)
  /-- SLUICE_ACCESS, R367, R368: A TLP at BAR0 is mapped through the Sluice window and checked; one at BAR2 reads or writes the MSI-X
  table and the pending-bit array. -/
  | sluiceAccess (t : BarTlp)
  /-- SLUICE_CTRL_WRITE, R369: A write to HUB_SLUICE_CTRL applies to TLPs taken after it completes. -/
  | sluiceCtrlWrite (w : Wr)
  /-- ENDPOINT_WAKE_DOORBELL, R403: A write to BAR2 offset 0x3000 wakes the package from N3. -/
  | endpointWakeDoorbell (r : Tlp)
  /-- ORDERED_MODE_ENTER, R373: After traffic on second routes drains, ORDERED becomes 1 and ENTERING returns to 0. -/
  | orderedModeEnter
  /-- MRC_SQ_DOORBELL, R380: A write of MRC_SQ_DOORBELLq sets a send queue's TAIL. -/
  | mrcSqDoorbell (w : Wr)
  /-- SQ_TAIL_POLL, R380: Every 64 clk_fab the hub reads a polled send queue's tail count. -/
  | sqTailPoll (q : Nat)
  /-- SQ_ENABLE, R380: A write of 1 to MRC_SQ_CFG.EN enables a send queue after the version check. -/
  | sqEnable (w : Wr)
  /-- SQ_DISABLE, R359: A write of 0 to MRC_SQ_CFG.EN follows the command-queue disable rule. -/
  | sqDisable (w : Wr)
  /-- MRC_PUT, R381: Descriptor PUT writes local bytes to a remote station in commit units. -/
  | mrcPut (q : Nat)
  /-- MRC_GET, R381: Descriptor GET reads remote bytes into local memory. -/
  | mrcGet (q : Nat)
  /-- MRC_ATOMIC, R381: Descriptor ATOMIC performs a 64-bit atomic at a remote station. -/
  | mrcAtomic (q : Nat)
  /-- MRC_RPUT, R381: Descriptor RPUT performs a reducing write at a remote station. -/
  | mrcRput (q : Nat)
  /-- COLL, R381: Descriptor COLL runs collective schedule entries in order. -/
  | coll (q : Nat)
  /-- WAITIN, R381: Descriptor WAITIN waits until an arrival word reaches a count. -/
  | waitin (q : Nat)
  /-- MRC_OP_COMPLETE, R382: A Millrace operation completes, increments its completion word and may post MRC_DONE. -/
  | mrcOpComplete (opid : Nat)
  /-- PUT_DATA, R383: A PUT data packet is received, checked and staged. -/
  | putData (p : Pkt)
  /-- GET_REQ, R381: A GET request packet is received and answered with data. -/
  | getReq (p : Pkt)
  /-- GET_DATA, R383: A GET response packet is received and staged locally. -/
  | getData (p : Pkt)
  /-- ATOMIC, R381: An ATOMIC packet is received and performed on arrival. -/
  | atomic (p : Pkt)
  /-- ATOMIC_RSP, R381: An atomic response is received and its old value is written to LADDR. -/
  | atomicRsp (p : Pkt)
  /-- RPUT_DATA, R381: An RPUT data packet is received and staged. -/
  | rputData (p : Pkt)
  /-- MRC_ACK, R383: A commit-unit acknowledgement is received, with its status. -/
  | mrcAck (p : Pkt)
  /-- LIVE, R384: A liveness packet is received and refreshes the peer timer. -/
  | live (p : Pkt)
  /-- SLACK, R398: A SLACK report packet is received. -/
  | slack (p : Pkt)
  /-- MGMT, R378: A VL7 MCTP packet is received and delivered to the management cores, or dropped. -/
  | mgmt (p : Pkt)
  /-- UNIT_COMMITTED, R383: A staged commit unit has been copied to its destination and performed, and its ACK and arrival word follow. -/
  | unitCommitted (src : Nat) (opid : Nat) (unit : Nat)
  /-- LIVE_SEND, R384: After 10 µs without sending to an open peer, the port sends LIVE. -/
  | liveSend (station : Nat)
  /-- PEER_LOST, R384: PLTO expires for a peer; its open operations are settled and MRC_PEER is posted. -/
  | peerLost (station : Nat)
  /-- SNAP_SAVE, R385: MRC_SNAP_CMD SAVE copies the active fabric tables into a slot. -/
  | snapSave (w : Wr)
  /-- SNAP_RESTORE, R385: MRC_SNAP_CMD RESTORE loads a slot into the active tables. -/
  | snapRestore (w : Wr)
  /-- SNAP_DROP, R385: MRC_SNAP_CMD DROP frees a slot. -/
  | snapDrop (w : Wr)
  /-- MCTP_MESSAGE, R386: An MCTP control, PLDM or SPDM message arrives over I3C, SGMII or VL7 and is served. -/
  | mctpMessage (transport : Nat) (typ : Nat) (data : Nat)
  /-- SLACK_REPORT, R398: At the end of each PERIOD the hub sends a SLACK packet to the coordinator. -/
  | slackReport
  /-- TARGET_WRITE, R399: A write to PWR_LIMIT requests a new TARGET, or sets CAP from PL0. -/
  | targetWrite (w : Wr)
  /-- LIMIT_SAMPLE, R389: Each 1 ms the hub samples min(TARGET, CAP). -/
  | limitSample
  /-- LIMIT_RAMP_STEP, R389: Each 0.5 ms CURRENT moves one unit toward the sampled value. -/
  | limitRampStep
  /-- POWER_SAMPLE, R391: Each 1 µs Fantail allocates power, every die updates its duty and energy is attributed. -/
  | powerSample (draws : List (Nat × Nat)) (shares : List Share)
  /-- DROOP, R394: A rail falls below its droop threshold, and the die's duty is limited to 128. -/
  | droop (d : Nat)
  /-- DROOP_RELEASE, R394: After 64 clk_tile above threshold the droop hold ends. -/
  | droopRelease (d : Nat)
  /-- PACKAGE_OVERCURRENT, R395: The input-current comparator at 2,600 W applies the droop limit to every throttled die. -/
  | packageOvercurrent
  /-- EXCURSION_LIMIT, R395: An excursion reaches 1.9 ms and every allocation is multiplied by 0.9. -/
  | excursionLimit
  /-- THERMAL_SAMPLE, R396: Each 10 µs a die reports its junction reading and Fantail applies the temperature rule. -/
  | thermalSample (d : Nat) (tj : Nat)
  /-- THERMAL_TRIP, R396: A die reaches 110 °C and an analogue trip resets the package. -/
  | thermalTrip (d : Nat) (tj : Nat)
  /-- PWR_SNAP_TAKE, R402: A write of PWR_SNAP.TAKE copies every power counter into the level's snapshot. -/
  | pwrSnapTake (w : Wr)
  /-- REQUEST_N3, R404: PWR_STATE_CTRL.REQ = 3 starts an N3 entry handshake or is refused. -/
  | requestN3 (w : Wr)
  /-- REQUEST_N4, R404: PWR_STATE_CTRL.REQ = 4 starts an N4 entry handshake or is refused. -/
  | requestN4 (w : Wr)
  /-- LATTOL_WRITE, R404: A write of LATTOL below the exit latency of the state in effect is a wake. -/
  | lattolWrite (w : Wr)
  /-- IDLEHOLD_EXPIRE, R404: No block has been resident for IDLEHOLD, and automatic entry to N1 or N2 starts. -/
  | idleholdExpire
  /-- HANDSHAKE_ANSWER, R405: A block answers ACCEPT, REFUSE or DEFER; the last ACCEPT commits the entry. -/
  | handshakeAnswer (die : Nat) (block : Nat) (good : Bool) (us : Nat)
  /-- HANDSHAKE_DEFER_EXPIRE, R405: The longest defer time expires and Fantail asks every block again. -/
  | handshakeDeferExpire
  /-- HANDSHAKE_TIMEOUT, R405: An answer is missing after 10 µs, or deferral reaches 10 ms, and the attempt ends with TOUT. -/
  | handshakeTimeout
  /-- POWER_STATE_ENTERED, R403: Entry into N1 to N4 completes. -/
  | powerStateEntered
  /-- WAKE, R408: A wake source fires, PWR_WAKE_REC is written and exit starts. -/
  | wake
  /-- POWER_STATE_EXITED, R403: Exit completes and the package returns to N0. -/
  | powerStateExited
  /-- RTC_TICK, R407: The real-time clock counts a tick and fires the alarm when armed and due. -/
  | rtcTick
  /-- RAIL_PG_TIMEOUT, R409: A rail's power-good is not seen within 2 ms, and the step is retried or the domain is marked failed. -/
  | railPgTimeout (rail : Nat)
  /-- PLL_LOCK_TIMEOUT, R409: A PLL has not locked within 500 µs, and the step is retried or the domain is marked failed. -/
  | pllLockTimeout (d : Die)
  /-- RAIL_PG, R466: A rail's RAIL_PG asserts and the sequencer enables the next rail. -/
  | railPg (rail : Nat)
  /-- RAIL_PG_FALL, R467: RAIL_PG falls for 1 µs while its domain runs, and the die is lost or the stack goes OFF. -/
  | railPgFall (rail : Nat)
  /-- PLL_LOCK, R37: A die's PLL loses lock and reports its fault source. -/
  | pllLock (d : Die)
  /-- REF_LOSS, R470: The 100 MHz reference stops or leaves tolerance, and REF_LOSS is raised. -/
  | refLoss
  /-- FAULT_REPORT, R412: A source reports an event; the collector latches or counts it, sets the sticky bit and applies reactions. -/
  | faultReport (d : Die) (n : Nat)
  /-- FAULT_FORWARD, R414: A die's report reaches the hub and updates FLT_PKG_FIRST. -/
  | faultForward (n : Nat)
  /-- FAULT_CLEAR, R412: FLT_CTRL.CLEAR zeroes the die's record. -/
  | faultClear (w : Wr)
  /-- PKGCLEAR, R412: FLT_CTRL.PKGCLEAR clears the package record. -/
  | pkgclear (w : Wr)
  /-- FAULT_FORCE, R417: A write to FLT_FORCEk reports a source once with FORCED set. -/
  | faultForce (w : Wr)
  /-- ONDIE_UNCORRECTABLE, R422: On-die storage finds an uncorrectable error, with the effect its storage type has. -/
  | ondieUncorrectable (x : OnDie)
  /-- ALIVE_TOGGLE, R423: Every 50,000 clk_time ALIVE_OUT inverts while it runs. -/
  | aliveToggle
  /-- ALIVE_RESTART, R423: FLT_ALIVE.RESTART restarts ALIVE_OUT when no EPIN or expiry stands. -/
  | aliveRestart (w : Wr)
  /-- WDT_ENABLE, R424: A write of FLT_WDT.EN arms the watchdog. -/
  | wdtEnable (w : Wr)
  /-- WDT_KICK, R424: FLT_WDT.KICK restarts the period and clears EXPIRED. -/
  | wdtKick (w : Wr)
  /-- WDT_EXPIRE, R424: The watchdog period passes without a kick; WDT is raised and ALIVE_OUT stops. -/
  | wdtExpire
  /-- LINK_CRC_ERROR, R425: A die-to-die flit arrives with a bad CRC and is replayed. -/
  | linkCrcError (k : Nat) (m : Nat) (lane : Nat)
  /-- LINK_RETRAIN, R425: A module retrains, swapping spare lanes and retiring the module past four failed lanes. -/
  | linkRetrain (k : Nat) (m : Nat) (bad : List Nat) (good : Retrain)
  /-- LINK_TRAINING, R450: A die-to-die link trains, negotiates its version and aligns the timestamp copy. -/
  | linkTraining (k : Nat) (a : List (Nat × Nat)) (b : List (Nat × Nat))
  /-- LINK_FENCE, R431: No flit for 64 clk_fab, or a failed retrain, fences the link and reroutes its traffic. -/
  | linkFence (k : Nat)
  /-- MRC_PORT_RETRAIN, R425: A Millrace port retrains, narrowing to 4 lanes or turning OFF on failed lanes. -/
  | mrcPortRetrain (q : Nat) (bad : PortTest)
  /-- TILE_RETIRE, R425: A PL1 write to FLT_TILE_RETIRE retires a tile. -/
  | tileRetire (w : Wr)
  /-- RESET_REQUEST, R427: FLT_RESET_REQ.GO starts a reset of a scope, closing its Weir. -/
  | resetRequest (w : Wr)
  /-- WEIR_DRAIN_DONE, R428: The Weir drain of a scope completes, and the scope resets. -/
  | weirDrainDone (agent : Nat)
  /-- WEIR_DRAIN_TIMEOUT, R428: DRAINTO expires; WEIR_TOUT is raised, undrained agents are marked down and the scope resets. -/
  | weirDrainTimeout (agent : Nat)
  /-- SCOPE_RESET_DONE, R429: A reset scope runs again and its Weir stops absorbing. -/
  | scopeResetDone (agent : Nat) (bad : SelfTest)
  /-- DIE_LOST, R432: A die with no link in service is declared lost, and its partition reset and power-up start. -/
  | dieLost (d : Die)
  /-- POISON_FILL_DONE, R433: On rejoin after lost contents, the controller finishes writing every block poisoned. -/
  | poisonFillDone (d : Die)
  /-- DIE_REJOIN, R435: A die finishes rejoining and the topology check runs again. -/
  | dieRejoin (d : Die)
  /-- AON_POWER_ON, R466: VDD_AON comes within tolerance and the always-on domain leaves power-on reset. -/
  | aonPowerOn
  /-- HUB_EN, R466: 1 ms after the always-on release, HUB_EN is asserted. -/
  | hubEn
  /-- RESET_N, R468: A low pulse on RESET_N of 500 ns or more starts a package reset. -/
  | resetN (low : Bool)
  /-- PWR_GOOD_FALL, R467: PWR_GOOD falls for 1 µs and acts as an assertion of RESET_N. -/
  | pwrGoodFall
  /-- PACKAGE_RESET, R437: A package reset starts bring-up from step 2, keeping the always-on records and ending any relayout. -/
  | packageReset
  /-- FIRMWARE_LOAD, R453: Bring-up step 3 loads and verifies a firmware image and starts the management cores. -/
  | firmwareLoad (a : Option ImgHdr) (b : Option ImgHdr)
  /-- LICENCE_VERIFY, R447: Bring-up step 4 verifies the licence and trains the PCIe and Millrace ports. -/
  | licenceVerify (pcie : List (Nat × (Nat × Nat))) (mrc : List (Nat × List (Nat × Nat)))
  /-- MC_POWER_UP, R437: Bring-up step 5 powers up the memory-controller domains and trains the hub links. -/
  | mcPowerUp
  /-- STACK_INIT, R438: Bring-up step 6 trains a stack, zero-fills its pseudo-channels and brings them ONLINE. -/
  | stackInit (k : Nat) (bad : List Nat)
  /-- HOST_RELEASE, R441: Bring-up step 7 loads the host boot image and releases a host die. -/
  | hostRelease (k : Fin 2)
  /-- TILE_POWER_UP, R437: Bring-up step 8 powers up the tile domains, assigns logical tiles and self-tests them. -/
  | tilePowerUp (bad : SelfTest)
  /-- TOPOLOGY_CHECK, R444: The topology rules are evaluated and PKG is declared ready, degraded or not ready. -/
  | topologyCheck (ids : List (Nat × Nat)) (heights : List (Nat × Nat))
  /-- FW_CONFIRM, R454: The running image writes FW_STATUS.CONFIRM, ending its trial. -/
  | fwConfirm (w : Wr)
  /-- TRIAL_TIMEOUT, R454: A trial image fails to confirm within 2 s, and the previous image restarts. -/
  | trialTimeout
  /-- LIVE_CONFIRM_TIMEOUT, R459: A live-activated image fails to confirm within 500 ms and the previous image restarts. -/
  | liveConfirmTimeout
  /-- ROOT_OF_TRUST_KICK, R458: During handover the root of trust kicks the watchdog every 10 ms. -/
  | rootOfTrustKick
  /-- GET_VERSION, R460: Mailbox command returning firmware, mailbox and interface versions. -/
  | getVersion
  /-- SET_LIMIT, R399: Mailbox command setting TARGET of PWR_LIMIT. -/
  | setLimit (v : Nat)
  /-- GET_TELEMETRY, R461: Mailbox command returning a power, temperature and energy snapshot with its age. -/
  | getTelemetry (age : Nat)
  /-- GET_FAULTS, R460: Mailbox command returning the fault records and sticky bits. -/
  | getFaults
  /-- LICENCE_INSTALL, R448: Mailbox command installing a licence in the unused slot after verification. -/
  | licenceInstall (flips : List (Nat × Nat))
  /-- FW_WRITE, R460: Mailbox command writing one piece of a firmware image. -/
  | fwWrite (off : Nat) (len : Nat)
  /-- FW_VERIFY, R453: Mailbox command verifying the written image. -/
  | fwVerify (h : Option ImgHdr)
  /-- FW_ACTIVATE, R457: Mailbox command activating an image at the next reset or live. -/
  | fwActivate (live : Bool)
  /-- SETTINGS_READ, R456: Mailbox command reading the settings in force. -/
  | settingsRead
  /-- SETTINGS_WRITE, R456: Mailbox command appending a settings record. -/
  | settingsWrite (modes : List (Nat × Nat)) (good : Bool)
  /-- SETTINGS_RESET, R456: Mailbox command appending a default record and clearing DEFAULTS. -/
  | settingsReset
  /-- PIN_MUX_WRITE, R476: A write to PIN_MUXk changes a pin's function with a hold, or applies PULL and DRIVE. -/
  | pinMuxWrite (w : Wr)
  /-- PIN_SWITCH_DONE, R476: After 8 clk_side the new function is connected and SWITCHING clears. -/
  | pinSwitchDone (k : Nat)
  /-- JTAG_TAP_RESET, R479: The test access port resets and selects IDCODE. -/
  | jtagTapReset
  /-- BYPASS, R479: JTAG BYPASS instruction. -/
  | bypass (tdi : IrScan)
  /-- SAMPLE_PRELOAD, R479: JTAG SAMPLE/PRELOAD instruction. -/
  | samplePreload (tdi : Scan)
  /-- EXTEST, R479: JTAG EXTEST instruction, effective only while RESET_N is asserted. -/
  | extest (tdi : Scan)
  /-- IDCODE, R479: JTAG IDCODE instruction. -/
  | idcode
  /-- CLAMP, R479: JTAG CLAMP instruction, effective only while RESET_N is asserted. -/
  | clamp (tdi : Scan)
  /-- HIGHZ, R479: JTAG HIGHZ instruction, effective only while RESET_N is asserted. -/
  | highz (tdi : Scan)
  /-- PLL_LOCK_ACQUIRED, R409: A die's PLL reports lock during power-up, and the sequencer moves the domain on toward running. -/
  | pllLockAcquired (d : Die)
  /-- PWR_GOOD_ASSERT, R466: The platform asserts PWR_GOOD once VDD_HUB and VDDP_HUB are within tolerance, letting bring-up step 2 start if RESET_N is released. -/
  | pwrGoodAssert
  /-- CONTROLLER_READ_COMPLETE, R266: A memory-controller read of a 64-byte block returns and is decoded in the ECCMODE; it is used clean or corrected, treated as poisoned, or sent to re-read. -/
  | controllerReadComplete (d : Disturb)
  /-- IN_DIE_CORRECTION_REPORT, R264: A stack reports its in-die correction count for an interval, and the controller adds it to MEM_IDIE_CNTi. -/
  | inDieCorrectionReport (p : Nat) (n : Nat)
  /-- MILLRACE_BAD_CRC, R376: A Millrace packet arrives with a bad CRC or with uncorrected symbol errors, is replayed by the link layer, and counts toward lane retirement. -/
  | millraceBadCrc (q : Nat) (lane : Nat) (n : Nat)
  /-- PCIE_LINK_DOWN, R362: A PCIe or CXL link on a hub port goes down or reports an uncorrectable AER error; UP clears, its requests complete with UNAV and PCIE_ERR is raised. -/
  | pcieLinkDown (p : Nat) (aer : LinkLoss)
  /-- GPIO_INPUT, R473: The level on an LS pin changes and, after synchronisation over 2 clk_side, PIN_GPIO_IN reflects it. -/
  | gpioInput (k : Nat) (level : Bool)
deriving DecidableEq, Repr

end Sys2Proof
end

