-- ==== Sys2Proof/Config.lean ====
section
/-!
DEFINITION. What the spec leaves open, as constants without a body: nothing can evaluate them, so a claim holds
whatever they are. Each is applied to the model's counter `State.free`, or to what it depends on.
-/

namespace Sys2Proof.Config

/-- A choice that the spec leaves open between two values or outcomes (see the assumption log). -/
opaque freeBool : Nat → Bool

/-- A value the spec states no rule for: an estimate, a reason code, a payload (see the assumption log). -/
opaque freeWord : Nat → BitVec 64

/-- What a Burr REDUCE of no columns writes for a row (R187 gives no first element): a function of the operation's fields and the row,
as R216 asks, and nothing more is known of it (log 15). -/
opaque emptyReduce (op row : Nat) : BitVec 32

/-- Contents of a line that a host die's cache owns and may have written without a message. -/
opaque freeLine : Nat → BitVec 1024

/-- The bank that holds a row of a pseudo-channel: the spec says that consecutive rows lie in different banks, and no more
(R261, Table 9-6). -/
opaque rowBank : Nat → Nat

end Sys2Proof.Config
end

