-- ==== Sys2Proof/Machine/AMap.lean ====
section
/-!
DEFINITION. Finite maps and small list operations, as plain data. A map is a list of key and value; the first entry
of a key counts, setting a key replaces its entry in place or appends one, and every lookup law holds without any
condition on the list.
-/

namespace Sys2Proof.Machine

/-- A map from keys to values. -/
abbrev AMap (κ α : Type) := List (κ × α)

/-- The entry at a key, if one is listed. -/
def aFind {κ α : Type} [DecidableEq κ] : AMap κ α → κ → Option α
  | [], _ => none
  | e :: r, i => if e.1 = i then some e.2 else aFind r i

/-- The entry at a key, or a default. -/
def aGet {κ α : Type} [DecidableEq κ] (m : AMap κ α) (d : α) (i : κ) : α := (aFind m i).getD d

/-- The map with a key set. -/
def aSet {κ α : Type} [DecidableEq κ] : AMap κ α → κ → α → AMap κ α
  | [], i, x => [(i, x)]
  | e :: r, i, x => if e.1 = i then (i, x) :: r else e :: aSet r i x

/-- The map without a key. -/
def aErase {κ α : Type} [DecidableEq κ] (m : AMap κ α) (i : κ) : AMap κ α := m.filter (fun e => e.1 ≠ i)

/-- Elements of a list with their places. -/
def withIdx {α : Type} (l : List α) : List (Nat × α) := (List.range l.length).zip l

/-- The first element of a list that a test accepts, changed. -/
def lUpd {α : Type} (p : α → Bool) (f : α → α) : List α → List α
  | [] => []
  | x :: r => if p x then f x :: r else x :: lUpd p f r

/-- A list with the first element that a test accepts removed. -/
def lDrop {α : Type} (p : α → Bool) : List α → List α
  | [] => []
  | x :: r => if p x then r else x :: lDrop p r

/-- The numbers from `a` up, `n` of them. -/
def upFrom (a n : Nat) : List Nat := (List.range n).map (a + ·)

/-- Bit `i` of a number. -/
def nbit (x i : Nat) : Bool := decide (x / 2 ^ i % 2 = 1)

/-- The bytes of a number, least significant first (R16). -/
def leBytes : Nat → Nat → List Byte
  | 0, _ => []
  | n + 1, x => BitVec.ofNat 8 x :: leBytes n (x / 256)

/-- The number of a byte string, least significant first (R16). -/
def leNat : List Byte → Nat
  | [] => 0
  | b :: r => b.toNat + 256 * leNat r

/-- Byte `i` of a line. -/
def lineByte (l : Line) (i : Nat) : Byte := l.extractLsb' (8 * i) 8

/-- A line with byte `i` replaced. -/
def lineSet (l : Line) (i : Nat) (b : Byte) : Line :=
  (l &&& ~~~ ((255#1024) <<< (8 * i))) ||| ((b.zeroExtend 1024) <<< (8 * i))

/-- A line with the bytes of a mask taken from another line (mask bit `i` for byte `i`). -/
def lineMerge (old new : Line) (mask : Nat) : Nat → Line
  | 0 => old
  | n + 1 => let r := lineMerge old new mask n; if nbit mask n then lineSet r n (lineByte new n) else r

/-- Bytes of a line from `off`. -/
def lineBytes (l : Line) (off n : Nat) : List Byte := (List.range n).map fun i => lineByte l (off + i)

/-- The full byte mask of a 128-byte line. -/
def fullMask : Nat := 2 ^ 128 - 1

/-- A mask of `n` bytes from byte `off`. -/
def spanMask (off n : Nat) : Nat := (2 ^ n - 1) <<< off

end Sys2Proof.Machine
end

