-- ==== Sys2Proof/Machine/Isa.lean ====
section
/-!
DEFINITION. The thread instruction words of Chapter 04: opcodes, fields, every undefined encoding (R113-R121), and the
registers each instruction reads and writes (R145).
-/

namespace Sys2Proof.Machine

/-- The thread instructions (Tables 4-8 to 4-17 and R144). -/
inductive TOp where
  | mov | add | sub | mul | mulhi | mad | div | rem | and | or | xor | shl | shr | minmax | bitop | setp
  | fadd | fsub | fmul | ffma | fminmax | fdiv | fun1 | fun2
  | lmul | ldiv | lpow | lroot | ladd | cvt | lminmax
  | ldg | stg | ldl | stl | ldu | prf
  | aadd | aadds | amin | amax | aand | aor | axor | axchg | acas
  | bra | jmp | call | exit | bar | nop
  | fence | waitk | rdk
  | rnd | time | sel | plop | shfl | vote | rdlane
  | mxi | vxi
  | umov | uadd | usub | umul | uand | uor | ushl | ushr
deriving DecidableEq, Repr

/-- A field of an instruction word. -/
def wf (w : W64) (hi lo : Nat) : Nat := fld w hi lo
/-- A flag of an instruction word. -/
def wb (w : W64) (i : Nat) : Bool := w.getLsbD i

def wOp (w : W64) : Nat := wf w 63 56
def wGen (w : W64) : Bool := wb w 55
def wGneg (w : W64) : Bool := wb w 54
def wGp (w : W64) : Nat := wf w 53 51
def wType (w : W64) : Nat := wf w 50 48
def wD (w : W64) : Nat := wf w 39 32
def wA (w : W64) : Nat := wf w 31 24
def wB (w : W64) : Nat := wf w 23 16
def wC (w : W64) : Nat := wf w 15 8
def wUA (w : W64) : Bool := wb w 7
def wUB (w : W64) : Bool := wb w 6
def wUC (w : W64) : Bool := wb w 5
def wSat (w : W64) : Bool := wb w 45
def wNA (w : W64) : Bool := wb w 44
def wNB (w : W64) : Bool := wb w 43
def wNC (w : W64) : Bool := wb w 42
def wSub (w : W64) : Nat := wf w 41 40
def wImm (w : W64) : Nat := wf w 31 0
/-- Whether the word is an I form (odd opcode below 0x40, R120). -/
def wIform (w : W64) : Bool := decide (wOp w < 0x40) && wb w 56
/-- Destination and source A of the I form (Table 4-3). -/
def wID (w : W64) : Nat := wf w 47 40
def wIA (w : W64) : Nat := wf w 39 32
/-- M-format fields (Table 4-4). -/
def wSZ (w : W64) : Nat := wf w 50 48
def wHint (w : W64) : Nat := wf w 47 46
def wBU (w : W64) : Bool := wb w 45
def wMD (w : W64) : Nat := wf w 44 37
def wBase (w : W64) : Nat := wf w 36 29
def wData (w : W64) : Nat := wf w 28 21
/-- The signed byte offset of the M format, modulo 2^64. -/
def wOff (w : W64) : W64 := BitVec.ofInt 64 ((w.extractLsb' 0 21).toInt)
/-- The signed branch offset in bytes (R136). -/
def wBoff (w : W64) : W64 := BitVec.ofInt 64 ((w.extractLsb' 0 32).toInt * 8)

/-- Operand width in bits of a TYPE (R118). -/
def typeBits (t : Nat) : Nat := if t = 2 ∨ t = 3 ∨ t = 6 then 64 else 32

/-- A row of the register-format tables: TYPEs, I form, SAT, NA, NB, NC allowed, number of SUB values, operands. -/
structure RISpec where
  op : TOp
  types : List Nat
  iForm : Bool
  sat : Bool
  na : Bool
  nb : Bool
  nc : Bool
  nsub : Nat
  useB : Bool
  useC : Bool

/-- Tables 4-8, 4-10 and 4-11, by even opcode (CVT apart). -/
def riSpec (op : Nat) : Option RISpec :=
  match op with
  | 0x00 => some ⟨.mov, [0, 1, 2, 3], true, false, false, false, false, 1, false, false⟩
  | 0x02 => some ⟨.add, [0, 1, 2, 3], true, true, false, false, false, 1, true, false⟩
  | 0x04 => some ⟨.sub, [0, 1, 2, 3], true, true, false, false, false, 1, true, false⟩
  | 0x06 => some ⟨.mul, [0, 1, 2, 3], true, true, false, false, false, 1, true, false⟩
  | 0x08 => some ⟨.mulhi, [0, 1, 2, 3], true, false, false, false, false, 1, true, false⟩
  | 0x0A => some ⟨.mad, [0, 1, 2, 3], false, false, false, false, false, 1, true, true⟩
  | 0x0C => some ⟨.div, [0, 1, 2, 3], true, true, false, false, false, 1, true, false⟩
  | 0x0E => some ⟨.rem, [0, 1, 2, 3], true, false, false, false, false, 1, true, false⟩
  | 0x10 => some ⟨.and, [0, 1, 2, 3], true, false, false, false, false, 1, true, false⟩
  | 0x12 => some ⟨.or, [0, 1, 2, 3], true, false, false, false, false, 1, true, false⟩
  | 0x14 => some ⟨.xor, [0, 1, 2, 3], true, false, false, false, false, 1, true, false⟩
  | 0x16 => some ⟨.shl, [0, 1, 2, 3], true, false, false, false, false, 1, true, false⟩
  | 0x18 => some ⟨.shr, [0, 1, 2, 3], true, false, false, false, false, 1, true, false⟩
  | 0x1A => some ⟨.minmax, [0, 1, 2, 3], false, false, false, false, false, 2, true, false⟩
  | 0x1C => some ⟨.bitop, [0, 1, 2, 3], false, true, false, false, false, 4, false, false⟩
  | 0x20 => some ⟨.fadd, [4, 6], true, false, true, true, false, 1, true, false⟩
  | 0x22 => some ⟨.fsub, [4, 6], true, false, true, true, false, 1, true, false⟩
  | 0x24 => some ⟨.fmul, [4, 6], true, false, true, true, false, 1, true, false⟩
  | 0x26 => some ⟨.ffma, [4], false, false, true, true, true, 1, true, true⟩
  | 0x28 => some ⟨.fminmax, [4], false, false, true, true, false, 2, true, false⟩
  | 0x2A => some ⟨.fdiv, [4], true, false, true, true, false, 1, true, false⟩
  | 0x2C => some ⟨.fun1, [4], false, false, true, false, false, 3, false, false⟩
  | 0x2E => some ⟨.fun2, [4], false, false, true, false, false, 3, false, false⟩
  | 0x30 => some ⟨.lmul, [5], true, false, true, true, false, 1, true, false⟩
  | 0x32 => some ⟨.ldiv, [5], true, false, true, true, false, 1, true, false⟩
  | 0x34 => some ⟨.lpow, [5], false, false, true, false, false, 1, true, false⟩
  | 0x36 => some ⟨.lroot, [5], false, false, true, false, false, 2, false, false⟩
  | 0x38 => some ⟨.ladd, [5], false, false, true, true, false, 2, true, false⟩
  | 0x3C => some ⟨.lminmax, [5], false, false, true, true, false, 2, true, false⟩
  | _ => none

/-- Memory, atomic, control and class 0x70 to 0x9F opcodes (Tables 4-12 to 4-17). -/
def otherOp (op : Nat) : Option TOp :=
  match op with
  | 0x40 => some .ldg | 0x42 => some .stg | 0x44 => some .ldl | 0x46 => some .stl | 0x48 => some .ldu | 0x4A => some .prf
  | 0x50 => some .aadd | 0x51 => some .aadds | 0x52 => some .amin | 0x53 => some .amax | 0x54 => some .aand
  | 0x55 => some .aor | 0x56 => some .axor | 0x57 => some .axchg | 0x58 => some .acas
  | 0x60 => some .bra | 0x62 => some .jmp | 0x64 => some .call | 0x66 => some .exit | 0x68 => some .bar | 0x6A => some .nop
  | 0x70 => some .fence | 0x72 => some .waitk | 0x74 => some .rdk
  | 0x80 => some .rnd | 0x82 => some .time | 0x84 => some .sel | 0x86 => some .plop | 0x88 => some .shfl
  | 0x8A => some .vote | 0x8C => some .rdlane | 0x90 => some .mxi | 0x92 => some .vxi
  | _ => none

/-- The uniform instructions (R144), by opcode pair. -/
def uOp (i : Nat) : Option TOp :=
  match i with
  | 0 => some .umov | 1 => some .uadd | 2 => some .usub | 3 => some .umul
  | 4 => some .uand | 5 => some .uor | 6 => some .ushl | 7 => some .ushr
  | _ => none

/-- Whether a register field may hold `k`: a uniform index to 63, a pair even, a quad a multiple of four (R116, R118). -/
def regOk (width : Nat) (isU : Bool) (k : Nat) : Bool :=
  if isU then decide (k ≤ 63) else decide (k % max 1 (width / 32) = 0)

/-- A mask of bits `[hi:lo]`. -/
def fmask (hi lo : Nat) : Nat := (2 ^ (hi + 1 - lo) - 1) * 2 ^ lo
def mIf (b : Bool) (m : Nat) : Nat := if b then m else 0

/-- No bit outside the opcode, the guard and `allowed` is set (R116). -/
def clean (w : W64) (allowed : Nat) : Bool :=
  decide (w.toNat &&& ((2 ^ 64 - 1) ^^^ (allowed ||| fmask 63 51)) = 0)

def mT : Nat := fmask 50 48
def mD : Nat := fmask 39 32
def mA : Nat := fmask 31 24
def mB : Nat := fmask 23 16
def mC : Nat := fmask 15 8
def mUA : Nat := 0x80
def mUB : Nat := 0x40
def mUC : Nat := 0x20

/-- The I form: fields of Table 4-3 and the immediate rules of R120. -/
def okIform (sp : RISpec) (w : W64) : Bool :=
  let t := wType w
  let tw := typeBits t
  sp.iForm && decide (t ∈ sp.types) && (decide (t ≠ 5) || decide (wImm w < 2 ^ 16))
    && regOk tw false (wID w)
    && (if sp.op = .mov then decide (wIA w = 0) else regOk tw false (wIA w))

/-- The R form of the arithmetic classes: allowed types, modifiers and operands (R118, R122, R125, R127). -/
def okRform (sp : RISpec) (w : W64) : Bool :=
  let t := wType w
  let tw := typeBits t
  let allowed := mT ||| mD ||| mA ||| mUA ||| mIf sp.useB (mB ||| mUB) ||| mIf sp.useC (mC ||| mUC)
    ||| mIf sp.sat (2 ^ 45) ||| mIf sp.na (2 ^ 44) ||| mIf sp.nb (2 ^ 43) ||| mIf sp.nc (2 ^ 42)
    ||| mIf (decide (1 < sp.nsub)) (fmask 41 40)
  decide (t ∈ sp.types) && decide (wSub w < sp.nsub) && clean w allowed
    && regOk tw false (wD w) && regOk tw (wUA w) (wA w)
    && (!sp.useB || regOk tw (wUB w) (wB w)) && (!sp.useC || regOk tw (wUC w) (wC w))
    && (decide (sp.op ≠ .bitop)
        || ((decide (wSub w ≠ 3) || decide (t = 1) || decide (t = 3)) && (!wSat w || decide (wSub w = 3))))

/-- SETP, both forms (R124). -/
def okSetp (w : W64) : Bool :=
  let t := wType w
  let tw := typeBits t
  let types := decide (t ∈ [0, 1, 2, 3, 4, 5])
  if wb w 56 then
    types && (decide (t ≠ 5) || decide (wImm w < 2 ^ 16)) && decide (wf w 47 44 ≤ 7) && !wb w 43
      && regOk tw false (wIA w)
  else
    let comb := wf w 43 42
    types && decide (wf w 47 44 ≤ 7) && decide (wD w ≤ 7) && (decide (comb = 0) || decide (wC w ≤ 7))
      && regOk tw (wUA w) (wA w) && regOk tw (wUB w) (wB w)
      && clean w (mT ||| fmask 47 42 ||| mD ||| mA ||| mUA ||| mB ||| mUB ||| mIf (decide (comb ≠ 0)) mC)

/-- Register width of a CVT operand (R130). -/
def cvtBits (f : Nat) : Nat := if f = 9 ∨ f = 15 then 64 else 32
def okCvt (w : W64) : Bool :=
  let d := wf w 50 47
  let a := wf w 46 43
  !(decide (4 ≤ d) && decide (d ≤ 8)) && !(decide (4 ≤ a) && decide (a ≤ 8))
    && regOk (cvtBits d) false (wD w) && regOk (cvtBits a) (wUA w) (wA w)
    && clean w (fmask 50 41 ||| mD ||| mA ||| mUA)

/-- Register width and size in bytes of a memory SZ (R132). -/
def szBits (sz : Nat) : Nat := if sz = 5 then 64 else if sz = 6 then 128 else 32
def szBytes (sz : Nat) : Nat :=
  match sz with | 0 => 1 | 1 => 1 | 2 => 2 | 3 => 2 | 4 => 4 | 5 => 8 | 6 => 16 | _ => 0
/-- Register width of an atomic SZ (R135). -/
def atBits (sz : Nat) : Nat := if sz = 2 ∨ sz = 3 then 64 else 32

def mMem : Nat := mT ||| 2 ^ 45 ||| fmask 36 29 ||| fmask 20 0
def isLocalOp : TOp → Bool
  | .ldl | .stl => true
  | _ => false
def okBase (w : W64) (loc : Bool) : Bool := regOk (if loc then 32 else 64) (wBU w) (wBase w)

/-- Loads, stores and prefetch (R131, R132). -/
def okMem (o : TOp) (w : W64) : Bool :=
  let sz := wSZ w
  decide (sz < 7) && okBase w (isLocalOp o) &&
  (match o with
   | .ldg => regOk (szBits sz) false (wMD w) && clean w (mMem ||| fmask 47 46 ||| fmask 44 37)
   | .stg => decide (sz ≠ 1) && decide (sz ≠ 3) && regOk (szBits sz) false (wData w)
              && clean w (mMem ||| fmask 47 46 ||| fmask 28 21)
   | .ldl => regOk (szBits sz) false (wMD w) && clean w (mMem ||| fmask 44 37)
   | .stl => decide (sz ≠ 1) && decide (sz ≠ 3) && regOk (szBits sz) false (wData w) && clean w (mMem ||| fmask 28 21)
   | .ldu => wBU w && (decide (sz = 4) || decide (sz = 5)) && decide (wMD w ≤ 63)
              && clean w (mMem ||| fmask 47 46 ||| fmask 44 37)
   | _ => decide (sz = 0) && (decide (wHint w = 0) || decide (wHint w = 2)) && clean w (mMem ||| fmask 47 46))

/-- Atomics (R135). -/
def okAtomic (o : TOp) (w : W64) : Bool :=
  let sz := wSZ w
  let fOk := decide (o = .aadd) || decide (o = .amin) || decide (o = .amax)
  let wd := atBits sz
  decide (sz < 4 ∨ (sz = 4 ∧ fOk = true)) && okBase w (wb w 47) && regOk wd false (wMD w)
    && regOk (if o = .acas ∧ wd = 64 then 128 else wd) false (wData w)
    && clean w (mMem ||| 2 ^ 47 ||| fmask 44 37 ||| fmask 28 21)

/-- Control flow (R136). -/
def okCtl (o : TOp) (w : W64) : Bool :=
  match o with
  | .bra => clean w (fmask 31 0)
  | .jmp => decide (wf w 50 48 ≤ 1) && regOk 64 (wb w 48) (wD w) && clean w (mT ||| mD)
  | .call => regOk 64 false (wD w) && clean w (mD ||| fmask 31 0)
  | _ => clean w 0

/-- The instructions that execute once per issue and must be unguarded (R119). -/
def isOnce : TOp → Bool
  | .ldu | .bar | .fence | .waitk | .mxi | .vxi => true
  | .umov | .uadd | .usub | .umul | .uand | .uor | .ushl | .ushr => true
  | _ => false

/-- Synchronisation, random, timestamp, lane and issue classes (Tables 4-15 to 4-17); SHFL with UA = 1 is no encoding
(DESIGN CHOICE, log 105), its B is a 32-bit register under every TYPE (DESIGN CHOICE, log 133), and a predicate index above 7 in PLOP, VOTE
and RND is no encoding (DESIGN CHOICE, log 134). -/
def okMisc (o : TOp) (w : W64) : Bool :=
  let m3 := wType w
  match o with
  | .fence => decide (wf w 50 49 ≠ 3) && clean w (fmask 50 47)
  | .waitk =>
    if wb w 47 then wUA w && regOk 64 true (wA w) && clean w (fmask 50 47 ||| mA ||| mUA)
    else clean w (fmask 50 47 ||| fmask 23 8)
  | .rdk => clean w (mT ||| mD)
  | .rnd =>
    if m3 = 5 then decide (wD w ≤ 7) && regOk 32 (wUB w) (wB w) && clean w (mT ||| mD ||| mB ||| mUB)
    else if m3 = 6 then regOk 64 false (wA w) && clean w (mT ||| mA)
    else regOk (if m3 = 1 ∨ m3 = 3 ∨ m3 = 7 then 64 else 32) false (wD w) && clean w (mT ||| mD)
  | .time =>
    decide (m3 ≤ 1) && (!wb w 47 || decide (wf w 55 51 = 0)) && regOk 64 (wb w 47) (wD w) && clean w (fmask 50 47 ||| mD)
  | .sel =>
    let tw := typeBits m3
    decide (m3 ≤ 4) && regOk tw false (wD w) && regOk tw (wUA w) (wA w) && regOk tw (wUB w) (wB w) && decide (wC w ≤ 7)
      && clean w (mT ||| mD ||| mA ||| mUA ||| mB ||| mUB ||| mC)
  | .plop =>
    decide (wSub w ≤ 2) && decide (wD w ≤ 7) && decide (wA w ≤ 7) && decide (wB w ≤ 7)
      && clean w (2 ^ 44 ||| 2 ^ 43 ||| fmask 41 40 ||| mD ||| mA ||| mB)
  | .shfl =>
    let tw := typeBits m3
    (decide (m3 = 0) || decide (m3 = 2)) && regOk tw false (wD w) && regOk tw false (wA w) && regOk 32 (wUB w) (wB w)
      && clean w (mT ||| fmask 41 40 ||| mD ||| mA ||| mB ||| mUB)
  | .vote =>
    decide (wSub w ≤ 2) && decide (wA w ≤ 7) && (if wSub w = 0 then decide (wD w ≤ 63) else decide (wD w ≤ 7))
      && clean w (fmask 41 40 ||| mD ||| mA)
  | .rdlane =>
    (decide (m3 = 0) || decide (m3 = 2)) && decide (wD w ≤ 63) && regOk (typeBits m3) false (wA w)
      && clean w (mT ||| mD ||| mA ||| mC)
  | _ => wUA w && decide (wA w % 8 = 0) && decide (wA w ≤ 56) && clean w (mT ||| mA ||| mUA)

/-- Uniform format (Table 4-6, R144). -/
def okU (o : TOp) (w : W64) : Bool :=
  let odd := wb w 56
  decide (wType w ≤ 3)
    && (if odd then clean w (mT ||| fmask 47 42 ||| fmask 31 0 ||| mIf (decide (o ≠ .umov)) (fmask 41 36))
        else clean w (mT ||| fmask 47 36 ||| mIf (decide (o ≠ .umov)) (fmask 35 30)))

/-- The instruction of a word, none where the encoding is undefined (R116, R121). -/
def tdecode (w : W64) : Option TOp :=
  let op := wOp w
  let r : Option TOp :=
    if op < 0x40 then
      if op / 2 = 0x0F then (if okSetp w then some .setp else none)
      else if op = 0x3A then (if okCvt w then some .cvt else none)
      else
        match riSpec (op / 2 * 2) with
        | none => none
        | some sp => if (if wb w 56 then okIform sp w else okRform sp w) then some sp.op else none
    else if op < 0xA0 then
      match otherOp op with
      | none => none
      | some o =>
        if (if op < 0x50 then okMem o w else if op < 0x60 then okAtomic o w
            else if op < 0x70 then okCtl o w else okMisc o w) then some o else none
    else if op < 0xB0 then
      match uOp ((op - 0xA0) / 2) with
      | none => none
      | some o => if okU o w then some o else none
    else none
  match r with
  | none => none
  | some o =>
    if !wGen w && (wGneg w || decide (wGp w ≠ 0)) then none
    else if isOnce o && decide (wf w 55 51 ≠ 0) then none
    else some o

/-- A register, predicate or uniform register. -/
inductive TReg where
  | v (k : Nat)
  | u (k : Nat)
  | p (k : Nat)
deriving DecidableEq, Repr

/-- The registers an operand field names. -/
def opRegs (width : Nat) (isU : Bool) (k : Nat) : List TReg :=
  if isU then [.u k] else (List.range (max 1 (width / 32))).map fun i => TReg.v (k + i)

def baseRegs (w : W64) (loc : Bool) : List TReg := opRegs (if loc then 32 else 64) (wBU w) (wBase w)
def isAtomic : TOp → Bool
  | .aadd | .aadds | .amin | .amax | .aand | .aor | .axor | .axchg | .acas => true
  | _ => false

/-- Destination registers (R145). -/
def tdsts (o : TOp) (w : W64) : List TReg :=
  let m3 := wType w
  let tw := typeBits m3
  match o with
  | .setp => if wb w 56 then [.p (wf w 42 40)] else [.p (wD w)]
  | .cvt => opRegs (cvtBits (wf w 50 47)) false (wD w)
  | .ldg | .ldl => opRegs (szBits (wSZ w)) false (wMD w)
  | .ldu => [.u (wMD w)]
  | .stg | .stl | .prf | .bra | .jmp | .exit | .bar | .nop | .fence | .waitk | .mxi | .vxi => []
  | .call => opRegs 64 false (wD w)
  | .rdk => [.v (wD w)]
  | .rnd => if m3 = 5 then [.p (wD w)] else if m3 = 6 then []
            else opRegs (if m3 = 1 ∨ m3 = 3 ∨ m3 = 7 then 64 else 32) false (wD w)
  | .time => opRegs 64 (wb w 47) (wD w)
  | .plop => [.p (wD w)]
  | .vote => if wSub w = 0 then [.u (wD w)] else [.p (wD w)]
  | .rdlane => [.u (wD w)]
  | .umov | .uadd | .usub | .umul | .uand | .uor | .ushl | .ushr => [.u (wf w 47 42)]
  | _ =>
    if isAtomic o then opRegs (atBits (wSZ w)) false (wMD w)
    else opRegs tw false (if wIform w then wID w else wD w)

/-- Source registers, the guard among them; an operand field that the instruction does not use names none (R145). -/
def tsrcs (o : TOp) (w : W64) : List TReg :=
  let m3 := wType w
  let tw := typeBits m3
  let g : List TReg := if wGen w then [.p (wGp w)] else []
  g ++
  match o with
  | .cvt => opRegs (cvtBits (wf w 46 43)) (wUA w) (wA w)
  | .ldg | .ldu | .prf => baseRegs w false
  | .ldl => baseRegs w true
  | .stg => baseRegs w false ++ opRegs (szBits (wSZ w)) false (wData w)
  | .stl => baseRegs w true ++ opRegs (szBits (wSZ w)) false (wData w)
  | .bra | .call | .exit | .bar | .nop | .fence | .rdk | .time => []
  | .jmp => opRegs 64 (wb w 48) (wD w)
  | .waitk => if wb w 47 then [.u (wA w)] else []
  | .rnd => if m3 = 5 then opRegs 32 (wUB w) (wB w) else if m3 = 6 then opRegs 64 false (wA w) else []
  | .sel => opRegs tw (wUA w) (wA w) ++ opRegs tw (wUB w) (wB w) ++ [.p (wC w)]
  | .plop => [.p (wA w), .p (wB w)]
  | .shfl => opRegs tw false (wA w) ++ opRegs 32 (wUB w) (wB w)
  | .vote => [.p (wA w)]
  | .rdlane => opRegs tw false (wA w)
  | .mxi | .vxi => (List.range 8).map fun i => TReg.u (wA w + i)
  | .umov => if wb w 56 then [] else [.u (wf w 41 36)]
  | .uadd | .usub | .umul | .uand | .uor | .ushl | .ushr =>
    if wb w 56 then [.u (wf w 41 36)] else [.u (wf w 41 36), .u (wf w 35 30)]
  | .setp =>
    if wb w 56 then opRegs tw false (wIA w)
    else opRegs tw (wUA w) (wA w) ++ opRegs tw (wUB w) (wB w) ++ (if wf w 43 42 = 0 then [] else [.p (wC w)])
  | _ =>
    if isAtomic o then
      baseRegs w (wb w 47) ++ opRegs (if o = .acas then 2 * atBits (wSZ w) else atBits (wSZ w)) false (wData w)
    else
      match riSpec (wOp w / 2 * 2) with
      | none => []
      | some sp =>
        if wIform w then (if sp.op = .mov then [] else opRegs tw false (wIA w))
        else opRegs tw (wUA w) (wA w) ++ (if sp.useB then opRegs tw (wUB w) (wB w) else [])
          ++ (if sp.useC then opRegs tw (wUC w) (wC w) else [])

end Sys2Proof.Machine
end

