-- ==== Sys2Proof/Machine/RegMap.lean ====
section
/-!
DEFINITION. The control-space registers: their names, places, privilege, reset values and fields, as the register
tables of the chapters give them (Tables 1-8 to 1-10, 5-7, 6-2, 7-7 to 7-9, 8-7, 8-8, 9-8 to 9-20, 10-9 to 10-12,
11-11 to 11-16, 12-12 to 12-27, 13-6 to 13-15, 14-9 to 14-20, 15-9 to 15-23, 16-3, 16-7, 16-10, 17-8 to 17-10).
-/

namespace Sys2Proof.Machine

/-- Access types of Table 0-5. -/
inductive RAcc where
  | rw | ro | wo | w1c | w1s | rc | rsvd
deriving DecidableEq, Repr

/-- How one name reaches several copies: an array at successive offsets, one copy per privilege level, one copy for
PL0 and PL1 and one for PL2, or the unit that a select register names. -/
inductive RSel where
  | one | level | bank | tg | dma | cq | eq | sq | en
deriving DecidableEq, Repr

/-- One field: highest and lowest bit, access type and reset value. -/
structure RField where
  hi : Nat
  lo : Nat
  acc : RAcc
  rst : Nat
deriving DecidableEq, Repr

/-- Name of every control-space register. -/
inductive RegName where
  | hubDieId
  | hubPartitionState
  | hubReady
  | linkStatus
  | mxIfVersion
  | vxIfVersion
  | burIfVersion
  | burState
  | burFault
  | smpIfVersion
  | smpState
  | memCfg
  | memPchState
  | memIdieCnt
  | memCorrCnt
  | memUncorCnt
  | memErrRec
  | tgSel
  | tgCfg
  | tgRange
  | tgCtrl
  | tgStatus
  | tgErrcnt
  | memBandMode
  | memRetireCtrl
  | memRetireEntry
  | memDirCfg
  | memDirAgentDown
  | memDirToutRec
  | memDirToutCnt
  | memDirNackCnt
  | memDirTokenCnt
  | memDirRecallCnt
  | cptCmd
  | cptStage0
  | cptStage1
  | xltInvCmd
  | xltInvAddr
  | xltViolAddr
  | xltViolInfo
  | dmaIfVersion
  | cqIfVersion
  | dmaSel
  | dmaCtx
  | dmaChain
  | dmaCtrl
  | dmaStatus
  | dmaCursor
  | dmaFault
  | cqSel
  | cqCfg
  | cqBase
  | cqPtr
  | cqCount
  | cqDoorbell
  | eqSel
  | eqCfg
  | eqBase
  | eqStatus
  | eqOp
  | cqPreempt
  | cqPreemptArg
  | cqPreemptArea
  | cqPreemptBarea
  | hubPcieCfg
  | hubSluiceCtrl
  | hubRpWin
  | hubOrderStatus
  | mrcIfVersion
  | mrcCfg
  | mrcStageBase
  | mrcPeerLog
  | mrcPortStatus
  | mrcSqSel
  | mrcSqCfg
  | mrcSqBase
  | mrcSqPtr
  | mrcSqTailaddr
  | mrcSnapCmd
  | mrcSnapHandle
  | mrcSnapArea
  | mrcSqDoorbell
  | pwrLimit
  | pwrStatus
  | pwrDie
  | pwrStateCtrl
  | pwrStateStatus
  | pwrWakeRec
  | pwrRtcCount
  | pwrRtcAlarm
  | pwrFanCfg
  | pwrEnSel
  | pwrSnap
  | pwrEnCount
  | pwrPkgEnergy
  | pwrDroopCnt
  | pwrExcurCnt
  | pwrResid
  | pwrDieEnergy
  | pwrBubbleCnt
  | fltFirst
  | fltFirstTime
  | fltFirstInfo
  | fltCtrl
  | fltSticky
  | fltIntCfg
  | fltReact
  | fltForce
  | fltWeirCfg
  | fltAlive
  | fltWdt
  | fltPkgFirst
  | fltPkgTime
  | fltResetCause
  | fltResetReq
  | fltTileRetire
  | licStatus
  | fwStatus
  | pinMux
  | pinGpioCtrl
  | pinGpioIn
deriving DecidableEq, Repr

/-- What the register tables say of one name. `inHub`, `inCd` and `inHd` tell which blocks hold it, `tileDom`
whether it belongs to a compute die's tile domain (R43, DEDUCED). -/
structure RegInfo where
  off : Nat
  stride : Nat
  count : Nat
  bytes : Nat
  minPL : Nat
  inHub : Bool
  inCd : Bool
  inHd : Bool
  tileDom : Bool
  sel : RSel
  fields : List RField
deriving DecidableEq, Repr

/-- The register tables. -/
def regInfo : RegName → RegInfo
  | .hubDieId => ⟨0x0, 0x8, 1, 4, 2, true, true, true, false, .one,
      [⟨31, 24, .rsvd, 0x0⟩, ⟨23, 16, .ro, 0x0⟩, ⟨15, 12, .ro, 0x0⟩, ⟨11, 8, .ro, 0x0⟩, ⟨7, 0, .ro, 0x0⟩]⟩
  | .hubPartitionState => ⟨0x8, 0x8, 1, 8, 2, true, false, false, false, .one,
      [⟨63, 48, .rsvd, 0x0⟩, ⟨47, 44, .ro, 0x0⟩, ⟨43, 40, .ro, 0x0⟩, ⟨39, 36, .ro, 0x0⟩, ⟨35, 32, .ro, 0x0⟩, ⟨31, 28, .ro, 0x0⟩, ⟨27, 24, .ro, 0x0⟩, ⟨23, 20, .ro, 0x0⟩, ⟨19, 16, .ro, 0x0⟩, ⟨15, 12, .ro, 0x0⟩, ⟨11, 8, .ro, 0x0⟩, ⟨7, 4, .ro, 0x2⟩, ⟨3, 0, .ro, 0x2⟩]⟩
  | .hubReady => ⟨0x10, 0x8, 1, 8, 2, true, false, false, false, .one,
      [⟨63, 62, .ro, 0x0⟩, ⟨61, 56, .ro, 0x0⟩, ⟨55, 48, .rsvd, 0x0⟩, ⟨47, 40, .ro, 0x0⟩, ⟨39, 36, .ro, 0x0⟩, ⟨35, 32, .ro, 0x0⟩, ⟨31, 30, .ro, 0x0⟩, ⟨29, 18, .ro, 0x0⟩, ⟨17, 14, .ro, 0x0⟩, ⟨13, 3, .rsvd, 0x0⟩, ⟨2, 2, .ro, 0x0⟩, ⟨1, 1, .ro, 0x0⟩, ⟨0, 0, .ro, 0x0⟩]⟩
  | .linkStatus => ⟨0x1000, 0x8, 4, 4, 1, true, true, false, false, .one,
      [⟨31, 31, .ro, 0x0⟩, ⟨30, 30, .ro, 0x0⟩, ⟨29, 28, .rsvd, 0x0⟩, ⟨27, 24, .ro, 0x0⟩, ⟨23, 16, .ro, 0x0⟩, ⟨15, 8, .ro, 0x0⟩, ⟨7, 0, .ro, 0x0⟩]⟩
  | .mxIfVersion => ⟨0x50000, 0x8, 1, 4, 2, false, true, false, true, .one,
      [⟨31, 16, .rsvd, 0x0⟩, ⟨15, 8, .ro, 0x1⟩, ⟨7, 0, .ro, 0x0⟩]⟩
  | .vxIfVersion => ⟨0x51000, 0x8, 1, 4, 2, false, true, false, true, .one,
      [⟨31, 16, .rsvd, 0x0⟩, ⟨15, 8, .ro, 0x1⟩, ⟨7, 0, .ro, 0x0⟩]⟩
  | .burIfVersion => ⟨0x60000, 0x8, 1, 4, 2, false, true, false, false, .one,
      [⟨31, 16, .rsvd, 0x0⟩, ⟨15, 8, .ro, 0x1⟩, ⟨7, 0, .ro, 0x0⟩]⟩
  | .burState => ⟨0x61000, 0x8, 64, 8, 1, false, true, false, false, .one,
      [⟨63, 48, .ro, 0x0⟩, ⟨47, 36, .ro, 0x0⟩, ⟨35, 28, .ro, 0x0⟩, ⟨27, 12, .ro, 0x0⟩, ⟨11, 8, .ro, 0x0⟩, ⟨7, 5, .ro, 0x0⟩, ⟨4, 4, .ro, 0x0⟩, ⟨3, 1, .rsvd, 0x0⟩, ⟨0, 0, .rw, 0x1⟩]⟩
  | .burFault => ⟨0x62000, 0x8, 64, 8, 1, false, true, false, false, .one,
      [⟨63, 32, .ro, 0x0⟩, ⟨31, 28, .ro, 0x0⟩, ⟨27, 20, .ro, 0x0⟩, ⟨19, 1, .rsvd, 0x0⟩, ⟨0, 0, .w1c, 0x0⟩]⟩
  | .smpIfVersion => ⟨0x70000, 0x8, 1, 4, 2, false, true, false, true, .one,
      [⟨31, 16, .rsvd, 0x0⟩, ⟨15, 8, .ro, 0x1⟩, ⟨7, 0, .ro, 0x0⟩]⟩
  | .smpState => ⟨0x71000, 0x8, 4, 8, 1, false, true, false, true, .one,
      [⟨63, 49, .rsvd, 0x0⟩, ⟨48, 37, .ro, 0x0⟩, ⟨36, 16, .ro, 0x0⟩, ⟨15, 12, .rsvd, 0x0⟩, ⟨11, 8, .ro, 0x0⟩, ⟨7, 5, .ro, 0x0⟩, ⟨4, 4, .ro, 0x0⟩, ⟨3, 1, .rsvd, 0x0⟩, ⟨0, 0, .rw, 0x1⟩]⟩
  | .memCfg => ⟨0x80000, 0x8, 1, 4, 1, false, true, false, false, .one,
      [⟨31, 16, .rsvd, 0x0⟩, ⟨15, 8, .rw, 0x18⟩, ⟨7, 2, .rsvd, 0x0⟩, ⟨1, 0, .rw, 0x0⟩]⟩
  | .memPchState => ⟨0x81000, 0x8, 128, 4, 1, false, true, false, false, .one,
      [⟨31, 13, .rsvd, 0x0⟩, ⟨12, 8, .ro, 0x0⟩, ⟨7, 7, .w1c, 0x0⟩, ⟨6, 6, .w1c, 0x0⟩, ⟨5, 5, .w1c, 0x0⟩, ⟨4, 4, .rsvd, 0x0⟩, ⟨3, 0, .ro, 0x0⟩]⟩
  | .memIdieCnt => ⟨0x82000, 0x8, 128, 8, 1, false, true, false, false, .one,
      [⟨63, 63, .w1c, 0x0⟩, ⟨62, 0, .rw, 0x0⟩]⟩
  | .memCorrCnt => ⟨0x83000, 0x8, 128, 8, 1, false, true, false, false, .one,
      [⟨63, 63, .w1c, 0x0⟩, ⟨62, 0, .rw, 0x0⟩]⟩
  | .memUncorCnt => ⟨0x84000, 0x8, 128, 8, 1, false, true, false, false, .one,
      [⟨63, 63, .w1c, 0x0⟩, ⟨62, 0, .rw, 0x0⟩]⟩
  | .memErrRec => ⟨0x85000, 0x8, 128, 8, 1, false, true, false, false, .one,
      [⟨63, 63, .w1c, 0x0⟩, ⟨62, 60, .ro, 0x0⟩, ⟨59, 24, .ro, 0x0⟩, ⟨23, 0, .ro, 0x0⟩]⟩
  | .tgSel => ⟨0x88000, 0x8, 1, 4, 1, false, true, false, false, .level,
      [⟨31, 6, .rsvd, 0x0⟩, ⟨5, 0, .rw, 0x0⟩]⟩
  | .tgCfg => ⟨0x88008, 0x8, 1, 8, 1, false, true, false, false, .tg,
      [⟨63, 32, .rw, 0x0⟩, ⟨31, 28, .rsvd, 0x0⟩, ⟨27, 24, .rw, 0x0⟩, ⟨23, 22, .rw, 0x0⟩, ⟨21, 21, .rw, 0x0⟩, ⟨20, 20, .rw, 0x0⟩, ⟨19, 16, .rsvd, 0x0⟩, ⟨15, 0, .rw, 0x1⟩]⟩
  | .tgRange => ⟨0x88010, 0x8, 1, 8, 1, false, true, false, false, .tg,
      [⟨63, 56, .rsvd, 0x0⟩, ⟨55, 32, .rw, 0x0⟩, ⟨31, 24, .rsvd, 0x0⟩, ⟨23, 0, .rw, 0x0⟩]⟩
  | .tgCtrl => ⟨0x88018, 0x8, 1, 4, 1, false, true, false, false, .tg,
      [⟨31, 2, .rsvd, 0x0⟩, ⟨1, 1, .wo, 0x0⟩, ⟨0, 0, .wo, 0x0⟩]⟩
  | .tgStatus => ⟨0x88020, 0x8, 1, 8, 1, false, true, false, false, .tg,
      [⟨63, 63, .w1c, 0x0⟩, ⟨62, 62, .ro, 0x0⟩, ⟨61, 56, .rsvd, 0x0⟩, ⟨55, 32, .ro, 0x0⟩, ⟨31, 19, .rsvd, 0x0⟩, ⟨18, 16, .ro, 0x0⟩, ⟨15, 0, .ro, 0x0⟩]⟩
  | .tgErrcnt => ⟨0x88028, 0x8, 1, 8, 1, false, true, false, false, .tg,
      [⟨63, 63, .w1c, 0x0⟩, ⟨62, 0, .rw, 0x0⟩]⟩
  | .memBandMode => ⟨0x40000, 0x8, 1024, 8, 1, true, false, false, false, .one,
      [⟨63, 0, .rw, 0x0⟩]⟩
  | .memRetireCtrl => ⟨0x42000, 0x8, 1, 8, 1, true, false, false, false, .one,
      [⟨63, 48, .ro, 0x0⟩, ⟨47, 32, .ro, 0x0⟩, ⟨31, 29, .rsvd, 0x0⟩, ⟨28, 26, .ro, 0x0⟩, ⟨25, 25, .wo, 0x0⟩, ⟨24, 16, .rw, 0x0⟩, ⟨15, 5, .rsvd, 0x0⟩, ⟨4, 0, .ro, 0x0⟩]⟩
  | .memRetireEntry => ⟨0x42100, 0x8, 16, 8, 1, true, false, false, false, .one,
      [⟨63, 63, .ro, 0x0⟩, ⟨62, 41, .rsvd, 0x0⟩, ⟨40, 32, .ro, 0x0⟩, ⟨31, 31, .rsvd, 0x0⟩, ⟨30, 16, .ro, 0x0⟩, ⟨15, 8, .rsvd, 0x0⟩, ⟨7, 0, .ro, 0x0⟩]⟩
  | .memDirCfg => ⟨0x90000, 0x8, 1, 4, 1, true, true, true, false, .one,
      [⟨31, 20, .rw, 0x3E8⟩, ⟨19, 12, .rsvd, 0x0⟩, ⟨11, 0, .rw, 0x32⟩]⟩
  | .memDirAgentDown => ⟨0x90008, 0x8, 1, 8, 1, false, true, false, false, .one,
      [⟨63, 35, .rsvd, 0x0⟩, ⟨34, 0, .ro, 0x0⟩]⟩
  | .memDirToutRec => ⟨0x90010, 0x8, 1, 8, 1, false, true, false, false, .one,
      [⟨63, 63, .w1c, 0x0⟩, ⟨62, 57, .ro, 0x0⟩, ⟨56, 54, .ro, 0x0⟩, ⟨53, 45, .rsvd, 0x0⟩, ⟨44, 0, .ro, 0x0⟩]⟩
  | .memDirToutCnt => ⟨0x90018, 0x8, 1, 8, 1, false, true, false, false, .one,
      [⟨63, 63, .w1c, 0x0⟩, ⟨62, 0, .rw, 0x0⟩]⟩
  | .memDirNackCnt => ⟨0x90020, 0x8, 1, 8, 1, false, true, false, false, .one,
      [⟨63, 63, .w1c, 0x0⟩, ⟨62, 0, .rw, 0x0⟩]⟩
  | .memDirTokenCnt => ⟨0x90028, 0x8, 1, 8, 1, false, true, false, false, .one,
      [⟨63, 63, .w1c, 0x0⟩, ⟨62, 0, .rw, 0x0⟩]⟩
  | .memDirRecallCnt => ⟨0x90030, 0x8, 1, 8, 1, false, true, false, false, .one,
      [⟨63, 63, .w1c, 0x0⟩, ⟨62, 0, .rw, 0x0⟩]⟩
  | .cptCmd => ⟨0x50000, 0x8, 1, 8, 2, true, false, false, false, .bank,
      [⟨63, 63, .ro, 0x0⟩, ⟨62, 60, .rsvd, 0x0⟩, ⟨59, 56, .ro, 0x0⟩, ⟨55, 52, .rsvd, 0x0⟩, ⟨51, 48, .wo, 0x0⟩, ⟨47, 30, .rw, 0x0⟩, ⟨29, 12, .rsvd, 0x0⟩, ⟨11, 0, .rw, 0x0⟩]⟩
  | .cptStage0 => ⟨0x50008, 0x8, 1, 8, 2, true, false, false, false, .bank,
      [⟨63, 0, .rw, 0x0⟩]⟩
  | .cptStage1 => ⟨0x50010, 0x8, 1, 8, 2, true, false, false, false, .bank,
      [⟨63, 0, .rw, 0x0⟩]⟩
  | .xltInvCmd => ⟨0x52000, 0x8, 1, 8, 2, true, false, false, false, .bank,
      [⟨63, 63, .ro, 0x0⟩, ⟨62, 60, .rsvd, 0x0⟩, ⟨59, 56, .ro, 0x0⟩, ⟨55, 50, .rsvd, 0x0⟩, ⟨49, 48, .rw, 0x0⟩, ⟨47, 40, .rw, 0x0⟩, ⟨39, 13, .rsvd, 0x0⟩, ⟨12, 12, .wo, 0x0⟩, ⟨11, 0, .rw, 0x0⟩]⟩
  | .xltInvAddr => ⟨0x52008, 0x8, 1, 8, 2, true, false, false, false, .bank,
      [⟨63, 57, .rsvd, 0x0⟩, ⟨56, 16, .rw, 0x0⟩, ⟨15, 0, .rw, 0x0⟩]⟩
  | .xltViolAddr => ⟨0xA0000, 0x8, 1, 8, 1, true, true, false, false, .one,
      [⟨63, 0, .ro, 0x0⟩]⟩
  | .xltViolInfo => ⟨0xA0008, 0x8, 1, 8, 1, true, true, false, false, .one,
      [⟨63, 63, .w1c, 0x0⟩, ⟨62, 62, .w1c, 0x0⟩, ⟨61, 46, .rw, 0x0⟩, ⟨45, 44, .ro, 0x0⟩, ⟨43, 40, .ro, 0x0⟩, ⟨39, 36, .ro, 0x0⟩, ⟨35, 34, .ro, 0x0⟩, ⟨33, 32, .rsvd, 0x0⟩, ⟨31, 16, .ro, 0x0⟩, ⟨15, 12, .rsvd, 0x0⟩, ⟨11, 0, .ro, 0x0⟩]⟩
  | .dmaIfVersion => ⟨0xB0000, 0x8, 1, 4, 2, true, true, false, true, .one,
      [⟨31, 16, .rsvd, 0x0⟩, ⟨15, 8, .ro, 0x1⟩, ⟨7, 0, .ro, 0x0⟩]⟩
  | .cqIfVersion => ⟨0xB0008, 0x8, 1, 4, 2, false, true, false, true, .one,
      [⟨31, 16, .rsvd, 0x0⟩, ⟨15, 8, .ro, 0x1⟩, ⟨7, 0, .ro, 0x0⟩]⟩
  | .dmaSel => ⟨0xB1000, 0x8, 1, 4, 2, true, true, false, true, .level,
      [⟨31, 6, .rsvd, 0x0⟩, ⟨5, 0, .rw, 0x0⟩]⟩
  | .dmaCtx => ⟨0xB1008, 0x8, 1, 8, 2, true, true, false, true, .dma,
      [⟨63, 56, .rw, 0x0⟩, ⟨55, 46, .rsvd, 0x0⟩, ⟨45, 40, .rw, 0x0⟩, ⟨39, 34, .rsvd, 0x0⟩, ⟨33, 32, .rw, 0x0⟩, ⟨31, 13, .rsvd, 0x0⟩, ⟨12, 12, .rw, 0x0⟩, ⟨11, 0, .rw, 0x0⟩]⟩
  | .dmaChain => ⟨0xB1010, 0x8, 1, 8, 2, true, true, false, true, .dma,
      [⟨63, 57, .rsvd, 0x0⟩, ⟨56, 0, .rw, 0x0⟩]⟩
  | .dmaCtrl => ⟨0xB1018, 0x8, 1, 4, 2, true, true, false, true, .dma,
      [⟨31, 31, .rw, 0x1⟩, ⟨30, 4, .rsvd, 0x0⟩, ⟨3, 3, .wo, 0x0⟩, ⟨2, 2, .wo, 0x0⟩, ⟨1, 1, .wo, 0x0⟩, ⟨0, 0, .wo, 0x0⟩]⟩
  | .dmaStatus => ⟨0xB1020, 0x8, 1, 8, 2, true, true, false, true, .dma,
      [⟨63, 32, .ro, 0x0⟩, ⟨31, 12, .rsvd, 0x0⟩, ⟨11, 8, .ro, 0x0⟩, ⟨7, 3, .rsvd, 0x0⟩, ⟨2, 0, .ro, 0x0⟩]⟩
  | .dmaCursor => ⟨0xB1028, 0x8, 1, 8, 2, true, true, false, true, .dma,
      [⟨63, 32, .ro, 0x0⟩, ⟨31, 0, .ro, 0x0⟩]⟩
  | .dmaFault => ⟨0xB1030, 0x8, 4, 8, 2, true, true, false, true, .dma,
      [⟨63, 0, .ro, 0x0⟩]⟩
  | .cqSel => ⟨0xB2000, 0x8, 1, 4, 2, false, true, false, true, .level,
      [⟨31, 6, .rsvd, 0x0⟩, ⟨5, 0, .rw, 0x0⟩]⟩
  | .cqCfg => ⟨0xB2008, 0x8, 1, 8, 2, false, true, false, true, .cq,
      [⟨63, 56, .rw, 0x0⟩, ⟨55, 50, .rw, 0x0⟩, ⟨49, 48, .rw, 0x0⟩, ⟨47, 32, .rw, 0x0⟩, ⟨31, 28, .rw, 0x0⟩, ⟨27, 24, .ro, 0x0⟩, ⟨23, 21, .ro, 0x5⟩, ⟨20, 13, .rsvd, 0x0⟩, ⟨12, 12, .rw, 0x0⟩, ⟨11, 0, .rw, 0x0⟩]⟩
  | .cqBase => ⟨0xB2010, 0x8, 1, 8, 2, false, true, false, true, .cq,
      [⟨63, 57, .rsvd, 0x0⟩, ⟨56, 0, .rw, 0x0⟩]⟩
  | .cqPtr => ⟨0xB2018, 0x8, 1, 8, 2, false, true, false, true, .cq,
      [⟨63, 32, .ro, 0x0⟩, ⟨31, 0, .ro, 0x0⟩]⟩
  | .cqCount => ⟨0xB2020, 0x8, 1, 8, 2, false, true, false, true, .cq,
      [⟨63, 63, .w1c, 0x0⟩, ⟨62, 0, .rw, 0x0⟩]⟩
  | .cqDoorbell => ⟨0xC0000, 0x1000, 64, 4, 3, false, true, false, true, .one,
      [⟨31, 0, .wo, 0x0⟩]⟩
  | .eqSel => ⟨0xB3000, 0x8, 1, 4, 2, true, true, false, true, .level,
      [⟨31, 6, .rsvd, 0x0⟩, ⟨5, 0, .rw, 0x0⟩]⟩
  | .eqCfg => ⟨0xB3008, 0x8, 1, 8, 2, true, true, false, true, .eq,
      [⟨63, 56, .rw, 0x0⟩, ⟨55, 49, .rw, 0x7F⟩, ⟨48, 41, .rw, 0x0⟩, ⟨40, 13, .rsvd, 0x0⟩, ⟨12, 12, .rw, 0x0⟩, ⟨11, 0, .rw, 0x0⟩]⟩
  | .eqBase => ⟨0xB3010, 0x8, 1, 8, 2, true, true, false, true, .eq,
      [⟨63, 57, .rsvd, 0x0⟩, ⟨56, 0, .rw, 0x0⟩]⟩
  | .eqStatus => ⟨0xB3018, 0x8, 1, 8, 2, true, true, false, true, .eq,
      [⟨63, 48, .ro, 0x0⟩, ⟨47, 41, .rsvd, 0x0⟩, ⟨40, 40, .w1c, 0x0⟩, ⟨39, 35, .rsvd, 0x0⟩, ⟨34, 32, .ro, 0x0⟩, ⟨31, 24, .rsvd, 0x0⟩, ⟨23, 16, .ro, 0x0⟩, ⟨15, 9, .rsvd, 0x0⟩, ⟨8, 0, .ro, 0x0⟩]⟩
  | .eqOp => ⟨0xB3020, 0x8, 1, 8, 2, true, true, false, true, .eq,
      [⟨63, 32, .wo, 0x0⟩, ⟨31, 10, .rsvd, 0x0⟩, ⟨9, 9, .wo, 0x0⟩, ⟨8, 0, .wo, 0x0⟩]⟩
  | .cqPreempt => ⟨0xB4000, 0x8, 1, 8, 2, false, true, false, true, .one,
      [⟨63, 63, .ro, 0x0⟩, ⟨62, 60, .rsvd, 0x0⟩, ⟨59, 56, .ro, 0x0⟩, ⟨55, 52, .wo, 0x0⟩, ⟨51, 46, .rw, 0x0⟩, ⟨45, 37, .ro, 0x0⟩, ⟨36, 28, .ro, 0x0⟩, ⟨27, 24, .rsvd, 0x0⟩, ⟨23, 12, .rw, 0x0⟩, ⟨11, 0, .rw, 0x0⟩]⟩
  | .cqPreemptArg => ⟨0xB4008, 0x8, 1, 8, 2, false, true, false, true, .one,
      [⟨63, 23, .rsvd, 0x0⟩, ⟨22, 16, .rw, 0x0⟩, ⟨15, 9, .rsvd, 0x0⟩, ⟨8, 0, .rw, 0x0⟩]⟩
  | .cqPreemptArea => ⟨0xB4010, 0x8, 1, 8, 2, false, true, false, true, .one,
      [⟨63, 57, .rsvd, 0x0⟩, ⟨56, 0, .rw, 0x0⟩]⟩
  | .cqPreemptBarea => ⟨0xB4018, 0x8, 1, 8, 2, false, true, false, true, .one,
      [⟨63, 57, .rsvd, 0x0⟩, ⟨56, 0, .rw, 0x0⟩]⟩
  | .hubPcieCfg => ⟨0xD0000, 0x8, 4, 4, 1, true, false, false, false, .one,
      [⟨31, 30, .rw, 0x0⟩, ⟨29, 28, .ro, 0x0⟩, ⟨27, 23, .ro, 0x0⟩, ⟨22, 20, .ro, 0x0⟩, ⟨19, 19, .ro, 0x0⟩, ⟨18, 0, .rsvd, 0x0⟩]⟩
  | .hubSluiceCtrl => ⟨0xD1000, 0x8, 1, 8, 1, true, false, false, false, .one,
      [⟨63, 63, .rw, 0x0⟩, ⟨62, 61, .rw, 0x0⟩, ⟨60, 52, .rsvd, 0x0⟩, ⟨51, 28, .rw, 0x0⟩, ⟨27, 12, .rsvd, 0x0⟩, ⟨11, 0, .rw, 0x0⟩]⟩
  | .hubRpWin => ⟨0xD1010, 0x8, 4, 8, 1, true, false, false, false, .one,
      [⟨63, 63, .rw, 0x0⟩, ⟨62, 50, .rsvd, 0x0⟩, ⟨49, 32, .rw, 0x0⟩, ⟨31, 18, .rsvd, 0x0⟩, ⟨17, 0, .rw, 0x0⟩]⟩
  | .hubOrderStatus => ⟨0xD2000, 0x8, 1, 4, 2, true, false, false, false, .one,
      [⟨31, 31, .ro, 0x0⟩, ⟨30, 30, .ro, 0x0⟩, ⟨29, 3, .rsvd, 0x0⟩, ⟨2, 2, .ro, 0x0⟩, ⟨1, 1, .ro, 0x0⟩, ⟨0, 0, .ro, 0x1⟩]⟩
  | .mrcIfVersion => ⟨0xE0000, 0x8, 1, 4, 1, true, false, false, false, .one,
      [⟨31, 16, .rsvd, 0x0⟩, ⟨15, 8, .ro, 0x1⟩, ⟨7, 0, .ro, 0x0⟩]⟩
  | .mrcCfg => ⟨0xE0008, 0x8, 1, 8, 1, true, false, false, false, .one,
      [⟨63, 48, .rw, 0xFFFF⟩, ⟨47, 36, .rw, 0x64⟩, ⟨35, 32, .rw, 0x0⟩, ⟨31, 0, .rsvd, 0x0⟩]⟩
  | .mrcStageBase => ⟨0xE0010, 0x8, 1, 8, 1, true, false, false, false, .one,
      [⟨63, 57, .rsvd, 0x0⟩, ⟨56, 0, .rw, 0x0⟩]⟩
  | .mrcPeerLog => ⟨0xE0080, 0x8, 1, 8, 1, true, false, false, false, .one,
      [⟨63, 63, .w1c, 0x0⟩, ⟨62, 62, .w1c, 0x0⟩, ⟨61, 56, .rsvd, 0x0⟩, ⟨55, 40, .rw, 0x0⟩, ⟨39, 24, .ro, 0x0⟩, ⟨23, 20, .ro, 0x0⟩, ⟨19, 0, .rsvd, 0x0⟩]⟩
  | .mrcPortStatus => ⟨0xE0100, 0x8, 12, 4, 1, true, false, false, false, .one,
      [⟨31, 31, .ro, 0x0⟩, ⟨30, 30, .ro, 0x0⟩, ⟨29, 28, .rsvd, 0x0⟩, ⟨27, 24, .ro, 0x0⟩, ⟨23, 16, .rsvd, 0x0⟩, ⟨15, 8, .ro, 0x0⟩, ⟨7, 0, .ro, 0x0⟩]⟩
  | .mrcSqSel => ⟨0xE1000, 0x8, 1, 4, 2, true, false, false, false, .level,
      [⟨31, 6, .rsvd, 0x0⟩, ⟨5, 0, .rw, 0x0⟩]⟩
  | .mrcSqCfg => ⟨0xE1008, 0x8, 1, 8, 2, true, false, false, false, .sq,
      [⟨63, 56, .rw, 0x0⟩, ⟨55, 52, .rw, 0x0⟩, ⟨51, 50, .rw, 0x0⟩, ⟨49, 49, .rw, 0x0⟩, ⟨48, 48, .rsvd, 0x0⟩, ⟨47, 32, .rw, 0x0⟩, ⟨31, 28, .rw, 0x0⟩, ⟨27, 24, .ro, 0x0⟩, ⟨23, 21, .ro, 0x4⟩, ⟨20, 13, .rsvd, 0x0⟩, ⟨12, 12, .rw, 0x0⟩, ⟨11, 0, .rw, 0x0⟩]⟩
  | .mrcSqBase => ⟨0xE1010, 0x8, 1, 8, 2, true, false, false, false, .sq,
      [⟨63, 57, .rsvd, 0x0⟩, ⟨56, 0, .rw, 0x0⟩]⟩
  | .mrcSqPtr => ⟨0xE1018, 0x8, 1, 8, 2, true, false, false, false, .sq,
      [⟨63, 32, .ro, 0x0⟩, ⟨31, 0, .ro, 0x0⟩]⟩
  | .mrcSqTailaddr => ⟨0xE1020, 0x8, 1, 8, 2, true, false, false, false, .sq,
      [⟨63, 57, .rsvd, 0x0⟩, ⟨56, 0, .rw, 0x0⟩]⟩
  | .mrcSnapCmd => ⟨0xE2000, 0x8, 1, 8, 1, true, false, false, false, .one,
      [⟨63, 63, .ro, 0x0⟩, ⟨62, 60, .rsvd, 0x0⟩, ⟨59, 56, .ro, 0x0⟩, ⟨55, 52, .wo, 0x0⟩, ⟨51, 20, .rsvd, 0x0⟩, ⟨19, 16, .ro, 0x0⟩, ⟨15, 0, .ro, 0x0⟩]⟩
  | .mrcSnapHandle => ⟨0xE2008, 0x8, 1, 8, 1, true, false, false, false, .one,
      [⟨63, 0, .rw, 0x0⟩]⟩
  | .mrcSnapArea => ⟨0xE2010, 0x8, 1, 8, 1, true, false, false, false, .one,
      [⟨63, 57, .rsvd, 0x0⟩, ⟨56, 0, .rw, 0x0⟩]⟩
  | .mrcSqDoorbell => ⟨0x100000, 0x1000, 64, 4, 3, true, false, false, false, .one,
      [⟨31, 0, .wo, 0x0⟩]⟩
  | .pwrLimit => ⟨0x20000, 0x8, 1, 4, 1, true, false, false, false, .one,
      [⟨31, 24, .rsvd, 0x0⟩, ⟨23, 16, .ro, 0x20⟩, ⟨15, 8, .rw, 0x50⟩, ⟨7, 0, .rw, 0x20⟩]⟩
  | .pwrStatus => ⟨0x20008, 0x8, 1, 8, 1, true, false, false, false, .one,
      [⟨63, 48, .ro, 0x0⟩, ⟨47, 40, .ro, 0x0⟩, ⟨39, 36, .ro, 0x0⟩, ⟨35, 35, .ro, 0x0⟩, ⟨34, 34, .ro, 0x0⟩, ⟨33, 33, .ro, 0x0⟩, ⟨32, 11, .rsvd, 0x0⟩, ⟨10, 0, .ro, 0x0⟩]⟩
  | .pwrDie => ⟨0x20100, 0x8, 15, 8, 1, true, false, false, false, .one,
      [⟨63, 48, .ro, 0x0⟩, ⟨47, 32, .ro, 0x0⟩, ⟨31, 24, .ro, 0x0⟩, ⟨23, 17, .rsvd, 0x0⟩, ⟨16, 8, .ro, 0x100⟩, ⟨7, 1, .rsvd, 0x0⟩, ⟨0, 0, .ro, 0x0⟩]⟩
  | .pwrStateCtrl => ⟨0x21000, 0x8, 1, 8, 1, true, false, false, false, .one,
      [⟨63, 32, .rw, 0x0⟩, ⟨31, 16, .rw, 0xA⟩, ⟨15, 7, .rsvd, 0x0⟩, ⟨6, 4, .wo, 0x0⟩, ⟨3, 2, .rsvd, 0x0⟩, ⟨1, 1, .rw, 0x1⟩, ⟨0, 0, .rsvd, 0x0⟩]⟩
  | .pwrStateStatus => ⟨0x21008, 0x8, 1, 4, 1, true, false, false, false, .one,
      [⟨31, 28, .ro, 0x0⟩, ⟨27, 24, .ro, 0x0⟩, ⟨23, 20, .ro, 0x0⟩, ⟨19, 16, .ro, 0x0⟩, ⟨15, 8, .ro, 0x0⟩, ⟨7, 0, .rsvd, 0x0⟩]⟩
  | .pwrWakeRec => ⟨0x21010, 0x8, 1, 8, 1, true, false, false, false, .one,
      [⟨63, 63, .w1c, 0x0⟩, ⟨62, 60, .ro, 0x0⟩, ⟨59, 56, .ro, 0x0⟩, ⟨55, 48, .ro, 0x0⟩, ⟨47, 0, .ro, 0x0⟩]⟩
  | .pwrRtcCount => ⟨0x21018, 0x8, 1, 8, 1, true, false, false, false, .one,
      [⟨63, 0, .ro, 0x0⟩]⟩
  | .pwrRtcAlarm => ⟨0x21020, 0x8, 1, 8, 1, true, false, false, false, .one,
      [⟨63, 63, .rw, 0x0⟩, ⟨62, 62, .w1c, 0x0⟩, ⟨61, 48, .rsvd, 0x0⟩, ⟨47, 0, .rw, 0x0⟩]⟩
  | .pwrFanCfg => ⟨0x22000, 0x8, 1, 8, 1, true, false, false, false, .one,
      [⟨63, 63, .rw, 0x0⟩, ⟨62, 60, .rsvd, 0x0⟩, ⟨59, 48, .rw, 0x0⟩, ⟨47, 32, .rw, 0x0⟩, ⟨31, 16, .rsvd, 0x0⟩, ⟨15, 8, .rw, 0x1⟩, ⟨7, 0, .rsvd, 0x0⟩]⟩
  | .pwrEnSel => ⟨0x23000, 0x8, 1, 4, 2, true, false, false, false, .level,
      [⟨31, 12, .rsvd, 0x0⟩, ⟨11, 0, .rw, 0x0⟩]⟩
  | .pwrSnap => ⟨0x23008, 0x8, 1, 8, 2, true, false, false, false, .level,
      [⟨63, 63, .wo, 0x0⟩, ⟨62, 0, .ro, 0x0⟩]⟩
  | .pwrEnCount => ⟨0x23010, 0x8, 1, 8, 2, true, false, false, false, .en,
      [⟨63, 63, .w1c, 0x0⟩, ⟨62, 0, .rw, 0x0⟩]⟩
  | .pwrPkgEnergy => ⟨0x24000, 0x8, 1, 8, 1, true, false, false, false, .one,
      [⟨63, 63, .w1c, 0x0⟩, ⟨62, 0, .rw, 0x0⟩]⟩
  | .pwrDroopCnt => ⟨0x24008, 0x8, 1, 8, 1, true, false, false, false, .one,
      [⟨63, 63, .w1c, 0x0⟩, ⟨62, 0, .rw, 0x0⟩]⟩
  | .pwrExcurCnt => ⟨0x24010, 0x8, 1, 8, 1, true, false, false, false, .one,
      [⟨63, 63, .w1c, 0x0⟩, ⟨62, 0, .rw, 0x0⟩]⟩
  | .pwrResid => ⟨0x24040, 0x8, 5, 8, 1, true, false, false, false, .one,
      [⟨63, 63, .w1c, 0x0⟩, ⟨62, 0, .rw, 0x0⟩]⟩
  | .pwrDieEnergy => ⟨0x24100, 0x8, 15, 8, 1, true, false, false, false, .one,
      [⟨63, 63, .w1c, 0x0⟩, ⟨62, 0, .rw, 0x0⟩]⟩
  | .pwrBubbleCnt => ⟨0x24200, 0x8, 15, 8, 1, true, false, false, false, .one,
      [⟨63, 63, .w1c, 0x0⟩, ⟨62, 0, .rw, 0x0⟩]⟩
  | .fltFirst => ⟨0x10000, 0x8, 1, 8, 1, true, true, true, false, .one,
      [⟨63, 63, .ro, 0x0⟩, ⟨62, 62, .ro, 0x0⟩, ⟨61, 61, .ro, 0x0⟩, ⟨60, 48, .rsvd, 0x0⟩, ⟨47, 32, .ro, 0x0⟩, ⟨31, 8, .rsvd, 0x0⟩, ⟨7, 0, .ro, 0x0⟩]⟩
  | .fltFirstTime => ⟨0x10008, 0x8, 1, 8, 1, true, true, true, false, .one,
      [⟨63, 0, .ro, 0x0⟩]⟩
  | .fltFirstInfo => ⟨0x10010, 0x8, 1, 4, 1, true, true, true, false, .one,
      [⟨31, 0, .ro, 0x0⟩]⟩
  | .fltCtrl => ⟨0x10018, 0x8, 1, 4, 1, true, true, true, false, .one,
      [⟨31, 2, .rsvd, 0x0⟩, ⟨1, 1, .wo, 0x0⟩, ⟨0, 0, .wo, 0x0⟩]⟩
  | .fltSticky => ⟨0x10020, 0x8, 4, 8, 1, true, true, true, false, .one,
      [⟨63, 0, .w1c, 0x0⟩]⟩
  | .fltIntCfg => ⟨0x10040, 0x8, 1, 4, 1, true, true, true, false, .one,
      [⟨31, 25, .rw, 0x7F⟩, ⟨24, 17, .rw, 0x0⟩, ⟨16, 0, .rsvd, 0x0⟩]⟩
  | .fltReact => ⟨0x11000, 0x8, 256, 4, 0, true, true, true, false, .one,
      [⟨31, 5, .rsvd, 0x0⟩, ⟨4, 4, .rw, 0x0⟩, ⟨3, 3, .rw, 0x0⟩, ⟨2, 2, .rw, 0x0⟩, ⟨1, 1, .rw, 0x0⟩, ⟨0, 0, .rw, 0x0⟩]⟩
  | .fltForce => ⟨0x12000, 0x8, 4, 8, 0, true, true, true, false, .one,
      [⟨63, 0, .wo, 0x0⟩]⟩
  | .fltWeirCfg => ⟨0x12040, 0x8, 1, 4, 0, true, true, true, false, .one,
      [⟨31, 16, .rsvd, 0x0⟩, ⟨15, 0, .rw, 0xC8⟩]⟩
  | .fltAlive => ⟨0x12048, 0x8, 1, 4, 0, true, false, false, false, .one,
      [⟨31, 31, .ro, 0x0⟩, ⟨30, 30, .ro, 0x0⟩, ⟨29, 28, .ro, 0x0⟩, ⟨27, 1, .rsvd, 0x0⟩, ⟨0, 0, .wo, 0x0⟩]⟩
  | .fltWdt => ⟨0x12050, 0x8, 1, 4, 0, true, false, false, false, .one,
      [⟨31, 31, .rw, 0x0⟩, ⟨30, 30, .wo, 0x0⟩, ⟨29, 29, .ro, 0x0⟩, ⟨28, 16, .rsvd, 0x0⟩, ⟨15, 0, .rw, 0x64⟩]⟩
  | .fltPkgFirst => ⟨0x13000, 0x8, 1, 8, 1, true, false, false, false, .one,
      [⟨63, 63, .ro, 0x0⟩, ⟨62, 62, .ro, 0x0⟩, ⟨61, 61, .ro, 0x0⟩, ⟨60, 57, .ro, 0x0⟩, ⟨56, 49, .ro, 0x0⟩, ⟨48, 33, .ro, 0x0⟩, ⟨32, 32, .rsvd, 0x0⟩, ⟨31, 0, .ro, 0x0⟩]⟩
  | .fltPkgTime => ⟨0x13008, 0x8, 1, 8, 1, true, false, false, false, .one,
      [⟨63, 0, .ro, 0x0⟩]⟩
  | .fltResetCause => ⟨0x13010, 0x8, 1, 4, 1, true, false, false, false, .one,
      [⟨31, 16, .rsvd, 0x0⟩, ⟨15, 12, .ro, 0x0⟩, ⟨11, 4, .ro, 0x0⟩, ⟨3, 0, .ro, 0x1⟩]⟩
  | .fltResetReq => ⟨0x13018, 0x8, 1, 8, 1, true, false, false, false, .one,
      [⟨63, 63, .ro, 0x0⟩, ⟨62, 60, .rsvd, 0x0⟩, ⟨59, 56, .ro, 0x0⟩, ⟨55, 52, .rsvd, 0x0⟩, ⟨51, 48, .rw, 0x0⟩, ⟨47, 44, .rw, 0x0⟩, ⟨43, 41, .rw, 0x0⟩, ⟨40, 35, .rw, 0x0⟩, ⟨34, 1, .rsvd, 0x0⟩, ⟨0, 0, .wo, 0x0⟩]⟩
  | .fltTileRetire => ⟨0x13000, 0x8, 2, 8, 1, false, true, false, false, .one,
      [⟨63, 0, .w1s, 0x0⟩]⟩
  | .licStatus => ⟨0x30000, 0x8, 1, 8, 1, true, false, false, false, .one,
      [⟨63, 32, .ro, 0x0⟩, ⟨31, 28, .ro, 0x0⟩, ⟨27, 24, .ro, 0x0⟩, ⟨23, 21, .rsvd, 0x0⟩, ⟨20, 20, .ro, 0x0⟩, ⟨19, 18, .ro, 0x0⟩, ⟨17, 16, .ro, 0x0⟩, ⟨15, 2, .ro, 0x0⟩, ⟨1, 0, .ro, 0x0⟩]⟩
  | .fwStatus => ⟨0x31000, 0x8, 1, 8, 1, true, false, false, false, .one,
      [⟨63, 48, .ro, 0x0⟩, ⟨47, 32, .ro, 0x0⟩, ⟨31, 16, .ro, 0x0⟩, ⟨15, 12, .ro, 0x0⟩, ⟨11, 5, .rsvd, 0x0⟩, ⟨4, 4, .ro, 0x0⟩, ⟨3, 3, .ro, 0x0⟩, ⟨2, 2, .ro, 0x0⟩, ⟨1, 1, .ro, 0x0⟩, ⟨0, 0, .w1s, 0x0⟩]⟩
  | .pinMux => ⟨0xF0000, 0x8, 32, 4, 1, true, false, false, false, .one,
      [⟨31, 31, .ro, 0x0⟩, ⟨30, 8, .rsvd, 0x0⟩, ⟨7, 6, .rw, 0x0⟩, ⟨5, 4, .rw, 0x1⟩, ⟨3, 2, .rsvd, 0x0⟩, ⟨1, 0, .rw, 0x0⟩]⟩
  | .pinGpioCtrl => ⟨0xF0100, 0x8, 1, 8, 1, true, false, false, false, .one,
      [⟨63, 32, .rw, 0x0⟩, ⟨31, 0, .rw, 0x0⟩]⟩
  | .pinGpioIn => ⟨0xF0108, 0x8, 1, 4, 1, true, false, false, false, .one,
      [⟨31, 0, .ro, 0x0⟩]⟩

/-- Every register name, for lookup by offset. -/
def regNames : List RegName :=
  List.flatten [
   [.hubDieId, .hubPartitionState, .hubReady, .linkStatus, .mxIfVersion, .vxIfVersion, .burIfVersion, .burState, .burFault, .smpIfVersion, .smpState, .memCfg],
   [.memPchState, .memIdieCnt, .memCorrCnt, .memUncorCnt, .memErrRec, .tgSel, .tgCfg, .tgRange, .tgCtrl, .tgStatus, .tgErrcnt, .memBandMode],
   [.memRetireCtrl, .memRetireEntry, .memDirCfg, .memDirAgentDown, .memDirToutRec, .memDirToutCnt, .memDirNackCnt, .memDirTokenCnt, .memDirRecallCnt, .cptCmd, .cptStage0, .cptStage1],
   [.xltInvCmd, .xltInvAddr, .xltViolAddr, .xltViolInfo, .dmaIfVersion, .cqIfVersion, .dmaSel, .dmaCtx, .dmaChain, .dmaCtrl, .dmaStatus, .dmaCursor],
   [.dmaFault, .cqSel, .cqCfg, .cqBase, .cqPtr, .cqCount, .cqDoorbell, .eqSel, .eqCfg, .eqBase, .eqStatus, .eqOp],
   [.cqPreempt, .cqPreemptArg, .cqPreemptArea, .cqPreemptBarea, .hubPcieCfg, .hubSluiceCtrl, .hubRpWin, .hubOrderStatus, .mrcIfVersion, .mrcCfg, .mrcStageBase, .mrcPeerLog],
   [.mrcPortStatus, .mrcSqSel, .mrcSqCfg, .mrcSqBase, .mrcSqPtr, .mrcSqTailaddr, .mrcSnapCmd, .mrcSnapHandle, .mrcSnapArea, .mrcSqDoorbell, .pwrLimit, .pwrStatus],
   [.pwrDie, .pwrStateCtrl, .pwrStateStatus, .pwrWakeRec, .pwrRtcCount, .pwrRtcAlarm, .pwrFanCfg, .pwrEnSel, .pwrSnap, .pwrEnCount, .pwrPkgEnergy, .pwrDroopCnt],
   [.pwrExcurCnt, .pwrResid, .pwrDieEnergy, .pwrBubbleCnt, .fltFirst, .fltFirstTime, .fltFirstInfo, .fltCtrl, .fltSticky, .fltIntCfg, .fltReact, .fltForce],
   [.fltWeirCfg, .fltAlive, .fltWdt, .fltPkgFirst, .fltPkgTime, .fltResetCause, .fltResetReq, .fltTileRetire, .licStatus, .fwStatus, .pinMux, .pinGpioCtrl],
   [.pinGpioIn]]

end Sys2Proof.Machine
end

