-- ==== Sys2Proof/Machine/State.lean ====
section
/-!
DEFINITION. The state of the part as plain data: everything the chapters give it, the reasons a step can stop, and the
state at the application of the always-on supply.
-/

namespace Sys2Proof.Machine

/-- What is fused into a package when it is built. The fuse map (R258, R443): stack height; DIE_TYPE and GENERATION of the dies HUB,
HD0, HD1, CD0 to CD3 in that order; built tiles that failed at test by compute die and `13 * cluster + built tile`; the package unique
identifier; the least security version of an image (R453); the dies, and from 7 the stacks, that are not fitted; and the SHA-384 digests
of the four key slots for licences with the slots that are revoked (R447). And what the parts themselves hold, which step 9 compares
with it (R44, R444): HUB_DIE_ID of each die, and the height that each stack reports. -/
structure Fuse where
  high16 : Bool
  types : List Nat
  gen : List Nat
  ids : List W32
  heights : List Nat
  failed : List (Nat × Nat)
  uid : BitVec 128
  minSvn : Nat
  unfitted : List Nat
  keys : List Nat
  revoked : List Nat
deriving DecidableEq, Repr

/-- A change of memory by the command in progress: a byte at a location key, every byte of a pseudo-channel zero, or every byte
of memory zero. -/
inductive JEnt where
  | byte (k : Nat) (b : Byte)
  | wipe (p : Nat)
  | wipeAll
deriving DecidableEq, Repr

/-- One copy of a control-space register: the die, the name, and the copy's number (array index, privilege level,
privilege bank or unit, whichever the register's table gives). -/
structure RKey where
  die : Die
  name : RegName
  idx : Nat
deriving DecidableEq, Repr

/-- The answer to the last command that a requester waits for: status and value. -/
structure Resp where
  status : Status
  value : W64
deriving DecidableEq, Repr

/-- Kinds of output. -/
inductive OutKind where
  | interrupt | trap | msix | packet | slack | mctp | mailbox | tlp | hostIrq | core | pin | rail | railOff | jtag | posted
deriving DecidableEq, Repr

/-- What leaves the part: kind by chapter, and numbers that the producing operation's text names. -/
structure Out where
  kind : OutKind
  args : List Nat
deriving DecidableEq, Repr

/-- One lane of a thread group (R87, R89, R140). `atBar` is 0, or the number of openings the lane still waits for (R92). -/
structure Lane where
  pc : W64
  exited : Bool
  atBar : Nat
  v : AMap Nat W32
  p : Nat
  gen : W64
deriving DecidableEq, Repr

/-- One thread group: its lanes, uniform registers, issue slot (R83), arrivals at a barrier not yet opened (R92) and the number of instructions issued. -/
structure Group where
  slot : Nat
  lanes : List Lane
  u : AMap Nat W64
  arrived : Nat
  issued : Nat
deriving DecidableEq, Repr

/-- Progress of one lane of a memory instruction. -/
inductive LState where
  /-- the translation of its page is not held yet -/
  | untr
  /-- its bytes overlap a buffered store, or the write buffer is full (R100) -/
  | held
  /-- waiting for the fill of its line, the answer to its buffered store, or ownership of its line -/
  | wait
  /-- its miss met an outstanding one and stalls the L1 (R99) -/
  | stall
  /-- answered -/
  | done (st : Status) (data : Nat)
deriving DecidableEq, Repr

/-- One executing lane of a memory instruction: virtual address or local offset, physical address once known. -/
structure MLane where
  lane : Nat
  addr : Nat
  pa : Nat
  il : Nat
  data : Nat
  st : LState
deriving DecidableEq, Repr

/-- An issued memory instruction, or a fence, that has not completed (R99, R104). `seq` orders instructions across the block, `gseq` within the
group. -/
structure MOp where
  oid : Nat
  bid : Nat
  grp : Nat
  seq : Nat
  gseq : Nat
  op : TOp
  word : W64
  pc : W64
  act : Nat
  lanes : List MLane
deriving DecidableEq, Repr

/-- The halt record of Table 3-6. -/
structure HaltRec where
  seq : Nat
  status : Status
  access : Nat
  group : Nat
  lanes : Nat
  pc : W64
  address : W64
  younger : Nat
  overflow : Bool
deriving DecidableEq, Repr

/-- What a resident block is doing. -/
inductive BState where
  | running
  | halted
  | stopping      -- a pre-emption request has reached it
  | retained      -- stopped and kept on the tile (R356)
deriving DecidableEq, Repr

/-- A resident block (R81-R94, R138, R150, R177): `bid` is its launching die and launch sequence number, `words` the six
words of its LAUNCH; then its sizes, its threads, counters, memories and engine state, its halt, and whether it has issued to the vector engine. -/
structure Block where
  bid : Nat
  words : List W64
  ctx : Nat
  pl : Nat
  width : Nat
  ngroups : Nat
  nregs : Nat
  size : Nat
  accN : Nat
  vxN : Nat
  st : BState
  groups : List Group
  k : List W32
  lmem : AMap Nat Byte
  acc : AMap (Nat × Nat) Nat
  bufs : AMap (Nat × Nat) W32
  lanegen : List W64
  halt : Option HaltRec
  told : Bool
  issued : Nat
  mxBad : Bool
  vxBad : Bool
  vxUsed : Bool
deriving DecidableEq, Repr

/-- One L1 line (R284, R285). -/
structure L1Line where
  set : Nat
  way : Nat
  line : Nat
  data : Line
deriving DecidableEq, Repr

/-- One write-buffer entry (R287): line, identity, mask and data, whether it has been sent, the lanes that wait for
its answer as (operation, lane), and whether all its stores carry the streaming hint (R132). -/
structure WbEnt where
  line : Nat
  ctx : Nat
  pl : Nat
  il : Nat
  mask : Nat
  data : Line
  sent : Bool
  who : List (Nat × Nat)
  strm : Bool
deriving DecidableEq, Repr

/-- An outstanding L1 miss: the instruction that missed, line, identity, whether the fill is installed, and whether it carries the
streaming hint (R284, R132). -/
structure Fill where
  oid : Nat
  line : Nat
  ctx : Nat
  pl : Nat
  il : Nat
  install : Bool
  strm : Bool
deriving DecidableEq, Repr

/-- One instruction-cache line (R113): context, virtual line number, data and poison of its halves. -/
structure ICLine where
  ctx : Nat
  vline : Nat
  data : Line
  bad : Nat
deriving DecidableEq, Repr

/-- An accepted engine descriptor (R142, R165, R197): issuer, counter, contents, progress; the broadcast vector read before its
first row pair (R182), and the lanes that have written the first element of a pair of normal variates (R193). -/
structure Desc where
  seq : Nat
  bid : Nat
  grp : Nat
  gseq : Nat
  act : Nat
  pc : W64
  ctr : Nat
  words : Nat
  prog : Nat
  checked : Bool
  fin : Option Status
  vec : List Nat
  odd : Nat
deriving DecidableEq, Repr

/-- A tile: its blocks, memory operations, caches, write buffer and engine queues. -/
structure Tile where
  blocks : List Block
  ops : List MOp
  nextOp : Nat
  l1 : List L1Line
  trees : AMap Nat Nat
  wb : List WbEnt
  fills : List Fill
  icache : List ICLine
  mx : List Desc
  vx : List Desc
deriving DecidableEq, Repr

/-- A tile that holds nothing. -/
def Tile.empty : Tile := ⟨[], [], 0, [], [], [], [], [], [], []⟩

/-- A launch in progress (R351): the die and queue it came from, its command word and operands, the tiles whose blocks are
not yet placed, and the blocks that have neither ended nor halted, as (die, tile). -/
structure Launch where
  die : Fin 4
  queue : Nat
  head : Nat
  seq : Nat
  ctx : Nat
  pl : Nat
  word : W64
  ops : List W64
  todo : List Nat
  live : List (Nat × Nat)
  st : Status
deriving DecidableEq, Repr

/-- An event that its producer holds until its queue accepts it (R355): producer 0 is the command processor, 1 + n
channel n, 64 + n sampler n. -/
structure HeldEv where
  die : Die
  prod : Nat
  queue : Nat
  ev : List Nat
deriving DecidableEq, Repr

/-- A command that a stream has begun (R349): its number, place, word, operands and carried context; whether it has
started; its final status once it has one; what its completion reports: a launch sequence number, or a Burr mask; and a
sampler descriptor that came back to be delivered again, with whether it had presented its request (R253). -/
structure Cmd where
  id : Nat
  die : Fin 4
  queue : Nat
  head : Nat
  word : W64
  ops : List W64
  ctx : Nat
  pl : Nat
  started : Bool
  fin : Option Status
  info : Nat
  tag : W64
  since : W64
  back : Option (Nat × Bool)
deriving DecidableEq, Repr

/-- A called buffer (R351): the CALL, its address, its words, and the words consumed. -/
structure CallPos where
  call : Cmd
  va : Nat
  words : Nat
  pos : Nat
deriving DecidableEq, Repr

/-- A program as a Burr holds it (R219): the die and number of its launch, context and level, header and operations, and whether a GATE that
waits ends it (R233). -/
structure BProg where
  home : Fin 4
  lid : Nat
  ctx : Nat
  pl : Nat
  hdr : Nat
  ops : List Nat
  draining : Bool
deriving DecidableEq, Repr

/-- A Burr (R203, R219, R225): scratch, the running and the pending program, blocks read ahead, by channel block, the source
bytes of a COPY within scratch as it began (R217), and whether a pause waits for feeds in flight (R230). -/
structure BurrU where
  scratch : AMap Nat Byte
  run : Option BProg
  pend : Option BProg
  ra : AMap Nat (BitVec 512)
  snap : List Byte
  pausing : Bool
deriving DecidableEq, Repr

/-- A Burr launch that has not completed (R218-R220): its command, the Burrs that it still has to reach, those that have
not ended, those whose status was not OK, and whether its completion is written (R233). -/
structure BLaunch where
  id : Nat
  die : Fin 4
  ctx : Nat
  pl : Nat
  hdr : Nat
  ops : List Nat
  todo : Nat
  left : Nat
  bad : Nat
  st : Status
  quiet : Bool
deriving DecidableEq, Repr

/-- A feed in flight (R222): its command, source, scratch offset, length, stride and the Burrs that it still has to reach. -/
structure Feed where
  id : Nat
  die : Fin 4
  ctx : Nat
  pl : Nat
  src : W64
  off : Nat
  len : Nat
  stride : W64
  todo : Nat
  st : Status
deriving DecidableEq, Repr

/-- A sampler descriptor in work (R238): its command, queue, context and level, the descriptor, whether it is reissued
(R253), the valid logits read so far as (index, binary32), and the elements read. -/
structure SmpJob where
  cmd : Nat
  queue : Nat
  ctx : Nat
  pl : Nat
  desc : Nat
  again : Bool
  x : List (Nat × Nat)
  pos : Nat
deriving DecidableEq, Repr

/-- A sampler (R238): its running and its pending descriptor. -/
structure SmpU where
  run : Option SmpJob
  pend : Option SmpJob
deriving DecidableEq, Repr

/-- A segment in flight (R343): its place and length, its status, and the fault record of an XLAT (Table 11-7). -/
structure DmaSeg where
  row : Nat
  byte : Nat
  len : Nat
  st : Status
  report : List Nat
deriving DecidableEq, Repr

/-- A chain in work (R343-R346): the current descriptor's address, the descriptor, whether it has been read and checked, the
next place to issue, whether an access of that place is under way, segments in flight, what stops the channel (0 nothing, 1
PAUSE, 2 a disable), the command that waits for the chain and its queue (0xFF for none), and, by address, source bytes as they
were before the descriptor's own writes (R342). -/
structure DmaRun where
  addr : Nat
  desc : Nat
  got : Bool
  row : Nat
  byte : Nat
  begun : Bool
  segs : List DmaSeg
  stop : Nat
  cmd : Option Nat
  queue : Nat
  old : AMap Nat Byte
deriving DecidableEq, Repr

/-- An operation of CQ_PREEMPT that is running on a compute die (R356, R357): OP, CTXID and SCTX; for a PREEMPT the blocks
not yet saved as (tile, block, image number), for a RESUME or RESTORE the images not yet loaded as (tile, address, 1 for
RESTORE); the counts and the status so far. -/
structure PreOp where
  op : Nat
  ctx : Nat
  sctx : Nat
  todo : List (Nat × Nat × Nat)
  saved : Nat
  retained : Nat
  st : Status
deriving DecidableEq, Repr

/-- An image that the last PREEMPT of a context on a die wrote: context, tile, address. -/
structure PreImg where
  die : Fin 4
  ctx : Nat
  tile : Nat
  va : Nat
deriving DecidableEq, Repr

/-- What an image's format has no place for: physical address and block of the image, tile, level, vector generators, whether its vector-engine region stands, and
the issue counts and issuing instructions of its unfinished descriptors. -/
structure PreSide where
  pa : Nat
  ctx : Nat
  bid : Nat
  home : TileRef
  pl : Nat
  lanegen : List W64
  vxUsed : Bool
  issued : Nat
  gissued : List Nat
  mx : List Desc
  vx : List Desc
deriving DecidableEq, Repr

/-- A Burr saved by BSAVE (R357): its die, context, Burr and image address, and what the image has no place for: the launch and
level of its program, and the source bytes of a COPY in progress. -/
structure BurrImg where
  die : Fin 4
  ctx : Nat
  idx : Nat
  va : Nat
  home : Fin 4
  lid : Nat
  pl : Nat
  draining : Bool
  snap : List Byte
deriving DecidableEq, Repr

/-- A requester that translates (Table 11-6); sampler and Burr by global index. -/
inductive XReq where
  | tile (t : TileRef)
  | cp (n : Fin 4)
  | dma (d : Die) (ch : Nat)
  | burr (i : Nat)
  | sampler (i : Nat)
  | sluice (p : Nat)
  | millrace (p : Nat)
deriving DecidableEq, Repr

/-- A cached translation (R315, R319): `bits` is 16 or 21, `outcome` the recorded reason for each access type and
privilege level (0 read, 1 write, 2 atomic, 3 fetch, four levels each), 0 where the access passes. -/
structure TlbE where
  who : XReq
  ctx : Nat
  bits : Nat
  vpage : Nat
  pbase : Nat
  il : Nat
  outcome : List Nat
deriving DecidableEq, Repr

/-- A page-table walk in progress: the access it serves, the level it reads next and the table it reads. -/
structure Walk where
  who : XReq
  ctx : Nat
  pl : Nat
  typ : Nat
  va : Nat
  level : Nat
  table : Nat
deriving DecidableEq, Repr

/-- A walk-cache entry: the table that serves level `level` for virtual addresses with prefix `pfx` (R318). -/
structure WcE where
  rep : Nat
  ctx : Nat
  level : Nat
  pfx : Nat
  table : Nat
deriving DecidableEq, Repr

/-- An access under way that a synchronising command waits for (R323, R329): the lanes of a tile's operation, the stores that an
operation left in a tile's write buffer, a request, a segment of a DMA channel's descriptor, or a request to PCIe. -/
inductive Drain where
  | lane (t : TileRef) (oid : Nat)
  | store (t : TileRef) (oid : Nat)
  | req (who pa : Nat)
  | seg (d : Die) (ch addr row byte : Nat)
  | out (rid pa : Nat)
deriving DecidableEq, Repr

/-- A command that the hub executes (R324): operation 1 to 11 of CPT_CMD, or 16 for an invalidation; the bank that it
was written through, 2 for a command stream; its operands; the stream's die and command; whether it has taken up what it waits
for, and that. -/
structure HubCmd where
  op : Nat
  bank : Nat
  ctx : Nat
  frame : Nat
  scope : Nat
  gid : Nat
  range : W64
  die : Nat
  cmd : Nat
  swept : Bool
  drain : List Drain
deriving DecidableEq, Repr

/-- A report of a fault source to its die's collector (R411). -/
structure Report where
  die : Die
  src : Nat
  info : W32
  forced : Bool
deriving DecidableEq, Repr

/-- An uncorrectable first read that waits for its re-read (R269): KIND of Table 9-11 to record, and whether a write of the
whole block has come since (R271). -/
structure Reread where
  p : Nat
  blk : Nat
  kind : Nat
  late : Bool
deriving DecidableEq, Repr

/-- The answer of the last controller read event: pseudo-channel, block, status and data (64 bytes). -/
structure CtlRead where
  p : Nat
  blk : Nat
  status : Status
  data : BitVec 512
deriving DecidableEq, Repr

/-- A running traffic-generator run (R276): its configuration as started, the accesses made, and the state of its
generator. -/
structure TgRun where
  die : Fin 4
  ch : Nat
  cfg : W64
  range : W64
  pos : Nat
  gen : W64
deriving DecidableEq, Repr

/-- Requests to a home (Table 10-4); `recall` is the home's own, which clears a line for a relayout (R281). -/
inductive ReqKind where
  | rdS | rdX | upg | itom | rdNc | wrNc | atNc | recall
deriving DecidableEq, Repr

/-- Where a request stands: on its way to its home, there and waiting for a re-read (R269), refused and waiting to retry, or accepted. -/
inductive ReqPhase where
  | sent | arrived | nacked | backoff | home
deriving DecidableEq, Repr

/-- An outstanding request. `who` is an agent (0 to 34), or 64 plus the requester identifier of a non-caching
requester; `rid` the identifier of the tile, core or unit that it serves (Table 11-10), `pa` the line number of its physical address, `typ` the access type of its check (Table 11-16), `more` the further
turns of a combined atomic (R107), `eng` says that an engine of the part waits for the answer; `route` are the links that it was sent over (R28), and `stamp` its place
among everything sent (R29). -/
structure Req where
  who : Nat
  rid : Nat
  kind : ReqKind
  typ : Nat
  pa : Nat
  off : Nat
  ctx : Nat
  pl : Nat
  il : Nat
  strm : Bool
  mask : Nat
  data : Line
  stash : Option Nat
  atom : Option AtOp
  more : List AtOp
  nacks : Nat
  phase : ReqPhase
  eng : Bool
  route : List Nat
  stamp : Nat
deriving DecidableEq, Repr

/-- Messages other than requests (Table 10-4). -/
inductive MsgKind where
  | fwdS | fwdX | fwdNc | inv | recall | pushS | dataS | dataE | dataX | gntX | dataNc | done | ack | fwdAck
  | wb | cleanEvict | wbAck | nack | comp
deriving DecidableEq, Repr

/-- A message in flight between a home and `who` (R297): `dest` is the requester of its transaction, `ctx` that request's
CTXID, `src` and `dst` the dies between which it travels; `dirty` says that it carries data of a dirty line; `route` are the links that
it crosses (R28), `stamp` its place among everything sent (R29), and `arrived` says that its receiver has it and cannot take it yet. -/
structure Msg where
  kind : MsgKind
  who : Nat
  pa : Nat
  dest : Nat
  ctx : Nat
  src : Die
  dst : Die
  data : Line
  pois : Nat
  st : Status
  held : Bool
  dirty : Bool
  token : Bool
  route : List Nat
  stamp : Nat
  arrived : Bool
deriving DecidableEq, Repr

/-- What a transaction waits for. -/
inductive TPhase where
  | way | recall | snoop | comp | stash
deriving DecidableEq, Repr

/-- A running transaction at a home (R296). `loc` is the line's location key, `left` the holders that have not
answered, `vict` and `vpa` the line under recall for its entry, `way` the way of its own entry, and `pushing` says that the
write of a stash is done and its target is still to be served (R300). -/
structure Txn where
  loc : Nat
  req : Req
  phase : TPhase
  left : List Nat
  vict : Nat
  vpa : Nat
  way : Nat
  got : Option (Line × Nat)
  heldFlag : Bool
  compDue : Bool
  pois : Bool
  pushing : Bool
deriving DecidableEq, Repr

/-- A directory entry (Table 10-3): state 1 S with its sharers, 2 X with its owner. -/
structure DirEnt where
  way : Nat
  age : Nat
  st : Nat
  owner : Nat
  sharers : Nat
  pa : Nat
deriving DecidableEq, Repr

/-- A line in the cache of an agent (R288): state 1 S, 2 E, 3 M. -/
structure CLine where
  st : Nat
  age : Nat
  way : Nat
  data : Line
  pois : Nat
deriving DecidableEq, Repr

/-- A starvation token (R304): home pseudo-channel, location, holder. -/
structure Token where
  p : Nat
  loc : Nat
  who : Nat
deriving DecidableEq, Repr

/-- The final response that a non-caching requester received last. -/
structure NcResp where
  who : Nat
  pa : Nat
  st : Status
  data : Line
  pois : Nat
deriving DecidableEq, Repr

/-- A request of a hub DMA channel to the memory space of a root port (R362): its requester identifier, address, length, write
data, and how it ended with the data of a read. -/
structure OutReq where
  req : Nat
  pa : Nat
  len : Nat
  wr : Bool
  data : Nat
  ans : Option (Status × Nat)
deriving DecidableEq, Repr

/-- Where a TLP goes that a port has taken: memory, the interrupt window (R363) or BAR2 (R367). -/
inductive TlpKind where
  | mem | irq | bar2
deriving DecidableEq, Repr

/-- A TLP from a root-port device or at a BAR of the endpoint port that its port has taken (R363, R367, R368, R371): where it goes,
port, write or read, physical address or offset, bytes, data, and the identity that it carries. -/
structure HubTlp where
  kind : TlpKind
  port : Nat
  wr : Bool
  pa : Nat
  len : Nat
  data : Nat
  rid : Nat
  ctx : Nat
  pl : Nat
deriving DecidableEq, Repr

/-- What waits at the PCIe ports: requests of hub DMA channels to root-port memory space that have not been used up (R362), and TLPs
that ports have taken, oldest first (R371). -/
structure HubIo where
  outb : List OutReq
  tlps : List HubTlp
deriving DecidableEq, Repr

/-- An open Millrace operation (R380-R383): its number, queue, descriptor with the bases of a COLL added, context and
level, the COLL that it belongs to, the port used last, the unit numbers not yet acknowledged or committed, the bytes
committed, whether it has ended, its status, and for a COLL the entries still to run. -/
structure MrcOp where
  id : Nat
  q : Nat
  desc : Nat
  ctx : Nat
  pl : Nat
  parent : Option Nat
  port : Nat
  units : List Nat
  committed : Nat
  isOver : Bool
  st : Status
  entries : List Nat
deriving DecidableEq, Repr

/-- A commit unit being staged (R383): port, station, operation and unit numbers, kind (1 PUT, 3 GET, 6 RPUT), context and
level, VL, reduction format, destination, its place in the staging area and the bytes there so far, the next packet number,
whether it is whole, its status, the arrival word and number of units of its operation, the bytes that its commit writes once
they are known, and whether its station has been lost (R384). -/
structure RxUnit where
  port : Nat
  src : Nat
  opid : Nat
  unit : Nat
  kind : Nat
  ctx : Nat
  pl : Nat
  vl : Nat
  arg : Nat
  base : Nat
  slot : Nat
  len : Nat
  next : Nat
  whole : Bool
  st : Status
  arrive : Nat
  units : Nat
  out : Option (List Byte)
  lost : Bool
deriving DecidableEq, Repr

/-- An inbound operation of which some units have ended here and some have not: its station, number, port and context, the units
ended, and whether one of them was not committed (R381, R384). -/
structure RxOp where
  src : Nat
  opid : Nat
  port : Nat
  ctx : Nat
  got : Nat
  bad : Bool
deriving DecidableEq, Repr

/-- The active tables of the fabric: the endpoint map by station (Table 13-3), the schedule entries of collectives as descriptors
(R381), and the VL settings of each port (R376). -/
structure MrcTables where
  epMap : AMap Nat W32
  collTab : AMap Nat Nat
  vlSet : AMap Nat W64
deriving DecidableEq, Repr

/-- A domain that is being powered up (R409, R466): the die, whether it is the tile domain, the steps that are left (rails 0 to
33 of Table 17-3, or 100 for the PLL), and whether the step at the front has been retried. -/
structure PUp where
  die : Die
  tile : Bool
  todo : List Nat
  again : Bool
deriving DecidableEq, Repr

/-- A power-state handshake in progress (R405): the state asked for, whether the attempt is automatic, the blocks that have
accepted as (die index, block code), those that defer with their times in µs, and the deferral spent so far in µs. -/
structure PwrTry where
  target : Nat
  auto : Bool
  accepted : List (Nat × Nat)
  deferring : List ((Nat × Nat) × Nat)
  spent : Nat
deriving DecidableEq, Repr

/-- What the hub gathers for the next SLACK report (R398): start of the period, clk_time cycles waited, sum of the package
draws in mW and their number, clocks withheld on the compute dies and clocks in all, and the report number. -/
structure FanAcc where
  since : W64
  wait : Nat
  draw : Nat
  samples : Nat
  held : Nat
  clocks : Nat
  seq : Nat
deriving DecidableEq, Repr

/-- A telemetry snapshot (R461): when it was sampled, and its values. -/
structure Telem where
  time : W64
  vals : List Nat
deriving DecidableEq, Repr

/-- A reset of one of the scopes 0 to 3 that is running (Table 15-6): scope, die, cluster and unit; whether its Weir still
drains, whether the drain completed, whether FLT_RESET_REQ asked for it, and the agents that the Weir has marked down. -/
structure RstOp where
  scope : Nat
  die : Die
  cluster : Nat
  unit : Nat
  draining : Bool
  clean : Bool
  asked : Bool
  downed : List Nat
deriving DecidableEq, Repr

/-- A module of a die-to-die link (R27, R425): failed lanes, each with the spare lane that took its place, none for a failed spare lane; lanes that failed the
last lane test, lanes that are permanent and wait for the next retrain, replays as (lane, time), and whether the module has
left service. -/
structure LMod where
  swaps : List (Nat × Option Nat)
  suspects : List Nat
  due : List Nat
  replays : List (Nat × W64)
  gone : Bool
deriving DecidableEq, Repr

/-- Lanes of a Millrace port (R425): failed lanes, lanes that failed the last retrain, symbol errors of the last second by lane, as
(time, number), and lanes that have shown more than 2^20 of them within a second since the last retrain. -/
structure MLanes where
  failed : List Nat
  suspects : List Nat
  errs : AMap Nat (List (W64 × Nat))
  hot : List Nat
deriving DecidableEq, Repr

/-- A settings record (R455): SCHEMA, sequence number, length and payload, the payload as a little-endian number, and CRC-32; and the
PCIe port modes that the payload sets, as (port, mode) (R361). -/
structure SetRec where
  schema : W16
  seq : W32
  len : Nat
  payload : Nat
  crc : W32
  modes : List (Nat × Nat)
deriving DecidableEq, Repr

/-- The settings journal: records of its two blocks of 256 KiB, oldest first (R452, R455). -/
structure Journal where
  a : List SetRec
  b : List SetRec
deriving DecidableEq, Repr

/-- A copy of the boot record (R452): its place in the journal, active image, trial flag, current licence slot, handover count; and the
images that the root of trust has marked refused. -/
structure BootRec where
  seq : Nat
  active : Nat
  trial : Bool
  slot : Nat
  handover : Nat
  refused : List Nat
deriving DecidableEq, Repr

/-- The two journaled copies of the boot record (R452). -/
structure BootLog where
  a : BootRec
  b : BootRec
deriving DecidableEq, Repr

/-- A mailbox request that waits for the management cores (R460, R461): path (0 I3C, 1 SGMII, 2 VL7), CMD, TAG and payload. -/
structure Mbx where
  path : Nat
  cmd : Nat
  tag : Nat
  data : Nat
deriving DecidableEq, Repr

/-- Stable states of the test access port between scans (R479, IEEE 1149.1). -/
inductive TapState where
  | testLogicReset | runTestIdle
deriving DecidableEq, Repr

/-- The test access port (R479): its state, the instruction in force, and the boundary register's preloaded value. -/
structure Jtag where
  tap : TapState
  ir : Nat
  bsr : Nat
deriving DecidableEq, Repr

/-- BAR2 of the endpoint port (R367): the written bytes of the MSI-X table by offset, and the pending-bit array, one bit for each
vector. -/
structure Msix where
  table : AMap Nat Byte
  pend : Nat
deriving DecidableEq, Repr

set_option maxRecDepth 4096 in
/-- The whole machine. -/
structure State where
  /-- Fused values (DESIGN CHOICE; the spec fixes none). -/
  fuse : Fuse
  /-- Commands waiting, first in first out. -/
  pending : List Instr
  /-- Changes of memory by the command in progress, newest first; empty between commands. -/
  journal : List JEnt
  /-- Pool memory, keyed `P * 2^30 + a` for byte `a` of pseudo-channel `P` (R257, R261). -/
  mem : List Host.Cell
  /-- Poisoned 64-byte blocks, keyed `P * 2^24 + block` (R267). -/
  poison : List Nat
  /-- Control-space registers that differ from their reset value (R40). -/
  regs : AMap RKey W64
  /-- Answer of the last control access (R19). -/
  last : Resp
  /-- What the part sent out, newest last: interrupts, traps, packets, completions, events. -/
  out : List Out
  /-- The model's own counter, read and advanced where a free value is taken. -/
  free : Nat
  /-- Package timestamp, clk_time counts (R38). -/
  now : W64
  /-- Tiles that hold anything (R81-R101). -/
  tiles : AMap TileRef Tile
  /-- clk_tile cycles since each compute die's tile domain left reset (R141). -/
  cycles : AMap Nat W64
  /-- Launches that have not completed (R351). -/
  launches : List Launch
  /-- Next launch sequence number of each compute die (R351). -/
  nextLaunch : AMap Nat W32
  /-- Events held by their producers, oldest first (R355). -/
  heldEv : List HeldEv
  /-- Commands begun and not completed (R349, R350). -/
  cmds : List Cmd
  /-- Number of the next command begun. -/
  nextCmd : Nat
  /-- The queue that each compute die's command processor served last, 63 where unlisted (R349). -/
  cqTurn : AMap Nat Nat
  /-- Called buffers, by (die, queue) (R351). -/
  calls : AMap (Nat × Nat) CallPos
  /-- Burrs, by 64 * compute die + die index (R202). -/
  burrs : AMap Nat BurrU
  /-- Burr launches that have not completed (R219). -/
  blaunches : List BLaunch
  /-- Feeds in flight (R222). -/
  feeds : List Feed
  /-- Samplers, by 4 * compute die + unit (R237). -/
  samplers : AMap Nat SmpU
  /-- Chains that have not ended, by (die, channel) (R344). -/
  dmas : AMap (Die × Nat) DmaRun
  /-- Contexts pre-empted and not resumed, as (compute die, CTXID) (R356, R357). -/
  preempted : List (Nat × Nat)
  /-- Operations of CQ_PREEMPT in progress, by compute die (R357). -/
  preOps : AMap Nat PreOp
  /-- Images of the last PREEMPT of each context on each die (R357). -/
  preImgs : List PreImg
  /-- The model's own record beside each image written. -/
  preSides : List PreSide
  /-- Burrs saved by the last BSAVE of each context on each die (R357). -/
  burrImgs : List BurrImg
  /-- Translation caches (R319). -/
  tlb : List TlbE
  /-- Walks in progress (R318). -/
  walks : List Walk
  /-- Master context protection table; an unlisted entry is INVALID, CTXID 0 is active (R312). -/
  cpt : AMap Nat (BitVec 128)
  /-- Master frame domain table; unlisted frames are 0 (R313). -/
  fdt : AMap Nat W16
  /-- CPT replicas of compute dies 0 to 3 and the hub (4), by (die, CTXID). -/
  cptRep : AMap (Nat × Nat) (BitVec 128)
  /-- FDT replicas, by (die, frame). -/
  fdtRep : AMap (Nat × Nat) W16
  /-- Master CXL domain table, by 8192 * port + GiB (R366). -/
  cdt : AMap Nat W16
  /-- The hub home's replica of the CXL domain table. -/
  cdtRep : AMap Nat W16
  /-- Agents that the hub's CXL homes treat as down, as Table 10-10 (R365, R306). -/
  cxlDown : Nat
  /-- Walk caches (R318). -/
  wcache : List WcE
  /-- The CPT or XLT_INV command that the hub is executing (R324). -/
  hubCmd : Option HubCmd
  /-- Enabled tiles in each cluster of a compute die, set when its tile domain powers up (R9, R21). -/
  dieTiles : AMap Nat Nat
  /-- Reports that sources have made and their collectors have not yet taken (R411). -/
  raised : List Report
  /-- Reports on their way to the hub, with their times (R414). -/
  forwards : List (Report × W64)
  /-- Blocks that wait for their re-read (R269). -/
  rereads : List Reread
  /-- Answer of the last controller read event (R266). -/
  ctlRead : Option CtlRead
  /-- Decoded reads that no request has taken yet, by block as `poison`; none for one treated as poisoned (R266, R269). -/
  answers : AMap Nat (Option (BitVec 512))
  /-- Next block of the patrol scrubber, by pseudo-channel (R270). -/
  scrubPos : AMap Nat Nat
  /-- Rows with a block poisoned in this scrub period, by pseudo-channel (R278). -/
  thuRows : AMap Nat (List Nat)
  /-- Blocks corrected in this scrub period, by pseudo-channel (R278). -/
  thcCnt : AMap Nat Nat
  /-- Successive failed retrainings of its channel, by pseudo-channel (R278). -/
  trcCnt : AMap Nat Nat
  /-- Time of the last refresh, by (pseudo-channel, bank) (R272). -/
  refreshed : AMap (Nat × Nat) W64
  /-- Traffic-generator runs in progress (R276). -/
  tgRuns : List TgRun
  /-- Outstanding requests to homes (R297). -/
  reqs : List Req
  /-- Coherence messages in flight, oldest first (R297). -/
  net : List Msg
  /-- Requests and messages sent so far; the model's own, for the order of R29. -/
  sentNo : Nat
  /-- Transactions running at homes (R296). -/
  txns : List Txn
  /-- Directory entries, by location line (R294). -/
  dir : AMap Nat DirEnt
  /-- Lines of the caching agents, by (agent, line of the physical address) (R288). -/
  cl : AMap (Nat × Nat) CLine
  /-- Writeback buffers: data and poison bits, by (agent, line) (R292). -/
  wbuf : AMap (Nat × Nat) (Line × Nat)
  /-- Starvation tokens given out, oldest first (R304). -/
  tokens : List Token
  /-- Last final response of a non-caching requester. -/
  ncLast : Option NcResp
  /-- Responses that engines of the part have received and not yet used (R297, R308). -/
  ncBuf : List (Req × NcResp)
  /-- What waits at the root ports and the Sluice window (R362, R371). -/
  io : HubIo
  /-- Open Millrace operations, oldest first (R380). -/
  mops : List MrcOp
  /-- Next operation number of this station (Table 13-2). -/
  mrcNext : Nat
  /-- Staged commit units (R383). -/
  rxUnits : List RxUnit
  /-- Inbound operations with units committed and units missing (R381, R383). -/
  rxOps : List RxOp
  /-- Times of the last packet received from a station and of the last sent to it, and the port last used toward it (R384). -/
  peers : AMap Nat (W64 × W64 × Nat)
  /-- Stations whose MGMT packets have been delivered and whose message has not been taken (R378). -/
  vl7 : List Nat
  /-- Packets dropped and counted, by port (R376, R378). -/
  mrcDrops : AMap Nat Nat
  /-- The active fabric tables (R375, R376, R381, R385). -/
  tables : MrcTables
  /-- Handles of the snapshot slots in use (R385). -/
  snapH : AMap Nat W64
  /-- Domains being powered up (R409). -/
  pups : List PUp
  /-- Sequenced rails that are enabled with RAIL_PG asserted (Table 17-3, R466). -/
  rails : List Nat
  /-- Rails being removed, each sequence with the rail whose enable went last at its front, and when that was (R466). -/
  rdown : List (List Nat × W64)
  /-- Work that the management cores do before mailbox commands: 0 fault handling, 1 power-loop supervision (R461). -/
  mgmtWork : List Nat
  /-- The telemetry snapshot last sampled (R461). -/
  telem : Telem
  /-- Stacks whose rails are off until the next package reset or exit from N4 (R409, R467). -/
  deadStacks : List Nat
  /-- min(TARGET, CAP) as last sampled (R389). -/
  limSample : Nat
  /-- The loop's duty of a die, by die index; 256 where unlisted (R392). -/
  loopD : AMap Nat Nat
  /-- Place of a die's throttled clock in its window of 256, by die index (R392). -/
  clkPhase : AMap Nat Nat
  /-- Dies held under the 100 °C rule, by die index (R396). -/
  hotHold : List Nat
  /-- Allocations are multiplied by 0.9 (R395). -/
  excurCut : Bool
  /-- Fractions of a µJ carried, in nJ: (0, CTXID), (1, die index), (2, 0) for the package (R400). -/
  enFrac : AMap (Nat × Nat) Nat
  /-- Snapshots of the power counters, by privilege level (R402). -/
  pwrSnaps : AMap Nat (List ((RegName × Nat) × W64))
  /-- Slack measurement (R398). -/
  fan : FanAcc
  /-- The handshake in progress (R405). -/
  pwrTry : Option PwrTry
  /-- The wake source that has fired and its detail, the lowest of several (R408). -/
  wakeDue : Option (Nat × Nat)
  /-- Accesses to tile register groups that wait for the exit from N1 or N2, oldest first (R403). -/
  held : List Instr
  /-- States of the pseudo-channels before entry to N3 (R273). -/
  pchKeep : AMap Nat Nat
  /-- Resets of scopes 0 to 3 that are running (R427-R430). -/
  resets : List RstOp
  /-- Modules of the die-to-die links, by (link, module); the retirements are held in the always-on domain (R425, R426). -/
  linkMods : AMap (Nat × Nat) LMod
  /-- Links whose last training found no common major version (R450). -/
  linkVer : List Nat
  /-- Dies whose timestamp copy is aligned with the master count (R38). -/
  aligned : List Die
  /-- Lanes of the Millrace ports; the retirements are held in the always-on domain (R425, R426). -/
  mrcLanes : AMap Nat MLanes
  /-- Retired DMA channels, held in the always-on domain (R425, R426). -/
  dmaDead : List (Die × Nat)
  /-- Time of the last uncorrectable error of a tile (0) or a DMA channel (1), by (kind, die index, unit) (R425). -/
  upsets : AMap (Nat × Nat × Nat) W64
  /-- Built tile of its cluster, 0 to 12, that serves a logical tile, by (compute die, `12 * cluster + tile`) (R426). -/
  tileMap : AMap (Nat × Nat) Nat
  /-- Built tiles retired in service, by (compute die, `13 * cluster + built tile`) (R426). -/
  builtBad : List (Nat × Nat)
  /-- Dies other than the hub whose PLL has lost lock, so that their clocks have stopped (R37, R433). -/
  unlocked : List Die
  /-- Compute dies whose stack contents are lost and not yet filled with poison (R433). -/
  lostMem : List Nat
  /-- Pseudo-channels whose blocks are poisoned but for those that `poison` lists (R433). -/
  poisonBase : List Nat
  /-- A package reset has been started and is about to take place (R415, R437, R468). -/
  resetDue : Bool
  /-- Traps held until the new image of a live activation starts, as (die index, source) (R457). -/
  heldTraps : List (Nat × Nat)
  /-- Bring-up: 1 to 5 the step of Table 16-1 that comes next or is in progress, 6 steps 6 and 7, 8 step 8, 7 step 9 with steps 5 to 8 left out, 9 ended, 10 recovery code in place of bring-up (R437, R440, R453). -/
  boot : Nat
  /-- HUB_EN is asserted (R466). -/
  hubEn : Bool
  /-- PWR_GOOD is asserted (R466). -/
  pwrGood : Bool
  /-- RESET_N is asserted (R468). -/
  rstIn : Bool
  /-- A package reset is in progress: bring-up has not reached step 9 since (R468). -/
  resetBusy : Bool
  /-- The always-on domain has left its power-on reset (R466). -/
  aonUp : Bool
  /-- The recovery code runs, since no image is accepted (R453). -/
  recovery : Bool
  /-- Boot record in flash (R452; DESIGN CHOICE: as delivered). -/
  bootLog : BootLog
  /-- What the root of trust has found of images A (0) and B (1) since they were last written (R453). -/
  hdrs : AMap Nat (Option ImgHdr)
  /-- Settings journal in flash (R452, R455). -/
  settings : Journal
  /-- Bytes of the flash that have been written, by offset (R452); erased bytes read 0xFF. -/
  flash : AMap Nat Byte
  /-- Images that PLDM firmware update has rewritten, with the number of the free bytes that they hold (R386, R453). -/
  pldm : AMap Nat Nat
  /-- An install that has written its licence and not verified it yet, with its slot (R448). -/
  licWait : Option (Mbx × Nat)
  /-- A live activation has begun, and its new image has not started (R457). -/
  liveNext : Bool
  /-- The new image of a live activation has started and has not written CONFIRM (R459). -/
  liveWait : Bool
  /-- A trial image started by bring-up has not written CONFIRM (R454). -/
  trialWait : Bool
  /-- Time of the last watchdog kick (R424). -/
  kicked : W64
  /-- The first kick since FLT_WDT.EN was set has come, or the watchdog has expired (R423, R424). -/
  wdtRuns : Bool
  /-- Mailbox requests waiting, oldest first (R461). -/
  mbox : List Mbx
  /-- Actions 1 and 2 of R441 are done. -/
  hostImg : Bool
  /-- Frame number f of the host boot image (R441). -/
  hostFrame : Nat
  /-- Management firmware has written the port modes of the settings since the always-on supply was applied (R361). -/
  modesSet : Bool
  /-- Host dies that step 7 has released or begun to power up (R441). -/
  released : List Nat
  /-- What the self-tests of step 8 will find (R425, R437). -/
  selfBad : SelfTest
  /-- The topology check is to be evaluated again (R445). -/
  topoDue : Bool
  /-- Levels that the platform drives on the pins LS0 to LS31; 0 where unlisted (R473). -/
  pins : AMap Nat Bool
  /-- Levels held on pins that are being switched (R476). -/
  pinHold : AMap Nat Bool
  /-- The 32.768 kHz crystal oscillates (R471). -/
  xtal : Bool
  /-- The test access port (R479). -/
  jtag : Jtag
  /-- The endpoint port's MSI-X table and pending bits (R367). -/
  msix : Msix
deriving DecidableEq, Repr

/-- Reasons a step stops the machine. No command of this model ends in one: the spec gives every command an effect,
and a command whose condition does not hold leaves the state as it is. -/
inductive Fault where
  /-- Raised by no command. Safe: it never occurs. -/
  | none
deriving DecidableEq, Repr

/-- Reasons a step gives no meaning. -/
inductive Refusal where
  /-- Raised by an arm whose command has no meaning yet. Safe: nothing can be concluded about the command. -/
  | notModelled (mnemonic : String)
deriving DecidableEq, Repr

/-- The state when the always-on supply has just come within tolerance (R34, R437): nothing runs but the always-on
domain, memory lists nothing, and every register reads as its reset value. -/
def State.reset : State where
  fuse := ⟨true, [1, 2, 2, 3, 3, 3, 3], [3, 3, 3, 4, 4, 4, 4], [0x10300, 0x20300, 0x21300, 0x30400, 0x31400, 0x32400, 0x33400], List.replicate 8 16, [], 1, 0, [], [], []⟩
  pending := []
  journal := []
  mem := []
  poison := []
  regs := []
  last := ⟨.ok, 0⟩
  out := []
  free := 0
  now := 0
  tiles := []
  cycles := []
  launches := []
  nextLaunch := []
  heldEv := []
  cmds := []
  nextCmd := 0
  cqTurn := []
  calls := []
  burrs := []
  blaunches := []
  feeds := []
  samplers := []
  dmas := []
  preempted := []
  preOps := []
  preImgs := []
  preSides := []
  burrImgs := []
  tlb := []
  walks := []
  cpt := []
  fdt := []
  cptRep := []
  fdtRep := []
  cdt := []
  cdtRep := []
  cxlDown := 0
  wcache := []
  hubCmd := none
  dieTiles := []
  raised := []
  forwards := []
  rereads := []
  ctlRead := none
  answers := []
  scrubPos := []
  thuRows := []
  thcCnt := []
  trcCnt := []
  refreshed := []
  tgRuns := []
  reqs := []
  net := []
  sentNo := 0
  txns := []
  dir := []
  cl := []
  wbuf := []
  tokens := []
  ncLast := none
  ncBuf := []
  io := ⟨[], []⟩
  mops := []
  mrcNext := 0
  rxUnits := []
  rxOps := []
  peers := []
  vl7 := []
  mrcDrops := []
  tables := ⟨[], [], []⟩
  snapH := []
  pups := []
  rails := []
  rdown := []
  mgmtWork := []
  telem := ⟨0, []⟩
  deadStacks := []
  limSample := 32
  loopD := []
  clkPhase := []
  hotHold := []
  excurCut := false
  enFrac := []
  pwrSnaps := []
  fan := ⟨0, 0, 0, 0, 0, 0, 0⟩
  pwrTry := none
  wakeDue := none
  held := []
  pchKeep := []
  resets := []
  linkMods := []
  linkVer := []
  aligned := []
  mrcLanes := []
  dmaDead := []
  upsets := []
  tileMap := []
  builtBad := []
  unlocked := []
  lostMem := []
  poisonBase := []
  resetDue := false
  heldTraps := []
  boot := 1
  hubEn := false
  pwrGood := false
  rstIn := false
  resetBusy := false
  aonUp := false
  recovery := false
  bootLog := ⟨⟨0, 0, false, 0, 0, []⟩, ⟨0, 0, false, 0, 0, []⟩⟩
  hdrs := []
  settings := ⟨[], []⟩
  flash := []
  pldm := []
  licWait := none
  liveNext := false
  liveWait := false
  trialWait := false
  kicked := 0
  wdtRuns := false
  mbox := []
  hostImg := false
  hostFrame := 0
  modesSet := false
  released := []
  selfBad := ⟨[], []⟩
  topoDue := false
  pins := []
  pinHold := []
  xtal := false
  jtag := ⟨.testLogicReset, 3, 0⟩
  msix := ⟨[], 0⟩

end Sys2Proof.Machine
end

