-- ==== Sys2Proof/Machine/Ops.lean ====
section
/-!
DEFINITION. The named operations over the state: memory bytes through the journal of the command in progress, control
registers, partition states, fault reports, outputs and free values; and the ending of every command.
-/

namespace Sys2Proof

/-- Die index of Chapter 14: 0 HUB, 1 and 2 HD0 and HD1, 3 to 6 CD0 to CD3. -/
def Die.idx : Die → Nat
  | .hub => 0
  | .hd k => 1 + k.val
  | .cd n => 3 + n.val

/-- The die of an index, none above 6. -/
def Die.ofIdx (i : Nat) : Option Die :=
  match i with
  | 0 => some .hub
  | 1 => some (.hd 0)
  | 2 => some (.hd 1)
  | 3 => some (.cd 0)
  | 4 => some (.cd 1)
  | 5 => some (.cd 2)
  | 6 => some (.cd 3)
  | _ => none

/-- Codes of Table 0-6. -/
def Status.code : Status → Nat
  | .ok => 0 | .perm => 1 | .xlat => 2 | .pois => 3 | .tout => 4 | .unav => 5 | .peer => 6 | .abrt => 7 | .busy => 8
  | .held => 15
/-- Place in the order of R20; OK last. -/
def Status.rank : Status → Nat
  | .abrt => 0 | .unav => 1 | .tout => 2 | .peer => 3 | .xlat => 4 | .perm => 5 | .pois => 6 | .busy => 7 | .ok => 8 | .held => 9
/-- The condition that comes first in the order of R20. -/
def Status.first (a b : Status) : Status := if b.rank < a.rank then b else a
def Status.isOk (a : Status) : Bool := decide (a = .ok)

end Sys2Proof

namespace Sys2Proof.Machine

/-! ### Memory in canonical form -/

/-- The byte listed at an address; an unlisted address reads 0 (R438). -/
def Memory.rd : List Host.Cell → Nat → Byte
  | [], _ => 0
  | (k, v) :: r, a => if k = a then v else Memory.rd r a

/-- A byte written, keeping addresses rising and no zero listed. -/
def Memory.wr : List Host.Cell → Nat → Byte → List Host.Cell
  | [], a, b => if b = 0 then [] else [(a, b)]
  | (k, v) :: r, a, b =>
    if k = a then (if b = 0 then r else (a, b) :: r)
    else if a < k then (if b = 0 then (k, v) :: r else (a, b) :: (k, v) :: r)
    else (k, v) :: Memory.wr r a b

/-- Addresses rising strictly from a bound, no zero listed. -/
def Memory.wfFrom : Nat → List Host.Cell → Bool
  | _, [] => true
  | b, (k, v) :: r => decide (b ≤ k) && decide (v ≠ 0) && Memory.wfFrom (k + 1) r

/-- The canonical form of memory. -/
def Memory.wf (m : List Host.Cell) : Bool := Memory.wfFrom 0 m

/-- A change performed on memory. -/
def JEnt.apply (m : List Host.Cell) : JEnt → List Host.Cell
  | .byte k b => Memory.wr m k b
  | .wipe p => m.filter fun c => decide (c.1 / 2 ^ 30 ≠ p)
  | .wipeAll => []
/-- A journal (newest first) performed on memory. -/
def Memory.applyAll (m : List Host.Cell) (j : List JEnt) : List Host.Cell := j.foldr (fun e m => e.apply m) m

/-- What a journal says of a byte, its newest change first. -/
def Memory.look : List JEnt → Nat → Option Byte
  | [], _ => none
  | .byte k v :: r, a => if k = a then some v else Memory.look r a
  | .wipe p :: r, a => if a / 2 ^ 30 = p then some 0 else Memory.look r a
  | .wipeAll :: _, _ => some 0

/-- One byte at a pseudo-channel location key, changes by the command in progress included. -/
def State.rdKey (s : State) (k : Nat) : Byte :=
  match Memory.look s.journal k with
  | some b => b
  | none => Memory.rd s.mem k

/-- One byte written in the command in progress. -/
def State.wrKey (s : State) (k : Nat) (b : Byte) : State := { s with journal := .byte k b :: s.journal }

/-- The end of every command: its journal is performed on the memory that it began with, and the queue is the one that it
began with. -/
def State.commit (s s' : State) : State :=
  { s' with pending := s.pending, mem := Memory.applyAll s.mem s'.journal, journal := [] }

/-- The outcome of a command whose effect on `s` is `s'`. -/
def done (s s' : State) : Host.Outcome State Fault Refusal := .next (s.commit s')

/-! ### Dies -/

/-- The compute die of a number, taken modulo 4. -/
def cdOf (n : Nat) : Fin 4 :=
  match n % 4 with
  | 0 => 0
  | 1 => 1
  | 2 => 2
  | _ => 3

def allCds : List (Fin 4) := [0, 1, 2, 3]
def allDies : List Die := [.hub, .hd 0, .hd 1, .cd 0, .cd 1, .cd 2, .cd 3]

/-! ### Registers -/

/-- Number of bands of the package (R258). -/
def Fuse.bands (f : Fuse) : Nat := if f.high16 then 32768 else 24576

/-- Default reactions of Tables 15-2 to 15-4: INT 1, TRAP 2, BRST 4, CRST 8, EPIN 16. -/
def defaultReact (d : Die) (src : Nat) : Nat :=
  let port (n : Nat) : Bool := decide (0x10 ≤ src) && decide (src < 0x20) && decide ((src - 0x10) % 4 < n)
  match d with
  | .hub =>
    if src = 0x00 then 18 else if src = 0x01 then 24 else if src = 0x02 then 3 else if src = 0x03 then 1
    else if src = 0x04 then 1 else if src = 0x05 then 24 else if src = 0x06 then 1 else if src = 0x07 then 18
    else if src = 0x08 then 1 else if src = 0x09 then 18 else if src = 0x0A then 3 else if src = 0x0B then 1
    else if src = 0x0C then 1 else if port 4 then 1
    else if 0x20 ≤ src ∧ src < 0x2C then 1 else if 0x30 ≤ src ∧ src < 0x3C then 1
    else if 0x40 ≤ src ∧ src < 0x44 then 1 else if 0x48 ≤ src ∧ src < 0x4C then 1 else 0
  | .hd _ =>
    if src = 0x00 then 5 else if src = 0x08 then 1 else if port 2 then 1
    else if src = 0x20 then 5 else if src = 0x21 then 1 else 0
  | .cd _ =>
    if src = 0x00 then 5 else if src = 0x08 then 1 else if port 4 then 1
    else if 0x20 ≤ src ∧ src < 0x28 then 1
    else if src = 0x33 then 5 else if 0x30 ≤ src ∧ src < 0x37 then 1
    else if 0x40 ≤ src ∧ src < 0x58 then 1
    else if 0x58 ≤ src ∧ src < 0x60 then 5 else 0

/-- The reset value of a register, as its table gives it. -/
def regReset (f : Fuse) (k : RKey) : W64 :=
  match k.name with
  | .fltReact => BitVec.ofNat 64 (defaultReact k.die k.idx)
  | .memRetireCtrl => BitVec.ofNat 64 (f.bands * 2 ^ 48)
  | .hubDieId =>
    (f.ids[k.die.idx]?.getD 0).zeroExtend 64
  | n => BitVec.ofNat 64 ((regInfo n).fields.foldl (fun a x => a + x.rst * 2 ^ x.lo) 0)

/-- The value of a register. -/
def State.reg (s : State) (d : Die) (n : RegName) (i : Nat) : W64 := aGet s.regs (regReset s.fuse ⟨d, n, i⟩) ⟨d, n, i⟩
/-- A register replaced. -/
def State.setReg (s : State) (d : Die) (n : RegName) (i : Nat) (v : W64) : State :=
  { s with regs := aSet s.regs ⟨d, n, i⟩ v }
/-- A field of a register. -/
def State.rf (s : State) (d : Die) (n : RegName) (i hi lo : Nat) : Nat := fld (s.reg d n i) hi lo
/-- A field of a register replaced. -/
def State.setRf (s : State) (d : Die) (n : RegName) (i hi lo v : Nat) : State :=
  s.setReg d n i (setFld (s.reg d n i) hi lo v)

/-- A counter of Table 10-12 (and 9-10) with `n` added: bit 63 is set when the 63-bit count wraps. -/
def cntAdd (v : W64) (n : Nat) : W64 :=
  let c := fld v 62 0 + n
  let v' := setFld v 62 0 c
  if 2 ^ 63 ≤ c then setFld v' 63 63 1 else v'
def State.count (s : State) (d : Die) (n : RegName) (i k : Nat) : State := s.setReg d n i (cntAdd (s.reg d n i) k)

/-- State codes of R45: 0 off, 1 in reset, 2 running, 3 retention, 4 failed. Low bit of a domain's field. -/
def domLo (d : Die) (tile : Bool) : Nat :=
  match d with
  | .hub => if tile then 0 else 4
  | .hd k => 8 + 4 * k.val
  | .cd n => 16 + 8 * n.val + (if tile then 4 else 0)
/-- State of a domain: the hub main domain, a host die, or a compute die's memory-controller or tile domain. -/
def State.dom (s : State) (d : Die) (tile : Bool) : Nat := s.rf .hub .hubPartitionState 0 (domLo d tile + 3) (domLo d tile)
def State.setDom (s : State) (d : Die) (tile : Bool) (v : Nat) : State :=
  s.setRf .hub .hubPartitionState 0 (domLo d tile + 3) (domLo d tile) v
/-- Whether a Weir is closed before a domain (R428): its units issue nothing new, and new requests to it complete with UNAV. -/
def State.closed (s : State) (d : Die) (tile : Bool) : Bool :=
  s.resets.any fun r => r.draining && decide (r.die = d) && (decide (r.scope = 3) || (decide (r.scope = 2) && tile))
/-- The ready bit of a domain in HUB_READY (Table 16-3). -/
def readyBit (d : Die) (tile : Bool) : Nat :=
  match d with
  | .hub => 0
  | .hd k => 30 + k.val
  | .cd n => (if tile then 36 else 32) + n.val
def State.setReady (s : State) (bit v : Nat) : State := s.setRf .hub .hubReady 0 bit bit v
def State.ready (s : State) (bit : Nat) : Bool := (s.reg .hub .hubReady 0).getLsbD bit
/-- Whether a domain runs, with its clock, and takes requests: its ready bit is 1 (R37, R428, R439). -/
def State.running (s : State) (d : Die) (tile : Bool) : Bool :=
  decide (s.dom d tile = 2) && s.ready (readyBit d tile) && !s.closed d tile && !s.unlocked.contains d
/-- Whether a cluster's reset is running (R428, R429). -/
def State.clusterShut (s : State) (n : Fin 4) (c : Nat) : Bool :=
  s.resets.any fun r => decide (r.scope = 1 ∧ r.die = .cd n ∧ r.cluster = c)
/-- Whether a tile's own reset, or its cluster's, is running: it takes no new work (R428, R429). -/
def State.tileShut (s : State) (t : TileRef) : Bool :=
  s.clusterShut t.die (t.tile / 16) ||
    s.resets.any fun r => decide (r.scope = 0 ∧ r.die = .cd t.die ∧ r.cluster = t.tile / 16 ∧ r.unit = t.tile % 16)

/-! ### Reports, outputs, free values -/

/-- A source makes a report to its die's collector (R411). -/
def State.raise (s : State) (d : Die) (src : Nat) (info : Nat) : State :=
  { s with raised := s.raised ++ [⟨d, src, BitVec.ofNat 32 info, false⟩] }
def State.emit (s : State) (k : OutKind) (args : List Nat) : State := { s with out := s.out ++ [⟨k, args⟩] }
/-! ### Power states as other units see them (Table 14-16) -/

/-- State in effect, 0 to 4 for N0 to N4. -/
def State.pwrState (s : State) : Nat := s.rf .hub .pwrStateStatus 0 31 28
/-- State being entered or left; the state in effect otherwise. -/
def State.pwrTarget (s : State) : Nat := s.rf .hub .pwrStateStatus 0 27 24
def State.inN0 (s : State) : Bool := decide (s.pwrState = 0) && decide (s.pwrTarget = 0)
/-- Whether accesses to a tile register group wait for a wake: N1 or N2 in effect (R403). -/
def State.asleep (s : State) (d : Die) (tileDom : Bool) : Bool :=
  match d with
  | .cd _ => tileDom && decide (s.pwrState = 1 ∨ s.pwrState = 2) && decide (s.dom d true = 2 ∨ s.dom d true = 3)
  | _ => false

/-- Wake sources of a state (Table 14-7): 1 RTC alarm, 2 doorbell (255 the endpoint's), 3 Millrace packet, 4 management
(2 on VL7), 5 LATTOL lowered, 6 control access. -/
def wakes (st src detail : Nat) : Bool :=
  match src with
  | 1 | 5 => true
  | 2 => if detail = 255 then decide (st = 3) else decide (st ≤ 2)
  | 3 => decide (st ≤ 3)
  | 4 => decide (st ≤ 3) || decide (detail < 2)
  | _ => decide (st ≤ 2)

/-- An attempt to enter a power state ends with a status (R405, R406). -/
def State.tryOver (s : State) (last : Status) : State :=
  { s with pwrTry := none }.setRf .hub .pwrStateStatus 0 23 20 last.code

/-- A wake source fires (R406, R408): it abandons an attempt that is not committed, for the state asked for or from the state in
effect; in any state but N0, and while one is being entered, the wake is due, and of several sources the lowest. -/
def State.wakeIf (s : State) (src detail : Nat) : State :=
  let t := match s.pwrTry with
    | some t =>
      if wakes t.target src detail || decide (src = 2 ∧ detail ≠ 255) || decide (src = 3) ||
          (decide (s.pwrState ≠ 0) && wakes s.pwrState src detail) then s.tryOver .abrt else s
    | none => s
  let eff := s.pwrTarget
  if eff = 0 ∨ wakes eff src detail = false then t
  else
    match t.wakeDue with
    | some w => if src < w.1 then { t with wakeDue := some (src, detail) } else t
    | none => { t with wakeDue := some (src, detail) }

/-- New work reaches a block, by its code of Table 14-8: an attempt that the block has accepted is abandoned (R406). -/
def State.newWork (s : State) (d : Die) (block : Nat) : State :=
  match s.pwrTry with
  | some t => if t.accepted.contains (d.idx, block) then s.tryOver .abrt else s
  | none => s

/-- An access to a tile register group is a wake in N1 and N2, on the way there and in an attempt (R403, R406). -/
def State.touch (s : State) (d : Die) (n : RegName) : State :=
  match d with
  | .cd _ => if (regInfo n).tileDom then s.wakeIf 6 0 else s
  | _ => s

/-- The answer to a command. -/
def State.answer (s : State) (st : Status) (v : W64) : State := { s with last := ⟨st, v⟩ }
/-- The answer to the access of a command; one that is held waits for the exit, and is a wake (R403). -/
def State.answerTo (s : State) (c : Instr) (st : Status) (v : W64) : State :=
  if st = .held then { s with held := s.held ++ [c] }.wakeIf 6 0 else s.answer st v
/-- The next free word. -/
def State.takeFree (s : State) : W64 × State := (Config.freeWord s.free, { s with free := s.free + 1 })
def State.takeLine (s : State) : Line × State := (Config.freeLine s.free, { s with free := s.free + 1 })


end Sys2Proof.Machine
end

