-- ==== Sys2Proof/Machine/Ecc.lean ====
section
/-!
DEFINITION. The memory controller's code (R265-R267): arithmetic in GF(2^8), syndromes of an error pattern, and the
decoder of Table 9-4. The code is linear, so decoding a stored codeword with an error is decoding the error itself.
-/

namespace Sys2Proof.Machine

/-- Multiplication by α = 0x02 modulo x^8 + x^4 + x^3 + x^2 + 1. -/
def gfDouble (a : Nat) : Nat := if a < 128 then 2 * a else (2 * a) ^^^ 0x11D

/-- Product in GF(2^8), over the low `n` bits of `b`. -/
def gfMulGo (a : Nat) : Nat → Nat → Nat
  | 0, _ => 0
  | n + 1, b => (if b % 2 = 1 then a else 0) ^^^ gfDouble (gfMulGo a n (b / 2))
def gfMul (a b : Nat) : Nat := gfMulGo a 8 b
/-- Powers of α. -/
def gfAlpha : Nat → Nat
  | 0 => 1
  | n + 1 => gfDouble (gfAlpha n)
def gfPow (a : Nat) : Nat → Nat
  | 0 => 1
  | n + 1 => gfMul a (gfPow a n)
def gfInv (a : Nat) : Nat := gfPow a 254

/-- An error pattern: (symbol, difference), symbols 0 to 63 data and 64 to 67 check. -/
abbrev ErrPat := List (Nat × Nat)

/-- The locator of a symbol: α^(67 - i). -/
def symLoc (i : Nat) : Nat := gfAlpha (67 - i)

/-- Syndrome `j` of an error pattern: c(α^j) (R265). -/
def syndrome (e : ErrPat) (j : Nat) : Nat :=
  e.foldl (fun acc x => acc ^^^ gfMul x.2 (gfPow (symLoc x.1) j)) 0
def syndromes (e : ErrPat) : List Nat := [syndrome e 0, syndrome e 1, syndrome e 2, syndrome e 3]

/-- The pattern π that poisons a block's check symbols (R267). -/
def poisonPat : ErrPat := [(64, 0x50), (65, 0x4F), (66, 0x49), (67, 0x53)]

/-- What the decoder finds in a block read. -/
inductive EccOut where
  | clean
  | poisoned
  | fix (e : ErrPat)
  | uncor
deriving DecidableEq, Repr

/-- A single-symbol pattern with the given syndromes. -/
def fixOne (s : List Nat) : Option ErrPat :=
  ((List.range 68).map fun i => [(i, s[0]?.getD 0)]).find? fun e => decide (s[0]?.getD 0 ≠ 0) && decide (syndromes e = s)

/-- A two-symbol pattern with the given syndromes. -/
def fixTwo (s : List Nat) : Option ErrPat :=
  let s0 := s[0]?.getD 0
  let s1 := s[1]?.getD 0
  let cands := (List.range 68).flatMap fun j => (List.range j).map fun i =>
    let yj := gfMul (s1 ^^^ gfMul s0 (symLoc i)) (gfInv (symLoc i ^^^ symLoc j))
    [(i, s0 ^^^ yj), (j, yj)]
  cands.find? fun e => e.all (fun x => decide (x.2 ≠ 0)) && decide (syndromes e = s)

/-- The decoder of Table 9-4 in a mode, on an error pattern. -/
def eccDecode (mode : Nat) (e : ErrPat) : EccOut :=
  let s := syndromes e
  if s = [0, 0, 0, 0] then .clean
  else if s = syndromes poisonPat then .poisoned
  else if mode = 2 then .uncor
  else
    match fixOne s with
    | some f => .fix f
    | none =>
      if mode = 1 then .uncor
      else
        match fixTwo s with
        | some f => .fix f
        | none => .uncor

/-- The difference that an error pattern leaves in the 64 data bytes. -/
def errData (e : ErrPat) : BitVec 512 :=
  e.foldl (fun d x => if x.1 < 64 then d ^^^ (BitVec.ofNat 512 (x.2 % 256) <<< (8 * x.1)) else d) 0

end Sys2Proof.Machine
end

