-- ==== Sys2Proof/Machine/Memory.lean ====
section
/-!
DEFINITION. Stacked memory (Chapter 09): the resolution of a physical address to a byte of a pseudo-channel with its
retirement entries, reading and writing blocks and lines with poison, and the thresholds of R278.
-/

namespace Sys2Proof.Machine

/-- A byte of a pseudo-channel (R257, R261). -/
structure Loc where
  p : Nat
  a : Nat
deriving DecidableEq, Repr

def Loc.key (l : Loc) : Nat := l.p * 2 ^ 30 + l.a
/-- The line of a location, as the directory's key: `P * 2^23` plus the line index (R294). -/
def Loc.line (l : Loc) : Nat := l.p * 2 ^ 23 + l.a / 128
/-- The block of a location, as the poison key. -/
def Loc.blk (l : Loc) : Nat := l.p * 2 ^ 24 + l.a / 64
def locOfLine (k : Nat) : Loc := ⟨k / 2 ^ 23, k % 2 ^ 23 * 128⟩

/-- The compute die of a pseudo-channel and its index there (R257). -/
def pchDie (p : Nat) : Fin 4 := cdOf (p / 128)
def pchIdx (p : Nat) : Nat := p % 128
/-- STATE of a pseudo-channel (Table 9-5). -/
def State.pch (s : State) (p : Nat) : Nat := s.rf (.cd (pchDie p)) .memPchState (pchIdx p) 3 0
def State.setPch (s : State) (p v : Nat) : State := s.setRf (.cd (pchDie p)) .memPchState (pchIdx p) 3 0 v
/-- Whether lines of a pseudo-channel are served (R262): its controller's domain running (R33), its stack ready (R439). -/
def State.pchServes (s : State) (p : Nat) : Bool :=
  decide (3 ≤ s.pch p) && decide (s.pch p ≤ 5) && s.running (.cd (pchDie p)) false && s.ready (40 + p / 64)

/-- Interleave mode of a band (R259). -/
def State.bandMode (s : State) (b : Nat) : Nat := s.rf .hub .memBandMode (b / 32) (2 * (b % 32) + 1) (2 * (b % 32))
/-- The usable band count U (R258). -/
def State.usable (s : State) : Nat := s.rf .hub .memRetireCtrl 0 63 48

/-- The address mapping of R261 for a mode. -/
def mapMode (mode pa : Nat) : Loc :=
  let b := pa / 2 ^ 24 % 2 ^ 15
  let f := pa / 2 ^ 21 % 8
  let o := pa % 2 ^ 21
  let u := o / 1024
  match mode with
  | 1 =>
    let h := (b % 512) ^^^ ((b / 512) * 8) ^^^ (f * 0x49) ^^^ ((u / 512) * 0xB5)
    ⟨(u % 512) ^^^ (h % 512), 32768 * b + f * 4096 + (u / 512) * 1024 + o % 1024⟩
  | 2 =>
    let h := (b % 128) ^^^ (b / 128 % 128) ^^^ ((b / 2 ^ 14) * 64) ^^^ ((f % 2) * 0x55) ^^^ ((u / 128) * 0x13)
    ⟨128 * (f / 2) + ((u % 128) ^^^ (h % 128)), 32768 * b + (f % 2) * 16384 + (u / 128) * 1024 + o % 1024⟩
  | _ => ⟨64 * f + 2 * (o / 65536) + o / 1024 % 2, 32768 * b + (o / 2048 % 32) * 1024 + o % 1024⟩

/-- A valid retirement entry: number, pseudo-channel, base band and band count (R279). -/
structure RetEnt where
  k : Nat
  p : Nat
  base : Nat
  m : Nat
deriving DecidableEq, Repr

def State.retEnts (s : State) : List RetEnt :=
  (upFrom 1 16).filterMap fun k =>
    let r := s.reg .hub .memRetireEntry (k - 1)
    if r.getLsbD 63 then some ⟨k, fld r 40 32, fld r 30 16, fld r 7 0⟩ else none

/-- Whether a relayout is running, and its cursor (R281). -/
def State.relayout (s : State) : Bool := decide (s.rf .hub .memRetireCtrl 0 28 26 = 1)
def State.cursor (s : State) : Nat := s.rf .hub .memRetireCtrl 0 47 32

/-- Index of the region of band `b` in an entry's ascending order (R279). -/
def RetEnt.index (e : RetEnt) (b : Nat) : Nat := if b < e.base then b else b - e.m
/-- The band of region index `j`. -/
def RetEnt.band (e : RetEnt) (j : Nat) : Nat := if j < e.base then j else j + e.m
/-- The `n`-th pseudo-channel in ascending order among those not retired. -/
def nthLive (retired : List Nat) (n : Nat) : Nat :=
  ((List.range 512).filter (fun p => !retired.contains p))[n]?.getD 0
/-- The donor band and pseudo-channel of region index `j`, given the channels retired by entries 1 to k. -/
def RetEnt.donor (e : RetEnt) (retired : List Nat) (j : Nat) : Nat × Nat :=
  (e.base + j / (512 - e.k), nthLive retired (j % (512 - e.k)))

/-- Entries applied in ascending order (R279); none where the region is being copied (R281). -/
def remap (running : Bool) (cursor : Nat) : List RetEnt → List Nat → Nat → Nat → Option (Nat × Nat)
  | [], _, b, p => some (b, p)
  | e :: r, retired, b, p =>
    let retired := retired ++ [e.p]
    if e.p = p then
      let j := e.index b
      let last := r.isEmpty && running
      if last && decide (j = cursor) then none
      else if last && decide (cursor < j) then remap running cursor r retired b p
      else
        let d := e.donor retired j
        remap running cursor r retired d.1 d.2
    else remap running cursor r retired b p

/-- The location of a pool address under a mode, none while its region is being copied. -/
def State.locate (s : State) (mode pa : Nat) : Option Loc :=
  let l := mapMode mode pa
  match remap s.relayout s.cursor s.retEnts [] (l.a / 32768) l.p with
  | none => none
  | some (b, p) => some ⟨p, 32768 * b + l.a % 32768⟩

/-! ### Blocks and lines -/

/-- Whether a block is poisoned: listed, or, in a pseudo-channel filled with poison, not listed (R267, R433). -/
def State.poisoned (s : State) (blk : Nat) : Bool := s.poison.contains blk != s.poisonBase.contains (blk / 2 ^ 24)
def State.setPoison (s : State) (blk : Nat) (v : Bool) : State :=
  { s with answers := aErase s.answers blk
           poison := if v != s.poisonBase.contains (blk / 2 ^ 24) then (if s.poison.contains blk then s.poison else blk :: s.poison)
                     else s.poison.filter (fun b => b ≠ blk) }
/-- Every block of a pseudo-channel written with zeros, valid or poisoned (R433, R438). -/
def State.fillPch (s : State) (p : Nat) (bad : Bool) : State :=
  { s with
    journal := .wipe p :: s.journal
    answers := s.answers.filter fun e => decide (e.1 / 2 ^ 24 ≠ p)
    poison := s.poison.filter fun b => decide (b / 2 ^ 24 ≠ p)
    poisonBase := if bad then (if s.poisonBase.contains p then s.poisonBase else p :: s.poisonBase)
                  else s.poisonBase.filter fun q => decide (q ≠ p) }

/-- The bytes of a location, `n` from it. -/
def State.locBytes (s : State) (l : Loc) (n : Nat) : List Byte := (List.range n).map fun i => s.rdKey (l.key + i)

/-- A line of memory, its first byte at `l`. -/
def State.memLine (s : State) (l : Loc) : Line :=
  (s.locBytes l 128).reverse.foldl (fun acc b => (acc <<< 8) ||| b.zeroExtend 1024) 0
/-- The poison bits of a line's two halves, as 0 to 3. -/
def State.linePoison (s : State) (l : Loc) : Nat :=
  b2n (s.poisoned l.blk) + 2 * b2n (s.poisoned (l.blk + 1))

/-- A write of a whole block: its poison goes, and a re-read of it that is still due no longer poisons it (R267, R271). -/
def State.overwritten (s : State) (blk : Nat) : State :=
  { s.setPoison blk false with
    rereads := s.rereads.map fun r => if r.p * 2 ^ 24 + r.blk = blk then { r with late := true } else r }

/-- Whether a read of a line waits for a re-read (R269). -/
def State.rereading (s : State) (l : Loc) : Bool :=
  s.rereads.any fun r => decide (r.p * 2 ^ 24 + r.blk = l.blk) || decide (r.p * 2 ^ 24 + r.blk = l.blk + 1)

/-- The 64 data bytes of a block as stored. -/
def State.blockData (s : State) (p blk : Nat) : BitVec 512 :=
  (s.locBytes ⟨p, 64 * blk⟩ 64).reverse.foldl (fun acc b => (acc <<< 8) ||| b.zeroExtend 512) 0
def State.writeBlock (s : State) (p blk : Nat) (d : BitVec 512) : State :=
  ((List.range 64).foldl (fun t i => t.wrKey ((⟨p, 64 * blk⟩ : Loc).key + i) (d.extractLsb' (8 * i) 8)) s).overwritten
    (p * 2 ^ 24 + blk)

/-- A line as a request's read at its home delivers it (R266, R268, R269): each half as the decoder gave it where a decoded read
of it stands, as stored otherwise; then the poison bits, and the state with those reads taken. -/
def State.homeLine (s : State) (l : Loc) : Line × Nat × State :=
  match aFind s.answers l.blk, aFind s.answers (l.blk + 1) with
  | none, none => (s.memLine l, s.linePoison l, s)
  | a, b =>
    let half (x : Option (Option (BitVec 512))) (i : Nat) : BitVec 512 × Bool :=
      match x with
      | some (some d) => (d, false)
      | some none => (0, true)
      | none => (s.blockData l.p (l.a / 64 + i), s.poisoned (l.blk + i))
    let x := half a 0
    let y := half b 1
    (y.1 ++ x.1, b2n x.2 + 2 * b2n y.2, { s with answers := aErase (aErase s.answers l.blk) (l.blk + 1) })

/-- A line's half written under its mask: a half covered whole is written and cleared of poison; a half covered in part is read
through the decoder, merged and written whole, and left where that read gives poison (R267-R269). -/
def State.writeHalf (s : State) (l : Loc) (mask : Nat) (data : Line) (half : Nat) : State × Bool :=
  let m := mask / 2 ^ (64 * half) % 2 ^ 64
  let blk := l.blk + half
  let new (i : Nat) : Byte := lineByte data (64 * half + i)
  if m = 0 then (s, false)
  else if m = 2 ^ 64 - 1 then
    (((List.range 64).foldl (fun t i => t.wrKey (l.key + 64 * half + i) (new i)) s).overwritten blk, false)
  else
    match aFind s.answers blk with
    | some (some d) =>
      (((List.range 64).foldl
        (fun t i => t.wrKey (l.key + 64 * half + i) (if nbit m i then new i else d.extractLsb' (8 * i) 8)) s).overwritten blk,
        false)
    | some none => ({ s with answers := aErase s.answers blk }, true)
    | none =>
      if s.poisoned blk then (s, true)
      else ((List.range 64).foldl (fun t i => if nbit m i then t.wrKey (l.key + 64 * half + i) (new i) else t) s, false)

/-- The record of a memory error, kept while VALID (Table 9-11). -/
def State.errRec (s : State) (p blk kind : Nat) : State :=
  let d := Die.cd (pchDie p)
  let r := s.reg d .memErrRec (pchIdx p)
  if r.getLsbD 63 || decide (512 ≤ p) then s
  else s.setReg d .memErrRec (pchIdx p)
    (BitVec.ofNat 64 (2 ^ 63 + kind * 2 ^ 60 + fld s.now 43 8 * 2 ^ 24 + blk % 2 ^ 24))

/-- A line written under a byte mask; true where a poisoned half was covered in part. -/
def State.writeLine (s : State) (l : Loc) (mask : Nat) (data : Line) : State × Bool :=
  let a := s.writeHalf l mask data 0
  let b := a.1.writeHalf l mask data 1
  let t := if a.2 then b.1.errRec l.p (l.a / 64) 4 else b.1
  let t := if b.2 then t.errRec l.p (l.a / 64 + 1) 4 else t
  (t, a.2 || b.2)

/-- A whole line stored with poison bits, as a dirty line or a forwarded line is (R291). -/
def State.storeLine (s : State) (l : Loc) (data : Line) (pois : Nat) : State :=
  let t := (List.range 128).foldl (fun t i => t.wrKey (l.key + i) (lineByte data i)) s
  (((t.overwritten l.blk).overwritten (l.blk + 1)).setPoison l.blk (nbit pois 0)).setPoison (l.blk + 1) (nbit pois 1)

/-- Both blocks of a line poisoned, data as it stands (R267, R305, R306). -/
def State.poisonLine (s : State) (l : Loc) : State := (s.setPoison l.blk true).setPoison (l.blk + 1) true

/-! ### Thresholds -/

/-- Whether a run of the traffic generator is refused, or ended, for the state of its pseudo-channels (R277). -/
def tgStateBad (nondestr : Bool) (st : Nat) : Bool :=
  decide (st = 0) || decide (st = 1) || decide (st = 5) || (!nondestr && decide (st ≠ 2) && decide (st ≠ 6))

/-- The pseudo-channels a run names: 64 channels of a die, PCSEL 0, 1 or both. -/
def TgRun.pcs (r : TgRun) : List Nat :=
  let p := 128 * r.die.val + 2 * r.ch
  match fld r.cfg 23 22 with
  | 0 => [p]
  | 1 => [p + 1]
  | _ => [p, p + 1]
def TgRun.nondestr (r : TgRun) : Bool := decide (fld r.cfg 20 20 = 1)

/-- The reasons for ordered mode and what follows from them (R372, R373): TEST while a generator runs; with a reason set
and ordered mode not in effect, ENTERING; with none, neither. -/
def State.orderSettle (s : State) : State :=
  let r := setFld (s.reg .hub .hubOrderStatus 0) 1 1 (b2n (!s.tgRuns.isEmpty))
  s.setReg .hub .hubOrderStatus 0
    (if fld r 2 0 = 0 then setFld (setFld r 31 31 0) 30 30 0 else if r.getLsbD 31 then r else setFld r 30 30 1)
/-- A reason bit of HUB_ORDER_STATUS set or cleared: 0 START, 2 RECOVERY. -/
def State.orderReason (s : State) (bit v : Nat) : State := (s.setRf .hub .hubOrderStatus 0 bit bit v).orderSettle

/-- The end of a run with a STATE of Table 9-16. -/
def State.tgEnd (s : State) (r : TgRun) (st : Nat) : State :=
  ({ s with tgRuns := s.tgRuns.filter (fun x => ¬ (x.die = r.die ∧ x.ch = r.ch)) }.orderSettle).setRf (.cd r.die) .tgStatus r.ch 18 16 st

/-- A pseudo-channel changes state; a generator run that R277 would now refuse ends with ABORTED. -/
def State.movePch (s : State) (p st : Nat) : State :=
  let t := s.setPch p st
  (t.tgRuns.filter (fun r => r.pcs.contains p && tgStateBad r.nondestr st)).foldl (fun t r => t.tgEnd r 3) t

/-- A threshold of R278 is met: its bit is set (5 THU, 6 THC, 7 TRC), and an ONLINE pseudo-channel becomes FAILING. -/
def State.markFailing (s : State) (p bit : Nat) : State :=
  let d := Die.cd (pchDie p)
  let t := s.setRf d .memPchState (pchIdx p) bit bit 1
  if s.pch p = 3 then (t.movePch p 4).raise d (0x20 + pchIdx p / 64) (pchIdx p) else t

/-- Counting states of R278. -/
def State.counting (s : State) (p : Nat) : Bool := decide (3 ≤ s.pch p) && decide (s.pch p ≤ 5)

/-- A block of `p` corrected by the controller's code. -/
def State.noteCorrected (s : State) (p : Nat) : State :=
  let t := s.count (.cd (pchDie p)) .memCorrCnt (pchIdx p) 1
  if s.counting p then
    let c := aGet s.thcCnt 0 p + 1
    let t := { t with thcCnt := aSet s.thcCnt p c }
    if c = 1024 then t.markFailing p 6 else t
  else t

/-- A block of `p` counted and recorded as poisoned under R269, with the KIND of Table 9-11. -/
def State.noteUncor (s : State) (p blk kind : Nat) : State :=
  let d := Die.cd (pchDie p)
  let t := s.count d .memUncorCnt (pchIdx p) 1
  let t := (t.errRec p blk kind).raise d (0x22 + pchIdx p / 64) (pchIdx p * 2 ^ 24 + blk % 2 ^ 24)
  if s.counting p then
    let rows := aGet s.thuRows [] p
    let rows' := if rows.contains (blk / 16) then rows else rows ++ [blk / 16]
    let t := { t with thuRows := aSet s.thuRows p rows' }
    if rows'.length = 3 ∧ rows.length = 2 then t.markFailing p 5 else t
  else t

/-- A block of `p` poisoned under R269. -/
def State.notePoisoned (s : State) (p blk kind : Nat) : State :=
  (s.setPoison (p * 2 ^ 24 + blk) true).noteUncor p blk kind

/-- The start of a scrub period (R270, R278). -/
def State.scrubStart (s : State) (p : Nat) : State :=
  { s with scrubPos := aSet s.scrubPos p 0, thuRows := aSet s.thuRows p [], thcCnt := aSet s.thcCnt p 0 }

/-- A pseudo-channel enters ONLINE. -/
def State.enterOnline (s : State) (p : Nat) : State := (s.movePch p 3).scrubStart p

/-- Blocks of a pseudo-channel (R256). -/
def State.blocks (s : State) : Nat := if s.fuse.high16 then 2 ^ 24 else 3 * 2 ^ 22

/-- The stored error pattern of a block: the poison pattern where it is poisoned, with a disturbance on top. -/
def State.blockErr (s : State) (p blk : Nat) (flips : ErrPat) : ErrPat :=
  if s.poisoned (p * 2 ^ 24 + blk) then flips ++ poisonPat else flips
def State.eccMode (s : State) (p : Nat) : Nat := s.rf (.cd (pchDie p)) .memCfg 0 1 0

/-- The data a read delivers: the stored data with what the disturbance and the correction leave. -/
def readData (stored : BitVec 512) (e f : ErrPat) : BitVec 512 := stored ^^^ errData e ^^^ errData f

end Sys2Proof.Machine
end

