-- ==== Sys2Proof/Machine/NumCore.lean ====
section
/-!
DEFINITION. Linear number formats of Chapter 02 as exact values: decoding a pattern, rounding an exact value to a
format (R58-R60, R71-R73), and the binary32 and PF64 arithmetic built on them (R61, R62, R68, R483).
A finite value is sign, magnitude and exponent of two, exactly; a pattern is a number below 2^width.
-/

namespace Sys2Proof.Machine

/-- An exact value: not a number, an infinity, or (-1)^s * m * 2^e. -/
inductive FVal where
  | nan
  | inf (s : Bool)
  | fin (s : Bool) (m : Nat) (e : Int)
deriving DecidableEq, Repr

/-- A binary interchange format: precision, least normal exponent and pattern width (R58). -/
structure FFmt where
  prec : Nat
  emin : Int
  width : Nat
deriving DecidableEq, Repr

def fF32 : FFmt := ⟨24, -126, 32⟩
def fBF16 : FFmt := ⟨8, -126, 16⟩
def fF16 : FFmt := ⟨11, -14, 16⟩
def fF64 : FFmt := ⟨53, -1022, 64⟩

/-- Pattern of the positive infinity of a format. -/
def FFmt.infBits (f : FFmt) : Nat := 2 ^ (f.width - 1) - 2 ^ (f.prec - 1)
/-- Pattern of the largest finite value (R60). -/
def FFmt.maxBits (f : FFmt) : Nat := f.infBits - 1
/-- Pattern of the canonical quiet NaN (R59). -/
def FFmt.nanBits (f : FFmt) : Nat := f.infBits + 2 ^ (f.prec - 2)
/-- Pattern with a sign set. -/
def FFmt.withSign (f : FFmt) (s : Bool) (m : Nat) : Nat := m + (if s then 2 ^ (f.width - 1) else 0)
/-- Exponent of the least significant bit of a subnormal. -/
def FFmt.qmin (f : FFmt) : Int := f.emin - ((f.prec : Int) - 1)

/-- The exact value of a pattern (R58, subnormals kept). -/
def fdec (f : FFmt) (bits : Nat) : FVal :=
  let x := bits % 2 ^ f.width
  let s := decide (2 ^ (f.width - 1) ≤ x)
  let m := x % 2 ^ (f.width - 1)
  let e := m / 2 ^ (f.prec - 1)
  let frac := m % 2 ^ (f.prec - 1)
  if m = f.infBits then .inf s
  else if f.infBits < m then .nan
  else if e = 0 then .fin s frac f.qmin
  else .fin s (frac + 2 ^ (f.prec - 1)) (f.qmin + ((e : Int) - 1))

/-- Rounding modes of R71; the stochastic mode carries its 16-bit draw (R73). -/
inductive RMode where
  | rne
  | rtz
  | sr (draw : Nat)
deriving DecidableEq, Repr

/-- Whether a magnitude `q` plus a fraction `rem / 2^sh` (plus a little more when `sticky`) rounds up (R72, R73). -/
def roundUp (mode : RMode) (q rem sh : Nat) (sticky : Bool) : Bool :=
  match mode with
  | .rtz => false
  | .sr draw => decide (draw < (rem * 65536) >>> sh)
  | .rne =>
    let half := if sh = 0 then 0 else 2 ^ (sh - 1)
    if sh = 0 then false
    else if half < rem then true
    else if rem = half then (sticky || decide (q % 2 = 1))
    else false

/-- A magnitude `m * 2^e` rounded to an integer multiple of `2^qe`. -/
def roundAt (mode : RMode) (m : Nat) (e qe : Int) (sticky : Bool) : Nat :=
  if qe ≤ e then m <<< (e - qe).toNat
  else
    let sh := (qe - e).toNat
    let q := m >>> sh
    let rem := m % 2 ^ sh
    if roundUp mode q rem sh sticky then q + 1 else q

/-- A finite magnitude rounded to a format, range limits applied after rounding (R60, R74): the pattern without sign. -/
def froundMag (f : FFmt) (mode : RMode) (m : Nat) (e : Int) (sticky : Bool) : Nat :=
  if m = 0 then 0
  else
    let top := (m.log2 : Int) + e
    let qe := max (top - ((f.prec : Int) - 1)) f.qmin
    let q := roundAt mode m e qe sticky
    let bits := (qe - f.qmin).toNat * 2 ^ (f.prec - 1) + q
    if f.infBits ≤ bits then f.maxBits else bits

/-- An exact value rounded to a format. -/
def fenc (f : FFmt) (mode : RMode) : FVal → Nat
  | .nan => f.nanBits
  | .inf s => f.withSign s f.infBits
  | .fin s m e => f.withSign s (froundMag f mode m e false)

/-- The negative of a value. -/
def FVal.neg : FVal → FVal
  | .nan => .nan
  | .inf s => .inf (!s)
  | .fin s m e => .fin (!s) m e

def FVal.isNan : FVal → Bool
  | .nan => true
  | _ => false
def FVal.isInf : FVal → Bool
  | .inf _ => true
  | _ => false
def FVal.sign : FVal → Bool
  | .nan => false
  | .inf s => s
  | .fin s _ _ => s
def FVal.isZero : FVal → Bool
  | .fin _ 0 _ => true
  | _ => false

/-- Signed significand at a common exponent `e0 ≤ e`. -/
def sigAt (s : Bool) (m : Nat) (e e0 : Int) : Int :=
  let v : Int := ((m <<< (e - e0).toNat : Nat) : Int)
  if s then -v else v

/-- The exact value of an integer times a power of two; zero is +0. -/
def ofInt (v e : Int) : FVal := .fin (decide (v < 0)) v.natAbs e

/-- The exact sum, with the special rows of Table 2-7. -/
def FVal.add : FVal → FVal → FVal
  | .nan, _ => .nan
  | _, .nan => .nan
  | .inf a, .inf b => if a = b then .inf a else .nan
  | .inf a, .fin _ _ _ => .inf a
  | .fin _ _ _, .inf b => .inf b
  | .fin a m e, .fin b n g =>
    if m = 0 ∧ n = 0 then .fin (a && b) 0 0
    else
      let e0 := min e g
      ofInt (sigAt a m e e0 + sigAt b n g e0) e0

/-- The exact product, with the special rows of Table 2-7. -/
def FVal.mul : FVal → FVal → FVal
  | .nan, _ => .nan
  | _, .nan => .nan
  | .inf a, .inf b => .inf (a != b)
  | .inf a, .fin b n _ => if n = 0 then .nan else .inf (a != b)
  | .fin a m _, .inf b => if m = 0 then .nan else .inf (a != b)
  | .fin a m e, .fin b n g => .fin (a != b) (m * n) (e + g)

/-- Whether one finite or infinite value lies below another by value (zeros equal). -/
def FVal.lt : FVal → FVal → Bool
  | .nan, _ => false
  | _, .nan => false
  | .inf a, .inf b => a && !b
  | .inf a, .fin _ _ _ => a
  | .fin _ _ _, .inf b => !b
  | .fin a m e, .fin b n g =>
    let e0 := min e g
    decide (sigAt a m e e0 < sigAt b n g e0)

/-- Equality by value (-0 equals +0). -/
def FVal.eqv (x y : FVal) : Bool := !x.isNan && !y.isNan && !x.lt y && !y.lt x

/-- Order with -0 below +0 (R125, R185). -/
def FVal.ltZ (x y : FVal) : Bool :=
  x.lt y || (x.isZero && y.isZero && x.sign && !y.sign)

/-! ### binary32 (R58-R60, R68) -/

def f32d (b : Nat) : FVal := fdec fF32 b
def f32e (v : FVal) : Nat := fenc fF32 .rne v
def f32nan : Nat := 0x7FC00000
def f32max : Nat := 0x7F7FFFFF
def f32neg0 : Nat := 0x80000000

def f32add (a b : Nat) : Nat := f32e ((f32d a).add (f32d b))
def f32sub (a b : Nat) : Nat := f32e ((f32d a).add (f32d b).neg)
def f32mul (a b : Nat) : Nat := f32e ((f32d a).mul (f32d b))
/-- One rounding after the exact product and sum. -/
def f32fma (a b c : Nat) : Nat := f32e (((f32d a).mul (f32d b)).add (f32d c))

def isNan32 (b : Nat) : Bool := (f32d b).isNan
def isInf32 (b : Nat) : Bool := (f32d b).isInf

/-- The correctly rounded quotient of two non-zero finite magnitudes. -/
def quotBits (s : Bool) (m : Nat) (e : Int) (n : Nat) (g : Int) : Nat :=
  let sh := 64 + n.log2
  let num := m <<< sh
  fF32.withSign s (froundMag fF32 .rne (num / n * 2 + (if num % n = 0 then 0 else 1)) (e - g - (sh : Int) - 1) false)

/-- Division (R125, Table 2-7). -/
def f32div (a b : Nat) : Nat :=
  match f32d a, f32d b with
  | .nan, _ => f32nan
  | _, .nan => f32nan
  | .inf _, .inf _ => f32nan
  | .inf s, .fin t _ _ => f32e (.inf (s != t))
  | .fin s _ _, .inf t => fF32.withSign (s != t) 0
  | .fin s m e, .fin t n g =>
    if n = 0 then (if m = 0 then f32nan else fF32.withSign (s != t) f32max)
    else if m = 0 then fF32.withSign (s != t) 0
    else quotBits (s != t) m e n g

/-- Absolute value and negation; a NaN gives the canonical NaN (R185). -/
def f32abs (a : Nat) : Nat := if isNan32 a then f32nan else a % 2 ^ 31
def f32neg (a : Nat) : Nat :=
  if isNan32 a then f32nan else if a % 2 ^ 32 < 2 ^ 31 then a % 2 ^ 32 + 2 ^ 31 else a % 2 ^ 32 - 2 ^ 31

/-- Minimum and maximum, -0 below +0, NaN for a NaN operand (R125, R185). -/
def f32min (a b : Nat) : Nat :=
  if isNan32 a || isNan32 b then f32nan else if (f32d b).ltZ (f32d a) then b % 2 ^ 32 else a % 2 ^ 32
def f32max2 (a b : Nat) : Nat :=
  if isNan32 a || isNan32 b then f32nan else if (f32d a).ltZ (f32d b) then b % 2 ^ 32 else a % 2 ^ 32

/-! ### PF64 pairs (R61-R63, R483). A pair is one number: hi in bits 31..0, lo in bits 63..32. -/

def pfHi (p : Nat) : Nat := p % 2 ^ 32
def pfLo (p : Nat) : Nat := p / 2 ^ 32 % 2 ^ 32
def pfMk (h l : Nat) : Nat := h % 2 ^ 32 + (l % 2 ^ 32) * 2 ^ 32
/-- The NaN pair (R62). -/
def pfNan : Nat := 0x7FC00000

/-- The finite value of a binary32 pattern, infinities read as zero (only used on finite steps). -/
def f32fin (b : Nat) : FVal :=
  match f32d b with
  | .fin s m e => .fin s m e
  | _ => .fin false 0 0

/-- A result pair with the special values of R62 and R483 in place; the largest binary32 number with a low part of its own sign counts
as past the range (DESIGN CHOICE, log 104). -/
def pfFin (h l : Nat) : Nat :=
  if isNan32 h || isNan32 l then pfNan
  else if isInf32 h then pfMk h 0
  else if isInf32 l then pfMk l 0
  else
    let v := (f32fin h).add (f32fin l)
    let big := (FVal.fin false (2 ^ 24 - 1) 104).lt
      (match v with | .fin _ m e => .fin false m e | w => w)
    if big then pfMk (fF32.withSign v.sign f32max) 0
    else if v.isZero then pfMk (if h % 2 ^ 31 = 0 then h else 0) 0
    else pfMk h l

/-- Renormalisation of an input pair (R62): its two roundings, with nothing saturated beyond them. A finite high half beside an infinite low
one, for which R62's two lines give (infinity, NaN), passes as the infinity with low part +0 (DESIGN CHOICE, log 131). -/
def pfIn (p : Nat) : Nat :=
  let h := pfHi p
  let l := pfLo p
  if isNan32 h || isNan32 l then pfNan
  else if isInf32 h then pfMk h 0
  else if isInf32 l then pfMk l 0
  else
    let h2 := f32add h l
    pfMk h2 (f32e ((f32d l).add (((f32d h2).add (f32d h).neg)).neg))

/-- A pair renormalised as a result (R61, R62). -/
def pfRenorm (p : Nat) : Nat := pfFin (pfHi (pfIn p)) (pfLo (pfIn p))

/-- The product lines of `pf64_mul` on renormalised finite pairs: the exact low part `pl` enters one rounding (R483). -/
def pfProd (ah al bh bl : Nat) : Nat × Nat :=
  let ph := f32mul ah bh
  let pl := ((f32fin ah).mul (f32fin bh)).add (f32fin ph).neg
  let t := f32add (f32mul ah bl) (f32mul al bh)
  let pl2 := f32e (pl.add (f32d t))
  let h := f32add ph pl2
  let l := f32e ((f32d pl2).add ((f32fin h).add (f32fin ph).neg).neg)
  (h, l)

/-- The compensated sum of `pf64_add` (R483). -/
def pfSum (ch cl ph pl : Nat) : Nat × Nat :=
  let sh := f32add ch ph
  let z := f32sub sh ch
  let se := f32add (f32sub ch (f32sub sh z)) (f32sub ph z)
  let se2 := f32add se (f32add cl pl)
  let h := f32add sh se2
  let l := f32e ((f32d se2).add ((f32fin h).add (f32fin sh).neg).neg)
  (h, l)

def pfMul (a b : Nat) : Nat :=
  let a := pfIn a
  let b := pfIn b
  if isNan32 (pfHi a) || isNan32 (pfHi b) then pfNan
  else if isInf32 (pfHi a) || isInf32 (pfHi b) then
    pfFin (f32e ((f32d (pfHi a)).mul (f32d (pfHi b)))) 0
  else
    let r := pfProd (pfHi a) (pfLo a) (pfHi b) (pfLo b)
    pfFin r.1 r.2

def pfAdd (a b : Nat) : Nat :=
  let a := pfIn a
  let b := pfIn b
  if isNan32 (pfHi a) || isNan32 (pfHi b) then pfNan
  else if isInf32 (pfHi a) || isInf32 (pfHi b) then
    pfFin (f32e ((f32d (pfHi a)).add (f32d (pfHi b)))) 0
  else
    let r := pfSum (pfHi a) (pfLo a) (pfHi b) (pfLo b)
    pfFin r.1 r.2

/-- Both halves negated (R125, R483). -/
def pfNegBits (a : Nat) : Nat := pfMk (pfHi a ^^^ 0x80000000) (pfLo a ^^^ 0x80000000)
def pfSub (a b : Nat) : Nat := pfAdd a (pfNegBits b)

/-- One Millstone multiply-accumulate step on pairs: `pf64_add(c, pf64_mul(a, b))` (R164, R483). -/
def pfMma (c a b : Nat) : Nat := pfAdd c (pfMul a b)

/-- The exact value of a pair. -/
def pfVal (p : Nat) : FVal :=
  let h := f32d (pfHi p)
  let l := f32d (pfLo p)
  if h.isNan || l.isNan then .nan
  else if h.isInf then h
  else if h.isZero && l.isZero then h
  else h.add l

end Sys2Proof.Machine
end

