-- ==== Sys2Proof/Machine/NumFun.lean ====
section
/-!
DEFINITION. The fixed functions of the part: the exponent table T of R65, the correctly rounded functions of
Table 6-4 (R126, R186), the trigonometric values of R193 and the quantile table of R194.
Every function is computed from its definition: exactly on integers where the result is algebraic, else in integer
interval arithmetic whose precision rises until both ends of the interval round to one pattern.
-/

namespace Sys2Proof.Machine

/-- Sixteen significands of T, 24 bits each, entry `16 r` in the low bits. -/
def tRow (r : Nat) : Nat :=
  match r with
  | 0 => 0x854E3D84F1F68495F0843A2983DEA183835983285082CD878272FC8218AF81BEA18164D2810B4180B1ED8058D8800000
  | 1 => 0x8B35238AD4C68A74AD8A14D589B5418955EE88F6DD88980F88398187DB35877D2B871F6286C1D986649186078A85AAC3
  | 2 => 0x915EED90FA4D9095F29031DC8FCE0C8F6A818F073B8EA43A8E417D8DDF048D7CD08D1ADF8CB9338C57CA8BF6A48B95C2
  | 3 => 0x97CE9297657D96FCB196942D962BF295C3FF955C5394F4F0948DD49426FF93C072935A2B92F42C928E7292290091C3D3
  | 4 => 0x9E872A9E196E9DABFE9D3EDA9CD2019C65739BF9319B8D3A9B218D9AB62B9A4B1399E0469975C2990B8898A1979837F0
  | 5 => 0xA58BEFA51958A4A70FA43516A3C36BA3520FA2E102A27043A1FFD2A18FAFA11FD9A0B051A041169FD2289F63879EF532
  | 6 => 0xACE041AC6897ABF13FAB7A3AAB0387AA8D26AA1718A9A15BA92BEFA8B6D5A8420CA7CD94A7596CA6E595A6720EA5FED7
  | 7 => 0xB487A6B40AAFB38E0EB311C4B295D0B21A32B19EE9B123F6B0A957B02F0EAFB519AF3B79AEC22DAE4934ADD090AD583F
  | 8 => 0xBC85CABC034ABB8126BAFF5BBA7DEAB9FCD2B97C14B8FBAFB87BA3B7FBF0B77C95B6FD92B67EE7B60094B58298B504F3
  | 9 => 0xC4DE85C4563FC3CE57C346CDC2BFA1C238D2C1B261C12C4DC0A695C0213BBF9C3CBF179ABE9353BE0F68BD8BD8BD08A4
  | 10 => 0xCD95DACD078CCC799FCBEC15CB5EEDCAD226CA45C1C9B9BEC92E1BC8A2D8C817F7C78D75C70353C67991C5F02EC5672A
  | 11 => 0xD6AFFAD61B5ED58729D4F35BD45FF3D3CCF1D33A54D2A81ED2164CD184DFD0F3D7D06334CFD2F4CF4319CEB3A1CE248C
  | 12 => 0xE03143DF9613DEFB4EDE60F5DDC706DD2D82DC9468DBFBB8DB6371DACB94DA3421D99D16D90673D87039D7DA67D744FD
  | 13 => 0xEA1E47E97C38E8DA99E8396AE798ABE6F85BE65879E5B907E51A03E47B6DE3DD44E33F89E2A23CE2055BE168E7E0CCDF
  | 14 => 0xF47BCCF3D290F329C9F28177F1D99AF13231F08B3BEFE4BAEF3EABEE9910EDF3E7ED4F30ECAAECEC0719EB63B7EAC0C7
  | _ => 0xFF4ECBFE9E11FDEDD2FD3E0CFC8EC0FBDFEDFB3194FA83B3F9D64AF9295AF87CE1F7D0DFF72555F67A41F5CFA4F5257D

/-- The 24-bit significand of `T[k]`, the binary32 value nearest to 2^(k/256) (R65). -/
def tSig (k : Nat) : Nat := (tRow (k / 16) >>> (24 * (k % 16))) % 2 ^ 24

/-- The binary32 pattern of `2^i * T[k]` with a sign, under the range rows of R66. -/
def tPat (s : Bool) (sigma : Int) : Nat :=
  let i := sigma / 256
  let k := (sigma % 256).toNat
  fF32.withSign s
    (if 128 ≤ i then f32max
     else if i ≤ -127 then 0
     else (i + 127).toNat * 2 ^ 23 + (tSig k - 2 ^ 23))

/-- The integer square root, bit by bit. -/
def isqrtGo (n : Nat) : Nat → Nat → Nat
  | 0, r => r
  | b + 1, r =>
    let t := r + 2 ^ b
    if t * t ≤ n then isqrtGo n b t else isqrtGo n b r

def isqrt (n : Nat) : Nat := isqrtGo n (n.log2 / 2 + 1) 0

/-- Square root (Table 6-4 SUB 0). -/
def f32sqrt (a : Nat) : Nat :=
  match f32d a with
  | .nan => f32nan
  | .inf s => if s then f32nan else a % 2 ^ 32
  | .fin s m e =>
    if m = 0 then a % 2 ^ 32
    else if s then f32nan
    else
      let m2 := if e % 2 = 0 then m else 2 * m
      let e2 := if e % 2 = 0 then e else e - 1
      let n := m2 <<< 64
      let r := isqrt n
      froundMag fF32 .rne (2 * r + (if r * r = n then 0 else 1)) (e2 / 2 - 33) false

/-- Reciprocal (Table 6-4 SUB 1). -/
def f32recip (a : Nat) : Nat :=
  match f32d a with
  | .nan => f32nan
  | .inf s => fF32.withSign s 0
  | .fin s m e => if m = 0 then fF32.withSign s f32max else quotBits s 1 0 m e

/-- Reciprocal square root (Table 6-4 SUB 2). -/
def f32rsqrt (a : Nat) : Nat :=
  match f32d a with
  | .nan => f32nan
  | .inf s => if s then f32nan else 0
  | .fin s m e =>
    if m = 0 then fF32.withSign s f32max
    else if s then f32nan
    else
      let m2 := if e % 2 = 0 then m else 2 * m
      let e2 := if e % 2 = 0 then e else e - 1
      let r := isqrt (2 ^ 128 / m2)
      froundMag fF32 .rne (2 * r + (if r * r * m2 = 2 ^ 128 then 0 else 1)) (-(e2 / 2) - 65) false

/-! ### Fixed-point series. A number `v` stands for `v / 2^p`; each function is within a few units of its value. -/

/-- `v * w` at precision `p`. -/
def fxMul (p : Nat) (v w : Int) : Int := (v * w) / ((2 ^ p : Nat) : Int)

/-- Sum of `z^(2k+1) / (2k+1)` with alternating signs when `alt`: `t` is the current power. -/
def fxAtanGo (p : Nat) (alt : Bool) (z2 : Int) : Nat → Nat → Int → Int → Int
  | 0, _, _, acc => acc
  | n + 1, k, t, acc =>
    let term := t / ((2 * k + 1 : Nat) : Int)
    let acc' := if alt && k % 2 = 1 then acc - term else acc + term
    if t = 0 then acc' else fxAtanGo p alt z2 n (k + 1) (fxMul p t z2) acc'

/-- atanh z for 0 ≤ z ≤ 1/3, within `p` units. -/
def fxAtanh (p : Nat) (z : Int) : Int := fxAtanGo p false (fxMul p z z) p 0 z 0
/-- atan (1 / n), within `p` units. -/
def fxAtanInv (p n : Nat) : Int :=
  let z : Int := (2 ^ p / n : Nat)
  fxAtanGo p true (fxMul p z z) p 0 z 0
/-- ln 2, within `2p` units. -/
def fxLn2 (p : Nat) : Int := 2 * fxAtanh p ((2 ^ p / 3 : Nat) : Int)
/-- π, within `20p` units. -/
def fxPi (p : Nat) : Int := 16 * fxAtanInv p 5 - 4 * fxAtanInv p 239
/-- ln y for 1 ≤ y < 2, within `4p` units. -/
def fxLn (p : Nat) (y : Int) : Int :=
  let one : Int := (2 ^ p : Nat)
  2 * fxAtanh p ((y - one) * one / (y + one))

/-- Sum of `r^k / k!`. -/
def fxExpGo (p : Nat) (r : Int) : Nat → Nat → Int → Int → Int
  | 0, _, _, acc => acc
  | n + 1, k, t, acc =>
    if t = 0 then acc
    else fxExpGo p r n (k + 1) (fxMul p t r / ((k : Nat) : Int)) (acc + t)
/-- e^r for 0 ≤ r ≤ 1, within `4p` units. -/
def fxExp (p : Nat) (r : Int) : Int := fxExpGo p r p 1 ((2 ^ p : Nat) : Int) 0

/-- Sum of `(-1)^k x^(2k+i) / (2k+i)!`, `t` the current term. -/
def fxTrigGo (p : Nat) (x2 : Int) : Nat → Nat → Int → Int → Int
  | 0, _, _, acc => acc
  | n + 1, k, t, acc =>
    if t = 0 then acc
    else fxTrigGo p x2 n (k + 2) (-(fxMul p t x2) / (((k + 1) * (k + 2) : Nat) : Int)) (acc + t)
def fxSin (p : Nat) (x : Int) : Int := fxTrigGo p (fxMul p x x) p 1 x 0
def fxCos (p : Nat) (x : Int) : Int := fxTrigGo p (fxMul p x x) p 0 ((2 ^ p : Nat) : Int) 0

/-- A fixed-point value with an error bound, times a power of two. -/
structure Approx where
  v : Int
  err : Int
  exp : Int

/-- The binary32 pattern of a signed integer times a power of two, rounded to nearest. -/
def f32ofInt (v e : Int) : Nat := fF32.withSign (decide (v < 0)) (froundMag fF32 .rne v.natAbs e false)

/-- Raises the precision until both ends of the interval round to one pattern. -/
def ziv (f : Nat → Approx) : Nat → Nat → Nat
  | 0, p => let a := f p; f32ofInt a.v (a.exp - p)
  | n + 1, p =>
    let a := f p
    let lo := f32ofInt (a.v - a.err) (a.exp - p)
    let hi := f32ofInt (a.v + a.err) (a.exp - p)
    if lo = hi then lo else ziv f n (2 * p)

/-- `m * 2^e` at precision `p`, rounded down. -/
def fxOf (p : Nat) (s : Bool) (m : Nat) (e : Int) : Int :=
  let sh := e + p
  let v : Nat := if 0 ≤ sh then m <<< sh.toNat else m >>> (-sh).toNat
  if s then -(v : Int) - (if 0 ≤ sh then 0 else 1) else v

/-- 2^x as an approximation; `x` is within ±2^8. -/
def apExp2 (s : Bool) (m : Nat) (e : Int) (p : Nat) : Approx :=
  let x := fxOf p s m e
  let one : Int := (2 ^ p : Nat)
  let k := x / one
  ⟨fxExp p (fxMul p (x % one) (fxLn2 p)), 16 * p, k⟩
/-- e^x as an approximation; `x` is within ±2^8. -/
def apExp (s : Bool) (m : Nat) (e : Int) (p : Nat) : Approx :=
  let x := fxOf p s m e
  let l := fxLn2 p
  let k := x / l
  ⟨fxExp p (x - k * l), 2048 * p, k⟩
/-- ln of a positive value. -/
def apLn (m : Nat) (e : Int) (p : Nat) : Approx :=
  let t := m.log2
  let y : Int := ((m <<< p) >>> t : Nat)
  ⟨((t : Int) + e) * fxLn2 p + fxLn p y, 2048 * p, 0⟩
/-- log2 of a positive value. -/
def apLog2 (m : Nat) (e : Int) (p : Nat) : Approx :=
  let t := m.log2
  let one : Int := (2 ^ p : Nat)
  let y : Int := ((m <<< p) >>> t : Nat)
  ⟨((t : Int) + e) * one + fxLn p y * one / fxLn2 p, 64 * p, 0⟩

/-- The exponential functions outside the interesting range: 2^x or e^x for |x| ≥ 2^8. -/
def f32expFar (s : Bool) : Nat := if s then 0 else f32max

def f32exp2 (a : Nat) : Nat :=
  match f32d a with
  | .nan => f32nan
  | .inf s => if s then 0 else fF32.infBits
  | .fin s m e =>
    if m = 0 then 0x3F800000
    else if 8 ≤ (m.log2 : Int) + e then f32expFar s
    else if 0 ≤ e ∨ m % 2 ^ (-e).toNat = 0 then
      f32e (.fin false 1 (sigAt s m e (min e 0) / ((2 ^ (-(min e 0)).toNat : Nat) : Int)))
    else ziv (apExp2 s m e) 6 192
def f32exp (a : Nat) : Nat :=
  match f32d a with
  | .nan => f32nan
  | .inf s => if s then 0 else fF32.infBits
  | .fin s m e =>
    if m = 0 then 0x3F800000
    else if 8 ≤ (m.log2 : Int) + e then f32expFar s
    else ziv (apExp s m e) 6 192
def f32log2 (a : Nat) : Nat :=
  match f32d a with
  | .nan => f32nan
  | .inf s => if s then f32nan else fF32.infBits
  | .fin s m e =>
    if m = 0 then fF32.withSign true f32max
    else if s then f32nan
    else if m = 2 ^ m.log2 then f32ofInt ((m.log2 : Int) + e) 0
    else ziv (apLog2 m e) 6 192
def f32ln (a : Nat) : Nat :=
  match f32d a with
  | .nan => f32nan
  | .inf s => if s then f32nan else fF32.infBits
  | .fin s m e =>
    if m = 0 then fF32.withSign true f32max
    else if s then f32nan
    else if m = 2 ^ m.log2 ∧ (m.log2 : Int) + e = 0 then 0
    else ziv (apLn m e) 6 192

/-- tanh of a positive value below 16. -/
def apTanh (m : Nat) (e : Int) (p : Nat) : Approx :=
  let a := apExp false m (e + 1) p
  let one : Int := (2 ^ p : Nat)
  let t := a.v * ((2 ^ a.exp.toNat : Nat) : Int)
  ⟨one - 2 * one * one / (t + one), 4096 * p, 0⟩
def f32tanh (a : Nat) : Nat :=
  match f32d a with
  | .nan => f32nan
  | .inf s => fF32.withSign s 0x3F800000
  | .fin s m e =>
    if m = 0 then a % 2 ^ 32
    else
      let t := (m.log2 : Int) + e
      if t < -13 then a % 2 ^ 32
      else if 4 ≤ t then fF32.withSign s 0x3F800000
      else fF32.withSign s (ziv (apTanh m e) 6 192)
/-- 1/(1+e^-x) for |x| below 2^7. -/
def apSigmoid (s : Bool) (m : Nat) (e : Int) (p : Nat) : Approx :=
  let a := apExp s m e p
  let one : Int := (2 ^ p : Nat)
  if 0 ≤ a.exp then
    let t := a.v * ((2 ^ a.exp.toNat : Nat) : Int)
    ⟨one - one * one / (t + one), 4096 * p, 0⟩
  else
    let t := a.v / ((2 ^ (-a.exp).toNat : Nat) : Int)
    ⟨a.v * one / (t + one), 8192 * p, a.exp⟩
def f32sigmoid (a : Nat) : Nat :=
  match f32d a with
  | .nan => f32nan
  | .inf s => if s then 0 else 0x3F800000
  | .fin s m e =>
    if m = 0 then 0x3F000000
    else if 7 ≤ (m.log2 : Int) + e then (if s then 0 else 0x3F800000)
    else ziv (apSigmoid s m e) 6 256

/-- FUN on binary32 (Table 6-4). -/
def f32fun (sub x : Nat) : Nat :=
  match sub with
  | 0 => f32sqrt x
  | 1 => f32recip x
  | 2 => f32rsqrt x
  | 3 => f32exp2 x
  | 4 => f32log2 x
  | 5 => f32exp x
  | 6 => f32ln x
  | 7 => f32tanh x
  | _ => f32sigmoid x

/-! ### cos 2πu and sin 2πu for u = j / 2^24 (R193) -/

/-- The angle of the first quadrant, r / 2^22 of π/2. -/
def apTrig (sine : Bool) (r : Nat) (p : Nat) : Approx :=
  let x := fxPi p * (r : Int) / ((2 ^ 23 : Nat) : Int)
  ⟨if sine then fxSin p x else fxCos p x, 64 * p, 0⟩
/-- The sine of the quadrant angle, rounded. -/
def quadTrig (sine : Bool) (r : Nat) : Nat :=
  if r = 0 then (if sine then 0 else 0x3F800000) else ziv (apTrig sine r) 6 160
def f32sin2pi (j : Nat) : Nat :=
  let r := j % 2 ^ 22
  match j / 2 ^ 22 % 4 with
  | 0 => quadTrig true r
  | 1 => quadTrig false r
  | 2 => if r = 0 then 0 else f32neg (quadTrig true r)
  | _ => f32neg (quadTrig false r)
def f32cos2pi (j : Nat) : Nat :=
  let r := j % 2 ^ 22
  match j / 2 ^ 22 % 4 with
  | 0 => quadTrig false r
  | 1 => if r = 0 then 0 else f32neg (quadTrig true r)
  | 2 => f32neg (quadTrig false r)
  | _ => quadTrig true r

/-! ### The quantile table of R194 -/

/-- Sum of `(-1)^k x^(2k+1) / (2^k k! (2k+1))`: the integral of e^(-t²/2) from 0 to x; `t` is x^(2k+1)/(2^k k!). -/
def fxErfGo (p : Nat) (x2 : Int) : Nat → Nat → Int → Int → Int
  | 0, _, _, acc => acc
  | n + 1, k, t, acc =>
    if t = 0 then acc
    else fxErfGo p x2 n (k + 1) (-(fxMul p t x2) / ((2 * (k + 1) : Nat) : Int)) (acc + t / ((2 * k + 1 : Nat) : Int))

/-- Precision-25 patterns: one more significand bit than binary32. -/
def fQ25 : FFmt := ⟨25, -126, 33⟩

/-- Whether the precision-25 value `b` lies at or below the quantile of 1/2 + j/2048 (no quantile reaches 8). -/
def belowQuantile (j b : Nat) : Bool :=
  let p := 160
  match fdec fQ25 b with
  | .fin _ m e =>
    if 130 * 2 ^ 24 ≤ b then false else
    let x := fxOf p false m e
    let lhs := fxErfGo p (fxMul p x x) (4 * p) 0 x 0
    let root : Int := (isqrt ((2 * fxPi p).toNat * 2 ^ p) : Nat)
    decide (lhs * 2048 ≤ (j : Int) * root)
  | _ => false

/-- The largest precision-25 pattern accepted, bit by bit. -/
def quantGo (j : Nat) : Nat → Nat → Nat
  | 0, b => b
  | n + 1, b => if belowQuantile j (b + 2 ^ n) then quantGo j n (b + 2 ^ n) else quantGo j n b

/-- `T[j]` of R194: the binary32 value nearest to the quantile of 1/2 + j/2048. -/
def quantile (j : Nat) : Nat := if j = 0 then 0 else (quantGo j 32 0 + 1) / 2

end Sys2Proof.Machine
end

