-- ==== Sys2Proof/Machine/NumConv.lean ====
section
/-!
DEFINITION. The formats of Table 2-1, the logarithmic codes and their products (R52-R57, R64-R67), every conversion
between two formats (R71-R77), LN16 arithmetic (R69, R127-R129), integer arithmetic (R70, R122, R123) and the
random generators (R190-R194).
-/

namespace Sys2Proof.Machine

/-- Format identifiers, Table 2-1. -/
inductive Format where
  | fp32 | bf16 | fp16 | ln16 | ln8 | ln4 | b1 | t2 | q2 | pf64 | s8 | u8 | s16 | s32 | u32 | f64
deriving DecidableEq, Repr

/-- The format of a 4-bit identifier (R51). -/
def Format.ofId (n : Nat) : Format :=
  match n with
  | 0 => .fp32 | 1 => .bf16 | 2 => .fp16 | 3 => .ln16 | 4 => .ln8 | 5 => .ln4 | 6 => .b1 | 7 => .t2
  | 8 => .q2 | 9 => .pf64 | 10 => .s8 | 11 => .u8 | 12 => .s16 | 13 => .s32 | 14 => .u32 | _ => .f64

/-- Bits per element. -/
def Format.bits : Format → Nat
  | .fp32 => 32 | .bf16 => 16 | .fp16 => 16 | .ln16 => 16 | .ln8 => 8 | .ln4 => 4 | .b1 => 1 | .t2 => 2
  | .q2 => 2 | .pf64 => 64 | .s8 => 8 | .u8 => 8 | .s16 => 16 | .s32 => 32 | .u32 => 32 | .f64 => 64

/-- Whether the format carries a block exponent. -/
def Format.isBlock : Format → Bool
  | .ln8 | .ln4 | .b1 | .t2 | .q2 => true
  | _ => false
def Format.isLog : Format → Bool
  | .ln16 | .ln8 | .ln4 => true
  | _ => false
def Format.isWeight : Format → Bool
  | .b1 | .t2 | .q2 => true
  | _ => false
/-- Range of an integer format. -/
def Format.intRange : Format → Option (Int × Int)
  | .s8 => some (-128, 127)
  | .u8 => some (0, 255)
  | .s16 => some (-32768, 32767)
  | .s32 => some (-2147483648, 2147483647)
  | .u32 => some (0, 4294967295)
  | _ => none
/-- The interchange format behind a float identifier. -/
def Format.float : Format → Option FFmt
  | .fp32 => some fF32
  | .bf16 => some fBF16
  | .fp16 => some fF16
  | .f64 => some fF64
  | _ => none

/-- The signed number of a `w`-bit pattern. -/
def signed (w x : Nat) : Int :=
  let y := x % 2 ^ w
  if y < 2 ^ (w - 1) then (y : Int) else (y : Int) - ((2 ^ w : Nat) : Int)
/-- The `w`-bit pattern of an integer. -/
def unsignedBits (w : Nat) (v : Int) : Nat := (v % ((2 ^ w : Nat) : Int)).toNat
/-- The signed block exponent in a byte (R55). -/
def expOfByte (b : Nat) : Int := signed 8 b

/-! ### Logarithmic codes -/

/-- A logarithmic element: NaL, zero, or a sign with its logarithm in 1/256 units (R64). -/
inductive LVal where
  | nal
  | zero
  | num (s : Bool) (sigma : Int)
deriving DecidableEq, Repr

/-- Weight of one code step in 1/256 units (R64). -/
def Format.lnWeight : Format → Nat
  | .ln8 => 32 | .ln4 => 128 | _ => 1

def lnDec (f : Format) (code : Nat) (e : Int) : LVal :=
  let w := f.bits
  let s := decide (2 ^ (w - 1) ≤ code % 2 ^ w)
  let l := signed (w - 1) code
  if l = -((2 ^ (w - 2) : Nat) : Int) then (if s && decide (f ≠ .ln4) then .nal else .zero)
  else .num s (l * (f.lnWeight : Int) + (if f = .ln16 then 0 else 256 * e))

/-- The zero code of a logarithmic format (R52-R54). -/
def lnZero (f : Format) : Nat := 2 ^ (f.bits - 2)
/-- NaL, or the LN4 zero that stands for it (R74). -/
def lnNal (f : Format) : Nat := if f = .ln4 then 4 else 2 ^ (f.bits - 1) + 2 ^ (f.bits - 2)
/-- A logarithm limited to the codes of a format (R69, R74). -/
def lnLimit (f : Format) (s : Bool) (l : Int) : Nat :=
  let top : Int := ((2 ^ (f.bits - 2) : Nat) : Int) - 1
  if l ≤ -(top + 1) then lnZero f
  else unsignedBits (f.bits - 1) (min l top) + (if s then 2 ^ (f.bits - 1) else 0)

/-- The linear product of two logarithmic operands (R66). -/
def lnProd (fa : Format) (ca : Nat) (ea : Int) (fb : Format) (cb : Nat) (eb : Int) : Nat :=
  match lnDec fa ca ea, lnDec fb cb eb with
  | .nal, _ => f32nan
  | _, .nal => f32nan
  | .zero, _ => 0
  | _, .zero => 0
  | .num s g, .num t h => tPat (s != t) (g + h)

/-- A logarithmic code as binary32 (R66 with a multiplier of 1, R76). -/
def lnTo32 (f : Format) (c : Nat) (e : Int) : Nat :=
  match lnDec f c e with
  | .nal => f32nan
  | .zero => 0
  | .num s g => tPat s g

/-- Twice the multiplier of a weight code, with its sign (Table 2-5). -/
def weightMul (f : Format) (c : Nat) : Bool × Nat :=
  match f with
  | .b1 => (decide (c % 2 = 1), 2)
  | .t2 => (match c % 4 with | 1 => (false, 2) | 3 => (true, 2) | _ => (false, 0))
  | _ => (match c % 4 with | 0 => (false, 1) | 1 => (false, 3) | 2 => (true, 1) | _ => (true, 3))

/-- The exact value an element stands for (R52-R61). -/
def elemVal (f : Format) (c : Nat) (e : Int) : FVal :=
  match f.float with
  | some ff => fdec ff c
  | none =>
    if f.isLog then f32d (lnTo32 f c e)
    else if f.isWeight then
      let m := weightMul f c
      .fin m.1 m.2 (e - 1)
    else if f = .pf64 then pfVal c
    else
      match f.intRange with
      | some (lo, _) => if lo < 0 then ofInt (signed f.bits c) 0 else .fin false (c % 2 ^ f.bits) 0
      | none => .nan

/-- A weight times an activation, rounded once (R67); a zero product has the sign of its factors (DESIGN CHOICE, log 103). -/
def weightProd (fw : Format) (cw : Nat) (ew : Int) (fx : Format) (cx : Nat) (ex : Int) : Nat :=
  let m := weightMul fw cw
  if m.2 = 0 then 0
  else f32e ((elemVal fx cx ex).mul (.fin m.1 m.2 (ew - 1)))

/-! ### Conversions -/

/-- floor(scale * log2 (m * 2^e)) for a positive value, by intervals of rising precision. -/
def logFloorGo (scale m : Nat) (e : Int) : Nat → Nat → Int
  | 0, p => let a := apLog2 m e p; a.v * (scale : Int) / ((2 ^ p : Nat) : Int)
  | n + 1, p =>
    let a := apLog2 m e p
    let lo := (a.v - a.err) * (scale : Int) / ((2 ^ p : Nat) : Int)
    let hi := (a.v + a.err) * (scale : Int) / ((2 ^ p : Nat) : Int)
    if lo = hi then lo else logFloorGo scale m e n (2 * p)
def logFloor (scale m : Nat) (e : Int) : Int :=
  if m = 2 ^ m.log2 then (scale : Int) * ((m.log2 : Int) + e) else logFloorGo scale m e 6 192

/-- A linear value to a logarithmic code (R72-R74). -/
def linToLog (f : Format) (mode : RMode) (et : Int) : FVal → Nat
  | .nan => lnNal f
  | .inf s => lnLimit f s (2 ^ 20)
  | .fin s m e =>
    if m = 0 then lnZero f
    else
      let q := 256 / f.lnWeight
      let l : Int :=
        match mode with
        | .rtz => logFloor q m e
        | .rne => (logFloor (2 * q) m e + 1) / 2
        | .sr draw =>
          let x := logFloor (65536 * q) m e
          x / 65536 + (if (draw : Int) < x % 65536 then 1 else 0)
      lnLimit f s (l - (q : Int) * et)

/-- One logarithmic format to another, in exact integers (R76). -/
def logToLog (sf df : Format) (mode : RMode) (x : Nat) (es et : Int) : Nat :=
  match lnDec sf x es with
  | .nal => lnNal df
  | .zero => lnZero df
  | .num s g =>
    let w : Int := (df.lnWeight : Int)
    let v := g - 256 * et
    let n := v / w
    let r := v % w
    let up : Bool :=
      match mode with
      | .rtz => false
      | .rne => decide (w < 2 * r) || (decide (2 * r = w) && decide (n % 2 = 1))
      | .sr draw => decide ((draw : Int) < r * 65536 / w)
    lnLimit df s (n + (if up then 1 else 0))

/-- Twice the scaled magnitude `v = |x| / 2^E` compared with an integer: (floor of 2v, remainder non-zero). -/
def halfUnits (m : Nat) (e et : Int) : Nat × Nat × Nat :=
  let g := e - et + 1
  if 0 ≤ g then (m <<< g.toNat, 0, 0)
  else (m >>> (-g).toNat, m % 2 ^ (-g).toNat, (-g).toNat)

/-- A value to a B1, T2 or Q2 code (R74). -/
def toWeight (f : Format) (mode : RMode) (et : Int) : FVal → Nat
  | .nan => 0
  | .inf s => (match f with | .b1 => b2n s | .t2 => if s then 3 else 1 | _ => if s then 3 else 1)
  | .fin s m e =>
    if m = 0 then 0
    else if f = .b1 then b2n s
    else
      let h := halfUnits m e et
      -- d is |v| - lo in units of 2^-(sh+1), lo = 0 for T2 and 1/2 for Q2; the neighbours lie 1 apart
      let lo2 := if f = .t2 then 0 else 1
      let tot := h.1 * 2 ^ h.2.2 + h.2.1
      let base := lo2 * 2 ^ h.2.2
      let one := 2 * 2 ^ h.2.2
      let up : Bool :=
        if tot < base then false
        else
          let d := tot - base
          if one < d then true
          else
            match mode with
            | .rtz => decide (d = one)
            | .rne => decide (one < 2 * d)
            | .sr draw => decide (draw < d * 65536 / one)
      if f = .t2 then (if up then (if s then 3 else 1) else 0)
      else (if s then 2 else 0) + b2n up

/-- A value to an integer format (R72-R74). -/
def toIntFmt (f : Format) (mode : RMode) (v : FVal) : Nat :=
  match f.intRange with
  | none => 0
  | some (lo, hi) =>
    match v with
    | .nan => 0
    | .inf s => unsignedBits f.bits (if s then lo else hi)
    | .fin s m e =>
      let q : Int := (roundAt mode m e 0 false : Nat)
      unsignedBits f.bits (max lo (min hi (if s then -q else q)))

/-- A value to a PF64 pair (R77). -/
def toPair (mode : RMode) (v : FVal) : Nat :=
  match v with
  | .nan => pfNan
  | .inf s => fF32.withSign s fF32.infBits
  | .fin s m e =>
    let hi := fenc fF32 mode (.fin s m e)
    let r := (FVal.fin s m e).add (f32d hi).neg
    if r.isZero then hi else pfRenorm (pfMk hi (f32e r))

/-- Whether the target represents every value of the source, so that nothing is rounded (R73). -/
def exactPair (sf df : Format) : Bool :=
  if sf = df && !sf.isBlock then true
  else
    match sf with
    | .ln16 | .ln8 | .ln4 => decide (df = .fp32) || decide (df = .pf64) || decide (df = .f64)
    | .fp32 | .bf16 | .fp16 => decide (df = .fp32) || decide (df = .pf64) || decide (df = .f64)
    | .b1 | .t2 | .q2 => decide (df = .fp32) || decide (df = .bf16) || decide (df = .pf64) || decide (df = .f64)
    | _ =>
      match sf.intRange with
      | none => false
      | some (lo, hi) =>
        match df.intRange with
        | some (l, h) => decide (l ≤ lo) && decide (hi ≤ h)
        | none =>
          match df with
          | .pf64 | .f64 => true
          | .fp32 => decide (hi < 65536)
          | .bf16 | .fp16 => decide (hi < 256)
          | _ => false

/-- Whether a conversion under stochastic rounding takes a draw (R73, R74). -/
def cvtDraws (sf df : Format) (x : Nat) (es et : Int) : Bool :=
  if exactPair sf df || decide (df = .b1) then false
  else
    let v := elemVal sf x es
    if v.isNan || v.isInf then false
    else if df.isLog then !v.isZero
    else if df.isWeight then
      match v with
      | .fin _ m e =>
        let h := halfUnits m e et
        let tot := h.1 * 2 ^ h.2.2 + h.2.1
        let top := (if df = .t2 then 2 else 3) * 2 ^ h.2.2
        decide (tot ≤ top) && (decide (df = .t2) || decide (2 ^ h.2.2 ≤ tot))
      | _ => false
    else !(sf.isLog && df.float.isSome && decide (lnDec sf x es = .zero))

/-- A log source whose value is a zero or NaL does not enter a log-to-log draw. -/
def cvtDrawsLog (sf df : Format) (x : Nat) (es et : Int) : Bool :=
  if sf.isLog && df.isLog then
    !(exactPair sf df) && (match lnDec sf x es with | .num _ _ => true | _ => false)
  else cvtDraws sf df x es et

/-- One element from a source format to a target format (R71-R77). -/
def convert (sf df : Format) (mode : RMode) (x : Nat) (es et : Int) : Nat :=
  let mode := if exactPair sf df then .rne else mode
  let et := if df.isBlock then et else 0
  if sf.isLog && df.isLog then logToLog sf df mode x es et
  else
    let v := elemVal sf x es
    if df.isLog then linToLog df mode et v
    else if df.isWeight then toWeight df mode et v
    else if df = .pf64 then
      (if sf.isLog then lnTo32 sf x es else toPair mode v)
    else
      match df.float with
      | some ff => fenc ff mode v
      | none => toIntFmt df mode v

/-- floor(log2) of an element's magnitude, if it is finite and non-zero (R75). -/
def elemLog2 (sf : Format) (x : Nat) (es : Int) : Option Int :=
  if sf.isLog then
    match lnDec sf x es with
    | .num _ g => some (g / 256)
    | _ => none
  else
    match elemVal sf x es with
    | .fin _ m e => if m = 0 then none else some ((m.log2 : Int) + e)
    | _ => none

/-- The constant c of R75. -/
def autoC : Format → Int
  | .ln8 => 7 | .ln4 => 1 | .q2 => -1 | _ => 0

/-- The automatic block exponent of R75 over a block's elements. -/
def autoExp (df : Format) (logs : List (Option Int)) : Int :=
  match logs.filterMap id with
  | [] => 0
  | a :: r => max (-128) (min 127 (r.foldl max a - autoC df))

/-! ### LN16 arithmetic -/

def ln16d (c : Nat) : LVal := lnDec .ln16 c 0
def ln16Max (s : Bool) : Nat := if s then 0xBFFF else 0x3FFF

def ln16mul (a b : Nat) : Nat :=
  match ln16d a, ln16d b with
  | .nal, _ => 0xC000
  | _, .nal => 0xC000
  | .zero, _ => 0x4000
  | _, .zero => 0x4000
  | .num s g, .num t h => lnLimit .ln16 (s != t) (g + h)
def ln16div (a b : Nat) : Nat :=
  match ln16d a, ln16d b with
  | .nal, _ => 0xC000
  | _, .nal => 0xC000
  | .zero, .zero => 0xC000
  | .num s _, .zero => ln16Max s
  | .zero, .num _ _ => 0x4000
  | .num s g, .num t h => lnLimit .ln16 (s != t) (g - h)
/-- Integer power (R128): LN16 A to the s32 exponent `k`. -/
def ln16pow (a : Nat) (k : Int) : Nat :=
  match ln16d a with
  | .nal => 0xC000
  | .zero => if k = 0 then 0x0000 else if 0 < k then 0x4000 else 0x3FFF
  | .num s g => if k = 0 then 0x0000 else lnLimit .ln16 (s && decide (k % 2 ≠ 0)) (g * k)
/-- Half of an integer, ties to even. -/
def halfEven (v : Int) : Int :=
  let q := v / 2
  if v % 2 = 0 then q else if q % 2 = 0 then q else q + 1
/-- Square root, or reciprocal square root when `inv` (R128). -/
def ln16root (inv : Bool) (a : Nat) : Nat :=
  match ln16d a with
  | .nal => 0xC000
  | .zero => if inv then 0x3FFF else 0x4000
  | .num s g => if s then 0xC000 else lnLimit .ln16 false (halfEven (if inv then -g else g))
/-- Reciprocal: L negated (Table 6-4 for LN16). -/
def ln16recip (a : Nat) : Nat :=
  match ln16d a with
  | .nal => 0xC000
  | .zero => 0x3FFF
  | .num s g => lnLimit .ln16 s (-g)
/-- Sum or difference through binary32, two roundings (R129). -/
def ln16add (a b : Nat) : Nat := convert .fp32 .ln16 .rne (f32add (lnTo32 .ln16 a 0) (lnTo32 .ln16 b 0)) 0 0
def ln16sub (a b : Nat) : Nat := convert .fp32 .ln16 .rne (f32sub (lnTo32 .ln16 a 0) (lnTo32 .ln16 b 0)) 0 0
def ln16abs (a : Nat) : Nat :=
  match ln16d a with | .num _ _ => a % 2 ^ 15 | _ => a % 2 ^ 16
def ln16neg (a : Nat) : Nat :=
  match ln16d a with | .num _ _ => (a % 2 ^ 16) ^^^ 0x8000 | _ => a % 2 ^ 16
/-- Order of LN16 values, zero between the negatives and the positives (R124). -/
def ln16key : LVal → Int × Int
  | .nal => (0, 0)
  | .zero => (0, 0)
  | .num s g => if s then (-1, -g) else (1, g)
def ln16lt (a b : Nat) : Bool :=
  let x := ln16key (ln16d a)
  let y := ln16key (ln16d b)
  decide (x.1 < y.1) || (decide (x.1 = y.1) && decide (x.2 < y.2))
def ln16isNal (a : Nat) : Bool := decide (ln16d a = .nal)
def ln16min (a b : Nat) : Nat :=
  if ln16isNal a || ln16isNal b then 0xC000 else if ln16lt b a then b % 2 ^ 16 else a % 2 ^ 16
def ln16max (a b : Nat) : Nat :=
  if ln16isNal a || ln16isNal b then 0xC000 else if ln16lt a b then b % 2 ^ 16 else a % 2 ^ 16

/-! ### Integers -/

/-- An integer type: width and signedness. -/
structure ITy where
  width : Nat
  sgn : Bool
deriving DecidableEq, Repr
def tyS32 : ITy := ⟨32, true⟩
def tyU32 : ITy := ⟨32, false⟩
def tyS64 : ITy := ⟨64, true⟩
def tyU64 : ITy := ⟨64, false⟩

def ITy.val (t : ITy) (x : Nat) : Int := if t.sgn then signed t.width x else ((x % 2 ^ t.width : Nat) : Int)
def ITy.lo (t : ITy) : Int := if t.sgn then -((2 ^ (t.width - 1) : Nat) : Int) else 0
def ITy.hi (t : ITy) : Int := if t.sgn then ((2 ^ (t.width - 1) : Nat) : Int) - 1 else ((2 ^ t.width : Nat) : Int) - 1
/-- The pattern of an exact result, saturated or wrapped (R70, R122). -/
def ITy.fit (t : ITy) (sat : Bool) (r : Int) : Nat :=
  unsignedBits t.width (if sat then max t.lo (min t.hi r) else r)

def iAdd (t : ITy) (sat : Bool) (a b : Nat) : Nat := t.fit sat (t.val a + t.val b)
def iSub (t : ITy) (sat : Bool) (a b : Nat) : Nat := t.fit sat (t.val a - t.val b)
def iMul (t : ITy) (sat : Bool) (a b : Nat) : Nat := t.fit sat (t.val a * t.val b)
/-- The high half of the double-width product. -/
def iMulHi (t : ITy) (a b : Nat) : Nat := unsignedBits t.width (t.val a * t.val b / ((2 ^ t.width : Nat) : Int))
def iMad (t : ITy) (a b c : Nat) : Nat := t.fit false (t.val a * t.val b + t.val c)
/-- Quotient of Table 2-8. -/
def iDiv (t : ITy) (sat : Bool) (a b : Nat) : Nat :=
  let x := t.val a
  let y := t.val b
  if y = 0 then 2 ^ t.width - 1
  else t.fit sat (Int.tdiv x y)
/-- Remainder of Table 2-8. -/
def iRem (t : ITy) (a b : Nat) : Nat :=
  let x := t.val a
  let y := t.val b
  if y = 0 then a % 2 ^ t.width else unsignedBits t.width (x - Int.tdiv x y * y)
/-- Shift left by an unreduced count (R123). -/
def iShl (t : ITy) (a n : Nat) : Nat := if t.width ≤ n then 0 else (a <<< n) % 2 ^ t.width
/-- Shift right, arithmetic for signed types (R123). -/
def iShr (t : ITy) (a n : Nat) : Nat :=
  if t.sgn then unsignedBits t.width (t.val a / ((2 ^ min n (t.width - 1) : Nat) : Int))
  else if t.width ≤ n then 0 else (a % 2 ^ t.width) >>> n
def iMin (t : ITy) (a b : Nat) : Nat := if t.val b < t.val a then b % 2 ^ t.width else a % 2 ^ t.width
def iMax (t : ITy) (a b : Nat) : Nat := if t.val a < t.val b then b % 2 ^ t.width else a % 2 ^ t.width
def iAnd (t : ITy) (a b : Nat) : Nat := (a &&& b) % 2 ^ t.width
def iOr (t : ITy) (a b : Nat) : Nat := (a ||| b) % 2 ^ t.width
def iXor (t : ITy) (a b : Nat) : Nat := (a ^^^ b) % 2 ^ t.width
/-- Leading zeros; the width for zero (R123). -/
def iClz (t : ITy) (a : Nat) : Nat :=
  let x := a % 2 ^ t.width
  if x = 0 then t.width else t.width - 1 - x.log2
/-- Number of one bits among the low `n`. -/
def popCount : Nat → Nat → Nat
  | 0, _ => 0
  | n + 1, x => x % 2 + popCount n (x / 2)
/-- The low `n` bits in reverse order. -/
def bitRev : Nat → Nat → Nat
  | 0, _ => 0
  | n + 1, x => (x % 2) * 2 ^ n + bitRev n (x / 2)
def iAbs (t : ITy) (sat : Bool) (a : Nat) : Nat := t.fit sat ((t.val a).natAbs : Nat)

/-! ### Random generators -/

/-- One step of the 64-bit feedback register: (output, next state) (R190). -/
def genStep (s : W64) : Nat × W64 :=
  (b2n (s.getLsbD 0), if s.getLsbD 0 then (s >>> 1) ^^^ 0xD800000000000000#64 else s >>> 1)
/-- `w` steps, the first output in bit 0. -/
def genDraw : Nat → W64 → Nat × W64
  | 0, s => (0, s)
  | w + 1, s =>
    let a := genStep s
    let b := genDraw w a.2
    (a.1 + 2 * b.1, b.2)
/-- The mixing function of R191. -/
def genMix (z : W64) : W64 :=
  let z := (z ^^^ (z >>> 31)) * 0xA24BAED4963EE407#64
  let z := (z ^^^ (z >>> 29)) * 0x9FB21C651E98DF25#64
  z ^^^ (z >>> 32)
/-- A generator's state is never zero: zero is loaded as one (R191, R195). -/
def genLoad (s : W64) : W64 := if s = 0 then 1 else s
/-- The initial state of a generator (R191). -/
def genSeed (job : W64) (tile lane : Nat) : W64 :=
  genLoad (genMix (job ^^^ genMix (((BitVec.ofNat 64 tile) <<< 32) ||| BitVec.ofNat 64 lane)))

/-- (d >> 8) * 2^-24 as binary32. -/
def rndUniform (d : Nat) : Nat := f32e (.fin false (d % 2 ^ 32 / 256) (-24))
/-- Box-Muller (R193): both variates of two draws. -/
def rndNormalBM (d1 d2 : Nat) : Nat × Nat :=
  let u1 := f32e (.fin false (d1 % 2 ^ 32 / 256 + 1) (-24))
  let r := f32sqrt (f32mul 0xC0000000 (f32ln u1))
  let j := d2 % 2 ^ 32 / 256
  (f32mul r (f32cos2pi j), f32mul r (f32sin2pi j))
/-- The inverse-CDF variate (R194). -/
def rndNormalIcdf (d : Nat) : Nat :=
  let j := d / 2 ^ 21 % 1024
  let f := f32e (.fin false (d / 32 % 65536) (-16))
  let delta := if j < 1023 then f32sub (quantile (j + 1)) (quantile j) else f32sub (quantile 1023) (quantile 1022)
  let z := f32add (quantile j) (f32mul f delta)
  if d / 2 ^ 31 % 2 = 1 then f32neg z else z

end Sys2Proof.Machine
end

