-- ==== Sys2Proof/Machine/Regs.lean ====
section
/-!
DEFINITION. The control space (R40-R43, R48, R337, R338): where an access lands, which conditions refuse it, how the
access types change a register (Table 0-5), and the values that particular registers do not take.
-/

namespace Sys2Proof.Machine

/-! ### Protection entries that control space looks at -/

/-- A CPT entry at reset (R312): CTXID 0 is ACTIVE with MAXPL 0, PD 0 and every permission. -/
def cptReset (ctx : Nat) : BitVec 128 := if ctx = 0 then 0x3E1 else 0
def State.cptMaster (s : State) (ctx : Nat) : BitVec 128 := aGet s.cpt (cptReset ctx) ctx
/-- Number of a die's replica: the compute die, 4 for the hub. -/
def repIdx : Die → Nat
  | .cd n => n.val
  | _ => 4
/-- A die's replica of an entry (R312). -/
def State.cptAt (s : State) (rep ctx : Nat) : BitVec 128 := aGet s.cptRep (cptReset ctx) (rep, ctx)
/-- GID of an entry. -/
def cptGid (e : BitVec 128) : Nat := fld e 79 72

/-! ### Which register an access reaches -/

def RegInfo.here (i : RegInfo) : Die → Bool
  | .hub => i.inHub
  | .hd _ => i.inHd
  | .cd _ => i.inCd

/-- Where an access of a size at an offset of a block lands (R41). -/
inductive CtlHit where
  | reg (n : RegName) (idx : Nat)
  | bad
  | free
deriving DecidableEq, Repr

/-- The copy of a register that holds byte `off`, and the byte's place in it. -/
def RegInfo.holds (i : RegInfo) (off : Nat) : Option (Nat × Nat) :=
  if off < i.off then none
  else
    let j := (off - i.off) / i.stride
    let b := (off - i.off) % i.stride
    if j < i.count ∧ b < i.bytes then some (j, b) else none

/-- The register of a block that holds a byte: name, index, place, bytes. -/
def ctlByte (d : Die) (off : Nat) : Option (RegName × Nat × Nat) :=
  regNames.findSome? fun n =>
    if (regInfo n).here d then (regInfo n).holds off |>.map fun x => (n, x.1, x.2) else none

def ctlFind (d : Die) (off size : Nat) : CtlHit :=
  if ¬ (size = 4 ∨ size = 8) ∨ off % size ≠ 0 then .bad
  else
    match ctlByte d off with
    | some (n, j, b) => if b = 0 ∧ (regInfo n).bytes = size then .reg n j else .bad
    | none => if size = 8 ∧ (ctlByte d (off + 4)).isSome then .bad else .free

/-- The register of a block whose group is the one of an offset, for the group's privilege and domain. -/
def ctlGroup (d : Die) (off : Nat) : Option RegName :=
  let g := off / 4096
  regNames.find? fun n =>
    let i := regInfo n
    i.here d && decide (i.off / 4096 ≤ g) && decide (g ≤ (i.off + i.stride * (i.count - 1)) / 4096) &&
      (decide (i.stride < 4096) || decide ((g * 4096 - i.off / 4096 * 4096) % i.stride = 0))

/-! ### Units behind select registers -/

/-- Units of a kind on a die (R337, R380). -/
def unitCount (d : Die) : RSel → Nat
  | .dma => match d with | .hub => 16 | _ => 32
  | .eq => match d with | .hub => 16 | _ => 64
  | .en => 4096
  | _ => 64

/-- The unit that a privilege level has selected (R275, R337). -/
def State.selUnit (s : State) (d : Die) (pl : Nat) : RSel → Nat
  | .tg => s.rf d .tgSel pl 5 0
  | .dma => s.rf d .dmaSel pl 5 0
  | .cq => s.rf d .cqSel pl 5 0
  | .eq => s.rf d .eqSel pl 5 0
  | .sq => s.rf d .mrcSqSel pl 5 0
  | .en => s.rf d .pwrEnSel pl 11 0
  | _ => 0

/-- Owner GID of a unit (R338), of a selected energy counter the GID of its context (R401), none for kinds without one. -/
def State.ownerGid (s : State) (d : Die) (k : RSel) (u : Nat) : Option Nat :=
  match k with
  | .dma => some (s.rf d .dmaCtx u 63 56)
  | .cq => some (s.rf d .cqCfg u 63 56)
  | .eq => some (s.rf d .eqCfg u 63 56)
  | .sq => some (s.rf d .mrcSqCfg u 63 56)
  | .en => some (cptGid (s.cptAt 4 u))
  | _ => none

/-- The number of the copy that an access reaches. -/
def State.regKey (s : State) (d : Die) (n : RegName) (idx pl : Nat) : Nat :=
  match (regInfo n).sel with
  | .one => idx
  | .level => pl
  | .bank => if pl ≤ 1 then 0 else 1
  | k => let u := s.selUnit d pl k; if (regInfo n).count = 1 then u else (regInfo n).count * u + idx

/-! ### Refusals -/

/-- Whether the domain of a register group runs (R43). -/
def State.ctlUp (s : State) (d : Die) (tileDom : Bool) : Bool :=
  match d with
  | .cd _ => s.running d tileDom
  | _ => s.running d false

/-- An access of a level with a CTXID to a register: UNAV first, then PERM (R20, R42, R43, R48, R337, R338); to a tile
register group in N1 or N2 it waits (R403). -/
def State.gate (s : State) (d : Die) (n : RegName) (pl ctx : Nat) : Status :=
  let i := regInfo n
  let u := s.selUnit d pl i.sel
  if s.asleep d i.tileDom then .held
  else if !s.ctlUp d i.tileDom then .unav
  else if i.minPL < pl then .perm
  else if ctx = 0 ∧ pl ≠ 0 then .perm
  else if unitCount d i.sel ≤ u then .perm
  else
    match s.ownerGid d i.sel u with
    | some g =>
      let mine := cptGid (s.cptAt (repIdx d) ctx)
      if pl = 2 ∧ (mine = 0 ∨ mine ≠ g) then .perm else .ok
    | none => .ok

/-! ### Values written -/

/-- Whether the licence in force carries the NX feature set (Table 16-7). -/
def State.nx (s : State) : Bool := decide (s.rf .hub .licStatus 0 17 16 = 2)

/-- One field of a register written under its access type (Table 0-5). -/
def writeField (old val : W64) (f : RField) : W64 :=
  let o := fld old f.hi f.lo
  let v := fld val f.hi f.lo
  match f.acc with
  | .rw => setFld old f.hi f.lo v
  | .w1c => setFld old f.hi f.lo (o - (o &&& v))
  | .w1s => setFld old f.hi f.lo (o ||| v)
  | _ => old
def writeFields (n : RegName) (old val : W64) : W64 := (regInfo n).fields.foldl (fun o f => writeField o val f) old

/-- What a read returns of a stored value: WO and reserved fields read as zero. -/
def readFields (n : RegName) (v : W64) : W64 :=
  (regInfo n).fields.foldl
    (fun o f => match f.acc with | .wo => o | .rsvd => o | _ => setFld o f.hi f.lo (fld v f.hi f.lo)) 0

/-- What a read leaves of a stored value: RC fields are cleared by it (Table 0-5). -/
def clearedByRead (n : RegName) (v : W64) : W64 :=
  (regInfo n).fields.foldl (fun o f => match f.acc with | .rc => setFld o f.hi f.lo 0 | _ => o) v

/-- A counter with its sticky overflow flag in bit 63 (Tables 9-10, 9-17, 10-12, 12-21, 14-12). -/
def isCounter (n : RegName) : Bool :=
  (regInfo n).fields.any fun f => decide (f.hi = 62) && decide (f.lo = 0) && decide (f.acc = RAcc.rw)

/-- A counter after a write (R18, R402): the written count stands, and where an increment came in the cycle of the write the
sticky flag is set. Whether one came is free, since commands have no cycles here (log 91). -/
def State.counterWrite (s : State) (n : RegName) (v : W64) : W64 :=
  if isCounter n && Config.freeBool s.free then setFld v 63 63 1 else v

/-- A field kept where the value written to it is not accepted. -/
def keepIf (c : Bool) (old new : W64) (hi lo : Nat) : W64 := if c then setFld new hi lo (fld old hi lo) else new

/-- Reactions of a source that a write cannot change: (fixed at 1, BRST present) (R416, Tables 15-2 to 15-4). -/
def reactFixed (d : Die) (src : Nat) : Nat × Bool :=
  match d with
  | .hub => (if src = 5 then 24 else if src = 7 then 16 else 0, false)
  | .hd _ => (0, decide (src = 0 ∨ src = 0x20))
  | .cd _ => (0, decide (src = 0 ∨ src = 0x33 ∨ (0x40 ≤ src ∧ src < 0x48) ∨ (0x58 ≤ src ∧ src < 0x60)))

def reactFix (d : Die) (src : Nat) (new : W64) : W64 :=
  let f := reactFixed d src
  let v := fld new 4 0 ||| f.1
  let v := if f.2 then v else v - (v &&& 4)
  setFld new 4 0 v

/-- TARGET values that an interrupt target field takes (R354). -/
def targetOk (t : Nat) : Bool := decide (t ≤ 99) || decide (t = 127)

/-- The least privileged of a requested level and the writer's. -/
def plStored (want pl : Nat) : Nat := if want < pl then pl else want

/-- Owner GID and carried level of a unit's configuration as a level may write them (R338, Table 12-13). -/
def ownerFix (old new : W64) (pl : Nat) : W64 := keepIf (decide (2 ≤ pl)) old new 63 56

/-- What the register makes of a written value: status, and the value stored where the status is OK. -/
def State.ctlValue (s : State) (d : Die) (n : RegName) (key pl ctx : Nat) (val : W64) : Status × W64 :=
  let old := s.reg d n key
  let new := writeFields n old val
  match n with
  | .memCfg =>
    (.ok, keepIf (decide (fld val 1 0 = 3)) old (keepIf (decide (fld val 15 8 = 0)) old new 15 8) 1 0)
  | .memDirCfg =>
    (.ok, keepIf (decide (fld val 31 20 = 0)) old (keepIf (decide (fld val 11 0 = 0)) old new 11 0) 31 20)
  | .fltWeirCfg => (.ok, keepIf (decide (fld val 15 0 = 0)) old new 15 0)
  | .fltWdt =>
    (.ok, keepIf (decide (fld old 31 31 = 1)) old (keepIf (decide (fld val 15 0 = 0)) old new 15 0) 31 31)
  | .fltReact => (.ok, reactFix d key new)
  | .fltIntCfg => if targetOk (fld val 31 25) then (.ok, new) else (.perm, old)
  | .mrcCfg => (.ok, keepIf (decide (fld val 47 36 = 0)) old new 47 36)
  | .pwrFanCfg =>
    if s.nx then (.ok, old)
    else
    let t := keepIf (decide (fld val 15 8 = 0)) old new 15 8
    (.ok, if fld t 59 48 = 0 then setFld t 59 48 1 else t)
  | .hubPcieCfg => (.ok, if 2 ≤ key ∧ fld val 31 30 = 2 then setFld new 31 30 0 else new)
  | .dmaCtx =>
    let st := s.rf d .dmaStatus key 2 0
    if st ≠ 0 ∧ st ≠ 5 then (.busy, old)
    else (.ok, setFld (ownerFix old new pl) 33 32 (plStored (fld val 33 32) pl))
  | .dmaChain =>
    if s.rf d .dmaStatus key 2 0 ≠ 0 then (.ok, old) else (.ok, setFld new 5 0 0)
  | .cqCfg =>
    let t := setFld (ownerFix old new pl) 49 48 (plStored (fld val 49 48) pl)
    let st := fld old 23 21
    if 12 < fld val 31 28 then (.perm, old)
    else if setFld t 12 12 0 ≠ setFld old 12 12 0 ∧ st ≠ 0 ∧ st ≠ 5 then (.busy, old)
    else (.ok, t)
  | .cqBase =>
    let size := s.rf d .cqCfg key 31 28 + 12
    (.ok, BitVec.ofNat 64 (new.toNat / 2 ^ size * 2 ^ size))
  | .eqCfg =>
    let t := ownerFix old new pl
    if !targetOk (fld val 55 49) then (.perm, old)
    else if setFld t 12 12 0 ≠ setFld old 12 12 0 ∧ fld old 12 12 = 1 then (.busy, old)
    else (.ok, t)
  | .eqBase => (.ok, setFld new 13 0 0)
  | .cqPreemptArea | .cqPreemptBarea | .mrcSnapArea | .mrcStageBase => (.ok, setFld new 20 0 0)
  | .cqPreempt =>
    let mine := cptGid (s.cptAt (repIdx d) ctx)
    let a := cptGid (s.cptAt (repIdx d) (fld val 11 0))
    let b := cptGid (s.cptAt (repIdx d) (fld val 23 12))
    if 7 < fld val 55 52 then (.perm, old)
    else if pl = 2 ∧ (mine = 0 ∨ a ≠ mine ∨ b ≠ mine) then (.perm, old)
    else (.ok, new)
  | .mrcSqCfg =>
    let t := setFld (ownerFix old new pl) 51 50 (plStored (fld val 51 50) pl)
    let st := fld old 23 21
    if 12 < fld val 31 28 then (.perm, old)
    else if setFld t 12 12 0 ≠ setFld old 12 12 0 ∧ st ≠ 0 ∧ st ≠ 4 then (.busy, old)
    else (.ok, t)
  | .mrcSqBase =>
    let size := s.rf d .mrcSqCfg key 31 28 + 12
    (.ok, BitVec.ofNat 64 (new.toNat / 2 ^ size * 2 ^ size))
  | .mrcSqTailaddr => (.ok, setFld new 2 0 0)
  | .cptCmd => if 11 < fld val 51 48 then (.perm, old) else (.ok, new)
  | .mrcSnapCmd => if fld val 55 52 = 0 ∨ 3 < fld val 55 52 then (.perm, old) else (.ok, new)
  | .pwrStateCtrl =>
    if fld val 6 4 ≠ 0 ∧ fld val 6 4 ≠ 3 ∧ fld val 6 4 ≠ 4 then (.perm, old) else (.ok, new)
  | _ => (.ok, new)

/-! ### Accesses -/

/-- The alarm fires where it is armed for a count that a test picks (R407). -/
def State.alarmIf (s : State) (due : Nat → Bool) : State :=
  let a := s.reg .hub .pwrRtcAlarm 0
  if s.xtal && a.getLsbD 63 && due (fld a 47 0) then (s.setRf .hub .pwrRtcAlarm 0 62 62 1).wakeIf 1 0 else s
/-- A write arms the alarm: one whose time has passed fires at once, where the crystal oscillates (R471). -/
def State.alarmCheck (s : State) : State := s.alarmIf fun k => decide (k ≤ (s.reg .hub .pwrRtcCount 0).toNat)

/-- A register write that has passed no check yet: its checks, its value, and the state with it stored; what the
register's actions do comes on top. -/
def State.ctlStore (s : State) (d : Die) (n : RegName) (idx pl ctx : Nat) (val : W64) : Status × State :=
  match s.gate d n pl ctx with
  | .ok =>
    let key := s.regKey d n idx pl
    let r := s.ctlValue d n key pl ctx val
    match r.1 with
    | .ok =>
      let t := { s.setReg d n key (s.counterWrite n r.2) with free := if isCounter n then s.free + 1 else s.free }
      (.ok, match n with | .pwrRtcAlarm => t.alarmCheck | _ => t)
    | e => (e, s)
  | e => (e, s)

/-- Whether a write belongs to a command of its own: the registers whose writes act. -/
def ownRow (n : RegName) (old val : W64) : Bool :=
  let b (hi lo : Nat) : Bool := decide (fld val hi lo ≠ 0)
  match n with
  | .burState | .smpState | .memBandMode | .cqDoorbell | .eqOp | .hubSluiceCtrl | .mrcSqDoorbell | .pwrLimit
  | .fltForce | .fltTileRetire | .pinMux => true
  | .memPchState => b 7 5
  | .tgCtrl => b 1 0
  | .memRetireCtrl => b 25 25
  | .cptCmd => decide (1 ≤ fld val 51 48 ∧ fld val 51 48 ≤ 11)
  | .xltInvCmd => b 12 12
  | .dmaCtrl => b 3 0 || decide (fld val 31 31 ≠ fld old 31 31)
  | .cqCfg => decide (fld val 12 12 ≠ fld old 12 12)
  | .eqCfg => decide (fld val 12 12 ≠ fld old 12 12)
  | .mrcSqCfg => decide (fld val 12 12 ≠ fld old 12 12)
  | .cqPreempt => decide (1 ≤ fld val 55 52 ∧ fld val 55 52 ≤ 7)
  | .mrcSnapCmd => decide (1 ≤ fld val 55 52 ∧ fld val 55 52 ≤ 3)
  | .pwrStateCtrl => decide (fld val 6 4 = 0 ∨ fld val 6 4 = 3 ∨ fld val 6 4 = 4)
  | .pwrSnap => b 63 63
  | .fltCtrl => b 1 0
  | .fltAlive => b 0 0
  | .fltWdt => b 31 30
  | .fltResetReq => b 0 0
  | .fwStatus => b 0 0
  | _ => false

/-- The counters of Table 14-12. -/
def pwrCounter (n : RegName) : Bool :=
  match n with
  | .pwrEnCount | .pwrPkgEnergy | .pwrDroopCnt | .pwrExcurCnt | .pwrResid | .pwrDieEnergy | .pwrBubbleCnt => true
  | _ => false
/-- A counter as it stood when a level took its snapshot (R402). -/
def State.pwrSnap (s : State) (pl : Nat) (n : RegName) (key : Nat) : W64 := aGet (aGet s.pwrSnaps [] pl) 0 (n, key)

/-! ### Pins (R475-R478) -/

def State.pinFunc (s : State) (k : Nat) : Nat := s.rf .hub .pinMux k 1 0
def State.pinPull (s : State) (k : Nat) : Nat := s.rf .hub .pinMux k 5 4
def State.switching (s : State) (k : Nat) : Bool := (s.reg .hub .pinMux k).getLsbD 31
/-- Whether GPIOk drives its pin, and the level. -/
def State.gpioDrives (s : State) (k : Nat) : Bool := decide (s.pinFunc k = 0) && (s.reg .hub .pinGpioCtrl 0).getLsbD (32 + k)
def State.gpioOut (s : State) (k : Nat) : Bool := (s.reg .hub .pinGpioCtrl 0).getLsbD k
/-- Whether a function drives its pin: TXD, SCLK, MOSI, RTS_N, CS_N, SCL, SDA (Table 17-6). -/
def funcOutput (k f : Nat) : Bool := [(0, 1), (0, 2), (1, 2), (2, 1), (3, 2), (4, 1), (4, 2), (5, 2)].contains (k, f)
/-- The level of a pin; what a peripheral drives is free. -/
def State.pinLevel (s : State) (k : Nat) : Bool :=
  if s.switching k then aGet s.pinHold false k
  else if s.gpioDrives k then s.gpioOut k
  else if funcOutput k (s.pinFunc k) then Config.freeBool (s.free + k)
  else aGet s.pins false k
/-- The levels of the pins LS0 to LS31, as PIN_GPIO_IN shows them (R477). -/
def State.lsLevels (s : State) : Nat := (List.range 32).foldl (fun a k => a + b2n (s.pinLevel k) * 2 ^ k) 0

/-- What a register holds for a level: a power counter through its snapshot (R402); PWR_FAN_CFG zero under NX (R398);
PIN_GPIO_IN the levels of the pins (R477). -/
def State.regView (s : State) (d : Die) (n : RegName) (key pl : Nat) : W64 :=
  if pwrCounter n then s.pwrSnap pl n key
  else if decide (n = .pwrFanCfg) && s.nx then 0
  else if n = .pinGpioIn then BitVec.ofNat 64 s.lsLevels
  else s.reg d n key

/-- A read of a control register by a level with a CTXID (R41-R43, R337, R338). -/
def State.ctlReadReg (s : State) (d : Die) (n : RegName) (idx pl ctx : Nat) : Status × W64 :=
  match s.gate d n pl ctx with
  | .ok => (.ok, readFields n (s.regView d n (s.regKey d n idx pl) pl))
  | e => (e, 0)

/-- An access to a place that no register holds, or one that R41 or R48 refuses. -/
def State.ctlNone (s : State) (d : Die) (off pl ctx : Nat) (bad : Bool) : Status :=
  let bad := bad || (decide (ctx = 0) && decide (pl ≠ 0))
  match ctlGroup d off with
  | some n =>
    if s.asleep d (regInfo n).tileDom then .held
    else if !s.ctlUp d (regInfo n).tileDom then .unav
    else if (regInfo n).minPL < pl then .perm
    else if bad then .perm else .ok
  | none => if !s.ctlUp d false then .unav else if bad then .perm else .ok

/-- An access to a place of a block is one to its register group (R403). -/
def State.ctlTouch (s : State) (d : Die) (off : Nat) : State :=
  match ctlGroup d off with | some n => s.touch d n | none => s

/-- A read in control space. -/
def State.ctlRead1 (s : State) (d : Die) (off size pl ctx : Nat) : Status × W64 :=
  match ctlFind d off size with
  | .reg n idx => s.ctlReadReg d n idx pl ctx
  | .bad => (s.ctlNone d off pl ctx true, 0)
  | .free => (s.ctlNone d off pl ctx false, 0)

/-- The state that a read in control space leaves: what it clears (Table 0-5). -/
def State.ctlReadEnd (s : State) (d : Die) (off size pl ctx : Nat) : State :=
  match ctlFind d off size with
  | .reg n idx =>
    let key := s.regKey d n idx pl
    let v := s.reg d n key
    if s.gate d n pl ctx = .ok ∧ clearedByRead n v ≠ v then s.setReg d n key (clearedByRead n v) else s
  | _ => s

/-- REGISTER_WRITE (R41-R43): a write that has no command of its own. A write that belongs to one leaves the state as it is. -/
def State.regWrite (s : State) (w : CtlWrite) : State :=
  match ctlFind w.die w.off w.size with
    | .reg n idx =>
      if ownRow n (s.reg w.die n (s.regKey w.die n idx w.pl)) w.val then s
      else
        let r := (s.touch w.die n).ctlStore w.die n idx w.pl w.ctx w.val
        r.2.answerTo (.registerWrite w) r.1 0
    | .bad => (s.ctlTouch w.die w.off).answerTo (.registerWrite w) (s.ctlNone w.die w.off w.pl w.ctx true) 0
    | .free => (s.ctlTouch w.die w.off).answerTo (.registerWrite w) (s.ctlNone w.die w.off w.pl w.ctx false) 0
/-- REGISTER_WRITE (R41). -/
def execRegisterWrite (w : CtlWrite) (s : State) : Host.Outcome State Fault Refusal := done s (s.regWrite w)

end Sys2Proof.Machine
end

