-- ==== Sys2Proof/Machine/MemCtl.lean ====
section
/-!
DEFINITION. The memory controllers' own events and the traffic generators (R258-R278): band modes, decoded reads, patrol
scrub, refresh, retraining, threshold clears, generator runs.
-/

namespace Sys2Proof.Machine

/-- Whether the controller of a pseudo-channel works (R33, Table 9-5). -/
def State.ctlWorks (s : State) (p : Nat) : Bool := s.running (.cd (pchDie p)) false && decide (2 ≤ s.pch p)

/-! ### Band modes -/

/-- A word of MEM_BAND_MODE as written: bands at or above U are not written (Table 9-18). -/
def bandWord (u j : Nat) (old val : W64) : W64 :=
  (List.range 32).foldl
    (fun w t => if 32 * j + t < u then setFld w (2 * t + 1) (2 * t) (fld val (2 * t + 1) (2 * t)) else w) old

/-- BAND_MODE_WRITE (R260): every decoder uses the new modes when the write completes. -/
def execBandModeWrite (w : Wr) (s : State) : Host.Outcome State Fault Refusal :=
  done s (match s.gate .hub .memBandMode w.pl w.ctx with
    | .ok =>
      if w.idx < s.fuse.bands / 32 then
        (s.setReg .hub .memBandMode w.idx
          (bandWord s.usable w.idx (s.reg .hub .memBandMode w.idx) w.val)).answer .ok 0
      else s.answer .ok 0
    | e => s.answer e 0)

/-! ### Reads of the controller -/

/-- The answer of a controller read, which the next request that reads the block receives. -/
def State.ctlAnswer (s : State) (p blk : Nat) (st : Status) (d : BitVec 512) : State :=
  { s with ctlRead := some ⟨p, blk, st, d⟩, answers := aSet s.answers (p * 2 ^ 24 + blk) (if st = .ok then some d else none) }

/-- A block goes to its re-read (R269). -/
def State.addReread (s : State) (p blk kind : Nat) : State :=
  if s.rereads.any (fun r => decide (r.p = p) && decide (r.blk = blk)) then s
  else { s with rereads := s.rereads ++ [⟨p, blk, kind, false⟩], ctlRead := none }

/-- CONTROLLER_READ_COMPLETE (R266): a read decoded in the ECCMODE of its die. -/
def execControllerReadComplete (d : Disturb) (s : State) : Host.Outcome State Fault Refusal :=
  done s (
    if !s.ctlWorks d.p || decide (s.blocks ≤ d.blk) then s
    else
      let e := s.blockErr d.p d.blk d.flips
      let raw := s.blockData d.p d.blk
      match eccDecode (s.eccMode d.p) e with
      | .clean => s.ctlAnswer d.p d.blk .ok (readData raw e [])
      | .fix f => (s.noteCorrected d.p).ctlAnswer d.p d.blk .ok (readData raw e f)
      | .poisoned => s.ctlAnswer d.p d.blk .pois 0
      | .uncor => s.addReread d.p d.blk 1)

/-- The answer of a re-read: for a request, unless a write of the whole block has come since (R271); the scrubber's has no
requester (R270). -/
def State.rereadAnswer (s : State) (r : Reread) (st : Status) (d : BitVec 512) : State :=
  if r.late || decide (r.kind = 2) then { s with ctlRead := some ⟨r.p, r.blk, st, d⟩ } else s.ctlAnswer r.p r.blk st d

/-- UNCORRECTABLE_REREAD (R269). -/
def execUncorrectableReread (d : Disturb) (s : State) : Host.Outcome State Fault Refusal :=
  done s (match s.rereads.find? (fun r => decide (r.p = d.p) && decide (r.blk = d.blk)) with
    | none => s
    | some r =>
      let t := { s with rereads := lDrop (fun x => decide (x.p = d.p) && decide (x.blk = d.blk)) s.rereads }
      let e := s.blockErr d.p d.blk d.flips
      let raw := s.blockData d.p d.blk
      match eccDecode (s.eccMode d.p) e with
      | .clean => (t.noteCorrected d.p).rereadAnswer r .ok (readData raw e [])
      | .fix f => (t.noteCorrected d.p).rereadAnswer r .ok (readData raw e f)
      | .poisoned => t.rereadAnswer r .pois 0
      | .uncor =>
        (if r.late then t.noteUncor d.p d.blk r.kind else t.notePoisoned d.p d.blk r.kind).rereadAnswer r .pois 0)

/-- The scrubber moves to the next block; after the last one a new pass starts (R270). -/
def State.scrubNext (s : State) (p : Nat) : State :=
  let n := aGet s.scrubPos 0 p + 1
  if s.blocks ≤ n then s.scrubStart p else { s with scrubPos := aSet s.scrubPos p n }

/-- SCRUB_READ (R270): the scrubber reads its next block; `crossed` says that a write to the block came between the read
and the write-back, which drops the write-back. -/
def execScrubRead (d : Disturb) (crossed : Bool) (s : State) : Host.Outcome State Fault Refusal :=
  done s (
    if !s.running (.cd (pchDie d.p)) false || (decide (s.pch d.p ≠ 3) && decide (s.pch d.p ≠ 4)) ||
        decide (aGet s.scrubPos 0 d.p ≠ d.blk) then s
    else
      let e := s.blockErr d.p d.blk d.flips
      let t := match eccDecode (s.eccMode d.p) e with
        | .clean => s
        | .poisoned => s
        | .fix f =>
          let t := s.noteCorrected d.p
          if crossed then t else t.writeBlock d.p d.blk (readData (s.blockData d.p d.blk) e f)
        | .uncor => s.addReread d.p d.blk 2
      t.scrubNext d.p)

/-- IN_DIE_CORRECTION_REPORT (R264). -/
def execInDieCorrectionReport (p n : Nat) (s : State) : Host.Outcome State Fault Refusal :=
  done s (if s.running (.cd (pchDie p)) false then s.count (.cd (pchDie p)) .memIdieCnt (pchIdx p) n else s)

/-- REFRESH (R272): contents stay; the time of the bank's refresh is kept. -/
def execRefresh (p bank : Nat) (s : State) : Host.Outcome State Fault Refusal :=
  done s (if s.running (.cd (pchDie p)) false && decide (bank < if s.fuse.high16 then 64 else 48) then
      { s with refreshed := aSet s.refreshed (p, bank) s.now }
    else s)

/-- One pseudo-channel of a channel whose retraining failed. -/
def State.retrainFail (s : State) (p : Nat) : State :=
  if s.counting p then
    let n := aGet s.trcCnt 0 p + 1
    let t := { s with trcCnt := aSet s.trcCnt p n }
    if n = 2 then t.markFailing p 7 else t
  else s

/-- CHANNEL_RETRAIN (R278): retraining of die-local channel `ch` completes or fails. -/
def execChannelRetrain (die : Fin 4) (ch : Nat) (good : Bool) (s : State) : Host.Outcome State Fault Refusal :=
  done s (
    let p := 128 * die.val + 2 * (ch % 64)
    if !s.running (.cd die) false then s
    else if good then { s with trcCnt := aSet (aSet s.trcCnt p 0) (p + 1) 0 }
    else ((s.retrainFail p).retrainFail (p + 1)).raise (.cd die) (0x26 + ch % 64 / 32) (ch % 64))

/-- A count restarts when its bit goes from 1 to 0. -/
def State.restartCounts (s : State) (p : Nat) (gone : Nat) : State :=
  let t := if nbit gone 5 then { s with thuRows := aSet s.thuRows p [] } else s
  let t := if nbit gone 6 then { t with thcCnt := aSet t.thcCnt p 0 } else t
  if nbit gone 7 then { t with trcCnt := aSet t.trcCnt p 0 } else t

/-- PCH_THRESHOLD_CLEAR (R278): a write of MEM_PCH_STATEi. -/
def execPchThresholdClear (w : Wr) (s : State) : Host.Outcome State Fault Refusal :=
  done s (
    let r := s.ctlStore w.die .memPchState w.idx w.pl w.ctx w.val
    match r.1, w.die with
    | .ok, .cd n =>
      let p := 128 * n.val + w.idx % 128
      let old := fld (s.reg w.die .memPchState w.idx) 7 5
      let new := fld (r.2.reg w.die .memPchState w.idx) 7 5
      let t := r.2.restartCounts p ((old - new) * 32)
      let t := if old ≠ 0 ∧ new = 0 ∧ s.pch p = 4 then t.enterOnline p else t
      t.answer .ok 0
    | e, _ => s.answer e 0)

/-! ### Traffic generators -/

def TgRun.start (r : TgRun) : Nat := fld r.range 23 0
def TgRun.len (r : TgRun) : Nat := fld r.range 55 32 + 1 - fld r.range 23 0
def TgRun.pattern (r : TgRun) : Nat := fld r.cfg 27 24
def TgRun.passes (r : TgRun) : Nat := fld r.cfg 15 0
def TgRun.raw (r : TgRun) : Bool := decide (fld r.cfg 21 21 = 1)

/-- Whether a number is a power of two. -/
def isPow2 (n : Nat) : Bool := decide (n ≠ 0) && decide (2 ^ Nat.log2 n = n)

/-- Refusals of a START (R277, Table 9-13). -/
def State.tgRefused (s : State) (r : TgRun) : Bool :=
  decide (3 < r.pattern) || decide (fld r.cfg 23 22 = 3) || decide (s.blocks ≤ fld r.range 55 32) ||
    decide (fld r.range 55 32 < r.start) ||
    (decide (r.pattern = 1) && !isPow2 r.len) || r.pcs.any (fun p => tgStateBad r.nondestr (s.pch p))

/-- The block of access `i` of a pseudo-channel's range (Table 9-6). -/
def TgRun.block (r : TgRun) (i : Nat) : Nat :=
  if r.pattern = 1 then r.start + (i * 0x9E3779B1) % r.len else r.start + i

/-- Eight successive 64-bit draws as one block, and the state after them (R190). -/
def genBlock : Nat → W64 → BitVec 512 × W64
  | 0, g => (0, g)
  | n + 1, g =>
    let d := genDraw 64 g
    let r := genBlock n d.2
    ((r.1 <<< 64) ||| BitVec.ofNat 512 d.1, r.2)

/-- Block contents of ADDR: each 8-byte word holds its byte address and the complement. -/
def addrBlock (blk : Nat) : BitVec 512 :=
  (List.range 8).foldl
    (fun d i =>
      let a := (64 * blk + 8 * i) % 2 ^ 32
      d ||| (BitVec.ofNat 512 (a + (2 ^ 32 - 1 - a) * 2 ^ 32) <<< (64 * i))) 0

/-- Banks of a pseudo-channel (R256). -/
def State.banks (s : State) : Nat := if s.fuse.high16 then 64 else 48

/-- Order of STRESS (Table 9-6): two rows of one bank in turn, access by access, then the next bank, and after the last bank the
next pair of rows of each. -/
def TgRun.stressOrder (r : TgRun) (banks : Nat) : List Nat :=
  let rows := upFrom (r.start / 16) (fld r.range 55 32 / 16 + 1 - r.start / 16)
  let within (b : Nat) : Bool := decide (r.start ≤ b) && decide (b ≤ fld r.range 55 32)
  (List.range (rows.length / 2 + 1)).flatMap fun i => (List.range banks).flatMap fun q =>
    let pair := ((rows.filter fun x => decide (Config.rowBank x % banks = q)).drop (2 * i)).take 2
    (List.range 16).flatMap fun c => (pair.map fun x => 16 * x + c).filter within

/-- Target of access `i` of a pass: pseudo-channel 0 first, then 1. -/
def TgRun.target (r : TgRun) (banks i : Nat) : Nat × Nat :=
  let j := i % r.len
  (r.pcs[i / r.len]?.getD 0, if r.pattern = 3 then (r.stressOrder banks)[j]?.getD r.start else r.block j)

/-- Accesses of one pass: writes and reads, or reads alone. -/
def TgRun.half (r : TgRun) : Nat := r.pcs.length * r.len
def TgRun.passLen (r : TgRun) : Nat := (if r.nondestr then 1 else 2) * r.half
/-- Accesses of a finite run. -/
def TgRun.total (r : TgRun) : Nat := r.passes * r.passLen

/-- Data that access `i` of a pass writes, and the generator's state after it (Table 9-6, R190, R191); the channel that seeds it is the
die's, 0 to 63 (DESIGN CHOICE, log 50). -/
def TgRun.datum (r : TgRun) (i blk : Nat) : BitVec 512 × W64 :=
  let g := if i = 0 then genSeed (BitVec.ofNat 64 (fld r.cfg 63 32)) 0xFFFE r.ch else r.gen
  if r.pattern ≤ 1 then genBlock 8 g
  else if r.pattern = 2 then (addrBlock blk, g)
  else (if i % r.len % 2 = 1 then BitVec.allOnes 512 else 0, g)

/-- A miscompared block is counted, and the first one recorded (R277). -/
def State.tgMiss (s : State) (r : TgRun) (p blk : Nat) : State :=
  let d := Die.cd r.die
  let t := s.count d .tgErrcnt r.ch 1
  let st := t.reg d .tgStatus r.ch
  if st.getLsbD 63 then t
  else t.setReg d .tgStatus r.ch (setFld (setFld (setFld st 63 63 1) 62 62 (p % 2)) 55 32 blk)

/-- The disturbance of the next read of a block, where the list has one for it, and the rest of the list. -/
def nextFlips (reads : List Disturb) (p blk : Nat) : ErrPat × List Disturb :=
  match reads with
  | x :: l => if x.p = p ∧ x.blk = blk then (x.flips, l) else ([], reads)
  | [] => ([], [])

/-- A comparison of a destructive run: the data differ where the errors left are not nothing. -/
def State.tgCompare (s : State) (r : TgRun) (p blk : Nat) (left : BitVec 512) : State :=
  if left = 0 then s else s.tgMiss r p blk

/-- One read of a run, with its re-read where it needs one (R269, R276): counts, and the comparison of a destructive pattern. -/
def State.tgRead (s : State) (r : TgRun) (p blk : Nat) (reads : List Disturb) : State × List Disturb :=
  let a := nextFlips reads p blk
  let e := s.blockErr p blk a.1
  if !r.nondestr && r.raw then (s.tgCompare r p blk (errData e), a.2)
  else
    let miss (t : State) (left : BitVec 512) : State := if r.nondestr then t else t.tgCompare r p blk left
    let bad (t : State) : State := if r.nondestr then t else t.tgMiss r p blk
    match eccDecode (s.eccMode p) e with
    | .clean => (miss s (errData e), a.2)
    | .fix f => (miss (s.noteCorrected p) (errData e ^^^ errData f), a.2)
    | .poisoned => (bad s, a.2)
    | .uncor =>
      let b := nextFlips a.2 p blk
      let e2 := s.blockErr p blk b.1
      (match eccDecode (s.eccMode p) e2 with
        | .clean => miss (s.noteCorrected p) (errData e2)
        | .fix f => miss (s.noteCorrected p) (errData e2 ^^^ errData f)
        | .poisoned => bad s
        | .uncor => if r.nondestr then s.count (.cd r.die) .memUncorCnt (pchIdx p) 1 else bad (s.notePoisoned p blk 1), b.2)

/-- A run as it stands now, stored with what it has done; PASSDONE counts its whole passes. -/
def State.setRun (s : State) (r : TgRun) : State :=
  { s with tgRuns := lUpd (fun x => decide (x.die = r.die) && decide (x.ch = r.ch)) (fun _ => r) s.tgRuns }.setRf
    (.cd r.die) .tgStatus r.ch 15 0 (min (r.pos / r.passLen) 65535)

/-- The next access of a run (R276): a destructive pass writes its whole range and then reads it back in the same order. -/
def State.tgAccess (s : State) (r : TgRun) (reads : List Disturb) : State × TgRun × List Disturb :=
  let i := r.pos % r.passLen
  if !r.nondestr && decide (i < r.half) then
    let x := r.target s.banks i
    let d := r.datum i x.2
    (s.writeBlock x.1 x.2 d.1, { r with pos := r.pos + 1, gen := d.2 }, reads)
  else
    let x := r.target s.banks (if r.nondestr then i else i - r.half)
    let u := s.tgRead r x.1 x.2 reads
    (u.1, { r with pos := r.pos + 1 }, u.2)

/-- The next `n` accesses of a run, with the disturbed reads that they meet, in order. -/
def State.tgDo : Nat → TgRun → List Disturb → State → State
  | 0, r, _, s => s.setRun r
  | n + 1, r, reads, s => let x := s.tgAccess r reads; State.tgDo n x.2.1 x.2.2 x.1

/-- Generator unit and run of a TG access (R275). -/
def State.tgUnit (s : State) (w : Wr) : Nat := s.selUnit w.die w.pl .tg
def State.tgRunOf (s : State) (die : Fin 4) (ch : Nat) : Option TgRun :=
  s.tgRuns.find? fun r => decide (r.die = die) && decide (r.ch = ch)

/-- TG_START (R276, R277). -/
def execTgStart (w : Wr) (s : State) : Host.Outcome State Fault Refusal :=
  done s (match w.die, s.gate w.die .tgCtrl w.pl w.ctx with
    | .cd n, .ok =>
      let u := s.tgUnit w
      let r : TgRun := ⟨n, u, s.reg w.die .tgCfg u, s.reg w.die .tgRange u, 0, 0⟩
      if fld w.val 0 0 = 0 ∨ fld w.val 1 1 = 1 then s
      else if (s.tgRunOf n u).isSome then s.answer .ok 0
      else if s.tgRefused r then (s.setRf w.die .tgStatus u 18 16 4).answer .ok 0
      else
        let t := (s.setRf w.die .tgStatus u 15 0 0).setRf w.die .tgStatus u 18 16 1
        { t with tgRuns := t.tgRuns ++ [r] }.orderSettle.answer .ok 0
    | _, e => s.answer e 0)

/-- TG_ABORT (R277): the run ends at a block boundary, after `n` accesses more, with the disturbed reads that they met. -/
def execTgAbort (w : Wr) (n : Nat) (reads : List Disturb) (s : State) : Host.Outcome State Fault Refusal :=
  done s (match w.die, s.gate w.die .tgCtrl w.pl w.ctx with
    | .cd d, .ok =>
      if fld w.val 1 1 = 0 then s
      else
        match s.tgRunOf d (s.tgUnit w) with
        | none => s.answer .ok 0
        | some r =>
          let k := if r.passes = 0 then n else min n (r.total - 1 - r.pos)
          ((State.tgDo k r reads s).tgEnd r 3).answer .ok 0
    | _, e => s.answer e 0)

/-- TG_RUN_DONE (R276): a run of a finite number of passes makes its last accesses and ends, with the disturbed reads that they
met. -/
def execTgRunDone (die : Fin 4) (ch : Nat) (reads : List Disturb) (s : State) : Host.Outcome State Fault Refusal :=
  done s (match s.tgRunOf die ch with
    | none => s
    | some r =>
      if r.passes = 0 ∨ !s.running (.cd die) false then s
      else (State.tgDo (r.total - r.pos) r reads s).tgEnd r 2)

/-- A clk_time of the generators (log 92): each run makes one access, but the last of a finite run. -/
def State.tgTick (s : State) : State :=
  s.tgRuns.foldl
    (fun t r => if s.running (.cd r.die) false && (decide (r.passes = 0) || decide (r.pos + 1 < r.total)) then State.tgDo 1 r [] t else t) s

end Sys2Proof.Machine
end

