-- ==== Sys2Proof/Machine/Sign.lean ====
section
/-!
DEFINITION. The signature scheme of licences (R446, R447): SHA-384 and ECDSA on the curve NIST P-384 (FIPS 186-5), verified as
numbers. PRESUMED from those standards, which the spec names and does not restate (log 12).
-/

namespace Sys2Proof.Machine

/-! ### SHA-384 -/

/-- The greatest number whose `k`-th power is at most `x`, bits `n - 1` to 0 decided from the top, above `r`. -/
def rootBits (k x : Nat) : Nat → Nat → Nat
  | 0, r => r
  | n + 1, r => rootBits k x n (if (r + 2 ^ n) ^ k ≤ x then r + 2 ^ n else r)

/-- The first 64 bits of the fraction of the `k`-th root of `p`. -/
def rootFraction (k p : Nat) : W64 := BitVec.ofNat 64 (rootBits k (p * 2 ^ (64 * k)) 69 0)

/-- The primes below 410: the first eighty. -/
def shaPrimes : List Nat := (upFrom 2 408).filter fun n => (upFrom 2 19).all fun d => decide (n ≤ d ∨ n % d ≠ 0)

/-- The round constants: fractions of the cube roots of the first eighty primes. -/
def shaRoundConstants : List W64 := shaPrimes.map (rootFraction 3)

/-- The first value of the hash: fractions of the square roots of the ninth to sixteenth primes. -/
def shaInit : List W64 := ((shaPrimes.drop 8).take 8).map (rootFraction 2)

def ror (x : W64) (n : Nat) : W64 := x.rotateRight n

/-- A number's bytes, most significant first. -/
def beBytes (n x : Nat) : List Byte := (leBytes n x).reverse
/-- The number of bytes, most significant first. -/
def beNat (l : List Byte) : Nat := leNat l.reverse

/-- A message padded to whole blocks of 128 bytes. -/
def shaPad (m : List Byte) : List Byte :=
  m ++ [0x80] ++ List.replicate ((239 - m.length % 128) % 128) 0 ++ beBytes 16 (8 * m.length)

/-- The words of a block. -/
def shaWords : Nat → List Byte → List W64
  | 0, _ => []
  | k + 1, l => BitVec.ofNat 64 (beNat (l.take 8)) :: shaWords k (l.drop 8)

/-- The message schedule; `w` holds the last sixteen words, oldest first. -/
def shaSchedule : Nat → List W64 → List W64
  | 0, _ => []
  | k + 1, w =>
    let a := w.getD 1 0
    let b := w.getD 14 0
    let s0 := ror a 1 ^^^ ror a 8 ^^^ (a >>> 7)
    let s1 := ror b 19 ^^^ ror b 61 ^^^ (b >>> 6)
    w.headD 0 :: shaSchedule k (w.drop 1 ++ [w.headD 0 + s0 + w.getD 9 0 + s1])

/-- One round. -/
def shaRound (h : List W64) (kw : W64 × W64) : List W64 :=
  match h with
  | [a, b, c, d, e, f, g, i] =>
    let t1 := i + (ror e 14 ^^^ ror e 18 ^^^ ror e 41) + ((e &&& f) ^^^ (~~~e &&& g)) + kw.1 + kw.2
    let t2 := (ror a 28 ^^^ ror a 34 ^^^ ror a 39) + ((a &&& b) ^^^ (a &&& c) ^^^ (b &&& c))
    [t1 + t2, a, b, c, d + t1, e, f, g]
  | _ => h

/-- One block taken into the hash, with the round constants `ks`. -/
def shaBlock (ks h : List W64) (blk : List Byte) : List W64 :=
  List.zipWith (· + ·) h ((ks.zip (shaSchedule 80 (shaWords 16 blk))).foldl shaRound h)

/-- The blocks of a padded message taken in order. -/
def shaBlocks (ks : List W64) : Nat → List W64 → List Byte → List W64
  | 0, h, _ => h
  | k + 1, h, l => shaBlocks ks k (shaBlock ks h (l.take 128)) (l.drop 128)

/-- The SHA-384 digest as a number, first byte most significant. -/
def sha384 (m : List Byte) : Nat :=
  let l := shaPad m
  ((shaBlocks shaRoundConstants (l.length / 128) shaInit l).take 6).foldl (fun a w => a * 2 ^ 64 + w.toNat) 0

/-! ### ECDSA on P-384 -/

def ecP : Nat := 2 ^ 384 - 2 ^ 128 - 2 ^ 96 + 2 ^ 32 - 1
def ecN : Nat :=
  0xffffffffffffffffffffffffffffffffffffffffffffffffc7634d81f4372ddf581a0db248b0a77aecec196accc52973
def ecB : Nat :=
  0xb3312fa7e23ee7e4988e056be3f82d19181d9c6efe8141120314088f5013875ac656398d8a2ed19d2a85c8edd3ec2aef
def ecG : Nat × Nat :=
  (0xaa87ca22be8b05378eb1c71ef320ad746e1d3b628ba79b9859f741e082542a385502f25dbf55296c3a545e3872760ab7,
   0x3617de4a96262c6f5d9e98bf9292dc29f8f41dbd289a147ce9da3113b5f0b8c00a60b1ce1d7e819d7a431d7c90ea0e5f)

/-- `a ^ e` modulo `m`, over the low `fuel` bits of `e`. -/
def powMod (m : Nat) : Nat → Nat → Nat → Nat
  | 0, _, _ => 1 % m
  | k + 1, a, e =>
    let r := powMod m k (a * a % m) (e / 2)
    if e % 2 = 1 then a * r % m else r
/-- The inverse modulo a prime. -/
def invMod (m a : Nat) : Nat := powMod m 384 (a % m) (m - 2)

/-- The sum of two points of the curve; `none` is the point at infinity. -/
def ecAdd : Option (Nat × Nat) → Option (Nat × Nat) → Option (Nat × Nat)
  | none, q => q
  | p, none => p
  | some (x, y), some (u, v) =>
    let at_ (l : Nat) : Option (Nat × Nat) :=
      let z := (l * l + (ecP - x) + (ecP - u)) % ecP
      some (z, (l * (x + (ecP - z)) + (ecP - y)) % ecP)
    if x = u then
      if (y + v) % ecP = 0 then none
      else at_ ((3 * x * x + (ecP - 3)) * invMod ecP (2 * y) % ecP)
    else at_ ((v + (ecP - y)) * invMod ecP (u + (ecP - x)) % ecP)

/-- A multiple of a point. -/
def ecMul : Nat → Nat → Option (Nat × Nat) → Option (Nat × Nat)
  | 0, _, _ => none
  | k + 1, e, p =>
    let r := ecMul k (e / 2) (ecAdd p p)
    if e % 2 = 1 then ecAdd p r else r

/-- A point of the curve. -/
def ecOn (q : Nat × Nat) : Bool :=
  decide (q.1 < ecP) && decide (q.2 < ecP) && decide (q.2 * q.2 % ecP = (q.1 * q.1 * q.1 + (ecP - 3) * q.1 + ecB) % ecP)

/-- Whether a signature (r, s) over a digest verifies with a public key. -/
def ecVerify (q : Nat × Nat) (digest r s : Nat) : Bool :=
  ecOn q && decide (1 ≤ r) && decide (r < ecN) && decide (1 ≤ s) && decide (s < ecN) &&
    (let w := invMod ecN s
     match ecAdd (ecMul 384 (digest * w % ecN) (some ecG)) (ecMul 384 (r * w % ecN) (some q)) with
     | some x => decide (x.1 % ecN = r)
     | none => false)

end Sys2Proof.Machine
end

