-- ==== Sys2Proof/Machine/Flash.lean ====
section
/-!
DEFINITION. The quad-SPI NOR flash (R452): images, licence slots, the boot record in its two journaled copies, and the settings
journal in its two blocks (R455).
-/

namespace Sys2Proof.Machine

/-! ### Bytes -/

/-- Offset of firmware image A (0) or B (1), and of the host boot image (Table 16-9). -/
def imgBase (i : Nat) : Nat := if i = 0 then 0x100000 else 0x900000
def hostImgBase : Nat := 0x1100000
/-- Bytes that an image may have (Table 16-9). -/
def imgSize : Nat := 2 ^ 23

/-- A byte of the flash; erased bytes read 0xFF, and those of an image rewritten by PLDM firmware update are free. -/
def State.flashByte (s : State) (a : Nat) : Byte :=
  match aFind s.flash a with
  | some b => b
  | none =>
    match [0, 1].findSome? fun i => if imgBase i ≤ a ∧ a < imgBase i + imgSize then (aFind s.pldm i).map fun n => n + (a - imgBase i) else none with
    | some n => (Config.freeWord n).truncate 8
    | none => 0xFF
/-- Bytes written from an offset on. -/
def State.flashPut (s : State) (base : Nat) (l : List Byte) : State :=
  { s with flash := (withIdx l).foldl (fun f e => aSet f (base + e.1) e.2) s.flash }

/-! ### Boot record (R452) -/

/-- The boot record in force: of its two copies the one written last. -/
def State.bootRec (s : State) : BootRec := if s.bootLog.a.seq < s.bootLog.b.seq then s.bootLog.b else s.bootLog.a
/-- A new boot record, written over the older copy. -/
def State.putBoot (s : State) (r : BootRec) : State :=
  let x := { r with seq := s.bootRec.seq + 1 }
  { s with bootLog := if s.bootLog.a.seq < s.bootLog.b.seq then { s.bootLog with a := x } else { s.bootLog with b := x } }
/-- What the root of trust has found of an image is void, and so is its refusal: it has been written. -/
def State.imgVoid (s : State) (i : Nat) : State :=
  { s with hdrs := aErase s.hdrs i }.putBoot { s.bootRec with refused := s.bootRec.refused.filter fun x => decide (x ≠ i) }
/-- PLDM firmware update rewrites an image: with what, the spec does not say. -/
def State.pldmWrite (s : State) (i : Nat) : State :=
  { s with
    flash := s.flash.filter fun e => decide (¬ (imgBase i ≤ e.1 ∧ e.1 < imgBase i + imgSize))
    pldm := aSet s.pldm i s.free
    free := s.free + imgSize }.imgVoid i

/-! ### Licence slots (R448) -/

/-- Offset of a licence slot: each has a half of the 64 KiB (Table 16-9). -/
def licBase (k : Nat) : Nat := 0x10000 + 0x8000 * k
/-- A licence slot of the flash, as a little-endian number of 256 bytes. -/
def State.licSlot (s : State) (k : Nat) : Nat := leNat ((List.range 256).map fun i => s.flashByte (licBase k + i))

/-! ### Settings journal (R455) -/

/-- One bit of CRC-32, the IEEE 802.3 polynomial reflected. -/
def crcBit (c : W32) : W32 := if c.getLsbD 0 then (c >>> 1) ^^^ 0xEDB88320#32 else c >>> 1
def crcBits : Nat → W32 → W32
  | 0, c => c
  | n + 1, c => crcBits n (crcBit c)
/-- CRC-32 of some bytes, with the polynomial of R376. -/
def crc32 (l : List Byte) : W32 := (l.foldl (fun c b => crcBits 8 (c ^^^ b.zeroExtend 32)) 0xFFFFFFFF#32) ^^^ 0xFFFFFFFF#32

/-- The bytes of a settings record that its CRC covers: SCHEMA, sequence number, length, payload. -/
def SetRec.bytes (r : SetRec) : List Byte := leBytes 2 r.schema.toNat ++ leBytes 4 r.seq.toNat ++ leBytes 4 r.len ++ leBytes r.len r.payload
/-- Whether the CRC of a record holds. -/
def SetRec.valid (r : SetRec) : Bool := decide (crc32 r.bytes = r.crc)
/-- Bytes that a list of records takes, each with its CRC. -/
def setSize (l : List SetRec) : Nat := (l.map fun r => 14 + r.len).sum

/-- Every record of the journal. -/
def Journal.all (j : Journal) : List SetRec := j.a ++ j.b
/-- The settings in force: the valid record with the highest sequence number (R455). -/
def State.settingsNow (s : State) : Option SetRec :=
  s.settings.all.foldl (fun m r =>
    if r.valid = false then m
    else match m with | some b => if b.seq.toNat < r.seq.toNat then some r else m | none => some r) none

/-- A record appended to the block that holds the record in force; where that is full, compaction has first written the record in force
into the other block and then erased the old one (R455). -/
def State.journalAdd (s : State) (r : SetRec) : State :=
  let inB := match s.settingsNow with | some x => s.settings.b.contains x | none => false
  let cur := if inB then s.settings.b else s.settings.a
  let kept := match s.settingsNow with | some x => [x] | none => []
  { s with settings :=
      if setSize (cur ++ [r]) ≤ 2 ^ 18 then (if inB then { s.settings with b := cur ++ [r] } else { s.settings with a := cur ++ [r] })
      else (if inB then ⟨kept ++ [r], []⟩ else ⟨[], kept ++ [r]⟩) }

/-- A record appended at a schema, with the number after the highest; `good` is whether the append survives with its CRC. -/
def State.appendRec (s : State) (schema payload : Nat) (modes : List (Nat × Nat)) (good : Bool) : State :=
  let n := ((List.range 1017).find? fun n => decide (payload < 256 ^ n)).getD 1016
  let q := BitVec.ofNat 32 (s.settings.all.foldl (fun m r => max m r.seq.toNat) 0 + 1)
  let r : SetRec := ⟨BitVec.ofNat 16 schema, q, n, payload, 0, modes⟩
  let c := crc32 r.bytes
  s.journalAdd { r with crc := if good then c else ~~~c }

end Sys2Proof.Machine
end

