-- ==== Sys2Proof/Machine/Atomic.lean ====
section
/-!
DEFINITION. One step of an atomic on the running value of its location (R108, Table 3-5).
-/

namespace Sys2Proof.Machine

/-- Bytes of an atomic's location. -/
def atOpBytes (a : AtOp) : Nat := if a.ty = 2 ∨ a.ty = 3 then 8 else 4

/-- Integer type of an atomic's type code. -/
def atITy (ty : Nat) : ITy := if ty = 0 then tyU32 else if ty = 1 then tyS32 else if ty = 2 then tyU64 else tyS64

/-- The value left at the location after one lane's turn. -/
def atOpStep (a : AtOp) (m : Nat) : Nat :=
  let t := atITy a.ty
  if a.ty = 4 ∧ a.op = 0 then f32add m a.arg
  else if a.ty = 4 ∧ a.op = 2 then f32min m a.arg
  else if a.ty = 4 ∧ a.op = 3 then f32max2 m a.arg
  else
    let w := 2 ^ (8 * (atOpBytes a))
    match a.op with
    | 0 => iAdd t false m a.arg
    | 1 => iAdd t true m a.arg
    | 2 => iMin t m a.arg
    | 3 => iMax t m a.arg
    | 4 => (m &&& a.arg) % w
    | 5 => (m ||| a.arg) % w
    | 6 => (m ^^^ a.arg) % w
    | 7 => a.arg % w
    | _ => if m = a.cmp % w then a.arg % w else m

end Sys2Proof.Machine
end

