-- ==== Sys2Proof/Machine/Links.lean ====
section
/-!
DEFINITION. Die-to-die links and routes (R24-R31): the links with their ports, which of them carry traffic, and the route
that a request takes.
-/

namespace Sys2Proof.Machine

/-- The ends of a link, as (die, port): 0 to 3 the ring, 4 to 7 a compute die and the hub, 8 to 11 a compute die and its
host die (Table 1-3, R26). -/
def linkEnds (k : Nat) : (Die × Nat) × (Die × Nat) :=
  match k with
  | 0 => ((.cd 0, 0), (.cd 1, 1))
  | 1 => ((.cd 1, 0), (.cd 3, 1))
  | 2 => ((.cd 3, 0), (.cd 2, 1))
  | 3 => ((.cd 2, 0), (.cd 0, 1))
  | 4 => ((.cd 0, 2), (.hub, 0))
  | 5 => ((.cd 1, 2), (.hub, 1))
  | 6 => ((.cd 2, 2), (.hub, 2))
  | 7 => ((.cd 3, 2), (.hub, 3))
  | 8 => ((.cd 0, 3), (.hd 0, 0))
  | 9 => ((.cd 2, 3), (.hd 0, 1))
  | 10 => ((.cd 1, 3), (.hd 1, 0))
  | _ => ((.cd 3, 3), (.hd 1, 1))
def allLinks : List Nat := List.range 12
/-- Modules a link is built from (Table 1-3). -/
def linkBuilt (k : Nat) : Nat := if k < 4 then 8 else 4
/-- Links of a die. -/
def linksOf (d : Die) : List Nat := allLinks.filter fun k => decide ((linkEnds k).1.1 = d) || decide ((linkEnds k).2.1 = d)

/-- CD_LINK_STATUS and HUB_LINK_STATUS at both ends of a link; a host die's end is read at the compute die (R46). -/
def State.linkReg (s : State) (k : Nat) : W64 := s.reg (linkEnds k).1.1 .linkStatus (linkEnds k).1.2
def State.setLink (s : State) (k : Nat) (v : W64) : State :=
  let e := linkEnds k
  let t := s.setReg e.1.1 .linkStatus e.1.2 v
  match e.2.1 with
  | .hub => t.setReg .hub .linkStatus e.2.2 v
  | .cd n => t.setReg (.cd n) .linkStatus e.2.2 v
  | .hd _ => t
def State.linkUp (s : State) (k : Nat) : Bool := (s.linkReg k).getLsbD 31

/-- A module that has not failed in any way. -/
def LMod.fresh : LMod := ⟨[], [], [], [], false⟩
def State.lmod (s : State) (k m : Nat) : LMod := aGet s.linkMods LMod.fresh (k, m)
def State.setLmod (s : State) (k m : Nat) (x : LMod) : State := { s with linkMods := aSet s.linkMods (k, m) x }
/-- Modules of a link in service (R27). -/
def State.linkLive (s : State) (k : Nat) : List Nat := (List.range (linkBuilt k)).filter fun m => !(s.lmod k m).gone

/-- The end of a link at a die. -/
def endAt (d : Die) (k : Nat) : Die × Nat := if (linkEnds k).1.1 = d then (linkEnds k).1 else (linkEnds k).2
/-- Whether a link of a die is out of service for another reason than the die's reset: the die's own end has fenced it, or no module
is left. -/
def State.linkLost (s : State) (d : Die) (k : Nat) : Bool :=
  let e := endAt d k
  (match e.1 with | .hd _ => false | x => (s.reg x .linkStatus e.2).getLsbD 30) || (s.linkLive k).isEmpty
/-- Whether the links of a die have trained (R307, R435): every one whose two ends run and that is not out of service. -/
def State.dieLinked (s : State) (d : Die) : Bool :=
  (linksOf d).any s.linkUp && (linksOf d).all fun k =>
    s.linkUp k || s.linkLost d k || decide (s.dom (linkEnds k).1.1 false ≠ 2) || decide (s.dom (linkEnds k).2.1 false ≠ 2)

/-- Links that lead away from a die, in the order of its ports: link and far die. -/
def exits (d : Die) : List (Nat × Die) :=
  match d with
  | .hub => [(4, .cd 0), (5, .cd 1), (6, .cd 2), (7, .cd 3)]
  | .hd 0 => [(8, .cd 0), (9, .cd 2)]
  | .hd _ => [(10, .cd 1), (11, .cd 3)]
  | .cd 0 => [(0, .cd 1), (3, .cd 2), (4, .hub), (8, .hd 0)]
  | .cd 1 => [(1, .cd 3), (0, .cd 0), (5, .hub), (10, .hd 1)]
  | .cd 2 => [(3, .cd 0), (2, .cd 3), (6, .hub), (9, .hd 0)]
  | .cd _ => [(2, .cd 2), (1, .cd 1), (7, .hub), (11, .hd 1)]

/-- Routes of at most `fuel` links from a die to another over links that a test admits, in the order of their ports; the hub
in between only where allowed. -/
def paths (up : Nat → Bool) (dst : Die) (viaHub : Bool) : Nat → List Die → Die → List (List Nat)
  | 0, _, _ => []
  | fuel + 1, seen, d =>
    (exits d).flatMap fun e =>
      if !up e.1 then []
      else if e.2 = dst then [[e.1]]
      else if seen.contains e.2 || (decide (e.2 = .hub) && !viaHub) then []
      else (paths up dst viaHub fuel (e.2 :: seen) e.2).map (e.1 :: ·)

/-- The shortest of some routes, in order. -/
def shortest (l : List (List Nat)) : List (List Nat) :=
  let m := l.foldl (fun n r => min n r.length) 100
  l.filter fun r => decide (r.length = m)

/-- The routes between two dies that a request may take, the first before the second (R28, R30). -/
def routesOver (up : Nat → Bool) (a b : Die) : List (List Nat) :=
  if a = b then [[]]
  else
    let p := paths up b false 6 [a] a
    shortest (if p = [] then paths up b true 6 [a] a else p)
def State.routes (s : State) (a b : Die) : List (List Nat) := routesOver s.linkUp a b

/-- The path hash: parity of physical address bits 20 to 7 (R28). -/
def pathHash (pa : Nat) : Nat := (List.range 14).foldl (fun x i => x + pa / 2 ^ (7 + i)) 0 % 2

/-- Whether traffic between two dies divides over two routes with every link up (Table 1-4). -/
def twoRoutes (a b : Die) : Bool :=
  match a, b with
  | .cd m, .cd n => decide (m.val + n.val = 3)
  | .hd j, .hd k => decide (j ≠ k)
  | .hd _, .hub => true
  | .hub, .hd _ => true
  | _, _ => false

/-- The route that a request takes with every link up (Table 1-4): the path hash chooses outside ordered mode (R28, R29). -/
def State.fullRoute (s : State) (a b : Die) (pa : Nat) : Option (List Nat) :=
  let l := routesOver (fun _ => true) a b
  if twoRoutes a b && decide (s.rf .hub .hubOrderStatus 0 31 31 = 0) then l[pathHash pa]? else l[0]?

/-- The route of a request (R28-R30): that of Table 1-4, and only where it would cross a link that is down or fenced the first
of the shortest routes over links that are up. -/
def State.routeOf (s : State) (a b : Die) (pa : Nat) : Option (List Nat) :=
  match s.fullRoute a b pa with
  | some r => if r.all s.linkUp then some r else (s.routes a b)[0]?
  | none => (s.routes a b)[0]?

/-- Whether traffic keeps the order of its issue: ordered mode (R29). -/
def State.ordered (s : State) : Bool := decide (s.rf .hub .hubOrderStatus 0 31 31 = 1)

/-- Whether a route leads from a die to another. -/
def State.reach (s : State) (a b : Die) : Bool :=
  decide (a = b) || ((exits a).any fun e => decide (e.2 = b) && s.linkUp e.1) || !(s.routes a b).isEmpty

/-- Enabled tiles of each cluster of a compute die (R21). -/
def State.nTiles (s : State) (d : Nat) : Nat := aGet s.dieTiles 12 d

/-- The die of a requester identifier of Table 11-10, `n` the enabled tiles of a cluster of each compute die (R49). -/
def ridDie (rid : Nat) (n : Nat → Nat) : Die :=
  let x := rid % 4096
  match rid / 4096 with
  | 0 => .cd (cdOf (([0, 1, 2].find? fun d => decide (d * (8 * n d) ≤ x) && decide (x < (d + 1) * (8 * n d))).getD 3))
  | 1 => if x < 128 then .cd (cdOf (x / 32)) else .hub
  | 2 => .cd (cdOf (x / 64))
  | 3 => .cd (cdOf (x / 4))
  | 4 => .cd (cdOf x)
  | 5 => .hd (if x < 48 then 0 else 1)
  | _ => .hub

end Sys2Proof.Machine
end

