-- ==== Sys2Proof/Machine/Protect.lean ====
section
/-!
DEFINITION. Protection (R259, R311-R315, R334): address regions, the check of a request against the tables a die holds,
and the violation log.
-/

namespace Sys2Proof.Machine

/-- Regions of Table 11-1. -/
inductive Region where
  | pool | cxl | pcie | control | none
deriving DecidableEq, Repr

def cxlBase : Nat := 0x1000000000000
def pcieBase : Nat := 0xE000000000000
def ctlBase : Nat := 0xFFF0000000000

/-- The region of a physical address. -/
def State.region (s : State) (pa : Nat) : Region :=
  if pa < s.fuse.bands * 2 ^ 24 then .pool
  else if cxlBase ≤ pa ∧ pa < 2 * cxlBase then .cxl
  else if pcieBase ≤ pa ∧ pa < pcieBase + cxlBase then .pcie
  else if ctlBase ≤ pa ∧ pa < ctlBase + 2 ^ 27 then .control
  else .none

/-- Access types (Table 11-16): 0 read, 1 write, 2 atomic, 3 fetch, 4 walk read. -/
def needsPerm (e : BitVec 128) (typ : Nat) : Bool :=
  match typ with
  | 1 => e.getLsbD 6
  | 2 => e.getLsbD 5 && e.getLsbD 6 && e.getLsbD 7
  | 3 => e.getLsbD 8
  | _ => e.getLsbD 5

def State.fdtMaster (s : State) (f : Nat) : W16 := aGet s.fdt 0 f
def State.fdtAt (s : State) (rep f : Nat) : W16 := aGet s.fdtRep 0 (rep, f)

/-- Conditions 1 to 3 of R314, as a REASON of Table 11-16; 0 where they hold. -/
def cptReason (e : BitVec 128) (pl typ : Nat) : Nat :=
  if fld e 1 0 ≠ 1 then 1 else if fld e 3 2 < pl then 2 else if !needsPerm e typ then 3 else 0

/-- Conditions 3 to 5 of R314 for an FDT entry. -/
def fdtReason (e : BitVec 128) (f : W16) (typ : Nat) : Nat :=
  if !f.getLsbD 15 then 4
  else if ¬ (fld f 7 0 = fld e 71 64 ∨ (fld f 7 0 = 0xFF ∧ e.getLsbD 9 = true)) then 5
  else if f.getLsbD 14 && (decide (typ = 1) || decide (typ = 2)) then 6
  else 0

/-- Condition 6 of R314: the bands of R258 and R259; `il` 0 for a request without an interleave field. -/
def State.bandReason (s : State) (il pa : Nat) : Nat :=
  let b := pa / 2 ^ 24
  if s.usable ≤ b then 8
  else if s.bandMode b = 0 ∨ (il ≠ 0 ∧ il ≠ s.bandMode b) then 7
  else 0

/-- The check of R314 with the replicas of a die, as the REASON of the first condition that fails; 0 where it passes. CTXID 0 above
PL0 is refused whatever its entry says (R48), recorded as a level above the entry's (log 126). -/
def State.protReason (s : State) (rep ctx pl typ il pa : Nat) : Nat :=
  if s.region pa ≠ .pool then 8
  else if ctx = 0 then (if pl = 0 then s.bandReason il pa else 2)
  else
    let e := s.cptAt rep ctx
    let a := cptReason e pl typ
    if a ≠ 0 then a
    else
      let b := fdtReason e (s.fdtAt rep (pa / 2 ^ 21)) typ
      if b ≠ 0 then b else s.bandReason il pa

/-- The check of traffic from devices under a root port (R314). -/
def State.rpReason (s : State) (rep typ pa : Nat) : Nat :=
  if s.region pa ≠ .pool then 8
  else
    let f := s.fdtAt rep (pa / 2 ^ 21)
    if !f.getLsbD 15 then 4
    else if fld f 7 0 ≠ 0xFF then 5
    else if f.getLsbD 14 && decide (typ = 1) then 6
    else s.bandReason 0 pa

/-- A violation recorded on a die, hub or compute (R334, Tables 11-15 and 11-16). -/
def State.violate (s : State) (d : Die) (addr pl typ reason place req ctx : Nat) : State :=
  let i := s.reg d .xltViolInfo 0
  let c := fld i 61 46
  let i' := setFld i 61 46 (if c < 0xFFFF then c + 1 else c)
  let t :=
    if i.getLsbD 63 then s.setReg d .xltViolInfo 0 (setFld i' 62 62 1)
    else
      (s.setReg d .xltViolAddr 0 (BitVec.ofNat 64 addr)).setReg d .xltViolInfo 0
        (setFld (setFld (setFld (setFld (setFld (setFld (setFld i' 63 63 1) 45 44 pl) 43 40 typ) 39 36 reason)
          35 34 place) 31 16 req) 11 0 ctx)
  t.raise d (match d with | .hub => 0x48 | _ => 0x31) 0

/-- CDT entry of an address of CXL memory: 8192 for each port (R366). -/
def cdtIndex (pa : Nat) : Nat := 8192 * ((pa - cxlBase) / 2 ^ 47) + (pa % 2 ^ 47) / 2 ^ 30

/-- The mode that resolves a pool address for a request: the band's. -/
def State.modeOf (s : State) (pa : Nat) : Nat := s.bandMode (pa / 2 ^ 24)
/-- The location of a pool address as it was before the relayout that runs: in a region being copied, the pseudo-channel that
retires (R281). -/
def State.pkLoc (s : State) (pa : Nat) : Loc :=
  let l := mapMode (s.modeOf pa) pa
  match remap false 0 s.retEnts.dropLast [] (l.a / 32768) l.p with
  | some (b, p) => ⟨p, 32768 * b + l.a % 32768⟩
  | none => l
/-- The location of a pool address under its band's mode. -/
def State.locOf (s : State) (pa : Nat) : Option Loc := s.locate (s.modeOf pa) pa
/-- A location of CXL memory stands beyond the pseudo-channels: its byte key is its physical address. -/
def isCxlP (p : Nat) : Bool := decide (2 ^ 18 ≤ p)
def cxlLoc (pa : Nat) : Loc := ⟨pa / 2 ^ 30, pa % 2 ^ 30⟩
/-- The die of the home of a location (R257, R365). -/
def homeDie (p : Nat) : Die := if isCxlP p then .hub else .cd (pchDie p)
/-- Whether a port works in CXL mode (R364, R365). -/
def State.cxlUp (s : State) (port : Nat) : Bool :=
  let r := s.reg .hub .hubPcieCfg port
  s.running .hub false && decide (fld r 29 28 = 2) && r.getLsbD 19

/-- Where a request for a physical line goes (R262, R311, R365): its location, a refusal because its region is being
copied (R281), or a status with the REASON that the hub records, 0 for none. -/
inductive HomeAt where
  | at (l : Loc)
  | moving (loc : Nat)
  | fail (st : Status) (reason : Nat)
deriving DecidableEq, Repr

def State.homeAt (s : State) (pa : Nat) : HomeAt :=
  match s.region pa with
  | .pool =>
    if s.bandReason 0 pa ≠ 0 then .fail .perm (s.bandReason 0 pa)
    else
      match s.locOf pa with
      | none => .moving (s.pkLoc pa).line
      | some l => if s.pchServes l.p then .at l else .fail .unav 0
  | .cxl =>
    let port := (pa - cxlBase) / 2 ^ 47
    if 2 ^ 43 ≤ pa % 2 ^ 47 then .fail .perm 8
    else if s.cxlUp port then .at (cxlLoc pa) else .fail .unav 0
  | _ => .fail .perm 8

/-- The check of a home on a request (R314, R366), as a REASON; 0 where it passes. -/
def State.homeReason (s : State) (l : Loc) (ctx pl typ il pa : Nat) : Nat :=
  if isCxlP l.p then
    if ctx = 0 then (if pl = 0 then 0 else 2)
    else
      let e := s.cptAt 4 ctx
      let a := cptReason e pl typ
      if a ≠ 0 then a else fdtReason e (aGet s.cdtRep 0 (cdtIndex pa)) typ
  else s.protReason (repIdx (homeDie l.p)) ctx pl typ il pa

/-- Whether a line lies in a Burr-layout band (R259, R290). -/
def State.isBurr (s : State) (pa : Nat) : Bool := decide (s.region pa = .pool) && decide (s.modeOf pa = 3)

end Sys2Proof.Machine
end

