-- ==== Sys2Proof/Machine/Coherence.lean ====
section
/-!
DEFINITION. Caching agents and homes (R288-R308): caches, directories, transactions, messages, refusal and tokens.
Lines are named by the line number of their physical address, directory entries by their location.
-/

namespace Sys2Proof.Machine

/-! ### Agents -/

/-- The die of an agent (Table 10-2). -/
def agentDie (a : Nat) : Die := if a < 32 then .cd (cdOf (a / 8)) else if a = 32 then .hd 0 else if a = 33 then .hd 1 else .hub
/-- Whether the domain of an agent runs. -/
def State.agentDom (s : State) (a : Nat) : Bool := decide (s.dom (agentDie a) (decide (a < 32)) = 2)
/-- Whether an agent answers for itself: its domain runs, and its cluster is not between the drain and the end of a reset (R429). -/
def State.agentUp (s : State) (a : Nat) : Bool :=
  s.agentDom a && !(decide (a < 32) && s.resets.any fun r =>
    decide (r.scope = 1 ∧ r.die = agentDie a ∧ r.cluster = a % 8) && !r.draining)
def isHost (a : Nat) : Bool := decide (a = 32 ∨ a = 33)
/-- Whether a home's die treats an agent as down (R306). -/
def State.isDown (s : State) (p a : Nat) : Bool :=
  if isCxlP p then nbit s.cxlDown a else (s.reg (.cd (pchDie p)) .memDirAgentDown 0).getLsbD a
/-- A directory counter of a home's die; the hub's CXL homes have none. -/
def State.dirCount (s : State) (p : Nat) (n : RegName) : State := if isCxlP p then s else s.count (homeDie p) n 0 1

/-- Set of a line in the cache of an agent (R288); host dies have none of their own here. -/
def cacheSet (a pa : Nat) : Nat :=
  if a < 32 then (pa % 4096) ^^^ (pa / 4096 % 4096)
  else if isHost a then pa
  else (pa % 2048) ^^^ (pa / 2048 % 2048)

def State.line (s : State) (a pa : Nat) : Option CLine := aFind s.cl (a, pa)
def State.setLine (s : State) (a pa : Nat) (l : CLine) : State := { s with cl := aSet s.cl (a, pa) l }
def State.dropLine (s : State) (a pa : Nat) : State := { s with cl := aErase s.cl (a, pa) }

/-- The die of an agent or of a non-caching requester. -/
def State.whoDie (s : State) (who : Nat) : Die := if who < 64 then agentDie who else ridDie (who - 64) s.nTiles

/-- A message without data. -/
def Msg.plain (k : MsgKind) (who pa : Nat) : Msg := ⟨k, who, pa, who, 0, .hub, .hub, 0, 0, .ok, false, false, false, [], 0, false⟩
/-- A message put on its way between two dies over a route; one that a lost link would carry is lost (R431). -/
def State.send (s : State) (src dst : Die) (route : Option (List Nat)) (m : Msg) : State :=
  match route with
  | some r =>
    if r.all s.linkUp then
      { s with net := s.net ++ [{ m with src := src, dst := dst, route := r, stamp := s.sentNo }], sentNo := s.sentNo + 1 }
    else s
  | none => s
/-- A message sent over the route of its line from its sender's die to its receiver's (R297). -/
def State.carry (s : State) (src dst : Die) (m : Msg) : State := s.send src dst (s.routeOf src dst (128 * m.pa)) m
/-- A response: the route of what it answers, reversed (R28). -/
def State.respond (s : State) (src dst : Die) (route : List Nat) (m : Msg) : State :=
  s.send src dst (some (if src = dst then [] else route.reverse)) m

/-- The location that a message's line resolves to, and the die of its home; for a line of a region being copied, the place that it
is copied from (R281). -/
def State.msgLoc (s : State) (pa : Nat) : Nat :=
  if s.region (128 * pa) = .cxl then (cxlLoc (128 * pa)).line
  else match s.locOf (128 * pa) with | some l => l.line | none => (s.pkLoc (128 * pa)).line
def State.lineHome (s : State) (pa : Nat) : Die := homeDie (s.msgLoc pa / 2 ^ 23)
/-- A message from an agent to the home of its line. -/
def State.toHome (s : State) (m : Msg) : State := s.carry (s.whoDie m.who) (s.lineHome m.pa) m

/-- Lines of an agent in the set of a line. -/
def State.setLines (s : State) (a pa : Nat) : List ((Nat × Nat) × CLine) :=
  s.cl.filter fun e => decide (e.1.1 = a) && decide (cacheSet a e.1.2 = cacheSet a pa)

/-- A dirty line sent home. -/
def State.sendWb (s : State) (a pa : Nat) (d : Line) (pois : Nat) : State :=
  s.toHome { Msg.plain .wb a pa with data := d, pois := pois, dirty := true }
/-- A line put into the writeback buffer of its agent and sent home (R292). -/
def State.writeBack (s : State) (a pa : Nat) (d : Line) (pois : Nat) : State :=
  { s with wbuf := aSet s.wbuf (a, pa) (d, pois) }.sendWb a pa d pois
def State.wbufRoom (s : State) (a : Nat) : Bool := decide ((s.wbuf.filter (fun e => e.1.1 = a)).length < 16)

/-- Lines that a host die holds: 96 MiB of L3 and 96 MiB of core L2s (R294). -/
def hostLines : Nat := 1572864

/-- A victim leaves its agent (R288): one in M through the writeback buffer, none where that is full (R292), another silently. -/
def State.evict (s : State) (a pa : Nat) (l : CLine) : Option State :=
  if l.st = 3 then (if s.wbufRoom a then some ((s.dropLine a pa).writeBack a pa l.data l.pois) else none)
  else some (s.dropLine a pa)

/-- The way that a new line takes (R288): room in the set, or a victim made; none where a dirty victim finds the
writeback buffer full (R292). A full host die gives up a line that the spec does not name: a free one (R283, log 93). -/
def State.makeWay (s : State) (a pa : Nat) : Option (Nat × State) :=
  if isHost a then
    let ls := s.cl.filter fun e => decide (e.1.1 = a)
    if ls.length < hostLines then some (0, s)
    else
      let f := s.takeFree
      match ls[f.1.toNat % ls.length]? with
      | some v => (f.2.evict a v.1.2 v.2).map fun t => (0, t)
      | none => some (0, s)
  else
    let ls := s.setLines a pa
    match (List.range 16).find? (fun w => ls.all (fun e => e.2.way ≠ w)) with
    | some w => some (w, s)
    | none =>
      let top := ls.foldl (fun m e => max m e.2.age) 0
      let aged := ls.map fun e => (e.1, { e.2 with age := e.2.age + (3 - top) })
      let s1 := aged.foldl (fun t e => t.setLine a e.1.2 e.2) s
      match (List.range 16).findSome? (fun w => aged.find? (fun e => decide (e.2.way = w) && decide (e.2.age = 3))) with
      | none => some (0, s1)
      | some v => (s1.evict a v.1.2 v.2).map fun t => (v.2.way, t)

/-- A line installed, or its state and contents replaced where the agent holds it. -/
def State.install (s : State) (a pa st : Nat) (d : Line) (pois : Nat) (strm : Bool) : Option State :=
  match s.line a pa with
  | some l => some (s.setLine a pa { l with st := st, data := d, pois := pois, age := if strm then l.age else 0 })
  | none =>
    match s.makeWay a pa with
    | some (w, t) => some (t.setLine a pa ⟨st, if strm then 3 else 0, w, d, pois⟩)
    | none => none

/-- A hit sets the age to 0, unless it is a streaming hit (R288). -/
def State.touchLine (s : State) (a pa : Nat) (strm : Bool) : State :=
  match s.line a pa with
  | some l => if strm then s else s.setLine a pa { l with age := 0 }
  | none => s

/-! ### Directories -/

def locP (loc : Nat) : Nat := loc / 2 ^ 23
def State.ent (s : State) (loc : Nat) : Option DirEnt := aFind s.dir loc
def State.setEnt (s : State) (loc : Nat) (e : DirEnt) : State := { s with dir := aSet s.dir loc e }
def State.freeEnt (s : State) (loc : Nat) : State := { s with dir := aErase s.dir loc }

/-- Agents of a SHARERS field. -/
def sharerList (m : Nat) : List Nat := (List.range 35).filter (nbit m)
def sharersDrop (m a : Nat) : Nat := if nbit m a then m - 2 ^ a else m
def sharersAdd (m a : Nat) : Nat := if nbit m a then m else m + 2 ^ a

/-- Holders that an entry names. -/
def DirEnt.holders (e : DirEnt) : List Nat := if e.st = 2 then [e.owner] else sharerList e.sharers

/-- An entry settled where it names down agents (R306). -/
def State.settle (s : State) (loc : Nat) : State :=
  match s.ent loc with
  | none => s
  | some e =>
    if e.st = 2 then
      if s.isDown (locP loc) e.owner then (s.poisonLine (locOfLine loc)).freeEnt loc else s
    else
      let m := (sharerList e.sharers).foldl (fun m a => if s.isDown (locP loc) a then sharersDrop m a else m) e.sharers
      if m = 0 then s.freeEnt loc else s.setEnt loc { e with sharers := m }

/-- Whether a line is busy: its transaction runs, or it is under recall (R296, Table 10-6). -/
def State.busyLine (s : State) (loc : Nat) : Bool :=
  s.txns.any fun t => decide (t.loc = loc) || (decide (t.phase = .recall) && decide (t.vict = loc))

/-- Sets of a home's directory: 1,024 for a pseudo-channel (R294), 4,096 for a CXL port's 65,536 entries (R365). -/
def dirSets (p : Nat) : Nat := if isCxlP p then 4096 else 1024
/-- Lines of one directory: a pseudo-channel's, or a CXL port's. -/
def dirOf (loc : Nat) : Nat := if isCxlP (locP loc) then 2 ^ 18 + loc / 2 ^ 40 else locP loc
/-- Entries of the set of a line (R294). -/
def State.dirSet (s : State) (loc : Nat) : List (Nat × DirEnt) :=
  s.dir.filter fun e => decide (dirOf e.1 = dirOf loc) && decide (e.1 % dirSets (locP loc) = loc % dirSets (locP loc))

/-! ### Transactions -/

def State.putTxn (s : State) (t : Txn) : State :=
  if s.txns.any (fun x => x.loc = t.loc) then { s with txns := lUpd (fun x => decide (x.loc = t.loc)) (fun _ => t) s.txns }
  else { s with txns := s.txns ++ [t] }
def State.dropTxn (s : State) (loc : Nat) : State := { s with txns := s.txns.filter (fun x => x.loc ≠ loc) }

/-- Messages that answer a request. -/
def MsgKind.answers : MsgKind → Bool
  | .dataS | .dataE | .dataX | .gntX | .dataNc | .done | .nack => true
  | _ => false
/-- A message of a transaction from its home, with the requester and the CTXID of the request (R297). -/
def State.tell (s : State) (t : Txn) (m : Msg) : State :=
  let y : Msg := { m with dest := t.req.who, ctx := t.req.ctx }
  if m.kind.answers then s.respond (homeDie (locP t.loc)) (s.whoDie m.who) t.req.route y
  else s.carry (homeDie (locP t.loc)) (s.whoDie m.who) y

/-- Sends of one snoop to several agents. -/
def State.snoops (s : State) (t : Txn) (k : MsgKind) (pa : Nat) (l : List Nat) : State :=
  l.foldl (fun x a => x.tell t (Msg.plain k a pa)) s

/-- A grant of a line from memory, read through the decoder (R266). -/
def State.grantMem (s : State) (t : Txn) (k : MsgKind) : State :=
  let x := s.homeLine (locOfLine t.loc)
  x.2.2.tell t { Msg.plain k t.req.who t.req.pa with
    data := x.1, pois := x.2.1, st := if t.pois || x.2.1 ≠ 0 then .pois else .ok }

/-- The entry of a line, its way kept. -/
def State.setHolders (s : State) (t : Txn) (st owner sharers : Nat) : State :=
  match s.ent t.loc with
  | some e => s.setEnt t.loc { e with st := st, owner := owner, sharers := sharers, age := 0 }
  | none => s.setEnt t.loc ⟨t.way, 0, st, owner, sharers, t.req.pa⟩

/-- Ownership granted with a message from the home; after a home timeout the poisoned line goes instead (R305). -/
def State.grantOwner (s : State) (t : Txn) (k : MsgKind) : State :=
  let u := s.setHolders t 2 t.req.who 0
  if k = .gntX ∧ t.pois = false then u.tell t (Msg.plain .gntX t.req.who t.req.pa)
  else u.grantMem t (if k = .gntX then .dataX else k)

/-- Bytes of a line replaced at an offset. -/
def linePut (l : Line) (off n v : Nat) : Line :=
  lineMerge l ((BitVec.ofNat 1024 (v % 2 ^ (8 * n))) <<< (8 * off)) (spanMask off n) 128
def lineNat (l : Line) (off n : Nat) : Nat := leNat (lineBytes l off n)
/-- Whether `n` bytes from `off` touch a poisoned half. -/
def touchesPois (pois off n : Nat) : Bool :=
  (nbit pois 0 && decide (off < 64)) || (nbit pois 1 && decide (64 < off + n))

/-- Successive turns at one location (R107): the values that the turns receive, and the value left. -/
def atTurns : List AtOp → Nat → List Nat × Nat
  | [], m => ([], m)
  | a :: r, m => let x := atTurns r (atOpStep a m); (m :: x.1, x.2)

/-- A write or an atomic performed at its home on memory (R300, R107, R108): status and old value. An atomic writes the whole block
that it has read through the decoder (R268). -/
def State.performNc (s : State) (loc : Loc) (r : Req) : State × Status × Nat :=
  match r.kind with
  | .atNc =>
    match r.atom with
    | some a =>
      let n := atOpBytes a
      let off := r.off % 128 / n * n
      let x := s.homeLine loc
      if touchesPois x.2.1 off n then (x.2.2, .pois, 0)
      else
        let old := lineNat x.1 off n
        ((x.2.2.writeLine loc (spanMask (off / 64 * 64) 64) (linePut x.1 off n (atTurns (a :: r.more) old).2)).1, .ok, old)
    | none => (s, .ok, 0)
  | _ =>
    let w := s.writeLine loc r.mask r.data
    (w.1, if w.2 then .pois else .ok, 0)

/-- Whether a transaction needs a directory entry. -/
def Txn.needs (t : Txn) : Bool :=
  match t.req.kind with
  | .rdNc | .recall => false
  | .wrNc | .atNc => t.pushing
  | _ => true

/-- What a transaction leaves whose grant goes to an agent marked down (R306): an entry that the grant left in X is poisoned and
freed, a sharer's bit cleared, and the request is over. -/
def State.settleDown (s : State) (t : Txn) : State :=
  let u := match s.ent t.loc with
    | some e =>
      if e.st = 2 then (if e.owner = t.req.who then (s.poisonLine (locOfLine t.loc)).freeEnt t.loc else s)
      else
        let m := sharersDrop e.sharers t.req.who
        if m = 0 then s.freeEnt t.loc else s.setEnt t.loc { e with sharers := m }
    | none => s
  { u with reqs := lDrop (fun r => decide (r.who = t.req.who) && decide (r.pa = t.req.pa)) u.reqs }

mutual
/-- The end of a transaction; the first request that waits for a way of the same set goes on (R295, R296). -/
def State.endTxn (fuel : Nat) (s : State) (loc : Nat) : State :=
  match fuel with
  | 0 => s.dropTxn loc
  | n + 1 =>
    let u := s.dropTxn loc
    match u.txns.find? (fun t => decide (t.phase = .way) && decide (dirOf t.loc = dirOf loc) &&
        decide (t.loc % dirSets (locP loc) = loc % dirSets (locP loc))) with
    | some t => State.goTxn n u t
    | none => u

/-- A transaction after its last snoop answer or grant: over, unless the requester's COMP is due; one whose requester is marked
down ends as if it had come (R306). -/
def State.finishTxn (fuel : Nat) (s : State) (t : Txn) : State :=
  match fuel with
  | 0 => s
  | n + 1 =>
    if !t.compDue then State.endTxn n s t.loc
    else if s.isDown (locP t.loc) t.req.who then State.endTxn n (s.settleDown t) t.loc
    else s.putTxn { t with phase := .comp, left := [] }

/-- A stash after its write is performed and its line has a way (R300): PUSH_S to the target, which becomes a sharer. -/
def State.stashTxn (fuel : Nat) (s : State) (t : Txn) (a : Nat) : State :=
  match fuel with
  | 0 => s
  | n + 1 =>
    if s.isDown (locP t.loc) a then State.finishTxn n s t
    else
      let x := s.homeLine (locOfLine t.loc)
      let sh := match s.ent t.loc with | some e => if e.st = 1 then e.sharers else 0 | none => 0
      ((x.2.2.setHolders t 1 0 (sharersAdd sh a)).tell t { Msg.plain .pushS a t.req.pa with data := x.1, pois := x.2.1 }).putTxn
        { t with phase := .stash, left := [a] }

/-- What follows when every answer of a snoop round has come (Table 10-5). -/
def State.answered (fuel : Nat) (s : State) (t : Txn) : State :=
  match fuel with
  | 0 => s
  | n + 1 =>
    let l := locOfLine t.loc
    let r := t.req.who
    match t.phase with
    | .recall =>
      let v := locOfLine t.vict
      let u := match t.got with | some (d, p) => s.storeLine v d p | none => s
      State.goTxn n (u.freeEnt t.vict) { t with phase := .way, left := [], got := none, heldFlag := false }
    | .stash => State.finishTxn n s t
    | _ =>
      match t.req.kind with
      | .rdS =>
        match t.got with
        | some (d, p) =>
          let u := s.storeLine l d p
          let o := match s.ent t.loc with | some e => e.owner | none => r
          State.finishTxn n
            (u.setHolders t 1 0 (if t.heldFlag then sharersAdd (sharersAdd 0 o) r else sharersAdd 0 r)) t
        | none =>
          if t.heldFlag then
            let o := match s.ent t.loc with | some e => e.owner | none => r
            State.finishTxn n (s.setHolders t 1 0 (sharersAdd (sharersAdd 0 o) r)) t
          else State.finishTxn n (s.grantOwner t .dataE) t
      | .rdX | .upg =>
        if t.heldFlag || t.got.isSome then State.finishTxn n (s.setHolders t 2 r 0) t
        else
          match s.ent t.loc with
          | some e =>
            let k := if e.st = 1 ∧ t.req.kind = .upg ∧ nbit e.sharers r then MsgKind.gntX else .dataX
            State.finishTxn n (s.grantOwner t k) t
          | none => State.finishTxn n (s.grantOwner t .dataX) t
      | .itom => State.finishTxn n (s.grantOwner t .gntX) t
      | .rdNc =>
        if t.heldFlag then State.finishTxn n s t
        else
          match t.got with
          | some (d, p) => State.finishTxn n ((s.storeLine l d p).freeEnt t.loc) t
          | none => State.finishTxn n ((s.grantMem t .dataNc).freeEnt t.loc) t
      | .recall =>
        let u := match t.got with | some (d, p) => s.storeLine l d p | none => s
        State.finishTxn n (u.freeEnt t.loc) t
      | _ =>
        let u := match t.got with | some (d, p) => s.storeLine l d p | none => s
        let w := (u.freeEnt t.loc).performNc l t.req
        let v := w.1.tell t { Msg.plain .done r t.req.pa with st := w.2.1, data := BitVec.ofNat 1024 w.2.2 }
        match t.req.stash with
        | some _ => State.goTxn n v { t with phase := .way, left := [], got := none, heldFlag := false, pushing := true }
        | none => State.finishTxn n v t

/-- A transaction that needs an entry looks for a way (R295), and then acts (Table 10-5). -/
def State.goTxn (fuel : Nat) (s : State) (t : Txn) : State :=
  match fuel with
  | 0 => s.putTxn t
  | n + 1 =>
    if t.needs && (s.ent t.loc).isNone then
      let es := s.dirSet t.loc
      let used := es.map (fun e => e.2.way) ++
        (s.txns.filter (fun x => decide (x.loc ≠ t.loc) && decide (dirOf x.loc = dirOf t.loc) &&
          decide (x.loc % dirSets (locP t.loc) = t.loc % dirSets (locP t.loc)) && (s.ent x.loc).isNone && x.needs &&
          decide (x.phase ≠ .way) && decide (x.phase ≠ .recall))).map (fun x => x.way)
      match (List.range 16).find? (fun w => !used.contains w) with
      | some w => State.actTxn n s { t with way := w }
      | none =>
        let free := es.filter fun e => !s.busyLine e.1
        let top := free.foldl (fun m e => max m e.2.age) 0
        let aged := free.map fun e => (e.1, { e.2 with age := e.2.age + (3 - top) })
        match (List.range 16).findSome? (fun w => aged.find? (fun e => decide (e.2.way = w) && decide (e.2.age = 3))) with
        | none => s.putTxn { t with phase := .way }
        | some v =>
          let u := aged.foldl (fun x e => x.setEnt e.1 e.2) s
          let hs := v.2.holders.filter fun a => !s.isDown (locP t.loc) a
          let u := u.dirCount (locP t.loc) .memDirRecallCnt
          let t' := { t with phase := .recall, left := hs, vict := v.1, vpa := v.2.pa, got := none, heldFlag := false }
          if hs.isEmpty then State.answered n ((u.settle v.1).freeEnt v.1) t'
          else (u.snoops t .recall v.2.pa hs).putTxn t'
    else State.actTxn n s t

/-- The home's action on a request whose line has an entry or needs none (Table 10-5). -/
def State.actTxn (fuel : Nat) (s : State) (t : Txn) : State :=
  match fuel with
  | 0 => s
  | n + 1 =>
    let r := t.req.who
    let pa := t.req.pa
    if t.pushing then
      match t.req.stash with
      | some a => State.stashTxn n s t a
      | none => State.finishTxn n s t
    else
      let t := match s.ent t.loc with | some e => { t with way := e.way } | none => t
      let round (k : MsgKind) (l : List Nat) : State :=
        let t' := { t with phase := .snoop, left := l, got := none, heldFlag := false }
        if l.isEmpty then State.answered n s t' else (s.snoops t k pa l).putTxn t'
      match s.ent t.loc with
      | none =>
        match t.req.kind with
        | .rdS =>
          if s.isBurr (128 * pa) then State.finishTxn n ((s.setHolders t 1 0 (sharersAdd 0 r)).grantMem t .dataS) t
          else State.finishTxn n (s.grantOwner t .dataE) t
        | .rdX | .upg => State.finishTxn n (s.grantOwner t .dataX) t
        | .itom => State.finishTxn n (s.grantOwner t .gntX) t
        | .rdNc => State.finishTxn n (s.grantMem t .dataNc) t
        | _ => State.answered n s { t with phase := .snoop, left := [], got := none, heldFlag := false }
      | some e =>
        if e.st = 2 then
          let mine := decide (e.owner = r)
          match t.req.kind with
          | .rdS => if mine then State.finishTxn n (s.grantOwner t .dataE) t else round .fwdS [e.owner]
          | .rdX | .upg => if mine then State.finishTxn n (s.grantOwner t .dataX) t else round .fwdX [e.owner]
          | .itom => if mine then State.finishTxn n (s.grantOwner t .gntX) t else round .inv [e.owner]
          | .rdNc => round .fwdNc [e.owner]
          | _ => round .recall [e.owner]
        else
          match t.req.kind with
          | .rdS => State.finishTxn n ((s.setHolders t 1 0 (sharersAdd e.sharers r)).grantMem t .dataS) t
          | .rdNc => State.finishTxn n (s.grantMem t .dataNc) t
          | .recall => round .recall (sharerList e.sharers)
          | .wrNc | .atNc => round .inv (sharerList e.sharers)
          | _ => round .inv (sharerList (sharersDrop e.sharers r))
end

/-- Nested actions of one message: a finite bound that no action reaches. -/
def homeFuel : Nat := 600

/-! ### Requests at their home -/

def State.setReq (s : State) (r : Req) : State :=
  { s with reqs := lUpd (fun x => decide (x.who = r.who) && decide (x.pa = r.pa)) (fun _ => r) s.reqs }
def State.findReq (s : State) (who pa : Nat) : Option Req :=
  s.reqs.find? fun r => decide (r.who = who) && decide (r.pa = pa)
def State.dropReq (s : State) (who pa : Nat) : State :=
  { s with reqs := lDrop (fun r => decide (r.who = who) && decide (r.pa = pa)) s.reqs }

/-- Access type of a request of a kind (Table 11-16). -/
def ReqKind.typ : ReqKind → Nat
  | .rdS => 0 | .rdNc => 0 | .atNc => 2 | _ => 1
def ReqKind.caching : ReqKind → Bool
  | .rdNc => false | .wrNc => false | .atNc => false | .recall => false | _ => true
/-- The message that answers a request. -/
def ReqKind.reply : ReqKind → MsgKind
  | .rdS => .dataS | .rdX => .dataX | .upg => .gntX | .itom => .gntX | .rdNc => .dataNc | _ => .done

/-- An answer without a transaction, from a die. -/
def State.replyFrom (s : State) (d : Die) (r : Req) (st : Status) : State :=
  (s.setReq { r with phase := .home }).respond d (s.whoDie r.who) r.route
    { Msg.plain r.kind.reply r.who r.pa with st := st, ctx := r.ctx }
/-- An answer that the requester's own die gives. -/
def State.replyErr (s : State) (r : Req) (st : Status) : State := s.replyFrom (s.whoDie r.who) r st

/-- A refusal (R303), with a token where one is due and free (R304). -/
def State.nackReq (s : State) (r : Req) (loc : Nat) : State :=
  let u := s.dirCount (locP loc) .memDirNackCnt
  let has := u.tokens.any fun k => decide (k.loc = loc) && decide (k.who = r.who)
  let tok := decide (32 ≤ r.nacks + 1) && !has &&
    decide ((u.tokens.filter (fun k => k.p = dirOf loc)).length < 8)
  let u := if tok then
      ({ u with tokens := u.tokens ++ [⟨dirOf loc, loc, r.who⟩] } : State).dirCount (locP loc) .memDirTokenCnt
    else u
  (u.setReq { r with phase := .nacked }).respond (homeDie (locP loc)) (s.whoDie r.who) r.route
    { Msg.plain .nack r.who r.pa with token := tok, st := .busy, ctx := r.ctx }

/-- Whether another request holds a line back: its transaction, an older token holder, or a full table (R303, R304). -/
def State.heldBack (s : State) (who loc : Nat) : Bool :=
  let barred := match s.tokens.filter (fun k => k.loc = loc) with | k :: _ => decide (k.who ≠ who) | [] => false
  s.busyLine loc || barred || decide (64 ≤ (s.txns.filter (fun t => dirOf t.loc = dirOf loc)).length)

/-- The check of a home on a request (R297, R311, R314), of traffic from root-port devices by its own rule: the record of a violation
where it fails. The hub's check of a Sluice access to CXL memory is logged by its port alone (R368). -/
def State.homeCheck (s : State) (l : Loc) (rid ctx pl typ il pa off : Nat) : Option State :=
  let why := if rid / 4096 = 8 then s.rpReason (repIdx (homeDie l.p)) typ pa else s.homeReason l ctx pl typ il pa
  if why = 0 then none
  else some (if rid / 4096 = 7 ∧ isCxlP l.p = true then s else s.violate (homeDie l.p) (pa + off) pl typ why 1 rid ctx)
/-- The hub's record of a request that has no home (R311); a Sluice access is logged by its port alone (R368). -/
def State.noHome (s : State) (rid ctx pl typ pa why : Nat) : State :=
  if why = 0 ∨ rid / 4096 = 7 then s else s.violate .hub pa pl typ why 1 rid ctx

/-- Requester identifier (Table 11-10) of a request. -/
def Req.id (r : Req) : Nat := if 64 ≤ r.who then r.who - 64 else r.rid

/-- A request accepted by its home (R297, R299). One that fails the check changes no state but its record. -/
def State.acceptReq (s : State) (r : Req) (l : Loc) : State :=
  let loc := l.line
  let pa := 128 * r.pa
  match s.homeCheck l r.id r.ctx r.pl r.typ r.il pa r.off with
  | some t => t.replyFrom (homeDie l.p) r .perm
  | none =>
    if s.isBurr pa && r.kind.caching && decide (r.kind ≠ .rdS) then s.replyFrom (homeDie l.p) r .perm
    else
      let s := { s with tokens := s.tokens.filter (fun k => ¬ (k.loc = loc ∧ k.who = r.who)) }
      let s := (s.settle loc).setReq { r with phase := .home }
      let s := match s.ent loc with | some e => s.setEnt loc { e with age := 0 } | none => s
      let t : Txn := ⟨loc, { r with phase := .home }, .way, [], 0, 0, 0, none, false, r.kind.caching, false, false⟩
      State.goTxn homeFuel (s.putTxn t) t

/-- Whether traffic from a die to another that was sent before a place in the order of sending has not arrived: it arrives first in
ordered mode (R29). -/
def State.ahead (s : State) (src dst : Die) (n : Nat) : Bool :=
  s.ordered && decide (src ≠ dst) &&
    ((s.net.any fun m => decide (m.src = src ∧ m.dst = dst ∧ m.stamp < n) && !m.arrived) ||
      s.reqs.any fun r => decide (r.phase = .sent) && decide (r.stamp < n) && decide (s.whoDie r.who = src) && decide (s.lineHome r.pa = dst))
/-- Whether an access and its answer would pass older traffic between two dies in ordered mode. -/
def State.passes (s : State) (a b : Die) : Bool := s.ahead a b s.sentNo || s.ahead b a s.sentNo

/-- A request sent: over the route of its line (R28), or to its own die where it has no home. -/
def State.sendReq (s : State) (r : Req) : Req :=
  { r with route := (s.routeOf (s.whoDie r.who) (s.lineHome r.pa) (128 * r.pa)).getD [], stamp := s.sentNo }

/-- A request reaches its home (R297, R299, R303, R304, R306, R311), in ordered mode after what was sent before it (R29); it waits
there for a re-read of its line (R269). -/
def State.homeRequest (s : State) (r : Req) : State :=
  let pa := 128 * r.pa
  let src := s.whoDie r.who
  match s.homeAt pa with
  | .fail st why => (s.noHome r.id r.ctx r.pl r.typ (pa + r.off) why).replyErr r st
  | .moving loc => if r.phase = .sent ∧ s.ahead src (homeDie (locP loc)) r.stamp = true then s else s.nackReq r loc
  | .at l =>
    if s.reach src (homeDie l.p) = false ∨ (r.who < 64 ∧ s.isDown l.p r.who = true) then s.replyErr r .unav
    else if r.phase = .sent ∧ s.ahead src (homeDie l.p) r.stamp = true then s
    else if s.rereading l then s.setReq { r with phase := .arrived }
    else if s.heldBack r.who l.line then s.nackReq r l.line
    else s.acceptReq r l

/-- A request made now, or one that was resent, reaches its home. -/
def State.request (s : State) (r : Req) (allowed : Bool) : State :=
  match s.findReq r.who r.pa with
  | some x => if (x.phase = .sent ∨ x.phase = .arrived) ∧ x.kind = r.kind then s.homeRequest x else s
  | none =>
    if allowed then
      let x := s.sendReq r
      { s with reqs := s.reqs ++ [x], sentNo := s.sentNo + 1 }.homeRequest x
    else s

/-! ### The commands of agents and non-caching requesters -/

/-- Whether the tiles of a cluster L2 have already issued an access to a line that it has to serve: a buffered store, a miss, or an
atomic. -/
def State.tilesWant (s : State) (a pa : Nat) : Bool :=
  s.tiles.any fun e => decide (8 * e.1.die.val + e.1.tile / 16 = a) &&
    (e.2.wb.any (fun w => decide (w.line = pa)) || e.2.fills.any (fun f => decide (f.line = pa)) ||
      e.2.ops.any fun o => isAtomic o.op && o.lanes.any fun l => decide (l.st = .wait) && decide (l.pa / 128 = pa))
/-- Whether a request of an agent passes its Weir (R428): once that is closed, only what the drain still has to serve does. -/
def State.weirPasses (s : State) (a pa : Nat) : Bool :=
  match agentDie a with
  | .cd n =>
    if a < 32 then !s.unlocked.contains (.cd n) && (!(s.closed (.cd n) true || s.clusterShut n (a % 8)) || s.tilesWant a pa)
    else false
  | d => !s.closed d false && !s.unlocked.contains d
/-- Whether an agent may make a new request for a line: its WB or CLEAN_EVICT for it acknowledged (R299), at most 64 misses
(R290), its domain running. -/
def State.mayAsk (s : State) (a pa : Nat) : Bool :=
  s.agentUp a && s.weirPasses a pa && decide (a < 35) && (aFind s.wbuf (a, pa)).isNone &&
    !(s.net.any fun m => decide (m.who = a) && decide (m.pa = pa) && (decide (m.kind = .cleanEvict) || decide (m.kind = .wbAck))) &&
    decide ((s.reqs.filter (fun r => r.who = a)).length < 64)

/-- Access types that a request of a kind serves (R290, R301, R315): a read or a fetch for RD_S, a write or an atomic for RD_X and UPG. -/
def ReqKind.serves (k : ReqKind) (typ : Nat) : Nat :=
  match k with
  | .rdS => if typ = 3 then 3 else 0
  | .rdX | .upg => if typ = 2 then 2 else 1
  | k => k.typ
def agentReq (a : AgentReq) (k : ReqKind) (mask : Nat) (d : Line) : Req :=
  ⟨a.agent, a.req, k, k.serves a.typ, a.pa / 128, a.pa % 128, a.ctx, a.pl, a.il, a.strm, mask, d, none, none, [], 0, .sent, false, [], 0⟩
/-- The type of the access for which an agent asks (R315): a cluster L2's are the misses, the sent buffer entries and the waiting
atomics of its tiles where there are any, and what the request says otherwise. -/
def State.askTyp (s : State) (a : AgentReq) (k : ReqKind) : Nat :=
  let pa := a.pa / 128
  let mine := (s.tiles.filter fun e => decide (8 * e.1.die.val + e.1.tile / 16 = a.agent)).map fun e => e.2
  let reads := mine.any fun x => x.fills.any fun f => decide (f.line = pa)
  let writes := mine.any fun x => x.wb.any fun w => w.sent && decide (w.line = pa)
  let atomics := mine.any fun x => x.ops.any fun o => isAtomic o.op && o.lanes.any fun l => decide (l.st = .wait) && decide (l.pa / 128 = pa)
  if a.agent < 32 then
    match k with
    | .rdS => if reads then 0 else k.serves a.typ
    | _ => if atomics then k.serves 2 else if writes then 1 else k.serves a.typ
  else k.serves a.typ
/-- The streaming hint of the accesses for which an agent asks (R132, R288): a cluster L2's are the misses and the sent buffer entries
of its tiles, and the hint is theirs where all carry it. -/
def State.askStrm (s : State) (a : AgentReq) : Bool :=
  let pa := a.pa / 128
  let hints := (s.tiles.filter fun e => decide (8 * e.1.die.val + e.1.tile / 16 = a.agent)).flatMap fun e =>
    ((e.2.fills.filter fun f => decide (f.line = pa)).map fun f => f.strm) ++
      ((e.2.wb.filter fun w => w.sent && decide (w.line = pa)).map fun w => w.strm)
  if a.agent < 32 then !hints.isEmpty && hints.all id else a.strm
/-- A request of an agent with its accesses' hint. -/
def State.askReq (s : State) (a : AgentReq) (k : ReqKind) (mask : Nat) (d : Line) : Req :=
  { agentReq a k mask d with strm := s.askStrm a, typ := s.askTyp a k }
def ncReq (a : NcReq) (k : ReqKind) (mask : Nat) (d : Line) (stash : Option Nat) (atom : Option AtOp) : Req :=
  ⟨64 + a.req, a.req, k, k.typ, a.pa / 128, a.pa % 128, a.ctx, a.pl, a.il, false, mask, d, stash, atom, [], 0, .sent, false, [], 0⟩
/-- State of a line in its agent: 0 I, 1 S, 2 E, 3 M. -/
def State.lineSt (s : State) (a pa : Nat) : Nat := match s.line a pa with | some l => l.st | none => 0

/-- A host die asks again for a line that it held clean only after the copy has left silently (R301). -/
def State.hostLeft (s : State) (a pa : Nat) : State :=
  if isHost a && decide (s.lineSt a pa ≤ 2) then s.dropLine a pa else s
/-- A read request of an agent for a line that it does not hold. -/
def State.readRequest (s : State) (a : AgentReq) (k : ReqKind) : State :=
  let t := if (s.findReq a.agent (a.pa / 128)).isNone then s.hostLeft a.agent (a.pa / 128) else s
  t.request (t.askReq a k 0 0) (t.mayAsk a.agent (a.pa / 128) && decide (t.lineSt a.agent (a.pa / 128) = 0))

/-- RD_S (R299). -/
def execRdS (a : AgentReq) (s : State) : Host.Outcome State Fault Refusal := done s (s.readRequest a .rdS)

/-- RD_X (R299). -/
def execRdX (a : AgentReq) (s : State) : Host.Outcome State Fault Refusal := done s (s.readRequest a .rdX)

/-- UPG (R299). -/
def execUpg (a : AgentReq) (s : State) : Host.Outcome State Fault Refusal :=
  done s (s.request (s.askReq a .upg 0 0) (s.mayAsk a.agent (a.pa / 128) && decide (s.lineSt a.agent (a.pa / 128) = 1)))

/-- The full line that a tile of a cluster has sent to be written, for its ITOM (R290). -/
def State.fullEntry (s : State) (a pa : Nat) : Option Line :=
  s.tiles.findSome? fun e =>
    if decide (8 * e.1.die.val + e.1.tile / 16 = a) then
      (e.2.wb.find? (fun w => w.sent && decide (w.line = pa) && decide (w.mask = fullMask))).map (fun w => w.data)
    else none

/-- ITOM (R299): a cluster L2 asks for a full write-buffer entry; `d` is the line that another agent is about to write. -/
def execItom (a : AgentReq) (d : Line) (s : State) : Host.Outcome State Fault Refusal :=
  done s (
    let pa := a.pa / 128
    let src := if a.agent < 32 then s.fullEntry a.agent pa else some d
    match src with
    | some l =>
      let s := if (s.findReq a.agent pa).isNone && decide (s.lineSt a.agent pa = 2) then s.hostLeft a.agent pa else s
      s.request (s.askReq a .itom fullMask l) (s.mayAsk a.agent pa && decide (s.lineSt a.agent pa ≤ 1))
    | none => s)

/-- RD_NC (R299). -/
def execRdNc (a : NcReq) (s : State) : Host.Outcome State Fault Refusal :=
  done s (s.request (ncReq a .rdNc 0 0 none none) true)

/-- WR_NC (R300): masked write with an optional stash target. -/
def execWrNc (a : NcReq) (mask : Nat) (d : Line) (stash : Option Nat) (s : State) : Host.Outcome State Fault Refusal :=
  done s (s.request (ncReq a .wrNc (mask % 2 ^ 128) d (stash.map (fun x => x % 35)) none) true)

/-- AT_NC (R300). -/
def execAtNc (a : NcReq) (op : AtOp) (s : State) : Host.Outcome State Fault Refusal :=
  done s (s.request (ncReq a .atNc 0 0 none (some op)) true)

/-! ### Messages delivered to agents -/

/-- The oldest message of a kind between a home and `who` for a line, once it has arrived (R29). -/
def State.findMsg (s : State) (k : MsgKind) (who pa : Nat) : Option Msg :=
  (s.net.find? fun m => decide (m.kind = k) && decide (m.who = who) && decide (m.pa = pa)).filter fun m =>
    !s.ahead m.src m.dst m.stamp
/-- A message that its receiver cannot take yet has arrived. -/
def State.msgWaits (s : State) (k : MsgKind) (who pa : Nat) : State :=
  { s with net := lUpd (fun m => decide (m.kind = k) && decide (m.who = who) && decide (m.pa = pa)) (fun m => { m with arrived := true }) s.net }
def State.takeMsg (s : State) (k : MsgKind) (who pa : Nat) : State :=
  { s with net := lDrop (fun m => decide (m.kind = k) && decide (m.who = who) && decide (m.pa = pa)) s.net }

/-- The poison bits that a line of a host die keeps when its data become `d`: a poisoned half changes only by a store that covers
it whole, which clears its bit (R291). -/
def hostPois (l : CLine) (d : Line) : Nat :=
  b2n (nbit l.pois 0 && decide (l.data.extractLsb' 0 512 = d.extractLsb' 0 512)) +
    2 * b2n (nbit l.pois 1 && decide (l.data.extractLsb' 512 512 = d.extractLsb' 512 512))
/-- The data of a line that its agent holds in E or M: for a host die, what its cores have written. -/
def heldLine (a : Nat) (l : CLine) (wrote : Bool) (d : Line) : CLine :=
  if isHost a && (wrote || decide (l.st = 3)) then { l with st := 3, data := d, pois := hostPois l d } else l

/-- The line that an agent still has when a forward comes: a host die's clean copy may have left silently, and whether it has
is free (R301, log 93). -/
def State.stillHeld (s : State) (a pa : Nat) (wrote : Bool) : Option CLine × State :=
  match s.line a pa with
  | some l =>
    if isHost a && !wrote && decide (l.st ≤ 2) then
      let u := { s with free := s.free + 1 }
      if Config.freeBool s.free then (none, u.dropLine a pa) else (some l, u)
    else (some l, s)
  | none => (none, s)

/-- A forward at its owner (R298): the line goes to the requester with `grant`, FWD_ACK to the home. `d` and `wrote` say
what the cores of a host die have made of the line. -/
def State.forwardAt (s : State) (k grant : MsgKind) (a pa : Nat) (wrote : Bool) (d : Line) : State :=
  match s.findMsg k a pa with
  | none => s
  | some m =>
    let u := s.takeMsg k a pa
    let ack (x : State) (y : Msg) : State := x.respond (agentDie a) m.src m.route { y with dest := m.dest, ctx := m.ctx }
    let give (x : State) (data : Line) (pois : Nat) : State :=
      x.carry (agentDie a) (s.whoDie m.dest)
        { Msg.plain grant m.dest pa with ctx := m.ctx, data := data, pois := pois, st := if pois = 0 then .ok else .pois }
    if !s.agentUp a then ack u (Msg.plain .fwdAck a pa)
    else
      let h := u.stillHeld a pa wrote
      let nothing := ack h.2 (Msg.plain .fwdAck a pa)
      match h.1 with
      | some l0 =>
        let l := heldLine a l0 wrote d
        if l.st ≤ 1 then nothing
        else
          let dirty := decide (l.st = 3) && decide (k = .fwdS)
          let u := ack (give h.2 l.data l.pois)
            { Msg.plain .fwdAck a pa with held := true, dirty := dirty, data := l.data, pois := l.pois }
          match k with
          | .fwdS => u.setLine a pa { l with st := 1 }
          | .fwdX => u.dropLine a pa
          | _ => u.setLine a pa l
      | none =>
        match aFind s.wbuf (a, pa) with
        | some (d, p) => ack (give h.2 d p) { Msg.plain .fwdAck a pa with dirty := true, data := d, pois := p }
        | none => nothing

/-- FWD_S (R298). -/
def execFwdS (agent pa : Nat) (wrote : Bool) (d : Line) (s : State) : Host.Outcome State Fault Refusal :=
  done s (s.forwardAt .fwdS .dataS agent pa wrote d)
/-- FWD_X (R298). -/
def execFwdX (agent pa : Nat) (wrote : Bool) (d : Line) (s : State) : Host.Outcome State Fault Refusal :=
  done s (s.forwardAt .fwdX .dataX agent pa wrote d)
/-- FWD_NC (R298). -/
def execFwdNc (agent pa : Nat) (wrote : Bool) (d : Line) (s : State) : Host.Outcome State Fault Refusal :=
  done s (s.forwardAt .fwdNc .dataNc agent pa wrote d)

/-- An agent's answer to a snoop, for the requester and the CTXID that the snoop carries. -/
def State.ackTo (s : State) (m y : Msg) : State := s.respond (s.whoDie y.who) m.src m.route { y with dest := m.dest, ctx := m.ctx }

/-- INV (R298): the sharer drops its copy and answers. -/
def execInv (agent pa : Nat) (s : State) : Host.Outcome State Fault Refusal :=
  done s (match s.findMsg .inv agent pa with
    | none => s
    | some m => ((s.takeMsg .inv agent pa).dropLine agent pa).ackTo m (Msg.plain .ack agent pa))

/-- RECALL (R298): a dirty line goes back with the answer, and the line is dropped. -/
def execRecall (agent pa : Nat) (wrote : Bool) (d : Line) (s : State) : Host.Outcome State Fault Refusal :=
  done s (match s.findMsg .recall agent pa with
    | none => s
    | some m =>
      let u := (s.takeMsg .recall agent pa).dropLine agent pa
      if !s.agentUp agent then u.ackTo m (Msg.plain .ack agent pa)
      else
        match s.line agent pa, aFind s.wbuf (agent, pa) with
        | some l0, _ =>
          let l := if 2 ≤ l0.st then heldLine agent l0 wrote d else l0
          if l.st = 3 then u.ackTo m { Msg.plain .ack agent pa with dirty := true, data := l.data, pois := l.pois }
          else u.ackTo m (Msg.plain .ack agent pa)
        | none, some (d, p) => u.ackTo m { Msg.plain .ack agent pa with dirty := true, data := d, pois := p }
        | none, none => u.ackTo m (Msg.plain .ack agent pa))

/-- PUSH_S (R300): a stash installs a clean copy; it waits where its victim finds no writeback room (R292). -/
def execPushS (agent pa : Nat) (s : State) : Host.Outcome State Fault Refusal :=
  done s (match s.findMsg .pushS agent pa with
    | none => s
    | some m =>
      let u := s.takeMsg .pushS agent pa
      if !s.agentUp agent then u.ackTo m (Msg.plain .ack agent pa)
      else
        match u.install agent pa 1 m.data m.pois false with
        | some v => v.ackTo m (Msg.plain .ack agent pa)
        | none => s.msgWaits .pushS agent pa)

/-- COMP for a grant. -/
def State.compFor (s : State) (m : Msg) : State := s.toHome { Msg.plain .comp m.who m.pa with ctx := m.ctx }

/-- A grant that reaches a requester that has given up, or a Weir (R302, R429): nothing is installed, a copy is given up with it,
and the granted line goes home. A requester with a full writeback buffer takes the grant later (R292). -/
def State.refuseGrant (s : State) (k : MsgKind) (m : Msg) : Option State :=
  let t := (s.dropLine m.who m.pa).compFor m
  if k = .dataX then
    if !s.agentUp m.who then some (t.sendWb m.who m.pa m.data m.pois)
    else if s.wbufRoom m.who then some (t.writeBack m.who m.pa m.data m.pois)
    else none
  else some (t.toHome (Msg.plain .cleanEvict m.who m.pa))

/-- A response kept for an engine that waits for it. -/
def State.bufResp (s : State) (r : Req) (st : Status) (d : Line) (pois : Nat) : State :=
  if r.eng then { s with ncBuf := s.ncBuf ++ [(r, ⟨r.who, r.pa, st, d, pois⟩)] } else s

/-- A grant at its requester (R301). One that finds only a newer request, not yet accepted, answers one given up (R302). GNT_X to
an agent whose S copy has left meanwhile brings no data: the spec states none, and the line is free (log 94). -/
def State.grantAt (s : State) (k : MsgKind) (st a pa : Nat) : State :=
  match s.findMsg k a pa with
  | none => s
  | some m =>
    let u := s.takeMsg k a pa
    let isOver := decide (m.st = .perm) || decide (m.st = .unav)
    match s.findReq a pa with
    | none => if isOver then u else (u.refuseGrant k m).getD (s.msgWaits k a pa)
    | some r =>
      if r.phase ≠ .home then (if isOver then u else (u.refuseGrant k m).getD (s.msgWaits k a pa))
      else if isOver then (u.dropReq a pa).bufResp r m.st 0 0
      else if !s.agentUp a then ((u.dropReq a pa).refuseGrant k m).getD (s.msgWaits k a pa)
      else
        let src : (Line × Nat) × State := match k, s.line a pa with
          | .gntX, some l => (if r.kind = ReqKind.itom then (r.data, 0) else (l.data, l.pois), u)
          | .gntX, none => if r.kind = ReqKind.itom then ((r.data, 0), u) else let f := u.takeLine; ((f.1, 0), f.2)
          | _, _ => ((m.data, m.pois), u)
        match src.2.install a pa st src.1.1 src.1.2 r.strm with
        | some v => (v.dropReq a pa).compFor m
        | none => s.msgWaits k a pa

/-- DATA_S (R301). -/
def execDataS (agent pa : Nat) (s : State) : Host.Outcome State Fault Refusal := done s (s.grantAt .dataS 1 agent pa)
/-- DATA_E (R301). -/
def execDataE (agent pa : Nat) (s : State) : Host.Outcome State Fault Refusal := done s (s.grantAt .dataE 2 agent pa)
/-- DATA_X (R301). -/
def execDataX (agent pa : Nat) (s : State) : Host.Outcome State Fault Refusal := done s (s.grantAt .dataX 3 agent pa)
/-- GNT_X (R301). -/
def execGntX (agent pa : Nat) (s : State) : Host.Outcome State Fault Refusal := done s (s.grantAt .gntX 3 agent pa)

/-- A final response at a non-caching requester; one that has given up discards it. -/
def State.ncAnswer (s : State) (k : MsgKind) (req pa : Nat) : State :=
  let who := 64 + req
  match s.findMsg k who pa with
  | none => s
  | some m =>
    let u := s.takeMsg k who pa
    match s.findReq who pa with
    | some r =>
      if r.phase = .home then
        { u.dropReq who pa with ncLast := some ⟨who, pa, m.st, m.data, m.pois⟩ }.bufResp r m.st m.data m.pois
      else u
    | none => u

/-- DATA_NC (R297). -/
def execDataNc (req pa : Nat) (s : State) : Host.Outcome State Fault Refusal := done s (s.ncAnswer .dataNc req pa)
/-- DONE (R300): completion of a WR_NC or AT_NC, with the old value. -/
def execDone (req pa : Nat) (s : State) : Host.Outcome State Fault Refusal := done s (s.ncAnswer .done req pa)

/-- WB_ACK (R292). -/
def execWbAck (agent pa : Nat) (s : State) : Host.Outcome State Fault Refusal :=
  done s (match s.findMsg .wbAck agent pa with
    | none => s
    | some _ =>
      let u := s.takeMsg .wbAck agent pa
      { u with wbuf := aErase u.wbuf (agent, pa) })

/-- NACK (R303): the request waits for its backoff. -/
def execNack (who pa : Nat) (s : State) : Host.Outcome State Fault Refusal :=
  done s (match s.findMsg .nack who pa with
    | none => s
    | some _ =>
      let u := s.takeMsg .nack who pa
      match s.findReq who pa with
      | some r => if r.phase = .nacked then u.setReq { r with phase := .backoff, nacks := r.nacks + 1 } else u
      | none => u)

/-- NACK_RETRY (R303): the request is resolved again and resent; an UPG whose line has gone becomes RD_X (Table 10-6). -/
def execNackRetry (who pa : Nat) (s : State) : Host.Outcome State Fault Refusal :=
  done s (match s.findReq who pa with
    | some r =>
      if r.phase = .backoff then
        let k := if r.kind = .upg ∧ s.lineSt who pa ≠ 1 then ReqKind.rdX else r.kind
        { s with sentNo := s.sentNo + 1 }.setReq { s.sendReq r with phase := .sent, kind := k }
      else s
    | none => s)

/-- REQUEST_TIMEOUT (R308): the request completes with TOUT and is given up. -/
def execRequestTimeout (who pa : Nat) (s : State) : Host.Outcome State Fault Refusal :=
  done s (match s.findReq who pa with
    | some r =>
      let u := (s.dropReq who pa).bufResp r .tout 0 0
      if 64 ≤ who then { u with ncLast := some ⟨who, pa, .tout, 0, 0⟩ } else u
    | none => s)

/-! ### Messages delivered to homes -/

/-- The transaction in which an agent's answer for a line is awaited. -/
def State.awaiting (s : State) (a pa : Nat) : Option Txn :=
  s.txns.find? fun t => t.left.contains a &&
    (if t.phase = .recall then decide (t.vpa = pa)
     else decide (t.req.pa = pa) && (decide (t.phase = .snoop) || decide (t.phase = .stash)))

/-- An answer at the home (R298, R299); one that is not awaited is discarded (R305). -/
def State.answerAt (s : State) (k : MsgKind) (a pa : Nat) : State :=
  match s.findMsg k a pa with
  | none => s
  | some m =>
    let u := s.takeMsg k a pa
    match s.awaiting a pa with
    | none => u
    | some t =>
      let t := { t with
        left := t.left.filter (fun x => x ≠ a),
        got := if m.dirty && decide (t.req.kind ≠ ReqKind.itom) then some (m.data, m.pois) else t.got,
        heldFlag := t.heldFlag || m.held }
      if t.left.isEmpty then State.answered homeFuel (u.putTxn t) t else u.putTxn t

/-- ACK (R299). -/
def execAck (agent pa : Nat) (s : State) : Host.Outcome State Fault Refusal := done s (s.answerAt .ack agent pa)
/-- FWD_ACK (R299). -/
def execFwdAck (agent pa : Nat) (s : State) : Host.Outcome State Fault Refusal := done s (s.answerAt .fwdAck agent pa)

/-- COMP (R296). -/
def execComp (agent pa : Nat) (s : State) : Host.Outcome State Fault Refusal :=
  done s (match s.findMsg .comp agent pa with
    | none => s
    | some _ =>
      let u := s.takeMsg .comp agent pa
      match s.txns.find? (fun t => decide (t.req.pa = pa) && decide (t.req.who = agent) && t.compDue) with
      | none => u
      | some t =>
        let t := { t with compDue := false }
        if t.phase = .comp then State.endTxn homeFuel (u.putTxn t) t.loc else u.putTxn t)

/-- A WB or CLEAN_EVICT at the home (Table 10-5, R306): what it does to the entry and to memory. -/
def State.evictSettle (s : State) (loc a : Nat) (wrote : Bool) (d : Line) (pois : Nat) : State :=
  if s.isDown (locP loc) a then s
  else
    match s.ent loc with
    | some e =>
      if e.st = 2 then
        if e.owner = a then (if wrote then s.storeLine (locOfLine loc) d pois else s).freeEnt loc else s
      else
        let m := sharersDrop e.sharers a
        if m = 0 then s.freeEnt loc else s.setEnt loc { e with sharers := m }
    | none => s
/-- The home's answer follows; `route` is the one that the WB or CLEAN_EVICT took. -/
def State.evictAt (s : State) (a pa : Nat) (route : List Nat) (wrote : Bool) (d : Line) (pois : Nat) : State :=
  let loc := s.msgLoc pa
  (s.evictSettle loc a wrote d pois).respond (homeDie (locP loc)) (agentDie a) route
    { Msg.plain .wbAck a pa with st := if s.isDown (locP loc) a then .unav else .ok }
/-- The route of a message that an agent sends and the home takes at once. -/
def State.homeRoute (s : State) (a pa : Nat) : List Nat := (s.routeOf (agentDie a) (s.lineHome pa) (128 * pa)).getD []

/-- WB (R299): a writeback in flight arrives; a host die may also write back a line that it owns, with data `d`. -/
def execWb (agent pa : Nat) (d : Line) (s : State) : Host.Outcome State Fault Refusal :=
  done s (match s.findMsg .wb agent pa with
    | some m => (s.takeMsg .wb agent pa).evictAt agent pa m.route true m.data m.pois
    | none =>
      match s.line agent pa with
      | some l =>
        if isHost agent && s.agentUp agent && decide (2 ≤ l.st) && s.wbufRoom agent then
          { s.dropLine agent pa with wbuf := aSet s.wbuf (agent, pa) (d, hostPois l d) }.evictAt agent pa (s.homeRoute agent pa) true d
            (hostPois l d)
        else s
      | none => s)

/-- CLEAN_EVICT (R299): a notice in flight arrives; a host die may also give up a clean line. -/
def execCleanEvict (agent pa : Nat) (s : State) : Host.Outcome State Fault Refusal :=
  done s (match s.findMsg .cleanEvict agent pa with
    | some m => (s.takeMsg .cleanEvict agent pa).evictAt agent pa m.route false 0 0
    | none =>
      if isHost agent && s.agentUp agent && (decide (s.lineSt agent pa = 1) || decide (s.lineSt agent pa = 2)) then
        (s.dropLine agent pa).evictAt agent pa (s.homeRoute agent pa) false 0 0
      else s)

/-! ### Tokens, timeouts and down agents -/

/-- TOKEN_EXPIRE (R304): the oldest holder of a free line has not retried. -/
def execTokenExpire (who pa : Nat) (s : State) : Host.Outcome State Fault Refusal :=
  done s (match s.tokens.find? (fun k => decide (k.who = who) && decide (s.msgLoc pa = k.loc)) with
    | none => s
    | some k =>
      if s.busyLine k.loc then s
      else
        ({ s with tokens := s.tokens.filter (fun x => x ≠ k) } : State).dirCount (locP k.loc) .memDirTokenCnt)

/-- MSG code of Table 10-11 for the snoop that a transaction waits on. -/
def State.snoopCode (s : State) (t : Txn) : Nat :=
  match t.phase with
  | .recall => 5
  | .stash => 6
  | _ =>
    if t.req.kind = .recall then 5
    else
    let x := match s.ent t.loc with | some e => decide (e.st = 2) | none => false
    match t.req.kind with
    | .rdS => 1
    | .rdX | .upg => if x then 2 else 4
    | .rdNc => 3
    | .itom => 4
    | _ => if x then 5 else 4

/-- An agent marked down on one die's homes (R305, R307). -/
def State.markDownOn (s : State) (d : Die) (a : Nat) : State :=
  match d with
  | .cd n => s.setReg (.cd n) .memDirAgentDown 0 (setFld (s.reg (.cd n) .memDirAgentDown 0) a a 1)
  | _ => { s with cxlDown := if nbit s.cxlDown a then s.cxlDown else s.cxlDown + 2 ^ a }

/-- Transactions of a die's homes that await the COMP of an agent end when it is marked down (R306). -/
def State.endComps (s : State) (d : Die) (a : Nat) : State :=
  (s.txns.filter (fun t => decide (t.req.who = a) && decide (t.phase = .comp) && decide (homeDie (locP t.loc) = d))).foldl
    (fun x t => State.endTxn homeFuel (x.settleDown t) t.loc) s

/-- HOME_TIMEOUT (R305): answers of a transaction are missing. -/
def execHomeTimeout (pa : Nat) (s : State) : Host.Outcome State Fault Refusal :=
  done s (match s.txns.find? (fun t => decide (t.req.pa = pa) && !t.left.isEmpty) with
    | none => s
    | some t =>
      let d := homeDie (locP t.loc)
      let snooped := if t.phase = .recall then t.vict else t.loc
      let first := t.left.foldl min 63
      let old := s.reg d .memDirToutRec 0
      let code := s.snoopCode t
      let u := s.poisonLine (locOfLine snooped)
      let u := t.left.foldl (fun x a => (x.markDownOn d a).endComps d a) u
      let u := if old.getLsbD 63 || decide (d = .hub) then u
        else u.setReg d .memDirToutRec 0
          (BitVec.ofNat 64 (2 ^ 63 + first * 2 ^ 57 + code * 2 ^ 54 + (if t.phase = .recall then t.vpa else pa) % 2 ^ 45))
      let u := (u.dirCount (locP t.loc) .memDirToutCnt).raise d (if d = .hub then 0x4B else 0x30) first
      let t := { t with left := [], pois := t.pois || decide (t.phase ≠ .recall) }
      State.answered homeFuel (u.putTxn t) t)

/-- Every home marks an agent down (R307). -/
def State.markDown (s : State) (a : Nat) : State :=
  let ds := Die.hub :: allCds.map Die.cd
  ds.foldl (fun x d => x.endComps d a) (ds.foldl (fun x d => x.markDownOn d a) s)

/-- AGENT_MARK_DOWN (R307): the agent's domain has left running. -/
def execAgentMarkDown (agent : Nat) (s : State) : Host.Outcome State Fault Refusal :=
  done s (if decide (agent < 35) && !s.agentDom agent then s.markDown agent else s)

/-- DIRECTORY_SWEEP (R306): the homes of a die settle every entry that names a down agent; entries of busy lines are
settled when their transactions touch them. -/
def State.sweep (s : State) (d : Die) : State :=
  s.dir.foldl (fun u e => if decide (homeDie (locP e.1) = d) && !u.busyLine e.1 then u.settle e.1 else u) s
def execDirectorySweep (die : Die) (s : State) : Host.Outcome State Fault Refusal :=
  done s (if s.running die false then s.sweep die else s)

/-- Whether no home's entry names an agent: every sweep for it has finished. -/
def State.swept (s : State) (a : Nat) : Bool := s.dir.all fun e => !e.2.holders.contains a

/-- Whether the links of an agent's die have trained. -/
def State.agentLinked (s : State) (a : Nat) : Bool := s.dieLinked (agentDie a)

/-- AGENT_MARK_UP (R307). -/
def State.markUp (s : State) (a : Nat) : State :=
  let u := allCds.foldl (fun x d => x.setReg (.cd d) .memDirAgentDown 0 (setFld (x.reg (.cd d) .memDirAgentDown 0) a a 0)) s
  { u with cxlDown := if nbit u.cxlDown a then u.cxlDown - 2 ^ a else u.cxlDown }
def execAgentMarkUp (agent : Nat) (s : State) : Host.Outcome State Fault Refusal :=
  done s (if decide (agent < 35) && s.agentUp agent && s.agentLinked agent && s.swept agent then s.markUp agent else s)

/-! ### Whole transactions of non-caching engines -/

/-- The line as its owner has it: from the cache, or from the writeback buffer (R298); the second part says that the
owner keeps it. A line of a host die's cache may have been written by its cores: a free line. -/
def State.ownerLine (s : State) (a pa : Nat) : Option (Line × Nat × Bool) × State :=
  match s.line a pa with
  | some l =>
    if l.st ≤ 1 then (none, s)
    else if isHost a then let f := s.takeLine; (some (f.1, l.pois, true), f.2)
    else (some (l.data, l.pois, true), s)
  | none =>
    match aFind s.wbuf (a, pa) with
    | some (d, p) => (some (d, p, false), s)
    | none => (none, s)

/-- The home's own request to clear a line that a relayout is about to copy (R281). -/
def recallReq (pa : Nat) : Req := ⟨64 + 0xF000, 0xF000, .recall, 1, pa, 0, 0, 0, 0, false, 0, 0, none, none, [], 0, .home, false, [], 0⟩
/-- The recall of every copy of a line starts, as a transaction of its home (R281). -/
def State.startRecall (s : State) (loc : Nat) (e : DirEnt) : State :=
  let t : Txn := ⟨loc, recallReq e.pa, .way, [], 0, 0, e.way, none, false, false, false, false⟩
  State.goTxn homeFuel (((s.settle loc).dirCount (locP loc) .memDirRecallCnt).putTxn t) t

end Sys2Proof.Machine
end

