-- ==== Sys2Proof/Machine/Xlate.lean ====
section
/-!
DEFINITION. Translation (R316-R321): page-table entries, walks, the translation caches with their recorded outcomes, and
the accesses of non-caching requesters to physical addresses.
-/

namespace Sys2Proof.Machine

/-! ### Accesses to physical addresses (R293, R297, R299, R314) -/

/-- Where a request of a non-caching requester goes: UNAV where no route leads to its home (R30). -/
def State.ncHome (s : State) (rid pa : Nat) : HomeAt :=
  match s.homeAt pa with
  | .at l => if s.reach (s.whoDie (64 + rid)) (homeDie l.p) then .at l else .fail .unav 0
  | h => h

/-- Why an access of an engine cannot go on yet: a request that its home must take, snoop for or refuse; an outbound request to
PCIe; or an answer, a re-read or a power state that it waits for. -/
inductive Wait where
  | ask (r : Req)
  | tlp (o : OutReq)
  | wake
  | hold
deriving DecidableEq, Repr

/-- What an access that cannot go on leaves: its request at the home, accepted or refused and counted (R303, R304), or its TLP on
the way; an access to a tile register group is a wake (R403). -/
def State.await (s : State) : Wait → State
  | .ask r => s.request r true
  | .tlp o =>
    { s with io := { s.io with outb := s.io.outb ++ [o] } }.emit .tlp (if o.wr then [1, o.pa, o.len, o.data] else [0, o.pa, o.len])
  | .wake => s.wakeIf 6 0
  | .hold => s

/-- Requests and responses of requesters that give up, or are reset, are dropped. -/
def State.giveUp (s : State) (p : Nat → Bool) : State :=
  { s with
    reqs := s.reqs.filter fun r => !(r.eng && p r.rid)
    net := s.net.filter fun m => !(decide (64 ≤ m.who) && p (m.who - 64) && [MsgKind.dataNc, .done, .nack].contains m.kind)
    ncBuf := s.ncBuf.filter fun e => !p e.1.rid
    io := { s.io with outb := s.io.outb.filter fun o => !p o.req } }

/-- Whether a response answers a request: the same requester and line, and for a non-caching requester the same operation. -/
def Req.same (a b : Req) : Bool :=
  decide (a.who = b.who) && decide (a.pa = b.pa) && decide (a.rid = b.rid) && decide (a.ctx = b.ctx) && decide (a.pl = b.pl) &&
    (decide (a.who < 64) ||
      decide (a.kind = b.kind ∧ a.typ = b.typ ∧ a.mask = b.mask ∧ a.data = b.data ∧ a.atom = b.atom ∧ a.more = b.more ∧
        (a.kind = ReqKind.atNc → a.off = b.off)))
/-- The response to a request of an engine, taken. -/
def State.ncTake (s : State) (r : Req) : Option (NcResp × State) :=
  match s.ncBuf.find? (fun e => e.1.same r) with
  | some e => some (e.2, { s with ncBuf := lDrop (fun x => x.1.same r) s.ncBuf })
  | none => none
/-- What an engine waits for whose request for a line is under way: one that its backoff has ended goes to the home again. -/
def State.ncPend (s : State) (r : Req) : Option Wait :=
  match s.findReq r.who r.pa with
  | some x => some (if x.phase = .sent ∨ x.phase = .arrived then .ask x else .hold)
  | none => none
/-- A home as a request that it accepts finds it: the requester's token returned, the entry settled and its age 0 (R295, R304,
R306). -/
def State.visit (s : State) (who loc : Nat) : State :=
  let t := { s with tokens := s.tokens.filter fun k => ¬ (k.loc = loc ∧ k.who = who) }.settle loc
  match t.ent loc with
  | some e => t.setEnt loc { e with age := 0 }
  | none => t

/-- Whether a requester works through the hub I/O cache, which fetches the lines that it touches (R292, R368; log 95): hub DMA
channels, Sluice accesses and root-port devices. -/
def ioUse (rid : Nat) : Bool := decide ((rid / 4096 = 1 ∧ 128 ≤ rid % 4096) ∨ rid / 4096 = 7 ∨ rid / 4096 = 8)
/-- A request that the hub I/O cache makes for a requester. -/
def ioReq (rid ctx pl typ pa : Nat) (strm : Bool) (k : ReqKind) (mask : Nat) (d : Line) : Req :=
  { agentReq ⟨34, rid, pa, ctx, pl, 0, strm, typ⟩ k mask d with typ := typ, eng := true }
/-- What the hub I/O cache answers while it fetches a line or its rights: an error, or nothing yet. -/
def State.ioFetch (s : State) (r : Req) : Except Wait (Status × State) :=
  match s.ncTake r with
  | some (a, t) => .ok (a.st, t)
  | none =>
    match s.ncPend r with
    | some w => .error w
    | none => if s.mayAsk 34 r.pa then .error (.ask r) else .error .hold

/-- A line read by a non-caching requester: status, data and poison bits. A home that holds nothing back and needs no snoop
answers at once; any other takes the request into a transaction, or refuses it. -/
def State.ncRead (s : State) (rid ctx pl typ il pa : Nat) (strm : Bool := false) : Except Wait (Status × Line × Nat × State) :=
  let base := pa / 128 * 128
  let r : Req := { ncReq ⟨rid, pa, ctx, pl, il⟩ .rdNc 0 0 none none with typ := typ, eng := true }
  match if ioUse rid then s.line 34 r.pa else none with
  | some c => .ok (.ok, c.data, c.pois, s.touchLine 34 r.pa strm)
  | none =>
    match s.ncHome rid base with
    | .fail st why => .ok (st, 0, 0, s.noHome rid ctx pl typ pa why)
    | .moving _ =>
      match s.ncPend r with
      | some w => .error w
      | none => .error (.ask r)
    | .at l =>
      if ioUse rid then
        match s.ioFetch (ioReq rid ctx pl typ pa strm .rdS 0 0) with
        | .ok (st, t) => .ok (st, 0, 0, t)
        | .error w => .error w
      else
        match s.ncTake r, s.ncPend r with
        | some (a, t), _ => .ok (if a.st = .pois then .ok else a.st, a.data, a.pois, t)
        | none, some w => .error w
        | none, none =>
          if s.rereading l then .error .hold
          else
            let away := match (s.settle l.line).ent l.line with | some e => decide (e.st = 2) | none => false
            if s.heldBack r.who l.line || away || s.passes (s.whoDie r.who) (homeDie l.p) then .error (.ask r)
            else
              match s.homeCheck l rid ctx pl typ il base (pa % 128) with
              | some t => .ok (.perm, 0, 0, t)
              | none => let x := (s.visit r.who l.line).homeLine l; .ok (.ok, x.1, x.2.1, x.2.2)

/-- A line of the hub I/O cache with the bytes of a mask written (R291): a poisoned half covered in part is left, and the second
part says so. -/
def CLine.put (l : CLine) (mask : Nat) (d : Line) : CLine × Bool :=
  let one (x : CLine × Bool) (h : Nat) : CLine × Bool :=
    let m := mask &&& spanMask (64 * h) 64
    if m = 0 then x
    else if nbit x.1.pois h then
      if m = spanMask (64 * h) 64 then ({ x.1 with data := lineMerge x.1.data d m 128, pois := x.1.pois - 2 ^ h }, x.2) else (x.1, true)
    else ({ x.1 with data := lineMerge x.1.data d m 128 }, x.2)
  one (one (l, false) 0) 1

/-- A masked write of a line by a non-caching requester, with an optional stash (R300). -/
def State.ncWrite (s : State) (rid ctx pl il pa mask : Nat) (d : Line) (strm : Bool := false) (stash : Option Nat := none) :
    Except Wait (Status × State) :=
  let base := pa / 128 * 128
  let r : Req := { ncReq ⟨rid, pa, ctx, pl, il⟩ .wrNc mask d stash none with eng := true }
  match if ioUse rid then (s.line 34 r.pa).filter fun c => decide (2 ≤ c.st) else none with
  | some c =>
    let x := c.put mask d
    .ok (if x.2 then .pois else .ok, (s.setLine 34 r.pa { x.1 with st := 3 }).touchLine 34 r.pa strm)
  | none =>
    match s.ncHome rid base with
    | .fail st why => .ok (st, s.noHome rid ctx pl 1 pa why)
    | .moving _ =>
      match s.ncPend r with
      | some w => .error w
      | none => .error (.ask r)
    | .at l =>
      if ioUse rid && !s.isBurr base then
        let k := if mask = fullMask then ReqKind.itom else if s.lineSt 34 r.pa = 1 then .upg else .rdX
        s.ioFetch (ioReq rid ctx pl 1 pa strm k mask d)
      else
        match s.ncTake r, s.ncPend r with
        | some (a, t), _ => .ok (a.st, t)
        | none, some w => .error w
        | none, none =>
          if s.rereading l then .error .hold
          else if stash.isSome || s.heldBack r.who l.line || ((s.settle l.line).ent l.line).isSome ||
              s.passes (s.whoDie r.who) (homeDie l.p) then .error (.ask r)
          else
            match s.homeCheck l rid ctx pl 1 il base (pa % 128) with
            | some t => .ok (.perm, t)
            | none => let w := (s.visit r.who l.line).writeLine l mask d; .ok (if w.2 then .pois else .ok, w.1)

/-- The status under which a write of `n` bytes within one line would fail as things stand, with its record: a home that refuses or lacks it,
or poison that it covers in part, in memory or in the copy that its home works on (R269, R291). Nothing is written; a line whose write is
under way or answered is not asked again. -/
def State.putTest (s : State) (rid ctx pl il pa n : Nat) : Status × State :=
  let base := pa / 128 * 128
  if s.reqs.any (fun r => r.eng && decide (r.rid = rid ∧ r.pa = pa / 128)) || s.ncBuf.any (fun e => decide (e.1.rid = rid ∧ e.1.pa = pa / 128))
  then (.ok, s)
  else
    match s.ncHome rid base with
    | .fail st why => (st, s.noHome rid ctx pl 1 pa why)
    | .moving _ => (.ok, s)
    | .at l =>
      match s.homeCheck l rid ctx pl 1 il base (pa % 128) with
      | some t => (.perm, t)
      | none =>
        let t := s.settle l.line
        let u := match t.ent l.line with
          | some e =>
            if e.st = 2 then
              (match (t.line e.owner (pa / 128)).filter (fun (c : CLine) => decide (c.st = 3)), aFind t.wbuf (e.owner, pa / 128) with
                | some c, _ => t.storeLine l c.data c.pois
                | none, some w => t.storeLine l w.1 w.2
                | none, none => t)
            else t
          | none => t
        let w := u.writeLine l (spanMask (pa % 128) n) 0
        if w.2 then (.pois, { w.1 with journal := s.journal, poison := s.poison, dir := s.dir }) else (.ok, s)

/-- A combined atomic at a home (R107, R300): status and the value each turn receives. -/
def State.ncAtomic (s : State) (rid ctx pl il pa : Nat) (ops : List AtOp) : Except Wait (Status × List Nat × State) :=
  let base := pa / 128 * 128
  let n := match ops with | a :: _ => atOpBytes a | [] => 4
  let r : Req := { ncReq ⟨rid, pa, ctx, pl, il⟩ .atNc 0 0 none ops.head? with more := ops.drop 1, eng := true }
  match s.ncTake r, s.ncPend r with
  | some (a, t), _ => .ok (a.st, (atTurns ops (a.data.toNat % 2 ^ (8 * n))).1, t)
  | none, some w => .error w
  | none, none =>
    match s.ncHome rid base with
    | .fail st why => .ok (st, [], s.noHome rid ctx pl 2 pa why)
    | .moving _ => .error (.ask r)
    | .at l =>
      if s.rereading l then .error .hold
      else if s.heldBack r.who l.line || ((s.settle l.line).ent l.line).isSome || s.passes (s.whoDie r.who) (homeDie l.p) then .error (.ask r)
      else
        match s.homeCheck l rid ctx pl 2 il base (pa % 128) with
        | some t => .ok (.perm, [], t)
        | none =>
          let w := (s.visit r.who l.line).performNc l r
          .ok (w.2.1, if w.2.1 = .ok then (atTurns ops w.2.2).1 else [], w.1)

/-- Bytes that lie within one line, as a number (R16). -/
def State.ncBytes (s : State) (rid ctx pl typ il pa n : Nat) (strm : Bool := false) : Except Wait (Status × Nat × State) :=
  match s.ncRead rid ctx pl typ il pa strm with
  | .error w => .error w
  | .ok (.ok, d, p, t) =>
    if touchesPois p (pa % 128) n then .ok (.pois, 0, t) else .ok (.ok, lineNat d (pa % 128) n, t)
  | .ok (e, _, _, t) => .ok (e, 0, t)

/-! ### Requesters -/

/-- Global tile index (R49). -/
def State.tileIndex (s : State) (t : TileRef) : Nat :=
  let n := s.nTiles t.die.val
  t.die.val * (8 * n) + t.tile / 16 * n + t.tile % 16

/-- Requester identifier (Table 11-10). -/
def State.reqId (s : State) : XReq → Nat
  | .tile t => s.tileIndex t
  | .dma d ch => 0x1000 + (match d with | .cd n => 32 * n.val + ch | _ => 128 + ch)
  | .burr i => 0x2000 + i
  | .sampler i => 0x3000 + i
  | .cp n => 0x4000 + n.val
  | .sluice p => 0x7000 + p
  | .millrace p => 0x9000 + p

/-- The die whose replicas and walker serve a requester, and where its violations are recorded (R334). -/
def xDie : XReq → Die
  | .tile t => .cd t.die
  | .cp n => .cd n
  | .dma d _ => d
  | .burr i => .cd (cdOf (i / 64))
  | .sampler i => .cd (cdOf (i / 4))
  | _ => .hub
def isDma : XReq → Bool
  | .dma _ _ => true
  | _ => false
/-- Entries of a requester's translation cache (Table 11-6); 64 for requesters it does not list. -/
def xCap : XReq → Nat
  | .tile _ => 64 | .cp _ => 32 | .dma _ _ => 16 | .burr _ => 32 | .sampler _ => 16 | _ => 64

/-! ### Page tables (R316, R317) -/

/-- Lowest address bit of a level's index. -/
def lvShift (level : Nat) : Nat := match level with | 4 => 48 | 3 => 39 | 2 => 30 | 1 => 21 | _ => 16
def lvIndex (level va : Nat) : Nat := va / 2 ^ lvShift level % (if level = 0 then 32 else 512)
/-- The part of an address that names the table of a level. -/
def lvPrefix (level va : Nat) : Nat := va % 2 ^ 57 / 2 ^ lvShift (level + 1)

/-- What an entry of a level says. -/
inductive Pte where
  | absent
  | malformed
  | table (pa : Nat)
  | leaf (bits pa il : Nat) (pin u x w r : Bool)
deriving DecidableEq, Repr

/-- Table 11-5 at a level. -/
def State.pte (s : State) (level : Nat) (e : W64) : Pte :=
  let addr := fld e 51 8 * 256
  let il := fld e 53 52
  if !e.getLsbD 0 then .absent
  else if fld e 57 54 ≠ 0 ∨ e.getLsbD 7 = true then .malformed
  else if e.getLsbD 1 then
    let bits := lvShift level
    let pool := decide (s.region addr = .pool)
    if 3 ≤ level ∨ addr % 2 ^ bits ≠ 0 then .malformed
    else if pool && decide (il = 0) || !pool && decide (il ≠ 0) then .malformed
    else if il = 3 ∧ bits ≠ 21 then .malformed
    else .leaf bits addr il (e.getLsbD 6) (e.getLsbD 5) (e.getLsbD 4) (e.getLsbD 3) (e.getLsbD 2)
  else if level = 0 then .malformed
  else if addr % (if level = 1 then 256 else 4096) ≠ 0 then .malformed
  else .table addr

/-- Whether a leaf permits an access (R317). -/
def leafAllows (u x w r : Bool) (typ pl : Nat) : Bool :=
  (match typ with | 0 => r | 1 => w | 2 => r && w | _ => x) && (decide (pl ≠ 3) || u)

/-- The outcome of a fill for one type and level (R315, R320), a REASON of Table 11-16 or 0. -/
def State.fillReason (s : State) (who : XReq) (ctx typ pl il pa : Nat) (pin u x w r : Bool) : Nat :=
  if !leafAllows u x w r typ pl then 9
  else if !pin && !isDma who then 0xA
  else
    match s.region pa with
    | .pool => s.protReason (repIdx (xDie who)) ctx pl typ il pa
    | .none => 8
    | _ => 0

/-- The cached entry of a leaf: 64 KiB, or the 2 MiB that hold the address (R319). -/
def State.fillEntry (s : State) (who : XReq) (ctx va bits pa il : Nat) (pin u x w r : Bool) : TlbE :=
  let b := if bits = 16 then 16 else 21
  let base := pa + va % 2 ^ bits / 2 ^ b * 2 ^ b
  ⟨who, ctx, b, va % 2 ^ 57 / 2 ^ b, base, il,
    (List.range 16).map fun i => s.fillReason who ctx (i / 4) (i % 4) il base pin u x w r⟩

/-- A fill into the cache of its requester; the oldest entry leaves a full cache. -/
def State.putTlb (s : State) (e : TlbE) : State :=
  let mine := s.tlb.filter fun x => decide (x.who = e.who) && decide (¬ (x.ctx = e.ctx ∧ x.bits = e.bits ∧ x.vpage = e.vpage))
  let rest := s.tlb.filter fun x => decide (x.who ≠ e.who)
  { s with tlb := rest ++ mine.drop (mine.length + 1 - xCap e.who) ++ [e] }

/-- Whether a requester's cache keeps a translation: a Burr's holds those of 2 MiB alone (Table 11-6). -/
def keeps (who : XReq) (e : TlbE) : Bool :=
  match who with
  | .burr _ => decide (e.bits = 21)
  | _ => true

/-! ### Lookups -/

/-- What a translation gives. -/
inductive XlAns where
  | ok (pa il : Nat)
  | refused (reason : Nat)
  | absent (level : Nat) (entry : W64)
  | failed (st : Status)
deriving DecidableEq, Repr

/-- Bits [63:57] equal bit 56 (R133, R316). -/
def canonical (va : Nat) : Bool := decide (va % 2 ^ 64 / 2 ^ 56 = 0) || decide (va % 2 ^ 64 / 2 ^ 56 = 255)

/-- The canonical address that 57 bits of a register name: bits [63:57] follow bit 56 (R316). -/
def va57 (v : Nat) : Nat := v % 2 ^ 57 + (if v % 2 ^ 57 / 2 ^ 56 = 1 then 127 * 2 ^ 57 else 0)

/-- An access through a cached translation (R315); none on a miss. -/
def State.tlbLook (s : State) (who : XReq) (ctx pl typ va : Nat) : Option XlAns :=
  if !canonical va then some (.refused 0xE)
  else
    match s.tlb.find? (fun e => decide (e.who = who) && decide (e.ctx = ctx) && decide (va % 2 ^ 57 / 2 ^ e.bits = e.vpage)) with
    | none => none
    | some e =>
      let why := e.outcome[4 * typ + pl]?.getD 0
      if why ≠ 0 then some (.refused why) else some (.ok (e.pbase + va % 2 ^ e.bits) e.il)

/-- A refused access recorded on the requester's die (R334). -/
def State.refuse (s : State) (who : XReq) (ctx pl typ va reason : Nat) : State :=
  s.violate (xDie who) (va % 2 ^ 64) pl typ reason 0 (s.reqId who) ctx

/-! ### Walks (R316, R318) -/

/-- The level and table at which a walk starts: the deepest that the walk cache supplies, or the top-level table. -/
def State.walkFrom (s : State) (rep ctx va : Nat) : Nat × Nat :=
  match [0, 1, 2, 3].findSome? (fun lv =>
      s.wcache.find? (fun e => decide (e.rep = rep) && decide (e.ctx = ctx) && decide (e.level = lv) &&
        decide (e.pfx = lvPrefix lv va))) with
  | some e => (e.level, e.table)
  | none => (4, fld (s.cptAt rep ctx) 127 88 * 4096)

/-- A non-leaf entry kept: 256 entries for each walker, the oldest leaving (R318). -/
def State.putWalkCache (s : State) (e : WcE) : State :=
  let mine := s.wcache.filter fun x => decide (x.rep = e.rep)
  let rest := s.wcache.filter fun x => decide (x.rep ≠ e.rep)
  { s with wcache := rest ++ mine.drop (mine.length + 1 - 256) ++ [e] }

/-- What one walk read leads to. -/
inductive WalkStep where
  | down (level table : Nat)
  | isOver (a : XlAns)
deriving DecidableEq, Repr

/-- One read of a walk and what it leads to (R318, R320, R321). -/
def State.walkStep (s : State) (who : XReq) (ctx pl typ va level table : Nat) : Except Wait (WalkStep × State) :=
  let rep := repIdx (xDie who)
  match s.ncBytes (0xA000 + rep) ctx pl 4 0 (table + 8 * lvIndex level va) 8 with
  | .error w => .error w
  | .ok (.ok, v, t) =>
    match t.pte level (BitVec.ofNat 64 v) with
    | .absent => .ok (.isOver (.absent level (BitVec.ofNat 64 v)), t)
    | .malformed => .ok (.isOver (.refused 0xD), t)
    | .table pa => .ok (.down (level - 1) pa, t.putWalkCache ⟨rep, ctx, level - 1, lvPrefix (level - 1) va, pa⟩)
    | .leaf bits pa il pin u x w r =>
      let e := t.fillEntry who ctx va bits pa il pin u x w r
      let why := e.outcome[4 * typ + pl]?.getD 0
      .ok (.isOver (if why ≠ 0 then .refused why else .ok (e.pbase + va % 2 ^ e.bits) e.il), if keeps who e then t.putTlb e else t)
  | .ok (.perm, _, t) => .ok (.isOver (.refused 0xC), t)
  | .ok (st, _, t) => .ok (.isOver (.failed st), t)

/-- A walk from start to end. -/
def State.walkAll (s : State) (who : XReq) (ctx pl typ va : Nat) : Nat → Nat → Nat → Except Wait (XlAns × State)
  | 0, _, _ => .error .hold
  | n + 1, level, table =>
    match s.walkStep who ctx pl typ va level table with
    | .error w => .error w
    | .ok (.isOver a, t) => .ok (a, t)
    | .ok (.down lv tb, t) => t.walkAll who ctx pl typ va n lv tb

/-- A translation for an engine: through its cache, or by a walk (R315, R319). A refusal is recorded; a not-present entry
is left to the caller. -/
def State.xlate (s : State) (who : XReq) (ctx pl typ va : Nat) : Except Wait (XlAns × State) :=
  let ans : Except Wait (XlAns × State) := match s.tlbLook who ctx pl typ va with
    | some a => .ok (a, s)
    | none => let w := s.walkFrom (repIdx (xDie who)) ctx va; s.walkAll who ctx pl typ va 6 w.1 w.2
  match ans with
  | .ok (.refused why, t) => .ok (.refused why, t.refuse who ctx pl typ va why)
  | a => a

/-- The status of an access whose translation did not succeed (R320, R321); a not-present entry of a requester other
than a DMA channel is recorded. -/
def State.xlFail (s : State) (who : XReq) (ctx pl typ va : Nat) : XlAns → Status × State
  | .absent _ _ => if isDma who then (.xlat, s) else (.perm, s.refuse who ctx pl typ va 0xB)
  | _ => (.perm, s)

/-! ### Accesses of engines to virtual addresses -/

/-- A read in control space by an engine. -/
def ctlSplit (pa : Nat) : Option Die × Nat :=
  let o := pa - ctlBase
  (match o / 2 ^ 24 with
    | 0 => some .hub | 1 => some (.cd 0) | 2 => some (.cd 1) | 3 => some (.cd 2) | 4 => some (.cd 3)
    | 5 => some (.hd 0) | 6 => some (.hd 1) | _ => none, o % 2 ^ 24)

def State.ctlReadPa (s : State) (from_ : Die) (pl ctx pa n : Nat) : Status × Nat × State :=
  match ctlSplit pa with
  | (some d, off) =>
    if s.reach from_ d then let r := s.ctlRead1 d off n pl ctx; (r.1, r.2.toNat, (s.ctlReadEnd d off n pl ctx).ctlTouch d off) else (.unav, 0, s)
  | (none, _) => (.unav, 0, s)

/-- A write in control space by an engine: a register without a command of its own is written; for one with a command
the write goes out as an output, and that command performs it. -/
def State.ctlWritePa (s : State) (from_ : Die) (pl ctx pa n v : Nat) : Status × State :=
  match ctlSplit pa with
  | (some d, off) =>
    if !s.reach from_ d then (.unav, s)
    else
    match ctlFind d off n with
    | .reg nm idx =>
      let val := BitVec.ofNat 64 v
      if ownRow nm (s.reg d nm (s.regKey d nm idx pl)) val then
        (s.gate d nm pl ctx, (s.touch d nm).emit .posted [d.idx, off, pl, ctx, v])
      else (s.touch d nm).ctlStore d nm idx pl ctx val
    | .bad => (s.ctlNone d off pl ctx true, s.ctlTouch d off)
    | .free => (s.ctlNone d off pl ctx false, s.ctlTouch d off)
  | (none, _) => (.unav, s)

/-- The status that a write in control space by an engine has before its value is looked at (R41, R42). -/
def State.ctlTest (s : State) (from_ : Die) (pl ctx pa n : Nat) : Status :=
  match ctlSplit pa with
  | (some d, off) =>
    if !s.reach from_ d then .unav
    else
      match ctlFind d off n with
      | .reg nm _ => s.gate d nm pl ctx
      | .bad => s.ctlNone d off pl ctx true
      | .free => s.ctlNone d off pl ctx false
  | (none, _) => .unav

/-- Whether a requester may send to the memory space of a root port (R362); none may with CTXID 0 above PL0 (R48). -/
def State.pcieMay (s : State) (who : XReq) : Bool :=
  match who with
  | .dma .hub ch =>
    let pl := s.rf .hub .dmaCtx ch 33 32
    decide (pl ≤ 1) && decide (pl = 0 ∨ s.rf .hub .dmaCtx ch 11 0 ≠ 0)
  | _ => false
/-- The interrupt window: the top 16 MiB of port 3's range, which belongs to no port (R362). -/
def inIntWindow (pa : Nat) : Bool := decide (0xEFFFFFF000000 ≤ pa) && decide (pa < 0xF000000000000)
/-- Whether a port is up in a mode (Table 13-6). -/
def State.portMode (s : State) (p mode : Nat) : Bool :=
  let r := s.reg .hub .hubPcieCfg p
  s.running .hub false && decide (p < 4) && decide (fld r 29 28 = mode) && r.getLsbD 19
/-- Whether a port carries root-port traffic: a root port, or a CXL port's CXL.io (R364). -/
def State.portIo (s : State) (p : Nat) : Bool := s.portMode p 0 || s.portMode p 2
/-- Whether the root port of an address carries requests. -/
def State.rpUp (s : State) (pa : Nat) : Bool := s.portIo ((pa - pcieBase) / 2 ^ 46)

/-- A request of a hub DMA channel to root-port memory space: its end once PCIe has given one (R362). -/
def State.outAccess (s : State) (o : OutReq) : Except Wait (Status × Nat × State) :=
  let mine (x : OutReq) : Bool := decide ({ x with ans := none } = o)
  match s.io.outb.find? mine with
  | some x =>
    match x.ans with
    | some (st, v) => .ok (st, v, { s with io := { s.io with outb := lDrop mine s.io.outb } })
    | none => .error .hold
  | none => .error (.tlp o)

/-- Bytes within one line read by an engine at a virtual address: status, value. -/
def State.vaRead (s : State) (who : XReq) (ctx pl typ va n : Nat) (strm : Bool := false) : Except Wait (Status × Nat × State) :=
  match s.xlate who ctx pl typ va with
  | .error w => .error w
  | .ok (.ok pa il, t) =>
    match t.region pa with
    | .control =>
      if (ctlSplit pa).1.any (t.passes (xDie who)) then .error .hold
      else
      let r := t.ctlReadPa (xDie who) pl ctx pa n; if r.1 = .held then .error .wake else .ok (r.1, r.2.1, r.2.2)
    | .pcie =>
      if !t.pcieMay who || inIntWindow pa then .ok (.perm, 0, t)
      else if !t.rpUp pa then .ok (.unav, 0, t)
      else t.outAccess ⟨t.reqId who, pa, n, false, 0, none⟩
    | _ => t.ncBytes (t.reqId who) ctx pl typ il pa n strm
  | .ok (a, t) => let f := t.xlFail who ctx pl typ va a; .ok (f.1, 0, f.2)

/-- Bytes within one line written by an engine at a virtual address; `stash` names the cluster of a physical address. -/
def State.vaWrite (s : State) (who : XReq) (ctx pl va n v : Nat) (strm : Bool := false) (stash : Nat → Option Nat := fun _ => none) :
    Except Wait (Status × State) :=
  match s.xlate who ctx pl 1 va with
  | .error w => .error w
  | .ok (.ok pa il, t) =>
    match t.region pa with
    | .control =>
      if (ctlSplit pa).1.any (t.passes (xDie who)) then .error .hold
      else
      let r := t.ctlWritePa (xDie who) pl ctx pa n v; if r.1 = .held then .error .wake else .ok r
    | .pcie =>
      if !t.pcieMay who || inIntWindow pa then .ok (.perm, t)
      else if !t.rpUp pa then .ok (.unav, t)
      else
        match t.outAccess ⟨t.reqId who, pa, n, true, v, none⟩ with
        | .ok (st, _, u) => .ok (st, u)
        | .error w => .error w
    | _ => t.ncWrite (t.reqId who) ctx pl il pa (spanMask (pa % 128) n) (linePut 0 (pa % 128) n v) strm (stash pa)
  | .ok (a, t) => let f := t.xlFail who ctx pl 1 va a; .ok (f.1, f.2)

/-- Writes of an engine tested before any of them is made: the first status under which one of them would fail, with its record. -/
def State.vaTest (s : State) (who : XReq) (ctx pl : Nat) : List (Nat × Nat) → Except Wait (Status × State)
  | [] => .ok (.ok, s)
  | (va, n) :: r =>
    match s.xlate who ctx pl 1 va with
    | .error w => .error w
    | .ok (.ok pa il, t) =>
      let x : Status × State :=
        match t.region pa with
        | .control => (t.ctlTest (xDie who) pl ctx pa n, t)
        | .pcie => (if !t.pcieMay who || inIntWindow pa then .perm else if !t.rpUp pa then .unav else .ok, t)
        | _ => t.putTest (t.reqId who) ctx pl il pa n
      if x.1 = .ok ∨ x.1 = .held then x.2.vaTest who ctx pl r else .ok x
    | .ok (a, t) => .ok (t.xlFail who ctx pl 1 va a)

/-- Pieces of a span of bytes that each lie within one line. -/
def linePieces (va : Nat) : Nat → Nat → List (Nat × Nat)
  | 0, _ => []
  | fuel + 1, n =>
    if n = 0 then []
    else
      let k := min n (128 - va % 128)
      (va, k) :: linePieces (va + k) fuel (n - k)

/-- Bytes read at consecutive virtual addresses, stopping at the first status that is not OK. -/
def State.vaReads (s : State) (who : XReq) (ctx pl typ : Nat) (strm : Bool) :
    List (Nat × Nat) → Except Wait (Status × List Byte × State)
  | [] => .ok (.ok, [], s)
  | (va, n) :: r =>
    match s.vaRead who ctx pl typ va n strm with
    | .error w => .error w
    | .ok (.ok, v, t) =>
      match t.vaReads who ctx pl typ strm r with
      | .ok (st, l, u) => .ok (st, leBytes n v ++ l, u)
      | .error w => .error w
    | .ok (e, _, t) => .ok (e, [], t)
def State.vaSpan (s : State) (who : XReq) (ctx pl va n : Nat) (strm : Bool := false) : Except Wait (Status × List Byte × State) :=
  s.vaReads who ctx pl 0 strm (linePieces va (n / 128 + 2) n)

/-- Bytes written at consecutive virtual addresses, stopping at the first status that is not OK. -/
def State.vaWrites (s : State) (who : XReq) (ctx pl : Nat) (strm : Bool) :
    List (Nat × Nat) → List Byte → Except Wait (Status × State)
  | [], _ => .ok (.ok, s)
  | (va, n) :: r, l =>
    match s.vaWrite who ctx pl va n (leNat (l.take n)) strm with
    | .error w => .error w
    | .ok (.ok, t) => t.vaWrites who ctx pl strm r (l.drop n)
    | .ok (e, t) => .ok (e, t)
def State.vaPut (s : State) (who : XReq) (ctx pl va : Nat) (l : List Byte) (strm : Bool := false) : Except Wait (Status × State) :=
  s.vaWrites who ctx pl strm (linePieces va (l.length / 128 + 2) l.length) l

end Sys2Proof.Machine
end

