-- ==== Sys2Proof/Machine/Event.lean ====
section
/-!
DEFINITION. Event queues as producers see them (R354, R355): the entry of Table 12-4, the push with its write, its count
and its interrupt, and the events that producers hold.
-/

namespace Sys2Proof.Machine

/-- Bytes of a number as numbers, least significant first. -/
def natBytes : Nat → Nat → List Nat
  | 0, _ => []
  | n + 1, x => x % 256 :: natBytes n (x / 256)
/-- The number of a list of byte values, least significant first. -/
def bytesNat : List Nat → Nat
  | [] => 0
  | b :: r => b % 256 + 256 * bytesNat r

/-- The 64 bytes of an event entry (Table 12-4); the payload is padded with zeros to 40 bytes. -/
def eventBytes (typ : Nat) (st : Status) (ctx src queue : Nat) (tag time : W64) (pay : List Nat) : List Nat :=
  [typ, st.code] ++ natBytes 2 ctx ++ natBytes 2 src ++ [queue, 0] ++ natBytes 8 tag.toNat ++ natBytes 8 time.toNat
    ++ (pay ++ List.replicate 40 0).take 40

/-- Event queues of a die. -/
def eqCount (d : Die) : Nat := match d with | .cd _ => 64 | .hub => 16 | _ => 0
/-- The requester that writes the entries of a die's queues: its command processor, at the hub its channel 0. -/
def eqWho (d : Die) : XReq := match d with | .cd n => .cp n | _ => .dma .hub 0
/-- The EQ_ERROR source of a die (Tables 15-2 and 15-4). -/
def eqErrSrc (d : Die) : Nat := match d with | .hub => 0x49 | _ => 0x32
/-- The event queue of a command queue. -/
def State.cqEq (s : State) (die : Fin 4) (q : Nat) : Nat := s.rf (.cd die) .cqCfg q 55 50

/-- The privilege level of entry writes: PL1, or the context's MAXPL where that is lower. -/
def State.eqLevel (s : State) (d : Die) (ctx : Nat) : Nat :=
  let m := fld (s.cptAt (repIdx d) ctx) 3 2
  if m < 1 then m else 1

/-! ### MSI-X (R367) -/

/-- A byte of BAR2's MSI-X table: 256 entries of 16 bytes (message address, data, vector control), the mask bit of the vector
control set where nothing has been written (the PCI Express base specification's layout and reset; log 96). -/
def State.msixByte (s : State) (off : Nat) : Byte := aGet s.msix.table (if off % 16 = 12 then 1 else 0) off
/-- `n` bytes of the table. -/
def State.msixRead (s : State) (off n : Nat) : Nat := leNat ((List.range n).map fun i => s.msixByte (off + i))
/-- The message of a vector: sent where the vector is not masked, pending otherwise. -/
def State.msixSend (s : State) (port vec : Nat) : State :=
  if (s.msixByte (16 * vec + 12)).getLsbD 0 then { s with msix := { s.msix with pend := if nbit s.msix.pend vec then s.msix.pend else s.msix.pend + 2 ^ vec } }
  else s.emit .msix [port, vec, s.msixRead (16 * vec) 8, s.msixRead (16 * vec + 8) 4]
/-- Pending vectors that are no longer masked, sent. -/
def State.msixFlush (s : State) (port : Nat) : State :=
  (List.range 256).foldl (fun t v =>
    if nbit t.msix.pend v && !(t.msixByte (16 * v + 12)).getLsbD 0 then
      ({ t with msix := { t.msix with pend := t.msix.pend - 2 ^ v } } : State).msixSend port v
    else t) s

/-- An interrupt with a TARGET and a VECTOR (R354): host core 0 to 95, or an MSI-X message of PCIe port 0 to 3 in endpoint mode;
one for a core of a host die that does not run is dropped (R432). -/
def State.sendInt (s : State) (tgt vec : Nat) : State :=
  if tgt ≤ 95 then (if s.dom (.hd (if tgt < 48 then 0 else 1)) false = 2 then s.emit .interrupt [tgt, vec] else s)
  else if tgt ≤ 99 ∧ s.portMode (tgt - 96) 1 = true then s.msixSend (tgt - 96) vec else s
/-- The interrupt of a queue. -/
def State.eqInterrupt (s : State) (d : Die) (q : Nat) : State := s.sendInt (s.rf d .eqCfg q 55 49) (s.rf d .eqCfg q 48 41)

/-- A push of an entry (R354, R355), and whether the queue has taken it. -/
def State.eqTry (s : State) (d : Die) (q : Nat) (ev : List Nat) : Except Wait (Bool × State) :=
  let depth := s.rf d .eqStatus q 8 0
  if eqCount d ≤ q then .ok (false, s)
  else
    match s.rf d .eqStatus q 34 32 with
    | 1 =>
      if 256 ≤ depth then .ok (false, s)
      else
        let ctx := s.rf d .eqCfg q 11 0
        let x := (s.rf d .eqStatus q 23 16 + depth) % 256
        let va := va57 (s.rf d .eqBase q 56 0) + 64 * x
        match s.vaPut (eqWho d) ctx (s.eqLevel d ctx) va (ev.map (BitVec.ofNat 8)) with
        | .error w => .error w
        | .ok (.ok, t) =>
          let u := t.setRf d .eqStatus q 8 0 (depth + 1)
          .ok (true, if depth = 0 then u.eqInterrupt d q else u)
        | .ok (_, t) => .ok (true, (t.setRf d .eqStatus q 34 32 2).raise d (eqErrSrc d) q)
    | 2 => .ok (true, s.setRf d .eqStatus q 63 48 (min 65535 (s.rf d .eqStatus q 63 48 + 1)))
    | _ => .ok (false, s)
/-- A push by a hardware producer: one whose write is still under way is not taken yet. -/
def State.eqPush (s : State) (d : Die) (q : Nat) (ev : List Nat) : Bool × State :=
  match s.eqTry d q ev with
  | .ok r => r
  | .error w => (false, s.await w)

/-- Whether a producer of a die holds an event (R355). -/
def State.prodHeld (s : State) (d : Die) (prod : Nat) : Bool :=
  s.heldEv.any fun h => decide (h.die = d) && decide (h.prod = prod)

/-- Whether the oldest event that a producer holds is for a queue. -/
def State.heldFor (s : State) (d : Die) (prod q : Nat) : Bool :=
  match s.heldEv.find? (fun h => decide (h.die = d) && decide (h.prod = prod)) with
  | some h => decide (h.queue = q)
  | none => false

/-- A held event tried again; what its producer holds behind it stays in order. -/
def State.retryHeld (s : State) (d : Die) (prod : Nat) : State :=
  match s.heldEv.find? (fun h => decide (h.die = d) && decide (h.prod = prod)) with
  | none => s
  | some h =>
    let r := s.eqPush d h.queue h.ev
    if r.1 then { r.2 with heldEv := lDrop (fun x => decide (x.die = d) && decide (x.prod = prod)) r.2.heldEv } else r.2

/-- Held producers of a queue below a number, tried in their fixed order: command processor, channels, samplers (R355). -/
def State.retryBelow (s : State) (d : Die) (q n : Nat) : State :=
  (List.range n).foldl (fun t p => if t.heldFor d p q then t.retryHeld d p else t) s
/-- Whether no producer that comes before one is held for a queue. -/
def State.pushTurn (s : State) (d : Die) (q prod : Nat) : Bool := !(List.range prod).any fun p => s.heldFor d p q

/-- A hardware producer posts an event: it enters its queue after the producers held for the queue that come before it, or its producer
holds it (R355). -/
def State.post (s : State) (d : Die) (prod q : Nat) (ev : List Nat) : State :=
  let hold (t : State) : State := { t with heldEv := t.heldEv ++ [⟨d, prod, q, ev⟩] }
  if s.prodHeld d prod then hold s
  else
    let t := s.retryBelow d q prod
    if t.pushTurn d q prod = false then (hold t).newWork d 6
    else
      let r := t.eqPush d q ev
      if r.1 then r.2 else (hold r.2).newWork d 6

/-- A producer tries the event that it holds again, after those that come before it (R355). -/
def State.retryProd (s : State) (d : Die) (prod : Nat) : State :=
  match s.heldEv.find? (fun h => decide (h.die = d) && decide (h.prod = prod)) with
  | none => s
  | some h =>
    let t := s.retryBelow d h.queue prod
    if t.pushTurn d h.queue prod then t.retryHeld d prod else t

end Sys2Proof.Machine
end

