-- ==== Sys2Proof/Machine/Cmd.lean ====
section
/-!
DEFINITION. Commands of a stream as their engines see them (R349-R351): the record of a command in progress, its final
status, and its completion with the count and the event that its word asks for.
-/

namespace Sys2Proof.Machine
open Sys2Proof

/-- Fields of a command word (Table 12-2). -/
def cwOp (w : W64) : Nat := fld w 63 56
def cwLen (w : W64) : Nat := fld w 55 53
def cwC (w : W64) : Bool := w.getLsbD 52
def cwE (w : W64) : Bool := w.getLsbD 51
def Cmd.opnd (c : Cmd) (i : Nat) : W64 := c.ops[i]?.getD 0

/-- The command of a number on a die. -/
def State.cmd? (s : State) (die : Fin 4) (id : Nat) : Option Cmd :=
  s.cmds.find? fun c => decide (c.die = die) && decide (c.id = id)
def State.setCmd (s : State) (c : Cmd) : State :=
  { s with cmds := s.cmds.map fun x => if x.die = c.die ∧ x.id = c.id then c else x }
def State.dropCmd (s : State) (die : Fin 4) (id : Nat) : State :=
  { s with cmds := s.cmds.filter fun x => decide (¬ (x.die = die ∧ x.id = id)) }

/-- A command has its final status. -/
def State.cmdFin (s : State) (die : Fin 4) (id : Nat) (st : Status) (info : Nat) (tag : W64) : State :=
  { s with cmds := s.cmds.map fun x =>
      if x.die = die ∧ x.id = id then { x with fin := some st, info := info, tag := tag } else x }

/-- HEAD and TAIL of a queue (Table 12-20). -/
def State.cqHead (s : State) (die : Fin 4) (q : Nat) : Nat := s.rf (.cd die) .cqPtr q 31 0
def State.cqTail (s : State) (die : Fin 4) (q : Nat) : Nat := s.rf (.cd die) .cqPtr q 63 32

/-- The payload of CMD_DONE (Table 12-5): OP; the launch sequence number of a LAUNCH; the mask and the program's TAG of
a BURR. -/
def Cmd.payload (c : Cmd) : List Nat :=
  natBytes 4 (cwOp c.word) ++ natBytes 4 (if cwOp c.word = 1 then c.info else 0)
    ++ (if cwOp c.word = 4 then natBytes 8 c.info ++ natBytes 8 c.tag.toNat else [])

/-- A command completes with a status: CQ_COUNT counts it where C is set, and CMD_DONE is posted where E is set; a
SAMPLE's event is its sampler's (R350, Table 12-5). -/
def State.completeCmd (s : State) (c : Cmd) (st : Status) : State :=
  let s1 := s.dropCmd c.die c.id
  let s2 := if cwC c.word then s1.count (.cd c.die) .cqCount c.queue 1 else s1
  if cwE c.word && decide (cwOp c.word ≠ 6) then
    s2.post (.cd c.die) 0 (s2.cqEq c.die c.queue)
      (eventBytes 1 st c.ctx (0x4000 + c.die.val) c.queue (BitVec.ofNat 64 c.head) s.now c.payload)
  else s2

/-- STATE of a queue (Table 12-19): 0 IDLE, 1 RUN, 2 WAIT, 3 PAUSED, 4 ERROR, 5 DISABLED. -/
def State.cqSt (s : State) (die : Fin 4) (q : Nat) : Nat := s.rf (.cd die) .cqCfg q 23 21
def State.setCqSt (s : State) (die : Fin 4) (q v : Nat) : State := s.setRf (.cd die) .cqCfg q 23 21 v
def State.call? (s : State) (die : Fin 4) (q : Nat) : Option CallPos := aFind s.calls (die.val, q)

/-- A queue in service shows what it does: WAIT while its next command waits, RUN while words are left, else IDLE. -/
def State.cqSettle (s : State) (die : Fin 4) (q : Nat) : State :=
  if 2 < s.cqSt die q then s
  else if s.cmds.any (fun c => decide (c.die = die) && decide (c.queue = q) && !c.started) then s.setCqSt die q 2
  else if (s.call? die q).isSome || decide (s.cqHead die q ≠ s.cqTail die q) then s.setCqSt die q 1
  else s.setCqSt die q 0

/-- HEAD moves past `n` words of its ring, or the place in a called buffer does; the last word of the buffer completes
the CALL (R347, R349, R351). -/
def State.cqAdvance (s : State) (die : Fin 4) (q n : Nat) : State :=
  let bump (t : State) (k : Nat) : State := t.setRf (.cd die) .cqPtr q 31 0 ((t.cqHead die q + k) % 2 ^ 32)
  match s.call? die q with
  | some p =>
    if p.pos + n < p.words then { s with calls := aSet s.calls (die.val, q) { p with pos := p.pos + n } }
    else (bump { s with calls := aErase s.calls (die.val, q) } 2).completeCmd p.call .ok
  | none => bump s n

/-- A command starts (R349). -/
def State.cmdStart (s : State) (c : Cmd) : State :=
  (((s.setCmd { c with started := true }).cqAdvance c.die c.queue (1 + c.ops.length)).cqSettle c.die c.queue).newWork (.cd c.die) 2

end Sys2Proof.Machine
end

