-- ==== Sys2Proof/Machine/Operands.lean ====
section
/-!
DEFINITION. Tiles, blocks, groups and lanes as the thread instructions see them: lookups, register reads and writes
(R86, R87, R118), guards (R117), issue (R83, R84, R89, R145) and the operand forms of the R, I, M and U formats.
-/

namespace Sys2Proof.Machine

/-! ### Tiles and blocks -/

def State.tile (s : State) (t : TileRef) : Tile := aGet s.tiles Tile.empty t
def State.setTile (s : State) (t : TileRef) (x : Tile) : State := { s with tiles := aSet s.tiles t x }
def Tile.block? (x : Tile) (bid : Nat) : Option Block := x.blocks.find? fun b => decide (b.bid = bid)
def Tile.setBlock (x : Tile) (b : Block) : Tile :=
  { x with blocks := x.blocks.map fun y => if y.bid = b.bid then b else y }
def Tile.dropBlock (x : Tile) (bid : Nat) : Tile := { x with blocks := x.blocks.filter fun y => decide (y.bid ≠ bid) }
def State.setBlock (s : State) (t : TileRef) (b : Block) : State := s.setTile t ((s.tile t).setBlock b)
def Block.group? (b : Block) (g : Nat) : Option Group := b.groups[g]?
def Block.setGroup (b : Block) (g : Nat) (x : Group) : Block := { b with groups := b.groups.set g x }
/-- Launching die and launch sequence number of a block. -/
def bidDie (bid : Nat) : Nat := bid / 2 ^ 32
def bidSeq (bid : Nat) : Nat := bid % 2 ^ 32
def mkBid (die seq : Nat) : Nat := die * 2 ^ 32 + seq % 2 ^ 32

/-- The cluster L2 of a tile, as an agent of Table 10-2. -/
def tileAgent (t : TileRef) : Nat := 8 * t.die.val + t.tile / 16 % 8

/-- Outstanding memory instructions of a block, and of a group. -/
def Tile.opsOf (x : Tile) (bid : Nat) : List MOp := x.ops.filter fun o => decide (o.bid = bid)
def Tile.groupOps (x : Tile) (bid g : Nat) : List MOp := x.ops.filter fun o => decide (o.bid = bid) && decide (o.grp = g)

/-! ### Registers of a lane (R86, R118) -/

/-- One 32-bit register; a register beyond the declaration, and v255, read as zero. -/
def Lane.rv (l : Lane) (n k : Nat) : Nat := if k < n then (aGet l.v 0 k).toNat else 0
/-- One 32-bit register written; a register beyond the declaration, and v255, discard the write. -/
def Lane.wv (l : Lane) (n k : Nat) (x : Nat) : Lane := if k < n then { l with v := aSet l.v k (BitVec.ofNat 32 x) } else l
/-- A register, pair or quad, the low part in the first register. -/
def Lane.rvw (l : Lane) (n k width : Nat) : Nat :=
  if width = 128 then l.rv n k + l.rv n (k + 1) * 2 ^ 32 + l.rv n (k + 2) * 2 ^ 64 + l.rv n (k + 3) * 2 ^ 96
  else if width = 64 then l.rv n k + l.rv n (k + 1) * 2 ^ 32
  else l.rv n k
def Lane.wvw (l : Lane) (n k width x : Nat) : Lane :=
  if width = 128 then
    (((l.wv n k x).wv n (k + 1) (x / 2 ^ 32)).wv n (k + 2) (x / 2 ^ 64)).wv n (k + 3) (x / 2 ^ 96)
  else if width = 64 then (l.wv n k x).wv n (k + 1) (x / 2 ^ 32)
  else l.wv n k x
def Lane.rp (l : Lane) (k : Nat) : Bool := nbit l.p k
def Lane.wp (l : Lane) (k : Nat) (x : Bool) : Lane :=
  { l with p := if x then (if nbit l.p k then l.p else l.p + 2 ^ k) else (if nbit l.p k then l.p - 2 ^ k else l.p) }
def Group.ru (g : Group) (k : Nat) : W64 := aGet g.u 0 k
def Group.wu (g : Group) (k : Nat) (x : Nat) : Group := { g with u := aSet g.u k (BitVec.ofNat 64 x) }
/-- Whether all lanes have exited (R91). -/
def Group.ended (g : Group) : Bool := g.lanes.all fun l => l.exited
def Lane.live (l : Lane) : Bool := !l.exited && decide (l.atBar = 0)

/-- The lowest program counter of the lanes that have neither exited nor wait at a barrier (R89). -/
def Group.pc? (g : Group) : Option W64 :=
  g.lanes.foldl (fun a l =>
    if l.live then
      match a with
      | none => some l.pc
      | some p => if l.pc < p then some l.pc else some p
    else a) none
/-- The lanes at a program counter (R89). -/
def Group.active (g : Group) (pc : W64) : List Nat :=
  (withIdx g.lanes).filterMap fun x => if x.2.live && decide (x.2.pc = pc) then some x.1 else none
/-- Whether a lane's guard lets it execute (R117). -/
def guardOk (w : W64) (l : Lane) : Bool := !wGen w || (l.rp (wGp w) != wGneg w)

/-! ### Issue -/

/-- An instruction that a group issues: tile, block, group and its index, word, address, active and executing lanes. -/
structure TCtx where
  t : TileRef
  b : Block
  g : Group
  gi : Nat
  w : W64
  pc : W64
  act : List Nat
  exe : List Nat
deriving DecidableEq, Repr

/-- A lane mask. -/
def maskOf (l : List Nat) : Nat := l.foldl (fun m i => if nbit m i then m else m + 2 ^ i) 0

/-- The instruction cache's line for an address (R113). -/
def Tile.iline (x : Tile) (ctx : Nat) (pc : W64) : Option ICLine :=
  x.icache.find? fun e => decide (e.ctx = ctx) && decide (e.vline = pc.toNat / 128)
/-- The word at an address, where its line is held and its half is not poisoned. -/
def Tile.word? (x : Tile) (ctx : Nat) (pc : W64) : Option W64 :=
  if pc.toNat % 8 ≠ 0 then none
  else
    match x.iline ctx pc with
    | some e => if nbit e.bad (pc.toNat % 128 / 64) then none else some (e.data.extractLsb' (8 * (pc.toNat % 128)) 64)
    | none => none

def isMemOp : TOp → Bool
  | .ldg | .stg | .ldl | .stl | .ldu | .prf => true
  | o => isAtomic o

/-- A store or atomic lane that has not yet entered the write buffer or reached its line. -/
def MLane.waitsRoom (l : MLane) : Bool := match l.st with | .held => true | _ => false
def isStore : TOp → Bool
  | .stg => true
  | _ => false

/-- Whether an instruction waits for an outstanding fence of its group (R104): a release keeps back stores and atomics, the other
forms every access. -/
def fenceBars (f : W64) (o : TOp) : Bool :=
  if wf f 50 49 = 1 then isStore o || decide (o = .stl) || isAtomic o else isMemOp o
/-- A register whose writes are kept: one below the block's count (R86). -/
def TReg.kept (n : Nat) : TReg → Bool
  | .v k => decide (k < n)
  | _ => true
/-- The register count of a block. -/
def Tile.nregs (x : Tile) (bid : Nat) : Nat := match x.block? bid with | some b => b.nregs | none => 0

/-- Whether a group may issue an instruction: no older instruction writes a register it reads or writes (R145), no store
of the group waits for the write buffer (R100), no fence keeps it back (R104), and at most 8 memory instructions are
outstanding (R99). -/
def Tile.mayIssue (x : Tile) (bid gi : Nat) (o : TOp) (w : W64) : Bool :=
  let ops := x.groupOps bid gi
  let mine := (tsrcs o w ++ tdsts o w).filter (TReg.kept (x.nregs bid))
  ops.all (fun m => (tdsts m.op m.word).all (fun r => !mine.contains r))
    && ops.all (fun m => !(isStore m.op && m.lanes.any MLane.waitsRoom))
    && ops.all (fun m => !(decide (m.op = .fence) && fenceBars m.word o))
    && (!isMemOp o || decide ((ops.filter fun m => isMemOp m.op).length < 8))

/-- What a group finds at its program counter (R89, R113, R116): a running block, the word, and the lanes. -/
def State.frontOf (s : State) (g : GroupRef) : Option TCtx :=
  let t := g.tileRef
  let x := s.tile t
  if !s.running (.cd t.die) true then none
  else
    match x.block? g.bid with
    | none => none
    | some b =>
      if b.st ≠ .running then none
      else
        match b.group? g.grp with
        | none => none
        | some gr =>
          match gr.pc? with
          | none => none
          | some pc =>
            match x.word? b.ctx pc with
            | none => none
            | some w =>
              let act := gr.active pc
              some ⟨t, b, gr, g.grp, w, pc, act,
                act.filter fun i => match gr.lanes[i]? with | some l => guardOk w l | none => false⟩

/-- The issue of one kind of instruction by a group; none where the group does not issue it now. -/
def State.issueAt (s : State) (g : GroupRef) (o : TOp) : Option TCtx :=
  match s.frontOf g with
  | none => none
  | some c => if tdecode c.w = some o && (s.tile c.t).mayIssue g.bid g.grp o c.w then some c else none

/-- The group after an instruction of it has issued. -/
def State.putGroup (s : State) (c : TCtx) (g : Group) : State :=
  s.setBlock c.t { c.b.setGroup c.gi { g with issued := g.issued + 1 } with issued := c.b.issued + 1 }

/-- The lanes after an instruction: `f` on each executing lane, and every active lane moved to the next instruction. -/
def TCtx.lanes (c : TCtx) (f : Nat → Lane → Lane) : List Lane :=
  (withIdx c.g.lanes).map fun x =>
    let l := if c.exe.contains x.1 then f x.1 x.2 else x.2
    if c.act.contains x.1 then { l with pc := l.pc + 8 } else l

/-- An instruction that computes on each executing lane (R117). -/
def State.laneOp (s : State) (g : GroupRef) (o : TOp) (f : TCtx → Nat → Lane → Lane) : State :=
  match s.issueAt g o with
  | none => s
  | some c => s.putGroup c { c.g with lanes := c.lanes (f c) }

/-- An instruction that the group executes once (R119). -/
def State.groupOp (s : State) (g : GroupRef) (o : TOp) (f : TCtx → Group → Group) : State :=
  match s.issueAt g o with
  | none => s
  | some c => s.putGroup c (f c { c.g with lanes := c.lanes fun _ l => l })

/-! ### Operands of the R and I formats (Tables 4-2, 4-3) -/

/-- A register operand of a width, per thread or uniform. -/
def TCtx.opnd (c : TCtx) (l : Lane) (isU : Bool) (k width : Nat) : Nat :=
  if isU then (c.g.ru k).toNat % 2 ^ width else l.rvw c.b.nregs k width
def TCtx.tw (c : TCtx) : Nat := typeBits (wType c.w)
/-- The immediate of the I form, extended for the type (R120). -/
def immOf (w : W64) : Nat :=
  if wType w = 3 then unsignedBits 64 (signed 32 (wImm w)) else wImm w
def TCtx.a (c : TCtx) (l : Lane) : Nat :=
  if wIform c.w then l.rvw c.b.nregs (wIA c.w) c.tw else c.opnd l (wUA c.w) (wA c.w) c.tw
def TCtx.bOp (c : TCtx) (l : Lane) : Nat := if wIform c.w then immOf c.w else c.opnd l (wUB c.w) (wB c.w) c.tw
def TCtx.cOp (c : TCtx) (l : Lane) : Nat := c.opnd l (wUC c.w) (wC c.w) c.tw
/-- The destination of an R or I form written. -/
def TCtx.put (c : TCtx) (l : Lane) (x : Nat) : Lane :=
  l.wvw c.b.nregs (if wIform c.w then wID c.w else wD c.w) c.tw x
def TCtx.ity (c : TCtx) : ITy := atITy (wType c.w)
/-- Whether the saturating form is selected; an I form has no modifier bits (R120). -/
def TCtx.sat (c : TCtx) : Bool := !wIform c.w && wSat c.w
def TCtx.sub (c : TCtx) : Nat := if wIform c.w then 0 else wSub c.w

/-- Sign inversion of an operand (R125, R127). -/
def negOperand (t : Nat) (x : Nat) : Nat :=
  if t = 6 then pfNegBits x else if t = 5 then ln16neg x else x ^^^ 0x80000000
def TCtx.fa (c : TCtx) (l : Lane) : Nat :=
  let x := c.a l
  let y := if wType c.w = 5 then x % 2 ^ 16 else x
  if !wIform c.w && wNA c.w then negOperand (wType c.w) y else y
def TCtx.fb (c : TCtx) (l : Lane) : Nat :=
  let x := c.bOp l
  let y := if wType c.w = 5 then x % 2 ^ 16 else x
  if !wIform c.w && wNB c.w then negOperand (wType c.w) y else y
def TCtx.fc (c : TCtx) (l : Lane) : Nat :=
  let x := c.cOp l
  if wNC c.w then negOperand (wType c.w) x else x

/-! ### Operands of the U format (Table 4-6) -/

def TCtx.uaOp (c : TCtx) : Nat := (c.g.ru (wf c.w 41 36)).toNat % 2 ^ c.tw
def TCtx.ubOp (c : TCtx) : Nat := if wb c.w 56 then immOf c.w else (c.g.ru (wf c.w 35 30)).toNat % 2 ^ c.tw
def TCtx.uput (c : TCtx) (g : Group) (x : Nat) : Group := g.wu (wf c.w 47 42) (x % 2 ^ c.tw)

end Sys2Proof.Machine
end

