-- ==== Sys2Proof/Machine/Flags.lean ====
section
/-!
DEFINITION. Predicates: the conditions and combining of SETP (Table 4-9, R124), the votes, and the comparison of a
completion counter (R139).
-/

namespace Sys2Proof.Machine

/-- A condition of Table 4-9 from an order: less, equal, unordered. -/
def condHolds (cond : Nat) (lt eq un : Bool) : Bool :=
  match cond with
  | 0 => !un && eq
  | 1 => un || !eq
  | 2 => !un && lt
  | 3 => !un && (lt || eq)
  | 4 => !un && !lt && !eq
  | 5 => !un && !lt
  | 6 => un
  | _ => !un

/-- The condition of SETP on two operands of a type (R124). -/
def setpCond (t cond a b : Nat) : Bool :=
  if t = 4 then
    let x := f32d a
    let y := f32d b
    condHolds cond (x.lt y) (x.eqv y) (x.isNan || y.isNan)
  else if t = 5 then
    condHolds cond (ln16lt a b) (!ln16lt a b && !ln16lt b a) (ln16isNal a || ln16isNal b)
  else
    let ty := atITy t
    condHolds cond (decide (ty.val a < ty.val b)) (decide (ty.val a = ty.val b)) false

/-- Combining with a predicate (R124). -/
def setpComb (comb : Nat) (c p : Bool) : Bool :=
  match comb with
  | 0 => c
  | 1 => c && p
  | 2 => c || p
  | _ => c != p

/-- A predicate operation (PLOP, Table 4-16). -/
def plopVal (sub : Nat) (a b : Bool) : Bool :=
  match sub with
  | 0 => a && b
  | 1 => a || b
  | _ => a != b

/-- Whether a completion counter has reached a value: k - v as a signed 32-bit number is not negative (R139). -/
def reached (k v : W32) : Bool := !(k - v).getLsbD 31

end Sys2Proof.Machine
end

