-- ==== Sys2Proof/Machine/Threads.lean ====
section
/-!
DEFINITION. The thread instructions of Chapter 04 that touch no memory: integer and comparison, floating-point,
logarithmic and convert, control flow, completion counters, random, timestamp and lane instructions, and the uniform
class.
-/

namespace Sys2Proof.Machine
open Sys2Proof

/-! ### Integer and comparison (Table 4-8) -/

/-- MOV: D = A, or the immediate (R122). -/
def execMov (g : GroupRef) (s : State) : Host.Outcome State Fault Refusal :=
  done s (s.laneOp g .mov fun c _ l => c.put l (if wIform c.w then immOf c.w else c.a l))
/-- ADD, wrapping or saturating (R122). -/
def execAdd (g : GroupRef) (s : State) : Host.Outcome State Fault Refusal :=
  done s (s.laneOp g .add fun c _ l => c.put l (iAdd c.ity c.sat (c.a l) (c.bOp l)))
/-- SUB, wrapping or saturating (R122). -/
def execSub (g : GroupRef) (s : State) : Host.Outcome State Fault Refusal :=
  done s (s.laneOp g .sub fun c _ l => c.put l (iSub c.ity c.sat (c.a l) (c.bOp l)))
/-- MUL: the low half, or the saturated product (R122). -/
def execMul (g : GroupRef) (s : State) : Host.Outcome State Fault Refusal :=
  done s (s.laneOp g .mul fun c _ l => c.put l (iMul c.ity c.sat (c.a l) (c.bOp l)))
/-- MULHI: the high half of the double-width product (R122). -/
def execMulhi (g : GroupRef) (s : State) : Host.Outcome State Fault Refusal :=
  done s (s.laneOp g .mulhi fun c _ l => c.put l (iMulHi c.ity (c.a l) (c.bOp l)))
/-- MAD: the low half of A × B + C (R122). -/
def execMad (g : GroupRef) (s : State) : Host.Outcome State Fault Refusal :=
  done s (s.laneOp g .mad fun c _ l => c.put l (iMad c.ity (c.a l) (c.bOp l) (c.cOp l)))
/-- DIV under Table 2-8 (R122). -/
def execDiv (g : GroupRef) (s : State) : Host.Outcome State Fault Refusal :=
  done s (s.laneOp g .div fun c _ l => c.put l (iDiv c.ity c.sat (c.a l) (c.bOp l)))
/-- REM under Table 2-8 (R122). -/
def execRem (g : GroupRef) (s : State) : Host.Outcome State Fault Refusal :=
  done s (s.laneOp g .rem fun c _ l => c.put l (iRem c.ity (c.a l) (c.bOp l)))
/-- AND (R122). -/
def execAnd (g : GroupRef) (s : State) : Host.Outcome State Fault Refusal :=
  done s (s.laneOp g .and fun c _ l => c.put l (iAnd c.ity (c.a l) (c.bOp l)))
/-- OR (R122). -/
def execOr (g : GroupRef) (s : State) : Host.Outcome State Fault Refusal :=
  done s (s.laneOp g .or fun c _ l => c.put l (iOr c.ity (c.a l) (c.bOp l)))
/-- XOR (R122). -/
def execXor (g : GroupRef) (s : State) : Host.Outcome State Fault Refusal :=
  done s (s.laneOp g .xor fun c _ l => c.put l (iXor c.ity (c.a l) (c.bOp l)))
/-- SHL by the unsigned count B[31:0] (R123). -/
def execShl (g : GroupRef) (s : State) : Host.Outcome State Fault Refusal :=
  done s (s.laneOp g .shl fun c _ l => c.put l (iShl c.ity (c.a l) (c.bOp l % 2 ^ 32)))
/-- SHR, logical for u types and arithmetic for s types (R123). -/
def execShr (g : GroupRef) (s : State) : Host.Outcome State Fault Refusal :=
  done s (s.laneOp g .shr fun c _ l => c.put l (iShr c.ity (c.a l) (c.bOp l % 2 ^ 32)))
/-- MINMAX: SUB 0 minimum, 1 maximum (R122). -/
def execMinmax (g : GroupRef) (s : State) : Host.Outcome State Fault Refusal :=
  done s (s.laneOp g .minmax fun c _ l =>
    c.put l (if c.sub = 0 then iMin c.ity (c.a l) (c.bOp l) else iMax c.ity (c.a l) (c.bOp l)))
/-- BITOP: leading zeros, population count, bit reverse, absolute value (R122, R123). -/
def execBitop (g : GroupRef) (s : State) : Host.Outcome State Fault Refusal :=
  done s (s.laneOp g .bitop fun c _ l =>
    let a := c.a l
    c.put l (match c.sub with
      | 0 => iClz c.ity a
      | 1 => popCount c.tw a
      | 2 => bitRev c.tw a
      | _ => iAbs c.ity c.sat a))
/-- SETP: a condition of Table 4-9 on A and B, combined, into a predicate (R124). -/
def execSetp (g : GroupRef) (s : State) : Host.Outcome State Fault Refusal :=
  done s (s.laneOp g .setp fun c _ l =>
    let t := wType c.w
    let m := if t = 5 then 2 ^ 16 else 2 ^ c.tw
    if wb c.w 56 then
      l.wp (wf c.w 42 40) (setpCond t (wf c.w 47 44) (l.rvw c.b.nregs (wIA c.w) c.tw % m) (immOf c.w % m))
    else
      let k := setpCond t (wf c.w 47 44) (c.opnd l (wUA c.w) (wA c.w) c.tw % m) (c.opnd l (wUB c.w) (wB c.w) c.tw % m)
      l.wp (wD c.w) (setpComb (wf c.w 43 42) k (l.rp (wC c.w))))

/-! ### Floating-point (Table 4-10) -/

/-- FADD (R125). -/
def execFadd (g : GroupRef) (s : State) : Host.Outcome State Fault Refusal :=
  done s (s.laneOp g .fadd fun c _ l =>
    c.put l (if wType c.w = 6 then pfAdd (c.fa l) (c.fb l) else f32add (c.fa l) (c.fb l)))
/-- FSUB (R125). -/
def execFsub (g : GroupRef) (s : State) : Host.Outcome State Fault Refusal :=
  done s (s.laneOp g .fsub fun c _ l =>
    c.put l (if wType c.w = 6 then pfSub (c.fa l) (c.fb l) else f32sub (c.fa l) (c.fb l)))
/-- FMUL (R125). -/
def execFmul (g : GroupRef) (s : State) : Host.Outcome State Fault Refusal :=
  done s (s.laneOp g .fmul fun c _ l =>
    c.put l (if wType c.w = 6 then pfMul (c.fa l) (c.fb l) else f32mul (c.fa l) (c.fb l)))
/-- FFMA: A × B + C with one rounding (R125). -/
def execFfma (g : GroupRef) (s : State) : Host.Outcome State Fault Refusal :=
  done s (s.laneOp g .ffma fun c _ l => c.put l (f32fma (c.fa l) (c.fb l) (c.fc l)))
/-- FMINMAX (R125). -/
def execFminmax (g : GroupRef) (s : State) : Host.Outcome State Fault Refusal :=
  done s (s.laneOp g .fminmax fun c _ l =>
    c.put l (if c.sub = 0 then f32min (c.fa l) (c.fb l) else f32max2 (c.fa l) (c.fb l)))
/-- FDIV, correctly rounded (R125). -/
def execFdiv (g : GroupRef) (s : State) : Host.Outcome State Fault Refusal :=
  done s (s.laneOp g .fdiv fun c _ l => c.put l (f32div (c.fa l) (c.fb l)))
/-- FUN1: square root, reciprocal, reciprocal square root (R126). -/
def execFun1 (g : GroupRef) (s : State) : Host.Outcome State Fault Refusal :=
  done s (s.laneOp g .fun1 fun c _ l => c.put l (f32fun c.sub (c.fa l)))
/-- FUN2: 2^A, log2 A, absolute value (R126). -/
def execFun2 (g : GroupRef) (s : State) : Host.Outcome State Fault Refusal :=
  done s (s.laneOp g .fun2 fun c _ l =>
    c.put l (match c.sub with
      | 0 => f32exp2 (c.fa l)
      | 1 => f32log2 (c.fa l)
      | _ => f32abs (c.fa l)))

/-! ### Logarithmic and convert (Table 4-11) -/

/-- LMUL (R127). -/
def execLmul (g : GroupRef) (s : State) : Host.Outcome State Fault Refusal :=
  done s (s.laneOp g .lmul fun c _ l => c.put l (ln16mul (c.fa l) (c.fb l)))
/-- LDIV (R127). -/
def execLdiv (g : GroupRef) (s : State) : Host.Outcome State Fault Refusal :=
  done s (s.laneOp g .ldiv fun c _ l => c.put l (ln16div (c.fa l) (c.fb l)))
/-- LPOW: A to the s32 value of B (R128). -/
def execLpow (g : GroupRef) (s : State) : Host.Outcome State Fault Refusal :=
  done s (s.laneOp g .lpow fun c _ l => c.put l (ln16pow (c.fa l) (signed 32 (c.bOp l))))
/-- LROOT: square root, reciprocal square root (R128). -/
def execLroot (g : GroupRef) (s : State) : Host.Outcome State Fault Refusal :=
  done s (s.laneOp g .lroot fun c _ l => c.put l (ln16root (decide (c.sub = 1)) (c.fa l)))
/-- LADD: sum or difference through binary32 (R129). -/
def execLadd (g : GroupRef) (s : State) : Host.Outcome State Fault Refusal :=
  done s (s.laneOp g .ladd fun c _ l =>
    c.put l (if c.sub = 0 then ln16add (c.fa l) (c.fb l) else ln16sub (c.fa l) (c.fb l)))
/-- CVT between the formats of Table 2-1, drawing from the thread's generator where it rounds stochastically (R130, R73). -/
def execCvt (g : GroupRef) (s : State) : Host.Outcome State Fault Refusal :=
  done s (s.laneOp g .cvt fun c _ l =>
    let df := Format.ofId (wf c.w 50 47)
    let sf := Format.ofId (wf c.w 46 43)
    let x := c.opnd l (wUA c.w) (wA c.w) (cvtBits (wf c.w 46 43)) % 2 ^ sf.bits
    let m := wf c.w 42 41
    let draws := decide (m = 2) && cvtDrawsLog sf df x 0 0
    let d := if draws then genDraw 16 l.gen else (0, l.gen)
    let mode : RMode := match m with | 1 => .rtz | 2 => .sr d.1 | _ => .rne
    ({ l with gen := d.2 }).wvw c.b.nregs (wD c.w) (cvtBits (wf c.w 50 47)) (convert sf df mode x 0 0))
/-- LMINMAX (R127). -/
def execLminmax (g : GroupRef) (s : State) : Host.Outcome State Fault Refusal :=
  done s (s.laneOp g .lminmax fun c _ l =>
    c.put l (if c.sub = 0 then ln16min (c.fa l) (c.fb l) else ln16max (c.fa l) (c.fb l)))

/-! ### Control flow (Table 4-14) -/

/-- One opening of the block barrier where every group that has not ended has arrived (R92). -/
def Block.openOnce (b : Block) : Option Block :=
  let w := b.groups.filter fun g => !g.ended
  if !w.isEmpty && w.all (fun g => decide (0 < g.arrived)) then
    some { b with groups := b.groups.map fun g =>
      if g.ended then g
      else { g with arrived := g.arrived - 1, lanes := g.lanes.map fun l => { l with atBar := l.atBar - 1 } } }
  else none
/-- The openings that are due (R92); none in a block that does not run (R112). -/
def Block.tryOpen (b : Block) : Nat → Block
  | 0 => b
  | n + 1 =>
    if b.st ≠ .running then b
    else
      match b.openOnce with
      | some b' => b'.tryOpen n
      | none => b

/-- Whether an access is performed at block scope: loads and atomics answered, stores in the write buffer (R104). -/
def MOp.settled (m : MOp) : Bool :=
  m.lanes.all fun l =>
    match l.st with
    | .done _ _ => true
    | .wait => isStore m.op
    | _ => false
/-- Whether a group's accesses are performed at block scope. -/
def Tile.settled (x : Tile) (bid gi : Nat) : Bool := (x.groupOps bid gi).all MOp.settled

/-- The openings of a block's barrier, each a full fence for its groups: none while one of their accesses is not performed at
block scope (R92). -/
def State.openBarrier (s : State) (t : TileRef) (bid : Nat) : State :=
  match (s.tile t).block? bid with
  | some b => if ((s.tile t).opsOf bid).all MOp.settled then s.setBlock t (b.tryOpen 64) else s
  | none => s

/-- A control-flow instruction: each executing lane goes where `f` sends it, the others to the next instruction. -/
def State.flowOp (s : State) (g : GroupRef) (o : TOp) (f : TCtx → Lane → Lane) : State :=
  match s.issueAt g o with
  | none => s
  | some c =>
    let ls := (withIdx c.g.lanes).map fun x =>
      if c.exe.contains x.1 then f c x.2 else if c.act.contains x.1 then { x.2 with pc := x.2.pc + 8 } else x.2
    s.putGroup c { c.g with lanes := ls }

/-- BRA: to the relative target (R136). -/
def execBra (g : GroupRef) (s : State) : Host.Outcome State Fault Refusal :=
  done s (s.flowOp g .bra fun c l => { l with pc := c.pc + wBoff c.w })
/-- JMP: to the address in a pair, or in a uniform register (R136). -/
def execJmp (g : GroupRef) (s : State) : Host.Outcome State Fault Refusal :=
  done s (s.flowOp g .jmp fun c l => { l with pc := BitVec.ofNat 64 (c.opnd l (wb c.w 48) (wD c.w) 64) })
/-- CALL: the next address to a pair, then to the relative target (R136). -/
def execCall (g : GroupRef) (s : State) : Host.Outcome State Fault Refusal :=
  done s (s.flowOp g .call fun c l =>
    { l.wvw c.b.nregs (wD c.w) 64 (c.pc + 8).toNat with pc := c.pc + wBoff c.w })
/-- EXIT: the lane leaves; a group that ends counts as arrived at a barrier (R91, R92). -/
def execExit (g : GroupRef) (s : State) : Host.Outcome State Fault Refusal :=
  done s ((s.flowOp g .exit fun _ l => { l with exited := true }).openBarrier g.tileRef g.bid)
/-- BAR: the group arrives, and its active lanes wait for this arrival's opening (R92). -/
def execBar (g : GroupRef) (s : State) : Host.Outcome State Fault Refusal :=
  done s (match s.issueAt g .bar with
    | none => s
    | some c =>
      let n := c.g.arrived + 1
      let ls := (withIdx c.g.lanes).map fun x =>
        if c.act.contains x.1 then { x.2 with pc := x.2.pc + 8, atBar := n } else x.2
      (s.putGroup c { c.g with arrived := n, lanes := ls }).openBarrier g.tileRef g.bid)
/-- NOP (R136). -/
def execNop (g : GroupRef) (s : State) : Host.Outcome State Fault Refusal := done s (s.laneOp g .nop fun _ _ l => l)

/-! ### Completion counters (Table 4-15) -/

/-- WAITK: issues once the counter has reached its value (R139). -/
def execWaitk (g : GroupRef) (s : State) : Host.Outcome State Fault Refusal :=
  done s (match s.issueAt g .waitk with
    | none => s
    | some c =>
      let v : Nat := if wb c.w 47 then (c.g.ru (wA c.w)).toNat else wf c.w 23 8
      if reached (c.b.k[wf c.w 50 48]?.getD 0) (BitVec.ofNat 32 v) then s.groupOp g .waitk fun _ gr => gr else s)
/-- RDK: the counter's value, sampled once (R139). -/
def execRdk (g : GroupRef) (s : State) : Host.Outcome State Fault Refusal :=
  done s (s.laneOp g .rdk fun c _ l => l.wv c.b.nregs (wD c.w) (c.b.k[wf c.w 50 48]?.getD 0).toNat)

/-! ### Random, timestamp and lane instructions (Table 4-16) -/

/-- RND by kind (R141). -/
def rndLane (c : TCtx) (l : Lane) : Lane :=
  let n := c.b.nregs
  let d := wD c.w
  match wf c.w 50 48 with
  | 0 => let r := genDraw 32 l.gen; ({ l with gen := r.2 }).wv n d r.1
  | 1 => let r := genDraw 64 l.gen; ({ l with gen := r.2 }).wvw n d 64 r.1
  | 2 => let r := genDraw 32 l.gen; ({ l with gen := r.2 }).wv n d (rndUniform r.1)
  | 3 =>
    let r := genDraw 32 l.gen
    let q := genDraw 32 r.2
    let z := rndNormalBM r.1 q.1
    ({ l with gen := q.2 }).wvw n d 64 (z.1 + z.2 * 2 ^ 32)
  | 4 => let r := genDraw 32 l.gen; ({ l with gen := r.2 }).wv n d (rndNormalIcdf r.1)
  | 5 =>
    let r := genDraw 16 l.gen
    ({ l with gen := r.2 }).wp d (decide (r.1 < c.opnd l (wUB c.w) (wB c.w) 32 % 2 ^ 16))
  | 6 => { l with gen := genLoad (BitVec.ofNat 64 (l.rvw n (wA c.w) 64)) }
  | _ => l.wvw n d 64 l.gen.toNat
/-- RND (R141). -/
def execRnd (g : GroupRef) (s : State) : Host.Outcome State Fault Refusal :=
  done s (s.laneOp g .rnd fun c _ l => rndLane c l)
/-- TIME: the package timestamp or the tile clock count, into a pair or a uniform register (R141). -/
def execTime (g : GroupRef) (s : State) : Host.Outcome State Fault Refusal :=
  let v (c : TCtx) : Nat := if wf c.w 50 48 = 0 then s.now.toNat else (aGet s.cycles 0 g.die.val).toNat
  done s (match s.issueAt g .time with
    | none => s
    | some c =>
      if wb c.w 47 then s.groupOp g .time fun c gr => gr.wu (wD c.w) (v c)
      else s.laneOp g .time fun c _ l => l.wvw c.b.nregs (wD c.w) 64 (v c))
/-- SEL (R141). -/
def execSel (g : GroupRef) (s : State) : Host.Outcome State Fault Refusal :=
  done s (s.laneOp g .sel fun c _ l => c.put l (if l.rp (wC c.w) then c.a l else c.bOp l))
/-- PLOP (R141). -/
def execPlop (g : GroupRef) (s : State) : Host.Outcome State Fault Refusal :=
  done s (s.laneOp g .plop fun c _ l =>
    l.wp (wD c.w) (plopVal (wSub c.w) (l.rp (wA c.w) != wNA c.w) (l.rp (wB c.w) != wNB c.w)))
/-- The source lane of SHFL (R141). -/
def shflFrom (sub w i b : Nat) : Nat :=
  match sub with
  | 0 => b % w
  | 1 => if b ≤ i then i - b else i
  | 2 => if i + b < w then i + b else i
  | _ => if i ^^^ b < w then i ^^^ b else i
/-- SHFL: A of the source lane, active or not (R141). -/
def execShfl (g : GroupRef) (s : State) : Host.Outcome State Fault Refusal :=
  done s (s.laneOp g .shfl fun c i l =>
    let src := shflFrom (wSub c.w) c.b.width i (c.opnd l (wUB c.w) (wB c.w) 32)
    c.put l (match c.g.lanes[src]? with | some q => q.rvw c.b.nregs (wA c.w) c.tw | none => 0))
/-- VOTE: ballot into a uniform register, or any or all into a predicate (R141). -/
def execVote (g : GroupRef) (s : State) : Host.Outcome State Fault Refusal :=
  done s (match s.issueAt g .vote with
    | none => s
    | some c =>
      let yes (i : Nat) : Bool := match c.g.lanes[i]? with | some l => l.rp (wA c.w) | none => false
      if wSub c.w = 0 then
        s.groupOp g .vote fun c gr => if c.exe.isEmpty then gr else gr.wu (wD c.w) (maskOf (c.exe.filter yes))
      else
        let r := if wSub c.w = 1 then c.exe.any yes else c.exe.all yes
        s.laneOp g .vote fun c _ l => l.wp (wD c.w) r)
/-- RDLANE: a lane's register into a uniform register (R141). -/
def execRdlane (g : GroupRef) (s : State) : Host.Outcome State Fault Refusal :=
  done s (s.groupOp g .rdlane fun c gr =>
    if c.exe.isEmpty then gr
    else gr.wu (wD c.w) (match c.g.lanes[wC c.w % c.b.width]? with | some q => q.rvw c.b.nregs (wA c.w) c.tw | none => 0))

/-! ### Uniform integer (R144) -/

/-- UMOV (R144). -/
def execUmov (g : GroupRef) (s : State) : Host.Outcome State Fault Refusal :=
  done s (s.groupOp g .umov fun c gr => c.uput gr (if wb c.w 56 then immOf c.w else c.uaOp))
/-- UADD (R144). -/
def execUadd (g : GroupRef) (s : State) : Host.Outcome State Fault Refusal :=
  done s (s.groupOp g .uadd fun c gr => c.uput gr (iAdd c.ity false c.uaOp c.ubOp))
/-- USUB (R144). -/
def execUsub (g : GroupRef) (s : State) : Host.Outcome State Fault Refusal :=
  done s (s.groupOp g .usub fun c gr => c.uput gr (iSub c.ity false c.uaOp c.ubOp))
/-- UMUL (R144). -/
def execUmul (g : GroupRef) (s : State) : Host.Outcome State Fault Refusal :=
  done s (s.groupOp g .umul fun c gr => c.uput gr (iMul c.ity false c.uaOp c.ubOp))
/-- UAND (R144). -/
def execUand (g : GroupRef) (s : State) : Host.Outcome State Fault Refusal :=
  done s (s.groupOp g .uand fun c gr => c.uput gr (iAnd c.ity c.uaOp c.ubOp))
/-- UOR (R144). -/
def execUor (g : GroupRef) (s : State) : Host.Outcome State Fault Refusal :=
  done s (s.groupOp g .uor fun c gr => c.uput gr (iOr c.ity c.uaOp c.ubOp))
/-- USHL (R144). -/
def execUshl (g : GroupRef) (s : State) : Host.Outcome State Fault Refusal :=
  done s (s.groupOp g .ushl fun c gr => c.uput gr (iShl c.ity c.uaOp (c.ubOp % 2 ^ 32)))
/-- USHR (R144). -/
def execUshr (g : GroupRef) (s : State) : Host.Outcome State Fault Refusal :=
  done s (s.groupOp g .ushr fun c gr => c.uput gr (iShr c.ity c.uaOp (c.ubOp % 2 ^ 32)))

end Sys2Proof.Machine
end

