-- ==== Sys2Proof/Machine/TileMem.lean ====
section
/-!
DEFINITION. The memory instructions of the threads: issue, the L1 and the write buffer (R99-R101, R284-R287, R290, R291),
walks of a tile (R318), local memory (R93-R96), atomics (R107-R109), fences (R104, R286), and halts (R110-R112, R115, R116).
-/

namespace Sys2Proof.Machine
open Sys2Proof

/-! ### L1 (R284, R285) -/

def Tile.l1Find (x : Tile) (line : Nat) : Option L1Line := x.l1.find? fun e => decide (e.line = line)
/-- The tree bits after a touch of a way (R285). -/
def treeTouch (t w : Nat) : Nat :=
  let put (t i : Nat) (b : Bool) : Nat := if nbit t i = b then t else if b then t + 2 ^ i else t - 2 ^ i
  put (put (put t 0 (decide (w < 4))) (1 + w / 4) (decide (w / 2 % 2 = 0))) (3 + w / 2) (decide (w % 2 = 0))
/-- The victim that the tree bits name (R285). -/
def treeVictim (t : Nat) : Nat :=
  let h := b2n (nbit t 0)
  let q := b2n (nbit t (1 + h))
  let r := b2n (nbit t (3 + 2 * h + q))
  4 * h + 2 * q + r
def Tile.touch (x : Tile) (set way : Nat) : Tile := { x with trees := aSet x.trees set (treeTouch (aGet x.trees 0 set) way) }
def Tile.l1Drop (x : Tile) (line : Nat) : Tile := { x with l1 := x.l1.filter fun e => decide (e.line ≠ line) }
/-- A fill installed: the lowest invalid way, or the victim (R285). -/
def Tile.l1Install (x : Tile) (line : Nat) (d : Line) : Tile :=
  let set := line % 64
  let y := x.l1Drop line
  let used := (y.l1.filter fun e => decide (e.set = set)).map fun e => e.way
  let way := match (List.range 8).find? (fun w => !used.contains w) with
    | some w => w
    | none => treeVictim (aGet x.trees 0 set)
  ({ y with l1 := (y.l1.filter fun e => decide (¬ (e.set = set ∧ e.way = way))) ++ [⟨set, way, line, d⟩] } : Tile).touch set way
/-- A store that hits updates the line (R100). -/
def Tile.l1Store (x : Tile) (line mask : Nat) (d : Line) : Tile :=
  match x.l1Find line with
  | none => x
  | some e =>
    let l := x.l1.map fun y => if y.line = line then { y with data := lineMerge y.data d mask 128 } else y
    ({ x with l1 := l } : Tile).touch e.set e.way

/-! ### Write buffer (R287) -/

/-- Whether bytes of a line lie in the write buffer (R100). -/
def Tile.buffered (x : Tile) (line mask : Nat) : Bool := x.wb.any fun e => decide (e.line = line) && decide (e.mask &&& mask ≠ 0)
/-- A store enters the buffer: merged into the youngest entry for its line where that may take it, otherwise in a new
entry; none where the buffer is full (R287). -/
def Tile.wbPut (x : Tile) (e : WbEnt) : Option Tile :=
  match (x.wb.filter fun y => decide (y.line = e.line)).getLast? with
  | some y =>
    if !y.sent && decide (y.ctx = e.ctx) && decide (y.pl = e.pl) then
      some { x with wb := x.wb.map fun z =>
        if z = y then
          { y with
            mask := y.mask ||| e.mask, data := lineMerge y.data e.data e.mask 128, who := y.who ++ e.who, strm := y.strm && e.strm }
        else z }
    else if x.wb.length < 16 then some { x with wb := x.wb ++ [e] } else none
  | none => if x.wb.length < 16 then some { x with wb := x.wb ++ [e] } else none
/-- A line with the tile's own buffered stores (R100). -/
def Tile.withStores (x : Tile) (line : Nat) (d : Line) : Line :=
  x.wb.foldl (fun a e => if e.line = line then lineMerge a e.data e.mask 128 else a) d

/-! ### Operations in progress -/

def Tile.op? (x : Tile) (oid : Nat) : Option MOp := x.ops.find? fun o => decide (o.oid = oid)
def State.op? (s : State) (t : TileRef) (oid : Nat) : Option MOp := (s.tile t).op? oid
/-- The progress of one lane replaced. -/
def Tile.setLane (x : Tile) (oid i : Nat) (f : MLane → MLane) : Tile :=
  { x with ops := x.ops.map fun o =>
      if o.oid = oid then { o with lanes := o.lanes.map fun l => if l.lane = i then f l else l } else o }
def State.setLaneSt (s : State) (t : TileRef) (oid i : Nat) (st : LState) : State :=
  s.setTile t ((s.tile t).setLane oid i fun l => { l with st := st })

/-- Bytes that one lane of an instruction accesses. -/
def opBytes (o : TOp) (w : W64) : Nat := if isAtomic o then atBits (wSZ w) / 8 else szBytes (wSZ w)
/-- Access type of Table 11-16's checks. -/
def opTyp (o : TOp) : Nat := match o with | .stg => 1 | _ => if isAtomic o then 2 else 0
def isLoc (o : TOp) (w : W64) : Bool := isLocalOp o || (isAtomic o && wb w 47)
/-- ACCESS of Table 3-6. -/
def accessCode (o : TOp) (w : W64) : Nat :=
  match o with
  | .stg => 1
  | .ldl => 3
  | .stl => 4
  | _ => if isAtomic o then (if wb w 47 then 5 else 2) else 0
/-- The atomic operation of one lane: operand in the low 64 bits of its data, compare operand above (R135). -/
def laneAtOp (o : TOp) (w : W64) (data : Nat) : AtOp :=
  let k := match o with
    | .aadd => 0 | .aadds => 1 | .amin => 2 | .amax => 3 | .aand => 4 | .aor => 5 | .axor => 6 | .axchg => 7 | _ => 8
  ⟨k, wSZ w, data % 2 ^ 64, data / 2 ^ 64⟩

/-- Whether two lanes' bytes may overlap; the low 16 bits of an address are the same under every page size. -/
def mayOverlap (a na b nb : Nat) : Bool :=
  let x := a % 2 ^ 16
  let y := b % 2 ^ 16
  decide (x < y + nb) && decide (y < x + na)

/-- Whether two lanes belong to one thread; LDU is every thread's of its group (R119). -/
def sameThread (p : MOp) (k : MLane) (o : MOp) (l : MLane) : Bool := decide (k.lane = l.lane) || decide (p.op = .ldu) || decide (o.op = .ldu)

/-- Whether a lane waits for an older access of its own thread to the same bytes, or for a lower lane's store of its own
instruction (R96, R102). -/
def Tile.laneBlocked (x : Tile) (o : MOp) (l : MLane) : Bool :=
  let n := opBytes o.op o.word
  x.ops.any fun p =>
    if p.oid = o.oid then
      isStore o.op && p.lanes.any fun k => decide (k.lane < l.lane) && mayOverlap k.addr n l.addr n &&
        (match k.st with | .untr => true | .held => true | _ => false)
    else
      decide (p.bid = o.bid) && decide (p.grp = o.grp) && decide (p.seq < o.seq) && !isLoc p.op p.word && !isLoc o.op o.word
        && p.lanes.any fun k => sameThread p k o l && mayOverlap k.addr (opBytes p.op p.word) l.addr n &&
          (match k.st with | .done _ _ => false | .wait => !isStore p.op | _ => true)

/-- Whether a lane goes on: the lanes of an atomic that name one address go on together (R107). -/
def Tile.laneFree (x : Tile) (o : MOp) (l : MLane) : Bool :=
  if isAtomic o.op then o.lanes.all fun k => decide (k.addr ≠ l.addr) || !x.laneBlocked o k else !x.laneBlocked o l

/-- Whether a missing lookup has stalled the L1 (R99). -/
def Tile.l1Stalled (x : Tile) : Bool := x.ops.any fun o => o.lanes.any fun l => decide (l.st = .stall)

/-- One lane of a translated access to pool or CXL memory goes as far as it can (R99-R101): an atomic past the L1, any other by
a lookup, which a stalled L1 serves for no group. A miss that meets an outstanding one stalls the L1, unless another lane of its
instruction has asked for the same line. -/
def State.laneMem (s : State) (t : TileRef) (b : Block) (o : MOp) (l : MLane) (pa il : Nat) : State :=
  let x := s.tile t
  let n := opBytes o.op o.word
  let line := pa / 128
  let mask := spanMask (pa % 128) n
  let strm := decide (wHint o.word % 2 = 1)
  let put (y : Tile) (st : LState) : State := s.setTile t (y.setLane o.oid l.lane fun k => { k with pa := pa, il := il, st := st })
  if isAtomic o.op then
    if x.buffered line mask then put x .held else put (x.l1Drop line) .wait
  else if x.l1Stalled then s
  else
    match o.op with
    | .stg =>
      let d := linePut 0 (pa % 128) n l.data
      match x.wbPut ⟨line, b.ctx, b.pl, il, mask, d, false, [(o.oid, l.lane)], strm⟩ with
      | none => put x .held
      | some y => put (y.l1Store line mask d) .wait
    | op =>
      if x.buffered line mask then put x .held
      else
        let miss (inL1 : Bool) : State :=
          if x.fills.isEmpty then
            put { x with fills := [⟨o.oid, line, b.ctx, b.pl, il, inL1, strm⟩] } (if op = .prf then .done .ok 0 else .wait)
          else if op ≠ .prf ∧ x.fills.any (fun f => f.line = line) = true
              ∧ o.lanes.any (fun k => decide (k.st = .wait) && decide (k.pa / 128 = line)) = true then put x .wait
          else put x .stall
        match (if op = .prf ∧ wHint o.word = 2 then none else x.l1Find line) with
        | some e => put (x.touch e.set e.way) (.done .ok (lineNat e.data (pa % 128) n))
        | none => miss (decide (wHint o.word < 2))

/-- One lane of a translated access (R40, R362): control space and the memory behind root ports are no cached memory. -/
def State.laneGo (s : State) (t : TileRef) (b : Block) (o : MOp) (l : MLane) (pa il : Nat) : State :=
  let n := opBytes o.op o.word
  match s.region pa with
  | .control =>
    if (ctlSplit pa).1.any (s.passes (.cd t.die)) then s
    else
    match o.op with
    | .stg => let r := s.ctlWritePa (.cd t.die) b.pl b.ctx pa n l.data; r.2.setLaneSt t o.oid l.lane (.done r.1 0)
    | op =>
      if isAtomic op then s.setLaneSt t o.oid l.lane (.done .perm 0)
      else let r := s.ctlReadPa (.cd t.die) b.pl b.ctx pa n; r.2.2.setLaneSt t o.oid l.lane (.done r.1 r.2.1)
  | .pcie => s.setLaneSt t o.oid l.lane (.done .perm 0)
  | _ => s.laneMem t b o l pa il

/-- Whether a walk of the tile already serves a page, and whether the die's walker has a place (R318). -/
def State.startWalk (s : State) (t : TileRef) (ctx pl typ va : Nat) : State :=
  let who := XReq.tile t
  if s.walks.any (fun w => decide (w.who = who) && decide (w.ctx = ctx) && decide (w.va / 2 ^ 16 = va / 2 ^ 16)) then s
  else if 8 ≤ (s.walks.filter fun w => xDie w.who = xDie who).length then s
  else
    let f := s.walkFrom (repIdx (xDie who)) ctx va
    { s with walks := s.walks ++ [⟨who, ctx, pl, typ, va, f.1, f.2⟩] }

/-- A lane that has not yet reached its line tries again. -/
def State.laneTry (s : State) (t : TileRef) (oid i : Nat) : State :=
  let x := s.tile t
  match x.op? oid with
  | none => s
  | some o =>
    match x.block? o.bid, o.lanes.find? (fun l => decide (l.lane = i)) with
    | some b, some l =>
      if (decide (l.st = .untr) || decide (l.st = .held)) && x.laneFree o l && s.running (.cd t.die) true then
        match s.tlbLook (.tile t) b.ctx b.pl (opTyp o.op) l.addr with
        | none => s.startWalk t b.ctx b.pl (opTyp o.op) l.addr
        | some (.ok pa il) => s.laneGo t b o l pa il
        | some (.refused why) => (s.refuse (.tile t) b.ctx b.pl (opTyp o.op) l.addr why).setLaneSt t oid i (.done .perm 0)
        | some _ => s.setLaneSt t oid i (.done .perm 0)
      else s
    | _, _ => s

/-! ### Halts (R110, R111) -/

/-- Whether a LAUNCH command waits for a launch. -/
def State.launchAsked (s : State) (l : Launch) : Bool :=
  s.cmds.any fun c => decide (c.die = l.die) && decide (fld c.word 63 56 = 1) && decide (c.info = l.seq)
/-- The launch that a block belongs to has one block less in progress (R351, R357); one whose command a disable has discarded ends
with its last block (R359). -/
def State.launchEnd (s : State) (t : TileRef) (bid : Nat) (st : Status) : State :=
  let me := (t.die.val, t.tile)
  let less (l : Launch) : Launch :=
    if l.die.val = bidDie bid ∧ l.seq = bidSeq bid then
      { l with live := l.live.filter (fun e => e ≠ me), st := Status.first l.st st }
    else l
  { s with launches := (s.launches.map less).filter fun l => s.launchAsked l || !(l.todo.isEmpty && l.live.isEmpty) }

/-- A halted block whose issued work has completed is reported to its launching queue (R111, Table 12-5). -/
def State.haltTell (s : State) (t : TileRef) (bid : Nat) : State :=
  let x := s.tile t
  match x.block? bid with
  | none => s
  | some b =>
    match b.halt with
    | none => s
    | some r =>
      if b.told || !(x.opsOf bid).isEmpty || (x.mx ++ x.vx).any (fun d => decide (d.bid = bid)) then s
      else
        let s1 := s.setBlock t { b with told := true }
        let q := match s.launches.find? (fun l => decide (l.die.val = bidDie bid) && decide (l.seq = bidSeq bid)) with
          | some l => l.queue
          | none => 0xFF
        let die := cdOf (bidDie bid)
        let pay := natBytes 4 (r.access + r.group * 2 ^ 4 + r.younger * 2 ^ 10 + b2n r.overflow * 2 ^ 18) ++ natBytes 4 0
          ++ natBytes 8 r.lanes ++ natBytes 8 r.pc.toNat ++ natBytes 8 r.address.toNat
        let ev := eventBytes 2 r.status b.ctx (s.reqId (.tile t)) q (BitVec.ofNat 64 (bidSeq bid)) s.now pay
        (if q = 0xFF then s1 else s1.post (.cd die) 0 (s1.cqEq die q) ev).launchEnd t bid r.status

/-- An error of a block (R110, R111): the block halts; of several erroring instructions the record keeps the oldest, and
says that there were more. -/
def State.haltBlock (s : State) (t : TileRef) (bid : Nat) (r : HaltRec) : State :=
  match (s.tile t).block? bid with
  | none => s
  | some b =>
    let rec' := match b.halt with
      | none => r
      | some q => { (if r.seq < q.seq then r else q) with overflow := true }
    (s.setBlock t { b with st := .halted, halt := some rec' }).haltTell t bid

/-- YOUNGER of Table 3-6. -/
def Block.younger (b : Block) (g gseq : Nat) : Nat :=
  match b.group? g with
  | some x => min 255 (x.issued - gseq - 1)
  | none => 0

/-! ### Fences, and what goes on in a tile -/

/-- The condition of a fence (R104, R286): its group's older accesses are performed as its form asks, and at device and system
scope the tile's misses that came before it are filled, those that wait for the L1 included, and its write buffer has drained. -/
def Tile.fenceMet (x : Tile) (f : MOp) : Bool :=
  let form := wf f.word 50 49
  let wide := decide (2 ≤ wf f.word 48 47)
  let old := (x.groupOps f.bid f.grp).filter fun m => decide (m.seq < f.seq)
  let answered := old.all fun m => isStore m.op || m.lanes.all fun l => match l.st with | .done _ _ => true | _ => false
  answered && (decide (form = 0) || old.all MOp.settled) && (!wide || decide (form = 0) || x.wb.isEmpty)
    && (!wide || decide (form = 1) || ((x.fills.all fun m => decide (f.oid < m.oid)) &&
      x.ops.all fun m => decide (f.oid ≤ m.oid) || m.lanes.all fun l => decide (l.st ≠ .stall)))
/-- Fences whose conditions hold end: acquire forms at device and system scope empty the L1 (R104, R286). -/
def Tile.endFences (x : Tile) : Tile :=
  let over_ (o : MOp) : Bool := decide (o.op = .fence) && x.fenceMet o
  let empties := x.ops.any fun o => over_ o && decide (wf o.word 50 49 ≠ 1) && decide (2 ≤ wf o.word 48 47)
  let y := { x with ops := x.ops.filter fun o => !over_ o }
  if empties then { y with l1 := [], trees := [] } else y

/-- Every lane of a tile that waits tries again, oldest instruction first and lanes in ascending order. -/
def State.pumpLanes (s : State) (t : TileRef) : State :=
  ((s.tile t).ops.flatMap fun o => o.lanes.map fun l => (o.oid, l.lane)).foldl (fun s p => s.laneTry t p.1 p.2) s
/-- What waits in a tile goes on: lanes, fences, and the barriers and halts of its blocks. -/
def State.pump (s : State) (t : TileRef) : State :=
  let u := s.pumpLanes t
  let v := u.setTile t (u.tile t).endFences
  ((v.tile t).blocks.map fun b => b.bid).foldl (fun s bid => (s.openBarrier t bid).haltTell t bid) v

/-! ### Local memory (R94-R96) -/

def Block.lrd (b : Block) (off n : Nat) : Nat := leNat ((List.range n).map fun i => aGet b.lmem 0 (off + i))
def lput (m : AMap Nat Byte) (off : Nat) : Nat → Nat → AMap Nat Byte
  | 0, _ => m
  | n + 1, x => lput (aSet m off (BitVec.ofNat 8 x)) (off + 1) n (x / 256)
def Block.lwr (b : Block) (off n x : Nat) : Block := { b with lmem := lput b.lmem off n x }

/-- Lanes of a local instruction performed in ascending order (R96, R107): the block and each lane's answer. -/
def localLanes (o : TOp) (w : W64) : List MLane → Block → List MLane × Block
  | [], b => ([], b)
  | l :: r, b =>
    let n := opBytes o w
    if l.addr % n ≠ 0 ∨ b.size < l.addr + n then
      let x := localLanes o w r b
      ({ l with st := .done .perm 0 } :: x.1, x.2)
    else
      let old := b.lrd l.addr n
      let b' := match o with
        | .ldl => b
        | .stl => b.lwr l.addr n l.data
        | _ => b.lwr l.addr n (atOpStep (laneAtOp o w l.data) old)
      let x := localLanes o w r b'
      ({ l with st := .done .ok old } :: x.1, x.2)

/-! ### Issue of memory instructions -/

/-- The operand that a lane sends: store data, or atomic operand and compare operand. -/
def sendData (c : TCtx) (o : TOp) (l : Lane) : Nat :=
  let n := c.b.nregs
  let k := wData c.w
  if isAtomic o then
    let b := atBits (wSZ c.w)
    if o = .acas then
      let r := l.rvw n k (2 * b)
      r / 2 ^ b % 2 ^ b + (r % 2 ^ b) * 2 ^ 64
    else l.rvw n k b % 2 ^ b
  else l.rvw n k (szBits (wSZ c.w)) % 2 ^ (8 * szBytes (wSZ c.w))

/-- The address of a lane (R133). -/
def laneAddr (c : TCtx) (o : TOp) (l : Lane) : Nat :=
  if isLoc o c.w then
    let base := if wBU c.w then (c.g.ru (wBase c.w)).toNat % 2 ^ 32 else l.rvw c.b.nregs (wBase c.w) 32
    (base + (wOff c.w).toNat) % 2 ^ 32
  else
    let base := if wBU c.w then (c.g.ru (wBase c.w)).toNat else l.rvw c.b.nregs (wBase c.w) 64
    (base + (wOff c.w).toNat) % 2 ^ 64

/-- The lanes that an instruction accesses for; LDU once for the group (R119). -/
def opLanes (c : TCtx) (o : TOp) : List MLane :=
  (if o = .ldu then c.exe.take 1 else c.exe).filterMap fun i =>
    match c.g.lanes[i]? with
    | some l => some ⟨i, laneAddr c o l, 0, 0, sendData c o l, .untr⟩
    | none => none

/-- A memory instruction issued (R95, R99, R133): misaligned lanes are answered PERM, local ones performed, the others
sent on. -/
def State.memOp (s : State) (g : GroupRef) (o : TOp) : State :=
  match s.issueAt g o with
  | none => s
  | some c =>
    let ls := opLanes c o
    let s1 := s.putGroup c { c.g with lanes := c.lanes fun _ l => l }
    if ls.isEmpty then s1
    else
      let t := c.t
      let x := s1.tile t
      match x.block? g.bid with
      | none => s1
      | some b =>
        let op (lanes : List MLane) : MOp := ⟨x.nextOp, g.bid, g.grp, c.b.issued, c.g.issued, o, c.w, c.pc, maskOf c.act, lanes⟩
        if isLoc o c.w then
          let r := localLanes o c.w ls b
          s1.setTile t { x.setBlock r.2 with ops := x.ops ++ [op r.1], nextOp := x.nextOp + 1 }
        else
          let n := opBytes o c.w
          let lanes := ls.map fun l => if l.addr % n ≠ 0 then { l with st := .done .perm 0 } else l
          let s2 := ls.foldl (fun s l => if l.addr % n ≠ 0 ∧ canonical l.addr = false
            then s.refuse (.tile t) b.ctx b.pl (opTyp o) l.addr 0xE else s) s1
          let y := s2.tile t
          (s2.setTile t { y with ops := y.ops ++ [op lanes], nextOp := y.nextOp + 1 }).pump t

/-- LDG (R131). -/
def execLdg (g : GroupRef) (s : State) : Host.Outcome State Fault Refusal := done s (s.memOp g .ldg)
/-- STG (R131). -/
def execStg (g : GroupRef) (s : State) : Host.Outcome State Fault Refusal := done s (s.memOp g .stg)
/-- LDL (R131). -/
def execLdl (g : GroupRef) (s : State) : Host.Outcome State Fault Refusal := done s (s.memOp g .ldl)
/-- STL (R131). -/
def execStl (g : GroupRef) (s : State) : Host.Outcome State Fault Refusal := done s (s.memOp g .stl)
/-- LDU: once for the group, into a uniform register (R119, R131). -/
def execLdu (g : GroupRef) (s : State) : Host.Outcome State Fault Refusal := done s (s.memOp g .ldu)
/-- PRF: fetches a line, with no status (R134). -/
def execPrf (g : GroupRef) (s : State) : Host.Outcome State Fault Refusal := done s (s.memOp g .prf)
/-- AADD (R135). -/
def execAadd (g : GroupRef) (s : State) : Host.Outcome State Fault Refusal := done s (s.memOp g .aadd)
/-- AADDS (R135). -/
def execAadds (g : GroupRef) (s : State) : Host.Outcome State Fault Refusal := done s (s.memOp g .aadds)
/-- AMIN (R135). -/
def execAmin (g : GroupRef) (s : State) : Host.Outcome State Fault Refusal := done s (s.memOp g .amin)
/-- AMAX (R135). -/
def execAmax (g : GroupRef) (s : State) : Host.Outcome State Fault Refusal := done s (s.memOp g .amax)
/-- AAND (R135). -/
def execAand (g : GroupRef) (s : State) : Host.Outcome State Fault Refusal := done s (s.memOp g .aand)
/-- AOR (R135). -/
def execAor (g : GroupRef) (s : State) : Host.Outcome State Fault Refusal := done s (s.memOp g .aor)
/-- AXOR (R135). -/
def execAxor (g : GroupRef) (s : State) : Host.Outcome State Fault Refusal := done s (s.memOp g .axor)
/-- AXCHG (R135). -/
def execAxchg (g : GroupRef) (s : State) : Host.Outcome State Fault Refusal := done s (s.memOp g .axchg)
/-- ACAS (R135). -/
def execAcas (g : GroupRef) (s : State) : Host.Outcome State Fault Refusal := done s (s.memOp g .acas)

/-- FENCE: stands among the group's outstanding instructions until its condition holds (R104), and keeps back the younger accesses
that its form orders. -/
def execFence (g : GroupRef) (s : State) : Host.Outcome State Fault Refusal :=
  done s (match s.issueAt g .fence with
    | none => s
    | some c =>
      let s1 := s.groupOp g .fence fun _ gr => gr
      let x := s1.tile c.t
      let f : MOp := ⟨x.nextOp, g.bid, g.grp, c.b.issued, c.g.issued, .fence, c.w, c.pc, maskOf c.act, []⟩
      (s1.setTile c.t { x with ops := x.ops ++ [f], nextOp := x.nextOp + 1 }).pump c.t)

/-! ### Completion -/

/-- A loaded value extended for its SZ (R132). -/
def extend (sz x : Nat) : Nat :=
  match sz with
  | 1 => unsignedBits 32 (signed 8 x)
  | 3 => unsignedBits 32 (signed 16 x)
  | _ => x

/-- The destinations of a completed instruction, in the lanes that received OK (R109, R110, R131). -/
def loadBack (b : Block) (o : MOp) : Block :=
  match b.group? o.grp with
  | none => b
  | some g =>
    let g' :=
      match o.op with
      | .stg | .stl | .prf => g
      | .ldu =>
        match o.lanes with
        | l :: _ => (match l.st with | .done .ok v => g.wu (wMD o.word) v | _ => g)
        | [] => g
      | op =>
        o.lanes.foldl (fun g l =>
          match l.st, g.lanes[l.lane]? with
          | .done .ok v, some ln =>
            let ln' := if isAtomic op then ln.wvw b.nregs (wMD o.word) (atBits (wSZ o.word)) v
              else ln.wvw b.nregs (wMD o.word) (szBits (wSZ o.word)) (extend (wSZ o.word) v)
            { g with lanes := g.lanes.set l.lane ln' }
          | _, _ => g) g
    b.setGroup o.grp g'

/-- Lanes with a non-OK status: status and lane entry. -/
def badLanes (o : MOp) : List (Status × MLane) :=
  if o.op = .prf then []
  else o.lanes.filterMap fun l => match l.st with | .done .ok _ => none | .done e _ => some (e, l) | _ => none

/-- An instruction whose lanes are all answered completes: destinations, and the halt of its block where a lane failed. -/
def State.completeOp (s : State) (t : TileRef) (o : MOp) : State :=
  let x := s.tile t
  match x.block? o.bid with
  | none => s.setTile t { x with ops := x.ops.filter fun p => decide (p.oid ≠ o.oid) }
  | some b =>
    let s1 := s.setTile t { x.setBlock (loadBack b o) with ops := x.ops.filter fun p => decide (p.oid ≠ o.oid) }
    match badLanes o with
    | [] => s1.haltTell t o.bid
    | e :: r =>
      let st := (e :: r).foldl (fun a y => Status.first a y.1) e.1
      let addr := match (e :: r).find? (fun y => decide (y.1 = st)) with | some y => y.2.addr | none => 0
      let mask := if o.op = .ldu then o.act else maskOf ((e :: r).map fun y => y.2.lane)
      s1.haltBlock t o.bid ⟨o.seq, st, accessCode o.op o.word, o.grp, mask, o.pc, BitVec.ofNat 64 addr,
        b.younger o.grp o.gseq, false⟩

/-- Lanes of a global atomic that wait at one location, performed as one operation at the L2 that owns the line, or at
the home of a Burr-layout page (R101, R107, R290). -/
def State.atomicAt (s : State) (t : TileRef) (b : Block) (o : MOp) (pa il : Nat) (ls : List MLane) : Except Wait State :=
  let ops := ls.map fun l => laneAtOp o.op o.word l.data
  let n := opBytes o.op o.word
  let put (s : State) (st : Status) (vals : List Nat) : State :=
    (ls.zip (vals ++ List.replicate ls.length 0)).foldl (fun s p => s.setLaneSt t o.oid p.1.lane (.done st p.2)) s
  if il = 3 then
    match s.ncAtomic (s.reqId (.tile t)) b.ctx b.pl il pa ops with
    | .error w => .error w
    | .ok (st, vals, s1) => .ok (put (s1.setTile t ((s1.tile t).l1Drop (pa / 128))) st vals)
  else
    match s.line (tileAgent t) (pa / 128) with
    | none => .error .hold
    | some l =>
      if l.st < 2 then .error .hold
      else if touchesPois l.pois (pa % 128) n then .ok (put s .pois [])
      else
        let r := atTurns ops (lineNat l.data (pa % 128) n)
        let s1 := s.setLine (tileAgent t) (pa / 128) { l with st := 3, age := 0, data := linePut l.data (pa % 128) n r.2 }
        .ok (put (s1.setTile t ((s1.tile t).l1Drop (pa / 128))) .ok r.1)

/-- The locations at which lanes of an atomic wait, lowest lane first; a lane of the same address that does not wait yet keeps its
location back (R107). -/
def waitingAt (o : MOp) : List Nat :=
  ((o.lanes.filter fun l => decide (l.st = .wait) && o.lanes.all fun k => decide (k.addr ≠ l.addr) || decide (k.st = .wait)).map
    fun l => l.pa).eraseDups

/-- The atomics of an operation that their L2 can perform; with a status other than OK, the lanes still waiting receive
it (R99, R101). At the home of a Burr-layout page the home's answer gives the status. -/
def State.atomicsGo (s : State) (t : TileRef) (oid : Nat) (st : Status) : State :=
  match s.op? t oid with
  | none => s
  | some o =>
    if !isAtomic o.op then s
    else
      (waitingAt o).foldl (fun s pa =>
        match s.op? t oid, (s.tile t).block? o.bid with
        | some o', some b =>
          let ls := o'.lanes.filter fun l => decide (l.st = .wait) && decide (l.pa = pa)
          let il := match ls with | l :: _ => l.il | [] => 0
          (match s.atomicAt t b o' pa il ls with
            | .ok s' => s'
            | .error w =>
              if st = .ok ∨ il = 3 then s.await w else ls.foldl (fun s l => s.setLaneSt t oid l.lane (.done st 0)) s)
        | _, _ => s) s

/-- MEMORY_RESPONSE: atomics are performed where their line is owned, and an instruction whose lanes are all answered
completes (R99, R101, R109, R110). -/
def execMemoryResponse (t : TileRef) (oid : Nat) (st : Status) (s : State) : Host.Outcome State Fault Refusal :=
  done s (
    let s1 := if st = .xlat then s else (s.pump t).atomicsGo t oid st
    match s1.op? t oid with
    | none => s1
    | some o =>
      if o.op ≠ .fence ∧ o.lanes.all (fun l => match l.st with | .done _ _ => true | _ => false) = true
      then (s1.completeOp t o).pump t else s1)

/-- Lanes whose miss had stalled the L1 look up again, before any other (R99). -/
def State.unstall (s : State) (t : TileRef) : State :=
  let l := (s.tile t).ops.flatMap fun o => (o.lanes.filter fun l => decide (l.st = .stall)).map fun l => (o.oid, l.lane)
  l.foldl (fun s p => (s.setLaneSt t p.1 p.2 .untr).laneTry t p.1 p.2) s

/-- L1_FILL: the outstanding miss is served from the cluster L2, or fails with a status (R99, R100, R284, R291). -/
def execL1Fill (t : TileRef) (st : Status) (s : State) : Host.Outcome State Fault Refusal :=
  done s (
    let x := s.tile t
    match x.fills with
    | [] => s.pump t
    | f :: r =>
      let waits (o : MOp) (l : MLane) : Bool :=
        decide (l.st = .wait) && decide (l.pa / 128 = f.line) && !isStore o.op && !isAtomic o.op
      let answer (x : Tile) (a : MOp → MLane → LState) : Tile :=
        { x with fills := r, ops := x.ops.map fun o =>
          { o with lanes := o.lanes.map fun l => if waits o l then { l with st := a o l } else l } }
      if st ≠ .ok then
        (if st = .xlat then s else ((s.setTile t (answer x fun _ _ => .done st 0)).unstall t).pump t)
      else
        match s.line (tileAgent t) f.line with
        | none => s
        | some l =>
          let y := answer x fun o m =>
            let n := opBytes o.op o.word
            if touchesPois l.pois (m.pa % 128) n then .done .pois 0 else .done .ok (lineNat l.data (m.pa % 128) n)
          let z := if f.install && decide (l.pois = 0) then y.l1Install f.line (x.withStores f.line l.data) else y
          (((s.touchLine (tileAgent t) f.line f.strm).setTile t z).unstall t).pump t)

/-- WRITE_BUFFER_DRAIN: the oldest entry not yet sent goes to the cluster L2, at most 4 being unacknowledged (R287). -/
def execWriteBufferDrain (t : TileRef) (s : State) : Host.Outcome State Fault Refusal :=
  done s (
    let x := s.tile t
    if (x.wb.filter fun e => e.sent).length < 4 then
      s.setTile t { x with wb := lUpd (fun e => !e.sent) (fun e => { e with sent := true }) x.wb }
    else s)

/-- Whether a store of part of a poisoned half is not made (R291). -/
def halfRefused (l : CLine) (e : WbEnt) (h : Nat) : Bool :=
  nbit l.pois h && decide (e.mask &&& spanMask (64 * h) 64 ≠ 0) && decide (e.mask &&& spanMask (64 * h) 64 ≠ spanMask (64 * h) 64)

/-- WRITE_BUFFER_ACK: the L2 serves the oldest entry sent, and its stores are answered (R287, R290, R291). -/
def execWriteBufferAck (t : TileRef) (st : Status) (s : State) : Host.Outcome State Fault Refusal :=
  done s (
    let x := s.tile t
    match x.wb with
    | [] => s.pump t
    | e :: r =>
      let finish (s : State) (a : MLane → Status) : State :=
        let x := s.tile t
        let y := { x with wb := r, ops := x.ops.map fun o =>
          { o with lanes := o.lanes.map fun l => if e.who.contains (o.oid, l.lane) then { l with st := .done (a l) 0 } else l } }
        (s.setTile t y).pump t
      if !e.sent ∨ st = .xlat then s
      else if st ≠ .ok then finish s fun _ => st
      else if e.il = 3 then
        match s.ncWrite (s.reqId (.tile t)) e.ctx e.pl e.il (128 * e.line) e.mask e.data with
        | .error w => s.await w
        | .ok (w, s1) => finish s1 fun _ => w
      else
        match s.line (tileAgent t) e.line with
        | none => s
        | some l =>
          if l.st < 2 then s
          else
            let u := s.setLine (tileAgent t) e.line { (l.put e.mask e.data).1 with st := 3 }
            finish (u.touchLine (tileAgent t) e.line e.strm) fun m => if halfRefused l e (m.pa % 128 / 64) then .pois else .ok)

/-- WALK_READ_RETURN: one read of a tile's walk returns (R318, R320): the walk goes on, ends with a filled translation,
or fails the lanes that wait for it. -/
def execWalkReadReturn (t : TileRef) (va : Nat) (st : Status) (s : State) : Host.Outcome State Fault Refusal :=
  let mine (w : Walk) : Bool := decide (w.who = .tile t) && decide (w.va / 2 ^ 16 = va / 2 ^ 16)
  done s (
    match s.walks.find? mine with
    | none => s
    | some w =>
      let isOver (a : XlAns) (s1 : State) : State :=
        let s2 := { s1 with walks := lDrop mine s1.walks }
        let x := s2.tile t
        let todo := x.ops.flatMap fun o => match x.block? o.bid with
          | some b => o.lanes.filterMap fun l =>
            if (decide (l.st = .untr) || decide (l.st = .held)) && decide (b.ctx = w.ctx) && decide (l.addr / 2 ^ 16 = va / 2 ^ 16)
                && (s2.tlbLook (.tile t) b.ctx b.pl (opTyp o.op) l.addr).isNone then some (o.oid, l.lane, b.pl, opTyp o.op, l.addr)
            else none
          | none => []
        let s3 := match a with
          | .ok _ _ => s2
          | _ => todo.foldl (fun s (p : Nat × Nat × Nat × Nat × Nat) =>
              let f := match a with
                | .refused why => (Status.perm, s.refuse (.tile t) w.ctx p.2.2.1 p.2.2.2.1 p.2.2.2.2 why)
                | a => s.xlFail (.tile t) w.ctx p.2.2.1 p.2.2.2.1 p.2.2.2.2 a
              f.2.setLaneSt t p.1 p.2.1 (.done f.1 0)) s2
        (s3.tiles.filter fun e => decide (e.1.die = t.die)).foldl (fun s e => s.pump e.1) s3
      if st ≠ .ok then isOver (if st = .perm then .refused 0xC else .failed st) s
      else
        match s.walkStep (.tile t) w.ctx w.pl w.typ w.va w.level w.table with
        | .error x => s.await x
        | .ok (.down lv tb, s1) => { s1 with walks := lUpd mine (fun v => { v with level := lv, table := tb }) s1.walks }
        | .ok (.isOver a, s1) => isOver a s1)

/-! ### Fetch (R113-R116, R137) -/

/-- The group's next instruction address, in a running block. -/
def State.fetchAt (s : State) (g : GroupRef) : Option (Block × Group × W64) :=
  if !s.running (.cd g.die) true then none
  else
    match (s.tile g.tileRef).block? g.bid with
    | none => none
    | some b =>
      if b.st ≠ .running then none
      else
        match b.group? g.grp with
        | none => none
        | some gr => match gr.pc? with | some pc => some (b, gr, pc) | none => none

/-- A halt at the instruction that a group is about to issue (R115, R116). -/
def State.haltFront (s : State) (g : GroupRef) (b : Block) (gr : Group) (pc : W64) (st : Status) (access : Nat) (addr : W64) :
    State :=
  s.haltBlock g.tileRef g.bid ⟨b.issued, st, access, g.grp, maskOf (gr.active pc), pc, addr, 0, false⟩

/-- The instruction cache holds 256 lines. -/
def Tile.icPut (x : Tile) (e : ICLine) : Tile :=
  let l := x.icache.filter fun y => decide (¬ (y.ctx = e.ctx ∧ y.vline = e.vline))
  { x with icache := l.drop (l.length + 1 - 256) ++ [e] }

/-- INSTRUCTION_FETCH: the line of the group's next instruction, or one `ahead` of it, comes from the cluster L2. A fetch
that fails halts the block when a lane has reached the instruction (R113, R115, R137). -/
def execInstructionFetch (g : GroupRef) (ahead : Nat) (st : Status) (s : State) : Host.Outcome State Fault Refusal :=
  done s (
    match s.fetchAt g with
    | none => s
    | some (b, gr, pc) =>
      let t := g.tileRef
      let at0 := decide (ahead = 0)
      let fail (s : State) (e : Status) : State := if at0 then s.haltFront g b gr pc e 6 pc else s
      if at0 && decide (pc.toNat % 8 ≠ 0) then fail s .perm
      else
        match (if at0 then (s.tile t).iline b.ctx pc else none) with
        | some e => if nbit e.bad (pc.toNat % 128 / 64) then fail s .pois else s
        | none =>
          let va := (pc.toNat / 128 * 128 + 128 * ahead) % 2 ^ 64
          if st = .xlat then s
          else if st ≠ .ok then fail s st
          else
            match s.xlate (.tile t) b.ctx b.pl 3 va with
            | .error w => s.await w
            | .ok (.ok pa il, s1) =>
              match s1.region pa with
              | .control => fail s1 .perm
              | .pcie => fail s1 .perm
              | _ =>
                match s1.line (tileAgent t) (pa / 128) with
                | none => s
                | some l =>
                  let _ := il
                  (s1.touchLine (tileAgent t) (pa / 128) false).setTile t ((s1.tile t).icPut ⟨b.ctx, va / 128, l.data, l.pois⟩)
            | .ok (a, s1) => let f := s1.xlFail (.tile t) b.ctx b.pl 3 va a; fail f.2 f.1)

/-- UNDEFINED_ENCODING: a group that issues an undefined encoding halts its block (R116). -/
def execUndefinedEncoding (g : GroupRef) (s : State) : Host.Outcome State Fault Refusal :=
  done s (
    match s.frontOf g with
    | none => s
    | some c => if (tdecode c.w).isNone then s.haltFront g c.b c.g c.pc .perm 7 c.w else s)

end Sys2Proof.Machine
end

