-- ==== Sys2Proof/Machine/Blocks.lean ====
section
/-!
DEFINITION. Blocks: the sizes of a launch, placement and the state of threads at their start (R81-R94, R150, R177), and
the end of a block (R91).
-/

namespace Sys2Proof.Machine
open Sys2Proof

/-! ### The LAUNCH word (Table 12-3) -/

def lwWidth (w : W64) : Nat := 8 * 2 ^ fld w 47 46
def lwGroups (w : W64) : Nat := fld w 45 40 + 1
def lwRegs (w : W64) : Nat := fld w 39 32
/-- Local memory in bytes. -/
def lwSize (w : W64) : Nat := fld w 31 25 * 16384
def lwAcc (w : W64) : Nat := fld w 24 22
def lwVx (w : W64) : Nat := fld w 21 19
/-- The allocation per thread, A = 8 × ⌈N / 8⌉ (R85). -/
def allocOf (n : Nat) : Nat := 8 * ((n + 7) / 8)

/-- Whether a block with the sizes of a LAUNCH word fits beside blocks that are resident (R81, R82, R85, R94, R150, R177). -/
def fitsWith (bs : List Block) (w : W64) : Bool :=
  let sum (f : Block → Nat) : Nat := bs.foldl (fun a b => a + f b) 0
  decide (bs.length < 4)
    && decide (sum (fun b => b.ngroups) + lwGroups w ≤ 64)
    && decide (sum (fun b => b.ngroups * b.width) + lwGroups w * lwWidth w ≤ 2048)
    && decide (sum (fun b => allocOf b.nregs * b.width * b.ngroups) + allocOf (lwRegs w) * lwWidth w * lwGroups w ≤ 65536)
    && decide (sum (fun b => b.size) + lwSize w ≤ 1572864)
    && decide (sum (fun b => b.accN) + lwAcc w ≤ 4)
    && decide (sum (fun b => b.vxN) + lwVx w ≤ 4)

/-- The load of each issue slot (R83). -/
def slotLoad (slots : List (Nat × Nat)) (k : Nat) : Nat :=
  slots.foldl (fun a e => if e.1 = k then a + (if e.2 = 64 then 2 else 1) else a) 0
/-- The slot with the smallest load, ties to the lower number (R83). -/
def slotFor (slots : List (Nat × Nat)) : Nat :=
  (upFrom 1 3).foldl (fun best k => if slotLoad slots k < slotLoad slots best then k else best) 0
/-- Slots and widths of the groups that have not ended. -/
def Tile.slots (x : Tile) : List (Nat × Nat) :=
  x.blocks.flatMap fun b => (b.groups.filter fun g => !g.ended).map fun g => (g.slot, b.width)

/-- A lane at its group's start (Table 3-3, R140). -/
def startLane (entry seed : W64) (tile v0 : Nat) : Lane :=
  ⟨entry, false, 0, [(0, BitVec.ofNat 32 v0)], 0, genSeed seed tile v0⟩

/-- u1 at a group's start (Table 3-3). -/
def startU1 (seq G g wcode tile : Nat) : Nat := seq * 2 ^ 32 + G * 2 ^ 24 + g * 2 ^ 16 + wcode * 2 ^ 14 + tile

/-- The groups of a block at their start, each bound to a slot in turn (R83, R88). -/
def startGroups (w : W64) (entry arg seed : W64) (seq tile : Nat) : Nat → Nat → List (Nat × Nat) → List Group
  | 0, _, _ => []
  | n + 1, g, slots =>
    let k := slotFor slots
    let W := lwWidth w
    let u : AMap Nat W64 := [(0, arg), (1, BitVec.ofNat 64 (startU1 seq (lwGroups w) g (fld w 47 46) tile)),
      (2, BitVec.ofNat 64 (lwSize w))]
    ⟨k, (List.range W).map fun i => startLane entry seed tile (g * W + i), u, 0, 0⟩ ::
      startGroups w entry arg seed seq tile n (g + 1) (slots ++ [(k, W)])

/-- A block as it is placed (R88, R94, R138, R150, R177, R191). -/
def newBlock (l : Launch) (tile : Nat) (slots : List (Nat × Nat)) : Block :=
  let op (i : Nat) : W64 := l.ops[i]?.getD 0
  { bid := mkBid l.die.val l.seq
    words := l.word :: l.ops
    ctx := l.ctx
    pl := l.pl
    width := lwWidth l.word
    ngroups := lwGroups l.word
    nregs := lwRegs l.word
    size := lwSize l.word
    accN := lwAcc l.word
    vxN := lwVx l.word
    st := .running
    groups := startGroups l.word (op 0) (op 1) (op 2) (l.seq % 2 ^ 32) tile (lwGroups l.word) 0 slots
    k := List.replicate 8 0
    lmem := []
    acc := []
    bufs := []
    lanegen := (List.range 128).map fun i => genSeed (op 2) tile (0x10000 + i)
    halt := none
    told := false
    issued := 0
    mxBad := false
    vxBad := false
    vxUsed := false }

/-- The die-local index of a tile, cluster × n + logical tile (R351). -/
def State.localIndex (s : State) (t : TileRef) : Nat := t.tile / 16 * s.nTiles t.die.val + t.tile % 16

/-- A launch that has no block left to place has started: its queue goes on (R351). -/
def State.launchPlaced (s : State) (l : Launch) (left : List Nat) : State :=
  if left.isEmpty then
    match s.cmds.find? (fun c => decide (c.die = l.die) && decide (c.queue = l.queue) && decide (cwOp c.word = 1)
        && decide (c.info = l.seq) && !c.started) with
    | some c => s.cmdStart c
    | none => s
  else s
/-- A launch with a tile less to place on. -/
def State.launchLess (s : State) (l : Launch) (left : List Nat) (f : Launch → Launch) : State :=
  ({ s with launches := s.launches.map fun (y : Launch) => if y.die = l.die ∧ y.seq = l.seq then f { y with todo := left } else y } : State).launchPlaced l left

/-- BLOCK_PLACE: a launch's block goes onto one of its tiles that has room; the tile's instruction cache is invalidated
(R82, R88, R94, R114, R351). A tile whose reset is running is refused by its Weir with UNAV (R428; log 127). -/
def execBlockPlace (t : TileRef) (seq : Nat) (s : State) : Host.Outcome State Fault Refusal :=
  done s (
    let i := s.localIndex t
    match s.launches.find? (fun l => decide (l.die = t.die) && decide (l.seq = seq) && l.todo.contains i) with
    | none => s
    | some l =>
      let x := s.tile t
      let left := l.todo.filter fun k => decide (k ≠ i)
      if s.running (.cd t.die) true && s.inN0 && decide (s.rf (.cd t.die) .cqCfg l.queue 23 21 ≠ 3) &&
          !s.preempted.contains (t.die.val, l.ctx) then
        if s.tileShut t then s.launchLess l left fun y => { y with st := Status.first y.st .unav }
        else if fitsWith x.blocks l.word then
          ((s.setTile t { x with blocks := x.blocks ++ [newBlock l (s.tileIndex t) x.slots], icache := [] }).newWork (.cd t.die) 1).launchLess
            l left fun y => { y with live := y.live ++ [(t.die.val, t.tile)] }
        else s
      else s)

/-- BLOCK_END: a block whose groups have ended drains its stores, releases, and frees what it held (R91). -/
def execBlockEnd (b : BlockRef) (s : State) : Host.Outcome State Fault Refusal :=
  done s (
    let t := b.tileRef
    let x := s.tile t
    match x.block? b.bid with
    | none => s
    | some k =>
      if decide (k.st = .running) && k.groups.all Group.ended && (x.opsOf b.bid).isEmpty && x.wb.isEmpty
          && !(x.mx ++ x.vx).any (fun d => decide (d.bid = b.bid)) then
        (s.setTile t (x.dropBlock b.bid)).launchEnd t b.bid .ok
      else s)

end Sys2Proof.Machine
end

