-- ==== Sys2Proof/Machine/Millstone.lean ====
section
/-!
DEFINITION. The Millstone: descriptors (Table 5-1) and their checks (R154), MMA in its fixed order (R161-R164), the moves of
accumulator tiles (R153), counters and failures (R165-R167), and the issue of MXI (R142, R143).
-/

namespace Sys2Proof.Machine
open Sys2Proof

/-- Bits of a descriptor. -/
def dF (d hi lo : Nat) : Nat := (d >>> lo) % 2 ^ (hi + 1 - lo)

/-- Element `k` of a packed row at a local offset (R56, R155). -/
def Block.elem (b : Block) (row k w : Nat) : Nat :=
  if w < 8 then (b.lrd (row + k * w / 8) 1) >>> (k * w % 8) % 2 ^ w else b.lrd (row + k * (w / 8)) (w / 8)
/-- Bytes of a packed row of `n` elements. -/
def rowBytes (n w : Nat) : Nat := cdiv (n * w) 8
/-- Whether `rows` rows of `bytes` bytes from an offset lie below the local-memory size, in exact arithmetic. -/
def rowsFit (size addr stride rows bytes : Nat) : Bool := decide (addr + (rows - 1) * stride + bytes ≤ size)

/-! ### Fields (Table 5-1) -/

def mxOpc (d : Nat) : Nat := dF d 23 16
def mxInit (d : Nat) : Bool := nbit d 24
def mxAcc (d : Nat) : Nat := dF d 33 32
def mxFa (d : Nat) : Format := Format.ofId (dF d 43 40)
def mxFb (d : Nat) : Format := Format.ofId (dF d 47 44)
def mxM (d : Nat) : Nat := dF d 53 48 + 1
def mxN (d : Nat) : Nat := dF d 61 56 + 1
def mxK (d : Nat) : Nat := dF d 95 64
def mxAAddr (d : Nat) : Nat := dF d 127 96
def mxAStride (d : Nat) : Nat := dF d 159 128
def mxBAddr (d : Nat) : Nat := dF d 191 160
def mxBStride (d : Nat) : Nat := dF d 223 192
def mxAsAddr (d : Nat) : Nat := dF d 255 224
def mxAsStride (d : Nat) : Nat := dF d 287 256
def mxBsAddr (d : Nat) : Nat := dF d 319 288
def mxBsStride (d : Nat) : Nat := dF d 351 320
def mxTag (d : Nat) : Nat := dF d 447 384

/-- The pairings of Table 5-3 with their kb; none for any other. -/
def mxPair (fa fb : Format) : Option Nat :=
  match fa, fb with
  | .ln8, .ln8 => some 1
  | .ln4, .ln4 => some 2
  | .b1, .ln8 | .t2, .ln8 | .q2, .ln8 => some 2
  | .ln16, .ln16 | .bf16, .bf16 | .fp16, .fp16 => some 1
  | .b1, .ln16 | .t2, .ln16 | .q2, .ln16 => some 1
  | .b1, .bf16 | .t2, .bf16 | .q2, .bf16 => some 1
  | .fp32, .fp32 => some 1
  | .pf64, .pf64 => some 1
  | _, _ => none

/-- Version of a descriptor against an interface version register (R154, R174). -/
def versionOk (reg : W64) (v : Nat) : Bool := decide (v / 256 = fld reg 15 8) && decide (v % 256 ≤ fld reg 7 0)

/-- The checks of R154. -/
def State.mxCheck (s : State) (die : Fin 4) (b : Block) (d : Nat) : Bool :=
  let opc := mxOpc d
  let reserved := dF d 511 448 + dF d 383 352 + dF d 63 62 + dF d 55 54 + dF d 39 34 + dF d 31 25
  let fa := mxFa d
  let fb := mxFb d
  let accOk (pf : Bool) : Bool :=
    if pf then decide (mxAcc d % 2 = 0) && decide (mxAcc d + 1 < b.accN) else decide (mxAcc d < b.accN)
  let al (f : Format) (x : Nat) : Bool := decide (x % (if f = .pf64 then 8 else 4) = 0)
  let scale (f : Format) (addr stride rows : Nat) : Bool :=
    if f.isBlock then rowsFit b.size addr stride rows (mxK d / 32) else decide (addr = 0) && decide (stride = 0)
  let noB := dF d 351 160 = 0 ∧ dF d 95 64 = 0 ∧ dF d 47 44 = 0 ∧ mxInit d = false
  versionOk (s.reg (.cd die) .mxIfVersion 0) (dF d 15 0) && decide (reserved = 0) &&
  (match opc with
    | 1 =>
      (mxPair fa fb).isSome && accOk (decide (fa = .pf64))
        && decide (mxK d ≠ 0) && decide (mxK d % 32 = 0) && decide (mxK d ≤ 32768)
        && al fa (mxAAddr d) && al fa (mxAStride d) && al fb (mxBAddr d) && al fb (mxBStride d)
        && rowsFit b.size (mxAAddr d) (mxAStride d) (mxM d) (rowBytes (mxK d) fa.bits)
        && rowsFit b.size (mxBAddr d) (mxBStride d) (mxN d) (rowBytes (mxK d) fb.bits)
        && scale fa (mxAsAddr d) (mxAsStride d) (mxM d) && scale fb (mxBsAddr d) (mxBsStride d) (mxN d)
    | 2 | 3 =>
      let w := if fa = .pf64 then 8 else 4
      decide noB && (decide (fa = .fp32) || decide (fa = .pf64)) && accOk (decide (fa = .pf64))
        && al fa (mxAAddr d) && al fa (mxAStride d)
        && (decide (opc = 2) || decide (mxN d * w ≤ mxAStride d))
        && rowsFit b.size (mxAAddr d) (mxAStride d) (mxM d) (mxN d * w)
    | 4 =>
      decide noB && decide (dF d 159 96 = 0) && decide (dF d 61 56 = 0) && decide (dF d 53 48 = 0) && decide (dF d 43 40 = 0)
        && accOk false
    | _ => false)

/-! ### Arithmetic (R161-R164) -/

/-- A product p(m, n, k) as an exact value; a BF16 product past the binary32 range enters the sum exactly (DESIGN CHOICE, log 102). -/
def mxProd (fa : Format) (ca : Nat) (ea : Int) (fb : Format) (cb : Nat) (eb : Int) : FVal :=
  if fa.isLog && fb.isLog then f32d (lnProd fa ca ea fb cb eb)
  else if fa.isWeight then f32d (weightProd fa ca ea fb cb eb)
  else (elemVal fa ca ea).mul (elemVal fb cb eb)

/-- One rounding step c = rne(c + s) over the products of a k-group; a zero result is −0 only where c and every product
are −0 (R161, R162). -/
def mxStep (c : Nat) (ps : List FVal) : Nat :=
  let s := ps.foldl FVal.add (.fin true 0 0)
  let r := f32e ((f32d c).add s)
  if r = f32neg0 ∧ ¬ (c = f32neg0 ∧ (ps.all fun p => p.isZero && p.sign) = true) then 0 else r

/-- The exponent byte of a block format's element, 0 for the other formats (R155). -/
def Block.scaleAt (b : Block) (f : Format) (row k : Nat) : Int := if f.isBlock then expOfByte (b.lrd (row + k / 32) 1) else 0

/-- Products of a k-group for one output element. -/
def mxGroup (b : Block) (d m n k0 kb : Nat) : List FVal :=
  let fa := mxFa d
  let fb := mxFb d
  let ra := mxAAddr d + m * mxAStride d
  let rb := mxBAddr d + n * mxBStride d
  let sa := mxAsAddr d + m * mxAsStride d
  let sb := mxBsAddr d + n * mxBsStride d
  (upFrom k0 kb).map fun k =>
    mxProd fa (b.elem ra k fa.bits) (b.scaleAt fa sa k) fb (b.elem rb k fb.bits) (b.scaleAt fb sb k)

/-- An output element over 32 consecutive values of k, from `k0` (R161, R164). -/
def mxChunkElem (b : Block) (d m n k0 : Nat) (c : Nat) : Nat :=
  if mxFa d = .pf64 then
    (upFrom k0 32).foldl (fun c k =>
      pfMma c (b.elem (mxAAddr d + m * mxAStride d) k 64) (b.elem (mxBAddr d + n * mxBStride d) k 64)) c
  else
    let kb := (mxPair (mxFa d) (mxFb d)).getD 1
    (List.range (32 / kb)).foldl (fun c g => mxStep c (mxGroup b d m n (k0 + g * kb) kb)) c

/-- Row-major places of an M × N region. -/
def region (m n : Nat) : List (Nat × Nat) := (List.range m).flatMap fun i => (List.range n).map fun j => (i, j)
def Block.accAt (b : Block) (j m n : Nat) : Nat := aGet b.acc 0 (j, 64 * m + n)
def Block.setAcc (b : Block) (j m n x : Nat) : Block := { b with acc := aSet b.acc (j, 64 * m + n) (x % 2 ^ 32) }
/-- An accumulator element: a pair for PF64 (R151). -/
def Block.accGet (b : Block) (d m n : Nat) : Nat :=
  if mxFa d = .pf64 then pfMk (b.accAt (mxAcc d) m n) (b.accAt (mxAcc d + 1) m n) else b.accAt (mxAcc d) m n
def Block.accPut (b : Block) (d m n x : Nat) : Block :=
  if mxFa d = .pf64 then (b.setAcc (mxAcc d) m n (pfHi x)).setAcc (mxAcc d + 1) m n (pfLo x) else b.setAcc (mxAcc d) m n x

/-- One K-chunk of an MMA over its region; the first starts every element from +0.0 where INIT is 1 (R160, R161). -/
def mxChunk (b : Block) (d chunk : Nat) : Block :=
  (region (mxM d) (mxN d)).foldl (fun a p =>
    let c := if mxInit d && decide (chunk = 0) then 0 else b.accGet d p.1 p.2
    a.accPut d p.1 p.2 (mxChunkElem b d p.1 p.2 (32 * chunk) c)) b

/-! ### The queue (R165-R167) -/

/-- The descriptors in an engine's queue: those of a block that a pre-emption stops have left it, but for ones that have
ended and not yet been counted (R169, R199). -/
def Tile.queued (x : Tile) (l : List Desc) : List Desc :=
  l.filter fun d => d.fin.isSome ||
    (match x.block? d.bid with | some b => decide (b.st = .running ∨ b.st = .halted) | none => true)
/-- The oldest descriptor that has not finished. -/
def mxFront (x : Tile) (l : List Desc) : Option Desc := (x.queued l).find? fun d => d.fin.isNone
/-- A queue without a descriptor. -/
def takeDesc (l : List Desc) (d : Desc) : List Desc := l.filter fun y => decide (¬ (y.bid = d.bid ∧ y.seq = d.seq))
def putDesc (l : List Desc) (d : Desc) : List Desc := l.map fun x => if x.bid = d.bid ∧ x.seq = d.seq then d else x
/-- A failed check: this descriptor ends with PERM and every later one of its block with ABRT (R154, R167). -/
def failFrom (l : List Desc) (d : Desc) : List Desc :=
  l.map fun x =>
    if x.bid = d.bid ∧ x.fin = none then { x with fin := some (if x.seq = d.seq then .perm else .abrt) } else x

/-- Whether the front descriptor begins (Table 5-4): an ACC_ descriptor after the counter increments of every earlier one, an MMA
after those of earlier ACC_ descriptors; a refused descriptor counts for nothing (R154). -/
def Tile.mxReady (x : Tile) (d : Desc) : Bool :=
  let earlier := ((x.queued x.mx).takeWhile fun y => decide (y ≠ d)).filter fun y => decide (y.fin = some .ok)
  if mxOpc d.words = 1 then earlier.all fun y => decide (mxOpc y.words = 1) else earlier.isEmpty

/-- A step of the Millstone on the front descriptor of an operation code: its check, and `f` where it passes. -/
def State.mxRow (s : State) (t : TileRef) (opc : Nat) (f : Block → Desc → Block × Desc) : State :=
  let x := s.tile t
  match mxFront x x.mx with
  | none => s
  | some d =>
    match x.block? d.bid with
    | none => s
    | some b =>
      if !s.running (.cd t.die) true || decide (mxOpc d.words ≠ opc) || !x.mxReady d then s
      else if !d.checked && !s.mxCheck t.die b d.words then
        s.setTile t { x.setBlock { b with mxBad := true } with mx := failFrom x.mx d }
      else
        let r := f b { d with checked := true }
        s.setTile t { x.setBlock r.1 with mx := putDesc x.mx r.2 }

/-- MMA: up to `n` K-chunks of the oldest descriptor; the last one ends it (R160, R161, R163, R169). -/
def execMma (t : TileRef) (n : Nat) (s : State) : Host.Outcome State Fault Refusal :=
  done s (s.mxRow t 1 fun b d =>
    let k := mxK d.words / 32
    let m := min n (k - d.prog)
    let b' := (upFrom d.prog m).foldl (fun b c => mxChunk b d.words c) b
    (b', { d with prog := d.prog + m, fin := if d.prog + m = k then some .ok else none }))

/-- ACC_LOAD: M × N elements from local memory into an accumulator tile, bit for bit (R153). -/
def execAccLoad (t : TileRef) (s : State) : Host.Outcome State Fault Refusal :=
  done s (s.mxRow t 2 fun b d =>
    let w := if mxFa d.words = .pf64 then 8 else 4
    ((region (mxM d.words) (mxN d.words)).foldl (fun a p =>
      a.accPut d.words p.1 p.2 (b.lrd (mxAAddr d.words + p.1 * mxAStride d.words + w * p.2) w)) b,
      { d with fin := some .ok }))

/-- ACC_STORE: M × N elements of an accumulator tile into local memory, bit for bit (R153). -/
def execAccStore (t : TileRef) (s : State) : Host.Outcome State Fault Refusal :=
  done s (s.mxRow t 3 fun b d =>
    let w := if mxFa d.words = .pf64 then 8 else 4
    ((region (mxM d.words) (mxN d.words)).foldl (fun a p =>
      a.lwr (mxAAddr d.words + p.1 * mxAStride d.words + w * p.2) w (b.accGet d.words p.1 p.2)) b,
      { d with fin := some .ok }))

/-- ACC_ZERO: every element of an accumulator tile is +0.0 (R153). -/
def execAccZero (t : TileRef) (s : State) : Host.Outcome State Fault Refusal :=
  done s (s.mxRow t 4 fun b d =>
    ({ b with acc := b.acc.filter fun e => decide (e.1.1 ≠ mxAcc d.words) }, { d with fin := some .ok }))

/-- A finished descriptor leaves its queue: its counter is incremented whatever its status, and a status other than OK
halts its block (R138, R166, R167, R198). -/
def State.descDone (s : State) (t : TileRef) (d : Desc) (st : Status) (access tag : Nat) : State :=
  match (s.tile t).block? d.bid with
  | none => s
  | some b =>
    let s1 := s.setBlock t { b with k := b.k.set d.ctr (b.k[d.ctr]?.getD 0 + 1) }
    if st = .ok ∨ st = .abrt then s1.haltTell t d.bid
    else s1.haltBlock t d.bid ⟨d.seq, st, access, d.grp, 0, d.pc, BitVec.ofNat 64 tag, b.younger d.grp d.gseq, false⟩

/-- MX_COUNTER_INCREMENT: the oldest descriptor, once it has ended or been refused, adds 1 to its counter (R138, R154,
R166). -/
def execMxCounterIncrement (t : TileRef) (s : State) : Host.Outcome State Fault Refusal :=
  done s (
    let x := s.tile t
    match x.queued x.mx with
    | [] => s
    | d :: _ =>
      let r := takeDesc x.mx d
      match x.block? d.bid with
      | none => s
      | some b =>
        match d.fin with
        | some st => (s.setTile t { x with mx := r }).descDone t d st 8 (mxTag d.words)
        | none =>
          if !d.checked && !s.mxCheck t.die b d.words then
            (s.setTile t { x.setBlock { b with mxBad := true } with mx := failFrom r d }).descDone t d .perm 8 (mxTag d.words)
          else s)

/-- The descriptor that an asynchronous issue instruction sends: u[A] to u[A + 7] (R142). -/
def descOf (c : TCtx) (bad : Bool) : Desc :=
  ⟨c.b.issued, c.b.bid, c.gi, c.g.issued, maskOf c.act, c.pc, wf c.w 50 48,
    (List.range 8).foldl (fun a i => a + (c.g.ru (wA c.w + i)).toNat * 2 ^ (64 * i)) 0, 0, false,
    if bad then some .abrt else none, [], 0⟩

/-- MXI: issues a Millstone descriptor where fewer than 8 are in flight, as a block-scope release (R98, R142, R143, R165). -/
def execMxi (g : GroupRef) (s : State) : Host.Outcome State Fault Refusal :=
  done s (match s.issueAt g .mxi with
    | none => s
    | some c =>
      if (s.tile c.t).settled g.bid g.grp = true ∧ ((s.tile c.t).queued (s.tile c.t).mx).length < 8 then
        let s1 := s.groupOp g .mxi fun _ gr => gr
        let x := s1.tile c.t
        s1.setTile c.t { x with mx := x.mx ++ [descOf c c.b.mxBad] }
      else s)

end Sys2Proof.Machine
end

