-- ==== Sys2Proof/Machine/Vector.lean ====
section
/-!
DEFINITION. The vector engine: descriptors (Table 6-1) and their checks (R180), operands, broadcast and masks (R178, R182,
R183), the operations of Table 6-3, reductions (R187, R188), conversions (R189), random generation (R190-R195), counters and
the issue of VXI.
-/

namespace Sys2Proof.Machine
open Sys2Proof

/-! ### Fields (Table 6-1) -/

def vxOpc (d : Nat) : Nat := dF d 23 16
def vxType (d : Nat) : Nat := dF d 27 24
def vxT (d : Nat) : Format := Format.ofId (vxType d)
def vxF (d : Nat) : Format := Format.ofId (dF d 31 28)
def vxXd (d : Nat) : Nat := dF d 33 32
def vxXa (d : Nat) : Nat := dF d 35 34
def vxXb (d : Nat) : Nat := dF d 37 36
def vxXc (d : Nat) : Nat := dF d 39 38
def vxXm (d : Nat) : Nat := dF d 41 40
def vxMasked (d : Nat) : Bool := nbit d 42
def vxBmode (d : Nat) : Nat := dF d 44 43
def vxRnd (d : Nat) : Nat := dF d 46 45
def vxExpSrc (d : Nat) : Nat := dF d 47 47
def vxM (d : Nat) : Nat := dF d 53 48 + 1
def vxN (d : Nat) : Nat := dF d 61 56 + 1
def vxAddr (d : Nat) : Nat := dF d 95 64
def vxStride (d : Nat) : Nat := dF d 127 96
def vxSaddr (d : Nat) : Nat := dF d 159 128
def vxSstride (d : Nat) : Nat := dF d 191 160
def vxExp (d : Nat) : Nat := dF d 199 192
def vxSub (d : Nat) : Nat := dF d 207 200
def vxThresh (d : Nat) : Nat := dF d 223 208
def vxImm (d : Nat) : Nat := dF d 255 224
def vxTag (d : Nat) : Nat := dF d 447 384

/-- Width in bytes of an element of a broadcast vector (R182). -/
def vxWidth (t : Format) : Nat := match t with | .ln16 => 2 | .pf64 => 8 | _ => 4
/-- Whether an operation takes B′ (Table 6-3, R192). -/
def usesB (opc sub : Nat) : Bool :=
  [0x06, 0x10, 0x11, 0x12, 0x13, 0x14, 0x15, 0x16, 0x18, 0x19, 0x1A].contains opc || (decide (opc = 0x40) && decide (sub = 4))
def isMemVx (opc : Nat) : Bool := decide (1 ≤ opc) && decide (opc ≤ 4)

/-! ### Checks (R180) -/

/-- TYPE, SUB and FMT as Table 6-3 allows them. -/
def vxOpOk (d : Nat) : Bool :=
  let t := vxType d
  let sub := vxSub d
  let anyT := [0, 3, 9, 13, 14].contains t
  let noPf := [0, 3, 13, 14].contains t
  match vxOpc d with
  | 0x01 | 0x02 => anyT && decide (dF d 31 28 = t) && decide (sub = 0)
  | 0x03 | 0x04 => anyT && decide (sub = 0)
  | 0x05 => anyT && [0, 3, 9, 13, 14].contains (dF d 31 28) && decide (sub = 0)
  | 0x06 => anyT && decide (sub = 0)
  | 0x07 => anyT && decide (sub < 2)
  | 0x10 | 0x11 | 0x12 => anyT && decide (sub = 0)
  | 0x13 => noPf && decide (sub = 0)
  | 0x14 => decide (t = 0) && decide (sub = 0)
  | 0x15 | 0x16 => noPf && decide (sub = 0)
  | 0x17 => [0, 3, 9, 13].contains t && decide (sub < 2)
  | 0x18 => noPf && decide (sub < 8)
  | 0x19 => anyT && decide (sub = 0)
  | 0x1A => [13, 14].contains t && decide (sub < 6)
  | 0x20 => (decide (t = 0) && decide (sub < 9)) || (decide (t = 3) && decide (sub < 3))
  | 0x30 => anyT && decide (sub < 4) && decide (vxBmode d ≠ 3)
  | 0x40 => decide (sub < 6) && decide (t = (if sub = 0 ∨ sub = 5 then 14 else 0))
  | 0x41 => decide (sub < 2) && decide (t = 0)
  | _ => false

/-- Bits of the fields that an operation uses; every other bit must be zero (R179). Which fields count as unused where another field
turns them off is the model's choice (DESIGN CHOICE, log 106). -/
def vxUsed (d : Nat) : Nat :=
  let opc := vxOpc d
  let sub := vxSub d
  let base := fmask 447 384 ||| fmask 207 200 ||| fmask 23 0
  if opc = 0x41 then base ||| fmask 95 64
  else
    let region := fmask 27 24 ||| fmask 53 48 ||| fmask 61 56 ||| 2 ^ 42 ||| mIf (vxMasked d) (fmask 41 40)
    let xd := fmask 33 32
    let xa := fmask 35 34
    let fmt := fmask 31 28
    let own :=
      if isMemVx opc then
        fmt ||| fmask 127 64 ||| (if opc = 1 ∨ opc = 3 then xd else xa)
          ||| mIf (decide (3 ≤ opc)) (fmask 46 45)
          ||| mIf (decide (3 ≤ opc) && (vxF d).isBlock) (fmask 191 128)
          ||| mIf (decide (opc = 4) && (vxF d).isBlock) (2 ^ 47 ||| fmask 199 192)
      else if opc = 5 then xd ||| xa ||| fmt ||| fmask 46 45
      else if opc = 7 ∨ opc = 0x17 ∨ opc = 0x20 then xd ||| xa
      else if opc = 0x30 then xd ||| xa ||| fmask 44 43
      else if opc = 0x40 then xd ||| mIf (decide (4 ≤ sub)) (fmask 223 208)
      else 0
    let bp :=
      if usesB opc sub then
        xd ||| fmask 44 43 ||| mIf (decide (opc ≠ 6)) xa ||| mIf (decide (opc = 0x14 ∨ opc = 0x19)) (fmask 39 38)
          ||| (match vxBmode d with | 0 => fmask 37 36 | 3 => fmask 255 224 | _ => fmask 95 64)
      else 0
    base ||| region ||| own ||| bp

/-- The checks of R180; the extent counts the bytes of masked elements too (DESIGN CHOICE, log 107), and XD is checked as PF64 by TYPE, that
of CVTX by FMT (DESIGN CHOICE, log 135). -/
def State.vxCheck (s : State) (die : Fin 4) (b : Block) (d : Nat) : Bool :=
  let opc := vxOpc d
  let used := vxUsed d
  let uses (m : Nat) : Bool := decide (used &&& m ≠ 0)
  let pfT := decide (vxT d = .pf64)
  let pfD := if opc = 5 then decide (vxF d = .pf64) else pfT
  let buf (m x : Nat) (pf : Bool) : Bool :=
    !uses m || (if pf then decide (x % 2 = 0) && decide (x + 1 < b.vxN) else decide (x < b.vxN))
  let w := vxWidth (vxT d)
  let al := if opc = 0x41 then 8 else if isMemVx opc then max 1 ((vxF d).bits / 8) else w
  versionOk (s.reg (.cd die) .vxIfVersion 0) (dF d 15 0) && vxOpOk d
    && decide (d &&& ((2 ^ 512 - 1) ^^^ used) = 0)
    && (!(uses (fmask 255 224) && decide (vxT d = .ln16)) || decide (vxImm d < 2 ^ 16))
    && buf (fmask 33 32) (vxXd d) pfD && buf (fmask 35 34) (vxXa d) pfT && buf (fmask 37 36) (vxXb d) pfT
    && buf (fmask 39 38) (vxXc d) false && buf (fmask 41 40) (vxXm d) false
    && (!(isMemVx opc && (vxF d).isBlock) || decide (vxN d = 32) || decide (vxN d = 64))
    && decide (vxAddr d % al = 0) && decide (vxStride d % al = 0) && decide (vxSaddr d % al = 0) && decide (vxSstride d % al = 0)
    && (if isMemVx opc then
          rowsFit b.size (vxAddr d) (vxStride d) (vxM d) (rowBytes (vxN d) (vxF d).bits)
            && (!(vxF d).isBlock || rowsFit b.size (vxSaddr d) (vxSstride d) (vxM d) (vxN d / 32))
        else if opc = 0x41 then decide (vxAddr d + 1024 ≤ b.size)
        else if usesB opc (vxSub d) && decide (vxBmode d = 1) then decide (vxAddr d + w * vxN d ≤ b.size)
        else if usesB opc (vxSub d) && decide (vxBmode d = 2) then decide (vxAddr d + w * vxM d ≤ b.size)
        else true)

/-! ### Operands -/

/-- An element of a buffer, read and written as a type (R176). -/
def Block.bufAt (b : Block) (x m n : Nat) : Nat := (aGet b.bufs 0 (x, 64 * m + n)).toNat
def Block.setBuf (b : Block) (x m n v : Nat) : Block := { b with bufs := aSet b.bufs (x, 64 * m + n) (BitVec.ofNat 32 v) }
def Block.vrd (b : Block) (t : Format) (x m n : Nat) : Nat :=
  match t with
  | .pf64 => pfMk (b.bufAt x m n) (b.bufAt (x + 1) m n)
  | .ln16 => b.bufAt x m n % 2 ^ 16
  | _ => b.bufAt x m n
def Block.vwr (b : Block) (t : Format) (x m n v : Nat) : Block :=
  match t with
  | .pf64 => (b.setBuf x m n (pfHi v)).setBuf (x + 1) m n (pfLo v)
  | .ln16 => b.setBuf x m n (v % 2 ^ 16)
  | _ => b.setBuf x m n v

/-- Whether an element is written (R183). -/
def vxWritten (b : Block) (d m n : Nat) : Bool := !vxMasked d || decide (b.bufAt (vxXm d) m n ≠ 0)
/-- The row or column vector of an operation, as the engine reads it before the first row pair (R182). -/
def vxVector (b : Block) (d : Nat) : List Nat :=
  let w := vxWidth (vxT d)
  let n := if vxBmode d = 1 then vxN d else vxM d
  if usesB (vxOpc d) (vxSub d) && (decide (vxBmode d = 1) || decide (vxBmode d = 2)) then
    (List.range n).map fun i => b.lrd (vxAddr d + w * i) w
  else []
/-- B′(m, n), from the vector read (R182). -/
def vxB (b : Block) (d : Nat) (v : List Nat) (m n : Nat) : Nat :=
  match vxBmode d with
  | 0 => b.vrd (vxT d) (vxXb d) m n
  | 1 => v[n]?.getD 0
  | 2 => v[m]?.getD 0
  | _ => vxImm d
/-- The lane of an element (R178). -/
def vxLane (m n : Nat) : Nat := 64 * (m % 2) + n
/-- A draw of a lane. -/
def Block.vdraw (b : Block) (lane w : Nat) : Nat × Block :=
  let r := genDraw w (b.lanegen[lane]?.getD 1)
  (r.1, { b with lanegen := b.lanegen.set lane r.2 })

/-! ### Steps of the engine -/

/-- A step of the engine on the front descriptor of an operation code: its check, and `f` where it passes. -/
def State.vxRow (s : State) (t : TileRef) (opc : Nat) (f : Block → Desc → Block × Desc) : State :=
  let x := s.tile t
  match mxFront x x.vx with
  | none => s
  | some d =>
    match x.block? d.bid with
    | none => s
    | some b =>
      if !s.running (.cd t.die) true || decide (vxOpc d.words ≠ opc) then s
      else if !d.checked && !s.vxCheck t.die b d.words then
        s.setTile t { x.setBlock { b with vxBad := true } with vx := failFrom x.vx d }
      else
        let r := f b { d with checked := true }
        s.setTile t { x.setBlock r.1 with vx := putDesc x.vx r.2 }

/-- The rows of row pairs `from` to `from + n - 1` of a region (R178). -/
def pairRows (m first n : Nat) : List Nat := (upFrom (2 * first) (2 * n)).filter fun i => decide (i < m)

/-- Up to `n` row pairs of an operation, `row` doing one row with the operands as they were and the broadcast vector (R178,
R182). -/
def State.vxPairs (s : State) (t : TileRef) (opc n : Nat) (row : Block → Nat → List Nat → Nat → Block → Block) : State :=
  s.vxRow t opc fun b d =>
    let total := (vxM d.words + 1) / 2
    let k := min n (total - d.prog)
    let v := if d.prog = 0 then vxVector b d.words else d.vec
    ((pairRows (vxM d.words) d.prog k).foldl (fun a m => row b d.words v m a) b,
      { d with prog := d.prog + k, vec := v, fin := if d.prog + k = total then some .ok else none })

/-- One row, element by element where it is written. -/
def vxCols (b : Block) (d m : Nat) (a : Block) (f : Nat → Block → Block) : Block :=
  (List.range (vxN d)).foldl (fun a n => if vxWritten b d m n then f n a else a) a

/-- An element-wise operation of a result type on XA, B′ and XC (R182-R185). -/
def State.vxMap (s : State) (t : TileRef) (opc n : Nat) (f : Nat → Nat → Nat → Nat → Nat) : State :=
  s.vxPairs t opc n fun b d v m a =>
    vxCols b d m a fun j a =>
      let ty := vxT d
      let xa := b.vrd ty (vxXa d) m j
      let c := if opc = 0x19 then b.bufAt (vxXc d) m j else b.vrd ty (vxXc d) m j
      a.vwr (if opc = 0x18 then .u32 else ty) (vxXd d) m j (f d xa (vxB b d v m j) c)

/-! ### Element operations (R185, R186) -/

def vxInt (t : Format) : ITy := if t = .s32 then tyS32 else tyU32
/-- Type code of Table 4-2 for a buffer TYPE. -/
def vxTypeCode (t : Format) : Nat := match t with | .fp32 => 4 | .ln16 => 5 | .s32 => 1 | _ => 0
/-- PF64 sign operations: renormalised, a zero lo is +0. -/
def pfSign (neg : Bool) (a : Nat) : Nat :=
  let p := pfRenorm a
  if isNan32 (pfHi p) then pfNan
  else
    let flip := neg || decide (2 ^ 31 ≤ pfHi p)
    let h := if flip then pfHi p ^^^ 0x80000000 else pfHi p
    let l := if flip then pfLo p ^^^ 0x80000000 else pfLo p
    pfMk h (if l % 2 ^ 31 = 0 then 0 else l)

def vxAdd (d a b : Nat) : Nat :=
  match vxT d with
  | .fp32 => f32add a b | .pf64 => pfAdd a b | .ln16 => ln16add a b | t => iAdd (vxInt t) true a b
def vxSubOp (d a b : Nat) : Nat :=
  match vxT d with
  | .fp32 => f32sub a b | .pf64 => pfSub a b | .ln16 => ln16sub a b | t => iSub (vxInt t) true a b
def vxMul (d a b : Nat) : Nat :=
  match vxT d with
  | .fp32 => f32mul a b | .pf64 => pfMul a b | .ln16 => ln16mul a b | t => iMul (vxInt t) true a b
def vxDiv (d a b : Nat) : Nat :=
  match vxT d with
  | .fp32 => f32div a b | .ln16 => ln16div a b | t => iDiv (vxInt t) true a b
def vxMin (d a b : Nat) : Nat :=
  match vxT d with
  | .fp32 => f32min a b | .ln16 => ln16min a b | t => iMin (vxInt t) a b
def vxMax (d a b : Nat) : Nat :=
  match vxT d with
  | .fp32 => f32max2 a b | .ln16 => ln16max a b | t => iMax (vxInt t) a b
def vxSign (d a : Nat) : Nat :=
  let neg := decide (vxSub d = 1)
  match vxT d with
  | .fp32 => if neg then f32neg a else f32abs a
  | .pf64 => pfSign neg a
  | .ln16 => if neg then ln16neg a else ln16abs a
  | _ => if neg then iSub tyS32 true 0 a else iAbs tyS32 true a
def vxBit (d a b : Nat) : Nat :=
  let ty := vxInt (vxT d)
  match vxSub d with
  | 0 => iAnd ty a b
  | 1 => iOr ty a b
  | 2 => iXor ty a b
  | 3 => iShl ty a b
  | 4 => iShr ty a b
  | _ => iRem ty a b
def vxFun (d a : Nat) : Nat :=
  if vxT d = .ln16 then
    match vxSub d with
    | 0 => ln16root false a
    | 1 => ln16recip a
    | _ => ln16root true a
  else f32fun (vxSub d) a

/-! ### Moves and conversions -/

/-- An element put into a packed row; only its own bits change (R56, R183). -/
def Block.putElem (b : Block) (row k w v : Nat) : Block :=
  if w < 8 then
    let o := row + k * w / 8
    let sh := k * w % 8
    let old := b.lrd o 1
    let cur := old >>> sh % 2 ^ w
    b.lwr o 1 (old - cur * 2 ^ sh + v % 2 ^ w * 2 ^ sh)
  else b.lwr (row + k * (w / 8)) (w / 8) v

/-- A conversion with its mode, drawing from a lane where it rounds stochastically (R73, R189). -/
def Block.vconv (b : Block) (sf df : Format) (mode x lane : Nat) (es et : Int) : Nat × Block :=
  match mode with
  | 1 => (convert sf df .rtz x es et, b)
  | 2 =>
    if cvtDrawsLog sf df x es et then
      let r := b.vdraw lane 16
      (convert sf df (.sr r.1) x es et, r.2)
    else (convert sf df .rne x es et, b)
  | _ => (convert sf df .rne x es et, b)

/-- One row of LOAD or CVTL (R184, R189). -/
def vxLoadRow (conv : Bool) (b : Block) (d m : Nat) (a : Block) : Block :=
  vxCols b d m a fun n a =>
    let f := vxF d
    let x := b.elem (vxAddr d + m * vxStride d) n f.bits
    let e := b.scaleAt f (vxSaddr d + m * vxSstride d) n
    if conv then
      let r := a.vconv f (vxT d) (vxRnd d) x (vxLane m n) e 0
      r.2.vwr (vxT d) (vxXd d) m n r.1
    else a.vwr (vxT d) (vxXd d) m n x

/-- The written columns of a 32-element block of a row. -/
def blockCols (b : Block) (d m c : Nat) : List Nat :=
  (upFrom (32 * c) 32).filter fun n => decide (n < vxN d) && vxWritten b d m n

/-- One row of STORE or CVTS (R184, R189); where rows overlap, the higher row and element is written last (DESIGN CHOICE, log 108). -/
def vxStoreRow (conv : Bool) (b : Block) (d m : Nat) (a : Block) : Block :=
  let f := vxF d
  let t := vxT d
  (List.range (cdiv (vxN d) 32)).foldl (fun a c =>
    let cols := blockCols b d m c
    if cols.isEmpty then a
    else
      let e : Int :=
        if conv && f.isBlock then
          (if vxExpSrc d = 1 then autoExp f (cols.map fun n => elemLog2 t (b.vrd t (vxXa d) m n) 0) else expOfByte (vxExp d))
        else 0
      let a := if conv && f.isBlock then a.lwr (vxSaddr d + m * vxSstride d + c) 1 (unsignedBits 8 e) else a
      cols.foldl (fun a n =>
        let x := b.vrd t (vxXa d) m n
        if conv then
          let r := a.vconv t f (vxRnd d) x (vxLane m n) 0 e
          r.2.putElem (vxAddr d + m * vxStride d) n f.bits r.1
        else a.putElem (vxAddr d + m * vxStride d) n f.bits x) a) a

/-- VX_LOAD: local memory into a buffer, bit for bit (R184). -/
def execVxLoad (t : TileRef) (n : Nat) (s : State) : Host.Outcome State Fault Refusal :=
  done s (s.vxPairs t 0x01 n fun b d _ => vxLoadRow false b d)
/-- VX_STORE: a buffer into local memory, bit for bit (R184). -/
def execVxStore (t : TileRef) (n : Nat) (s : State) : Host.Outcome State Fault Refusal :=
  done s (s.vxPairs t 0x02 n fun b d _ => vxStoreRow false b d)
/-- CVTL: local memory converted into a buffer (R189). -/
def execCvtl (t : TileRef) (n : Nat) (s : State) : Host.Outcome State Fault Refusal :=
  done s (s.vxPairs t 0x03 n fun b d _ => vxLoadRow true b d)
/-- CVTS: a buffer converted into local memory (R189). -/
def execCvts (t : TileRef) (n : Nat) (s : State) : Host.Outcome State Fault Refusal :=
  done s (s.vxPairs t 0x04 n fun b d _ => vxStoreRow true b d)
/-- CVTX: a buffer converted into another (R189). -/
def execCvtx (t : TileRef) (n : Nat) (s : State) : Host.Outcome State Fault Refusal :=
  done s (s.vxPairs t 0x05 n fun b d _ m a =>
    vxCols b d m a fun j a =>
      let r := a.vconv (vxT d) (vxF d) (vxRnd d) (b.vrd (vxT d) (vxXa d) m j) (vxLane m j) 0 0
      r.2.vwr (vxF d) (vxXd d) m j r.1)
/-- VX_FILL: XD takes B′ (R184). -/
def execVxFill (t : TileRef) (n : Nat) (s : State) : Host.Outcome State Fault Refusal :=
  done s (s.vxMap t 0x06 n fun _ _ b _ => b)
/-- VX_COPY: SUB 0 element by element, SUB 1 transposed, in one step (R184, Table 6-7). -/
def execVxCopy (t : TileRef) (n : Nat) (s : State) : Host.Outcome State Fault Refusal :=
  done s (
    match mxFront (s.tile t) (s.tile t).vx with
    | none => s
    | some d =>
      if vxSub d.words = 1 then
        s.vxRow t 0x07 fun b d =>
          let w := d.words
          ((region (vxM w) (vxN w)).foldl (fun a p =>
            if vxWritten b w p.2 p.1 then a.vwr (vxT w) (vxXd w) p.2 p.1 (b.vrd (vxT w) (vxXa w) p.1 p.2) else a) b,
            { d with fin := some .ok })
      else s.vxMap t 0x07 n fun _ a _ _ => a)

/-- VX_ADD (R184). -/
def execVxAdd (t : TileRef) (n : Nat) (s : State) : Host.Outcome State Fault Refusal :=
  done s (s.vxMap t 0x10 n fun d a b _ => vxAdd d a b)
/-- VX_SUB (R184). -/
def execVxSub (t : TileRef) (n : Nat) (s : State) : Host.Outcome State Fault Refusal :=
  done s (s.vxMap t 0x11 n fun d a b _ => vxSubOp d a b)
/-- VX_MUL (R184). -/
def execVxMul (t : TileRef) (n : Nat) (s : State) : Host.Outcome State Fault Refusal :=
  done s (s.vxMap t 0x12 n fun d a b _ => vxMul d a b)
/-- VX_DIV (R184). -/
def execVxDiv (t : TileRef) (n : Nat) (s : State) : Host.Outcome State Fault Refusal :=
  done s (s.vxMap t 0x13 n fun d a b _ => vxDiv d a b)
/-- VX_FMA: one rounding after XC is added (R185). -/
def execVxFma (t : TileRef) (n : Nat) (s : State) : Host.Outcome State Fault Refusal :=
  done s (s.vxMap t 0x14 n fun _ a b c => f32fma a b c)
/-- VX_MIN (R185). -/
def execVxMin (t : TileRef) (n : Nat) (s : State) : Host.Outcome State Fault Refusal :=
  done s (s.vxMap t 0x15 n fun d a b _ => vxMin d a b)
/-- VX_MAX (R185). -/
def execVxMax (t : TileRef) (n : Nat) (s : State) : Host.Outcome State Fault Refusal :=
  done s (s.vxMap t 0x16 n fun d a b _ => vxMax d a b)
/-- VX_SIGN: absolute value, negation (R185). -/
def execVxSign (t : TileRef) (n : Nat) (s : State) : Host.Outcome State Fault Refusal :=
  done s (s.vxMap t 0x17 n fun d a _ _ => vxSign d a)
/-- VX_CMP: 1 where condition SUB of Table 4-9 holds, else 0 (R184). -/
def execVxCmp (t : TileRef) (n : Nat) (s : State) : Host.Outcome State Fault Refusal :=
  done s (s.vxMap t 0x18 n fun d a b _ =>
    let m := if vxT d = .ln16 then 2 ^ 16 else 2 ^ 32
    b2n (setpCond (vxTypeCode (vxT d)) (vxSub d) (a % m) (b % m)))
/-- VX_SEL: XC ≠ 0 ? XA : B′ (R184). -/
def execVxSel (t : TileRef) (n : Nat) (s : State) : Host.Outcome State Fault Refusal :=
  done s (s.vxMap t 0x19 n fun _ a b c => if c ≠ 0 then a else b)
/-- VX_BIT (R184). -/
def execVxBit (t : TileRef) (n : Nat) (s : State) : Host.Outcome State Fault Refusal :=
  done s (s.vxMap t 0x1A n fun d a b _ => vxBit d a b)
/-- VX_FUN (R186). -/
def execVxFun (t : TileRef) (n : Nat) (s : State) : Host.Outcome State Fault Refusal :=
  done s (s.vxMap t 0x20 n fun d a _ _ => vxFun d a)

/-! ### Reductions (R187, R188) -/

/-- Neighbours combined: one level of the tree. -/
def pairUp {α : Type} (f : α → α → α) : List α → List α
  | a :: b :: r => f a b :: pairUp f r
  | l => l
/-- The fixed pairwise tree (R187). -/
def treeFold {α : Type} (f : α → α → α) : Nat → List α → List α
  | 0, l => l
  | n + 1, l => treeFold f n (pairUp f l)

/-- A PF64 pair as a value, a zero with the sign of hi (R185). -/
def pfKey (p : Nat) : FVal :=
  let q := pfIn p
  let v := pfVal q
  if v.isZero then .fin (decide (2 ^ 31 ≤ pfHi q)) 0 0 else v
/-- An element as an ordered value; NaL as NaN (R187). -/
def vxKey (t : Format) (x : Nat) : FVal :=
  match t with
  | .pf64 => pfKey x
  | .ln16 => (match ln16d x with | .nal => .nan | .zero => .fin false 0 0 | .num _ _ => f32d (lnTo32 .ln16 x 0))
  | .fp32 => f32d x
  | t => ofInt ((vxInt t).val x) 0
/-- Whether one element lies below another, −0 below +0; LN16 by its logarithm. -/
def vxBelow (t : Format) (a b : Nat) : Bool := if t = .ln16 then ln16lt a b else (vxKey t a).ltZ (vxKey t b)

/-- One combination of two (value, index) pairs (R187). -/
def redOp (t : Format) (sub : Nat) (l r : Nat × Nat) : Nat × Nat :=
  match sub with
  | 0 =>
    (match t with
      | .pf64 => pfAdd l.1 r.1
      | .s32 | .u32 => iAdd (vxInt t) true l.1 r.1
      | _ => f32add l.1 r.1, 0)
  | 3 =>
    let ln := (vxKey t l.1).isNan
    let rn := (vxKey t r.1).isNan
    if (rn && !ln) || (!rn && !ln && vxBelow t l.1 r.1) then r else l
  | _ =>
    let mx := decide (sub = 1)
    (match t with
      | .pf64 =>
        if (pfKey l.1).isNan || (pfKey r.1).isNan then pfNan
        else pfRenorm (if (if mx then (pfKey l.1).ltZ (pfKey r.1) else (pfKey r.1).ltZ (pfKey l.1)) then r.1 else l.1)
      | .ln16 => if mx then ln16max l.1 r.1 else ln16min l.1 r.1
      | .fp32 => if mx then f32max2 l.1 r.1 else f32min l.1 r.1
      | t => if mx then iMax (vxInt t) l.1 r.1 else iMin (vxInt t) l.1 r.1, 0)

/-- The result type of a reduction (R188). -/
def redType (t : Format) (sub : Nat) : Format := if sub = 3 then .u32 else if sub = 0 ∧ t = .ln16 then .fp32 else t
/-- A result as it is written: the index, or a canonical value. -/
def redOut (t : Format) (sub : Nat) (x : Nat × Nat) : Nat :=
  if sub = 3 then x.2
  else
    match redType t sub with
    | .pf64 => pfRenorm x.1
    | .fp32 => if isNan32 x.1 then f32nan else x.1
    | _ => x.1
def reduceAll (t : Format) (sub : Nat) (l : List (Nat × Nat)) : Nat × Nat := (treeFold (redOp t sub) 7 l).headD (0, 0)
/-- A leaf of a reduction: an LN16 sum widens exactly (R187). -/
def redLeaf (t : Format) (sub x i : Nat) : Nat × Nat := (if sub = 0 ∧ t = .ln16 then lnTo32 .ln16 x 0 else x, i)
def redRow (b : Block) (d m : Nat) (idx : Nat → Nat) : Nat × Nat :=
  reduceAll (vxT d) (vxSub d) ((List.range (vxN d)).map fun n => redLeaf (vxT d) (vxSub d) (b.vrd (vxT d) (vxXa d) m n) (idx n))
def redWrite (b : Block) (d m n : Nat) (x : Nat × Nat) (a : Block) : Block :=
  if vxWritten b d m n then a.vwr (redType (vxT d) (vxSub d)) (vxXd d) m n (redOut (vxT d) (vxSub d) x) else a

/-- VX_REDUCE: rows, columns or all; along columns and over all in one step (R188, Table 6-7). -/
def execVxReduce (t : TileRef) (n : Nat) (s : State) : Host.Outcome State Fault Refusal :=
  done s (
    match mxFront (s.tile t) (s.tile t).vx with
    | none => s
    | some d =>
      match vxBmode d.words with
      | 0 => s.vxPairs t 0x30 n fun b d _ m a => redWrite b d m 0 (redRow b d m id) a
      | 1 =>
        s.vxRow t 0x30 fun b d =>
          let w := d.words
          ((List.range (vxN w)).foldl (fun a n =>
            redWrite b w 0 n (reduceAll (vxT w) (vxSub w) ((List.range (vxM w)).map fun m =>
              redLeaf (vxT w) (vxSub w) (b.vrd (vxT w) (vxXa w) m n) m)) a) b, { d with fin := some .ok })
      | _ =>
        s.vxRow t 0x30 fun b d =>
          let w := d.words
          (redWrite b w 0 0 (reduceAll (vxT w) (vxSub w) ((List.range (vxM w)).map fun m =>
            redRow b w m fun n => 64 * m + n)) b, { d with fin := some .ok }))

/-! ### Random generation (R190-R195) -/

/-- The state of a generator one step back. -/
def genUnstep (s : W64) : W64 :=
  if s.getLsbD 63 then ((s ^^^ 0xD800000000000000#64) <<< 1) ||| 1 else s <<< 1
def genBack : Nat → W64 → W64
  | 0, s => s
  | n + 1, s => genBack n (genUnstep s)

/-- Elements of a lane written before a row (R193). -/
def lanesBefore (b : Block) (d m n : Nat) : Nat :=
  ((List.range m).filter fun i => decide (i % 2 = m % 2) && vxWritten b d i n).length
/-- The lanes that have written an odd number of elements in the first row pairs (R193). -/
def oddLanes (b : Block) (d pairs : Nat) : Nat :=
  maskOf ((List.range 2).flatMap fun i => ((List.range (vxN d)).filter fun n => decide (lanesBefore b d (2 * pairs + i) n % 2 = 1)).map
    fun n => vxLane i n)
/-- One element of RAND SUB 2: the first of a pair draws both variates, the second takes the other of the same draws
(R193); `odd` names the lanes whose pair is half taken. -/
def vxNormal (lane : Nat) (a : Block × Nat) : Nat × Block × Nat :=
  if nbit a.2 lane then
    let r := genDraw 32 (genBack 64 (a.1.lanegen[lane]?.getD 1))
    let q := genDraw 32 r.2
    ((rndNormalBM r.1 q.1).2, a.1, a.2 - 2 ^ lane)
  else
    let r := a.1.vdraw lane 32
    let q := r.2.vdraw lane 32
    ((rndNormalBM r.1 q.1).1, q.2, a.2 + 2 ^ lane)

/-- One element of RAND (Table 6-5). -/
def vxRandElem (b : Block) (d : Nat) (v : List Nat) (m n : Nat) (a : Block × Nat) : Nat × Block × Nat :=
  let lane := vxLane m n
  match vxSub d with
  | 0 => let r := a.1.vdraw lane 32; (r.1, r.2, a.2)
  | 1 => let r := a.1.vdraw lane 32; (rndUniform r.1, r.2, a.2)
  | 2 => vxNormal lane a
  | 3 => let r := a.1.vdraw lane 32; (rndNormalIcdf r.1, r.2, a.2)
  | 4 =>
    let r := a.1.vdraw lane 16
    (if r.1 < vxThresh d then 0 else f32mul (b.vrd .fp32 (vxXa d) m n) (vxB b d v m n), r.2, a.2)
  | _ => let r := a.1.vdraw lane 16; (b2n (decide (r.1 < vxThresh d)), r.2, a.2)

/-- One row of RAND (R192, R193). -/
def vxRandRow (b : Block) (d : Nat) (v : List Nat) (m : Nat) (a : Block × Nat) : Block × Nat :=
  (List.range (vxN d)).foldl (fun a j =>
    if vxWritten b d m j then
      let r := vxRandElem b d v m j a
      (r.2.1.vwr .u32 (vxXd d) m j r.1, r.2.2)
    else a) a

/-- VX_RAND (R192-R194). -/
def execVxRand (t : TileRef) (n : Nat) (s : State) : Host.Outcome State Fault Refusal :=
  done s (s.vxRow t 0x40 fun b d =>
    let total := (vxM d.words + 1) / 2
    let k := min n (total - d.prog)
    let v := if d.prog = 0 then vxVector b d.words else d.vec
    let r := (pairRows (vxM d.words) d.prog k).foldl (fun a m => vxRandRow b d.words v m a) (b, d.odd)
    (r.1, { d with prog := d.prog + k, vec := v, odd := r.2, fin := if d.prog + k = total then some .ok else none }))

/-- GEN_GET: the 128 vector-lane states to local memory (R195). -/
def execGenGet (t : TileRef) (s : State) : Host.Outcome State Fault Refusal :=
  done s (
    match mxFront (s.tile t) (s.tile t).vx with
    | none => s
    | some d =>
      if vxSub d.words ≠ 0 then s
      else s.vxRow t 0x41 fun b d =>
        ((List.range 128).foldl (fun a l => a.lwr (vxAddr d.words + 8 * l) 8 (b.lanegen[l]?.getD 1).toNat) b,
          { d with fin := some .ok }))
/-- GEN_SET: the 128 vector-lane states from local memory, zero as 1 (R195). -/
def execGenSet (t : TileRef) (s : State) : Host.Outcome State Fault Refusal :=
  done s (
    match mxFront (s.tile t) (s.tile t).vx with
    | none => s
    | some d =>
      if vxSub d.words = 0 then s
      else s.vxRow t 0x41 fun b d =>
        ({ b with lanegen := (List.range 128).map fun l => genLoad (BitVec.ofNat 64 (b.lrd (vxAddr d.words + 8 * l) 8)) },
          { d with fin := some .ok }))

/-! ### The queue -/

/-- VX_COUNTER_INCREMENT: the oldest descriptor, once it has ended or been refused, adds 1 to its counter (R138, R180,
R198). -/
def execVxCounterIncrement (t : TileRef) (s : State) : Host.Outcome State Fault Refusal :=
  done s (
    let x := s.tile t
    match x.queued x.vx with
    | [] => s
    | d :: _ =>
      let r := takeDesc x.vx d
      match x.block? d.bid with
      | none => s
      | some b =>
        match d.fin with
        | some st => (s.setTile t { x with vx := r }).descDone t d st 9 (vxTag d.words)
        | none =>
          if !d.checked && !s.vxCheck t.die b d.words then
            (s.setTile t { x.setBlock { b with vxBad := true } with vx := failFrom r d }).descDone t d .perm 9 (vxTag d.words)
          else s)

/-- VXI: issues a vector-engine descriptor where fewer than 8 are in flight, as a block-scope release (R98, R142, R143, R197). -/
def execVxi (g : GroupRef) (s : State) : Host.Outcome State Fault Refusal :=
  done s (match s.issueAt g .vxi with
    | none => s
    | some c =>
      if (s.tile c.t).settled g.bid g.grp = true ∧ ((s.tile c.t).queued (s.tile c.t).vx).length < 8 then
        let s1 := s.groupOp g .vxi fun _ gr => gr
        let x := s1.tile c.t
        let y := match x.block? g.bid with | some b => x.setBlock { b with vxUsed := true } | none => x
        s1.setTile c.t { y with vx := y.vx ++ [descOf c c.b.vxBad] }
      else s)

end Sys2Proof.Machine
end

