-- ==== Sys2Proof/Machine/Burr.lean ====
section
/-!
DEFINITION. Burrs (Chapter 07): program headers and operations with their checks, the channel view, the operations in
their units of work, launches, feeds, and what disabling does.
-/

namespace Sys2Proof

/-- The number of a Burr among all (Table 11-10: the global Burr index). -/
def BurrRef.key (b : BurrRef) : Nat := 64 * b.die.val + b.idx
/-- The stack that a Burr is attached to (R202). -/
def BurrRef.stack (b : BurrRef) : Nat := 2 * b.die.val + b.idx / 32
def BurrRef.cdie (b : BurrRef) : Die := .cd b.die

end Sys2Proof

namespace Sys2Proof.Machine
open Sys2Proof

/-! ### Headers and operations (Tables 7-2 to 7-4) -/

def bhVer (h : Nat) : Nat := dF h 15 0
def bhNops (h : Nat) : Nat := dF h 40 32
def bhVb (h i : Nat) : Nat := if i < 32 then dF h 127 64 else dF h 191 128
def bhPages (h i : Nat) : Nat := if i < 32 then dF h 223 192 else dF h 255 224
def bhRbase (h : Nat) : Nat := dF h 319 256
def bhRstride (h : Nat) : Nat := dF h 351 320
def bhTag (h : Nat) : Nat := dF h 447 384

def boOpc (o : Nat) : Nat := dF o 23 16
def boImm (o : Nat) : Nat := dF o 63 32
def boBurr (o : Nat) : Nat := dF o 71 64
def boOne (o : Nat) : Bool := nbit o 77
def boRa (o : Nat) : Bool := nbit o 78
def boAcc (o : Nat) : Bool := nbit o 79
def boSub (o : Nat) : Nat := dF o 83 80
def boFs (o : Nat) : Format := Format.ofId (dF o 87 84)
def boFm (o : Nat) : Format := Format.ofId (dF o 91 88)
def boQ (o : Nat) : Nat := dF o 95 92 + 1
def boK (o : Nat) : Nat := dF o 111 96
def boR (o : Nat) : Nat := dF o 127 112
/-- LEN of COPY and FILL, ROWS and COLS joined. -/
def boLen (o : Nat) : Nat := dF o 127 96
def boStride (o : Nat) : Nat := dF o 143 128
def boSz (o : Nat) : Nat := dF o 159 144
def boSy (o : Nat) : Nat := dF o 175 160
def boSx (o : Nat) : Nat := dF o 191 176
def boSaddr (o : Nat) : Nat := dF o 223 192
def boMaddr (o : Nat) : Nat := dF o 255 224

/-- The fields of Table 7-3 as (high bit, low bit); ONE, OPC and VERSION are used by every operation. -/
def boMaddrF : Nat × Nat := (255, 224)
def boSaddrF : Nat × Nat := (223, 192)
def boSxF : Nat × Nat := (191, 176)
def boSyF : Nat × Nat := (175, 160)
def boSzF : Nat × Nat := (159, 144)
def boStrideF : Nat × Nat := (143, 128)
def boRowsF : Nat × Nat := (127, 112)
def boColsF : Nat × Nat := (111, 96)
def boQF : Nat × Nat := (95, 92)
def boFmF : Nat × Nat := (91, 88)
def boFsF : Nat × Nat := (87, 84)
def boSubF : Nat × Nat := (83, 80)
def boAccF : Nat × Nat := (79, 79)
def boRaF : Nat × Nat := (78, 78)
def boBurrF : Nat × Nat := (71, 64)
def boImmF : Nat × Nat := (63, 32)
def boFields : List (Nat × Nat) :=
  [boMaddrF, boSaddrF, boSxF, boSyF, boSzF, boStrideF, boRowsF, boColsF, boQF, boFmF, boFsF, boSubF, boAccF, boRaF,
    boBurrF, boImmF]
/-- Operand fields of the operations over rows. -/
def boRowFields : List (Nat × Nat) := [boMaddrF, boSaddrF, boSxF, boStrideF, boRowsF, boColsF, boFmF, boFsF]

/-- The fields an operation uses (Table 7-4); ACC is one of SCORE's, which R214 treats as 0 (DEDUCED, log 137). -/
def boUsed (o : Nat) : List (Nat × Nat) :=
  (match boOpc o with
    | 1 => boRowFields ++ [boSyF, boAccF, boRaF]
    | 2 => boRowFields ++ [boSyF, boAccF, boRaF]
    | 3 => boRowFields ++ [boSyF, boQF, boAccF, boRaF]
    | 4 => boRowFields ++ [boSzF, boQF, boRaF]
    | 5 => boRowFields
    | 6 => [boSxF, boSyF, boColsF, boImmF]
    | 7 => [boSxF, boSyF, boRowsF, boColsF, boSubF]
    | 8 =>
      [boRowsF, boColsF, boSubF] ++
        (match boSub o with | 0 => [boMaddrF, boSyF, boRaF] | 2 => [boSxF, boSyF] | _ => [boSxF, boMaddrF])
    | 9 => [boRowsF, boColsF, boSubF, boImmF] ++ (if boSub o = 0 then [boSyF] else [boMaddrF])
    | _ => [boImmF, boRowsF])
    ++ (if boOne o then [boBurrF] else [])
def boUnusedZero (o : Nat) : Bool :=
  boFields.all fun f => (boUsed o).contains f || decide (dF o f.1 f.2 = 0)
/-- Sub-operations of an operation code. -/
def boSubs (opc : Nat) : Nat := match opc with | 7 => 2 | 8 => 4 | 9 => 2 | _ => 1

/-- Bytes of a memory row, and of its scale bytes (R211). -/
def boRowBytes (o : Nat) : Nat := boK o * (boFm o).bits / 8
def boScaleBytes (o : Nat) : Nat := if (boFm o).isBlock then boK o / 32 else 0

/-- Channel addresses that an operation uses, as (start, bytes). -/
def boSpans (o : Nat) : List (Nat × Nat) :=
  match boOpc o with
  | 1 | 2 | 3 | 4 | 5 =>
    if boK o = 0 then []
    else
      (boMaddr o, (boR o - 1) * boStride o + boRowBytes o) ::
        (if boScaleBytes o = 0 then [] else [(boSaddr o, boR o * boScaleBytes o)])
  | 8 => if boSub o ≤ 1 then [(boMaddr o, boLen o)] else []
  | 9 => if boSub o = 1 then [(boMaddr o, boLen o)] else []
  | _ => []
/-- Scratch operands of an operation, as (offset, bytes). -/
def boScratch (o : Nat) : List (Nat × Nat) :=
  let k := boK o
  let r := boR o
  let q := boQ o
  match boOpc o with
  | 1 => [(boSx o, 2 * k), (boSy o, 4 * r)]
  | 2 => [(boSx o, 2 * r), (boSy o, 4 * k)]
  | 3 => [(boSx o, 2 * q * k), (boSy o, 4 * q * r)]
  | 4 => [(boSx o, 4 * q * r), (boSz o, 4 * q * (k + 2))]
  | 5 => [(boSx o, 2 * r * k)]
  | 6 => [(boSx o, 4 * k), (boSy o, 4 * k)]
  | 7 => [(boSx o, 4 * r * k), (boSy o, 4 * r)]
  | 8 =>
    (match boSub o with
      | 0 => [(boSy o, boLen o)]
      | 2 => [(boSx o, boLen o), (boSy o, boLen o)]
      | _ => [(boSx o, boLen o)])
  | 9 => if boSub o = 0 then [(boSy o, boLen o)] else []
  | _ => []

/-- Formats that an operation takes: memory, then scratch (Table 7-4). -/
def boFormats (o : Nat) : Bool :=
  let m := boFm o
  let f := boFs o
  match boOpc o with
  | 1 | 2 => decide (m = .ln4 ∨ m = .ln8 ∨ m = .b1 ∨ m = .t2 ∨ m = .q2) && decide (f = .ln16 ∨ f = .fp16)
  | 3 | 4 => decide (m = .ln8 ∨ m = .ln4) && decide (f = .ln16)
  | 5 => decide (m = .ln4 ∨ m = .ln8 ∨ m = .ln16) && decide (f = .ln16)
  | _ => true

/-- Checks of an operation against its program and the view of its Burr (R210-R212). -/
def burrCheck (h o i : Nat) : Bool :=
  let c := boOpc o
  let rows := decide (1 ≤ c ∧ c ≤ 5)
  let spans := boScratch o
  decide (dF o 15 0 = bhVer h) && decide (1 ≤ c ∧ c ≤ 10) && decide (dF o 31 24 = 0) && decide (dF o 76 72 = 0)
    && boUnusedZero o && decide (boSub o < boSubs c) && boFormats o
    && (!rows || (decide (boK o % 32 = 0) && decide (boR o ≠ 0)
      && decide (boMaddr o % 32 = 0) && decide (boStride o % 32 = 0) && ((boFm o).isBlock || decide (boSaddr o = 0))))
    && !(decide (c = 3 ∨ c = 4) && decide (512 < boK o)) && !(decide (c = 4) && decide (boR o % 4 ≠ 0))
    && !(decide (c = 7) && decide (boR o = 0))
    && !(decide (c = 8 ∨ c = 9) && decide (boLen o % 4 ≠ 0 ∨ 65536 < boLen o ∨ boMaddr o % 4 ≠ 0))
    && !(decide (c = 10) && decide (65536 ≤ boImm o ∨ boR o % 64 ≠ 0 ∨ 49152 < boR o))
    && spans.all (fun x => decide (x.1 % 4 = 0) && decide (x.1 + x.2 ≤ 65536))
    && (boSpans o).all (fun x => decide (x.2 = 0) || decide (x.1 + x.2 ≤ 65536 * bhPages h i))

/-- Units of work of an operation (R221); the arrival word of a COPY SUB 3 is one of its own, after every block. -/
def boUnits (o : Nat) : Nat :=
  match boOpc o with
  | 1 | 3 | 5 => boR o
  | 2 | 4 => cdiv (boR o) 4
  | 8 => cdiv (boLen o) 64 + (if boSub o = 3 then 1 else 0)
  | 9 => cdiv (boLen o) 64
  | _ => 1

/-- Checks of a header (Table 7-2, R209, R218). -/
def State.burrHeaderOk (s : State) (die : Fin 4) (h : Nat) : Bool :=
  let cap := if s.fuse.high16 then 32768 else 24576
  versionOk (s.reg (.cd die) .burIfVersion 0) (bhVer h) && decide (dF h 23 16 = 0x80) && decide (dF h 31 24 = 0)
    && decide (dF h 63 41 = 0) && decide (dF h 383 352 = 0) && decide (dF h 511 448 = 0)
    && decide (1 ≤ bhNops h ∧ bhNops h ≤ 256) && decide (bhRstride h % 64 = 0) && decide (bhRbase h % 64 = 0)
    && decide (dF h 127 64 % 2 ^ 21 = 0) && decide (dF h 191 128 % 2 ^ 21 = 0)
    && decide (dF h 223 192 ≤ cap) && decide (dF h 255 224 ≤ cap)

/-- Checks of a program's operations at its launch: each has the header's VERSION (R210, R218). -/
def burrOpsOk (h : Nat) (ops : List Nat) : Bool := ops.all fun o => decide (dF o 15 0 = bhVer h)

/-! ### A Burr -/

def BurrU.empty : BurrU := ⟨[], none, none, [], [], false⟩
def State.burr (s : State) (b : BurrRef) : BurrU := aGet s.burrs BurrU.empty b.key
def State.setBurr (s : State) (b : BurrRef) (u : BurrU) : State := { s with burrs := aSet s.burrs b.key u }

/-- Fields of BUR_STATEi (Table 7-8). -/
def State.burSt (s : State) (b : BurrRef) : Nat := s.rf b.cdie .burState b.idx 7 5
def State.setBurSt (s : State) (b : BurrRef) (v : Nat) : State := s.setRf b.cdie .burState b.idx 7 5 v
def State.burIdx (s : State) (b : BurrRef) : Nat := s.rf b.cdie .burState b.idx 35 28
def State.burRow (s : State) (b : BurrRef) : Nat := s.rf b.cdie .burState b.idx 27 12
def State.setBurRow (s : State) (b : BurrRef) (v : Nat) : State := s.setRf b.cdie .burState b.idx 27 12 v
def State.burGate (s : State) (b : BurrRef) : Nat := s.rf b.cdie .burState b.idx 63 48
/-- Whether there is no Burr: a pseudo-channel of its channel is OFF, in TRAIN or in TEST (Table 9-5). -/
def State.burrAbsent (s : State) (b : BurrRef) : Bool :=
  [0, 1].any fun i => decide (s.pch (128 * b.die.val + 2 * b.idx + i) ≤ 2)
/-- Whether a Burr can take no program (R218, R274): disabled, retired or absent. -/
def State.burGone (s : State) (b : BurrRef) : Bool := decide (s.burSt b = 5) || decide (s.burSt b = 6) || s.burrAbsent b

/-- Scratch bytes as a number, and a number written (R16). -/
def BurrU.rd (u : BurrU) (off n : Nat) : Nat := leNat ((List.range n).map fun i => aGet u.scratch 0 (off + i))
def BurrU.wr (u : BurrU) (off n x : Nat) : BurrU := { u with scratch := lput u.scratch off n x }
def BurrU.put (u : BurrU) (off : Nat) (l : List Byte) : BurrU :=
  { u with scratch := (withIdx l).foldl (fun m p => aSet m (off + p.1) p.2) u.scratch }
def BurrU.get (u : BurrU) (off n : Nat) : List Byte := (List.range n).map fun i => aGet u.scratch 0 (off + i)

/-! ### Launch accounting (R219, R220) -/

/-- A Burr of a launch has ended with a status. -/
def State.burrCount (s : State) (home : Fin 4) (lid : Nat) (b : BurrRef) (st : Status) : State :=
  { s with blaunches := s.blaunches.map fun l =>
      if l.id = lid ∧ l.die = home ∧ nbit l.left b.idx = true then
        { l with
          left := l.left - 2 ^ b.idx
          bad := if st.isOk then l.bad else l.bad + 2 ^ b.idx
          st := Status.first l.st st }
      else l }

/-- The pending program ends with ABRT (R220, R232, R233). -/
def State.burrDropPend (s : State) (b : BurrRef) : State :=
  let u := s.burr b
  match u.pend with
  | none => s
  | some p => ((s.setBurr b { u with pend := none }).setRf b.cdie .burState b.idx 4 4 0).burrCount p.home p.lid b .abrt

/-- The running program ends with a status and the Burr takes a state. -/
def State.burrEnd (s : State) (b : BurrRef) (st : Status) (next : Nat) : State :=
  let u := s.burr b
  match u.run with
  | none => s.setBurSt b next
  | some p =>
    ((((s.setBurr b { u with run := none, ra := [], snap := [], pausing := false }).setRf b.cdie .burState b.idx 11 8 st.code).setBurSt
      b next).giveUp fun r => decide (r = s.reqId (.burr b.key))).burrCount p.home p.lid b st

/-- An operation fails (R220): the record is kept while VALID, the program stops, the Burr halts, its pending program
completes with ABRT. -/
def State.burrFail (s : State) (b : BurrRef) (st : Status) (ca : Nat) : State :=
  let f := s.reg b.cdie .burFault b.idx
  let s1 :=
    if f.getLsbD 0 then s
    else s.setReg b.cdie .burFault b.idx
      (setFld (setFld (setFld (setFld f 63 32 (ca % 2 ^ 32)) 31 28 st.code) 27 20 (s.burIdx b)) 0 0 1)
  (s1.burrEnd b st 4).burrDropPend b

/-- The index of the first operation from `i` that a Burr executes (ONE, Table 7-3); the program's length if none. -/
def burrSkip (ops : List Nat) (burr : Nat) : Nat → Nat → Nat
  | 0, i => i
  | n + 1, i =>
    match ops[i]? with
    | some o => if boOne o && decide (boBurr o ≠ burr) then burrSkip ops burr n (i + 1) else i
    | none => i

/-- A program goes on at the first operation it executes from `i`, or ends with OK. -/
def State.burrGoTo (s : State) (b : BurrRef) (p : BProg) (i : Nat) : State :=
  let k := burrSkip p.ops b.idx (p.ops.length + 1) i
  if p.ops.length ≤ k then s.burrEnd b .ok 0
  else ((s.setRf b.cdie .burState b.idx 35 28 k).setBurRow b 0).setBurSt b 1

/-! ### The channel view (R205-R208) -/

/-- The virtual address of a channel address (R206). -/
def burrVa (h i ca : Nat) : Nat :=
  (bhVb h i + ca / 65536 * 0x200000 + i % 32 * 0x10000 + ca % 65536) % 2 ^ 64

/-- What a unit of work comes to. -/
inductive UnitRes where
  | ok (s : State)
  | wait (w : Wait)
  | fail (st : Status) (ca : Nat) (s : State)
deriving DecidableEq, Repr

/-- A channel address translated for an access type, with the refusals of R207. -/
def State.burrXl (s : State) (b : BurrRef) (p : BProg) (typ ca : Nat) : Except Wait (Status × Nat × State) :=
  match s.xlate (.burr b.key) p.ctx p.pl typ (burrVa p.hdr b.idx ca) with
  | .error w => .error w
  | .ok (.ok pa il, t) =>
    if il ≠ 3 ∨ pa / 2 ^ 21 % 8 ≠ b.stack then .ok (.perm, 0, t) else .ok (.ok, pa, t)
  | .ok (a, t) => let f := t.xlFail (.burr b.key) p.ctx p.pl typ (burrVa p.hdr b.idx ca) a; .ok (f.1, 0, f.2)

/-- A block decoded as a controller read decodes it (R228, R229, R266, R269): of the disturbances of the block, the first
is the read's and the second its re-read's; `kind` is the KIND recorded for a block that is lost (Table 9-11). -/
def State.burrDecode (s : State) (p blk kind : Nat) (reads : List Disturb) : Status × BitVec 512 × State :=
  let mine := (reads.filter fun d => decide (d.p = p) && decide (d.blk = blk)).map fun d => d.flips
  let raw := s.blockData p blk
  let e := s.blockErr p blk (mine.headD [])
  match eccDecode (s.eccMode p) e with
  | .clean => (.ok, readData raw e [], s)
  | .fix f => (.ok, readData raw e f, s.noteCorrected p)
  | .poisoned => (.pois, 0, s)
  | .uncor =>
    let e2 := s.blockErr p blk ((mine.drop 1).headD [])
    match eccDecode (s.eccMode p) e2 with
    | .clean => (.ok, readData raw e2 [], s.noteCorrected p)
    | .fix f => (.ok, readData raw e2 f, s.noteCorrected p)
    | .poisoned => (.pois, 0, s)
    | .uncor => (.pois, 0, s.notePoisoned p blk kind)

/-- A block of the channel view read, from what was read ahead or from memory (R225, R228). -/
def State.burrBlock (s : State) (b : BurrRef) (p : BProg) (reads : List Disturb) (q : Nat) :
    Except Wait (Status × BitVec 512 × State) :=
  match aFind (s.burr b).ra q with
  | some d => .ok (.ok, d, s)
  | none =>
    match s.burrXl b p 0 (64 * q) with
    | .error w => .error w
    | .ok (.ok, pa, t) =>
      (match t.locate 3 pa with
        | none => .error .hold
        | some l =>
          if !t.pchServes l.p then .ok (.unav, 0, t)
          else
            let why := t.homeReason l p.ctx p.pl 0 3 pa
            if why ≠ 0 then
              .ok (.perm, 0, t.violate (homeDie l.p) pa p.pl 0 why 1 (t.reqId (.burr b.key)) p.ctx)
            else .ok (t.burrDecode l.p (l.a / 64) 1 reads))
    | .ok (e, _, t) => .ok (e, 0, t)

/-- Blocks that hold `n` bytes from a channel address. -/
def blocksOf (ca n : Nat) : List Nat := if n = 0 then [] else upFrom (ca / 64) ((ca + n - 1) / 64 + 1 - ca / 64)

/-- Blocks read in order: the failing channel address and status, or the blocks. -/
def State.burrBlocks (s : State) (b : BurrRef) (p : BProg) (reads : List Disturb) (ca : Nat) :
    List Nat → Except Wait (Status × Nat × List (Nat × BitVec 512) × State)
  | [] => .ok (.ok, 0, [], s)
  | q :: r =>
    match s.burrBlock b p reads q with
    | .error w => .error w
    | .ok (.ok, d, t) =>
      (match t.burrBlocks b p reads ca r with
        | .error w => .error w
        | .ok (st, a, l, u) => .ok (st, a, (q, d) :: l, u))
    | .ok (e, _, t) => .ok (e, max (64 * q) ca, [], t)

/-- Bytes of the channel view: status, failing address, bytes. -/
def State.burrRead (s : State) (b : BurrRef) (p : BProg) (reads : List Disturb) (ca n : Nat) :
    Except Wait (Status × Nat × List Byte × State) :=
  match s.burrBlocks b p reads ca (blocksOf ca n) with
  | .error w => .error w
  | .ok (st, a, l, t) =>
    .ok (st, a, (List.range n).map fun i =>
      let k := ca + i
      (aGet l 0 (k / 64)).extractLsb' (8 * (k % 64)) 8, t)

/-- Writes to the channel view tested before any of them is made (R221): the first access that would fail ends the unit. -/
def State.burrTest (s : State) (b : BurrRef) (p : BProg) : List (Nat × Nat) → UnitRes
  | [] => .ok s
  | (ca, n) :: r =>
    match s.burrXl b p 1 ca with
    | .error w => .wait w
    | .ok (.ok, pa, t) =>
      (match t.putTest (t.reqId (.burr b.key)) p.ctx p.pl 3 pa n with
        | (.ok, u) => u.burrTest b p r
        | (e, u) => .fail e ca u)
    | .ok (e, _, t) => .fail e ca t
/-- Bytes written to the channel view, piece by piece (R208, R229). -/
def State.burrWrite (s : State) (b : BurrRef) (p : BProg) : List (Nat × Nat) → List Byte → UnitRes
  | [], _ => .ok s
  | (ca, n) :: r, l =>
    match s.burrXl b p 1 ca with
    | .error w => .wait w
    | .ok (.ok, pa, t) =>
      (match t.ncWrite (t.reqId (.burr b.key)) p.ctx p.pl 3 pa (spanMask (pa % 128) n)
          (linePut 0 (pa % 128) n (leNat (l.take n))) with
        | .error w => .wait w
        | .ok (.ok, u) => u.burrWrite b p r (l.drop n)
        | .ok (e, u) => .fail e ca u)
    | .ok (e, _, t) => .fail e ca t
/-- Two parts of a unit, one after the other. -/
def UnitRes.andThen (r : UnitRes) (f : State → UnitRes) : UnitRes :=
  match r with
  | .ok s => f s
  | x => x
/-- A failed unit leaves memory as it was before it (R221). -/
def UnitRes.undo (s : State) : UnitRes → UnitRes
  | .fail st ca t => .fail st ca { t with journal := s.journal, poison := s.poison }
  | r => r
/-- What a unit writes to the channel view: every span is tested before a byte of any is written (R221). -/
def State.burrStores (s : State) (b : BurrRef) (p : BProg) (ws : List (Nat × List Byte)) : UnitRes :=
  let pieces (w : Nat × List Byte) : List (Nat × Nat) := linePieces w.1 (w.2.length / 128 + 2) w.2.length
  ((s.burrTest b p (ws.flatMap pieces)).andThen fun t =>
    ws.foldl (fun r w => r.andThen fun u => u.burrWrite b p (pieces w) w.2) (.ok t)).undo s

/-! ### Arithmetic (R213-R215) -/

/-- A product of R213; an LN4 or LN8 element enters with its R66 value (DESIGN CHOICE, log 110). R213's own rule for NaL and for a zero
operand is taken over R67's (a zero multiplier with NaL) and over Table 2-7's (zero times an infinity) (DEDUCED, log 132). -/
def burrProd (fm : Format) (cm : Nat) (em : Int) (fs : Format) (cx : Nat) : FVal :=
  if fs = .fp16 then
    let a := elemVal fm cm em
    let x := fdec fF16 cx
    if a.isNan || x.isNan then .nan else if a.isZero || x.isZero then .fin false 0 0 else a.mul x
  else if fm.isLog then f32d (lnProd fm cm em .ln16 cx 0)
  else if ln16isNal cx then .nan
  else if ln16d cx = .zero then .fin false 0 0
  else f32d (weightProd fm cm em .ln16 cx 0)

/-- Consecutive fours of a list. -/
def fours {α : Type} : Nat → List α → List (List α)
  | 0, _ => []
  | n + 1, l => if l.isEmpty then [] else l.take 4 :: fours n (l.drop 4)
/-- The MV procedure over products: ascending groups of four, one rounding each (R213). -/
def burrDot (c : Nat) (ps : List FVal) : Nat := (fours ps.length ps).foldl mxStep c

/-- Code `j` of a packed row (R56). -/
def rowCode (l : List Byte) (w j : Nat) : Nat :=
  if w < 8 then (l[j * w / 8]?.getD 0).toNat >>> (j * w % 8) % 2 ^ w
  else leNat ((l.drop (j * (w / 8))).take (w / 8))
/-- The elements of a row with their block exponents. -/
def rowElems (f : Format) (k : Nat) (d sc : List Byte) : List (Nat × Int) :=
  (List.range k).map fun j =>
    (rowCode d f.bits j, if f.isBlock then expOfByte ((sc[j / 32]?.getD 0).toNat) else 0)
/-- Codes packed into bytes (R56). -/
def packCodes (w : Nat) (l : List Nat) : List Byte :=
  leBytes (l.length * w / 8) (l.reverse.foldl (fun a c => a * 2 ^ w + c % 2 ^ w) 0)

/-- The constant C of R215. -/
def burrC : Nat := 0x43B8AA3B
/-- lam of R215. -/
def burrLam (d : Nat) : Nat :=
  match f32d (f32mul d burrC) with
  | .nan => 0xC000
  | .inf true => 0x4000
  | .inf false => 0
  | .fin s m e =>
    let q : Int := ((roundAt .rne m e 0 false : Nat) : Int)
    let l := if s then -q else q
    if l ≤ -16384 then 0x4000 else unsignedBits 15 l
/-- lin of R215. -/
def burrLin (w : Nat) : Nat := lnTo32 .ln16 w 0

/-! ### Units of work -/

/-- Row `r` of the memory operand with its scales. -/
def State.burrRow (s : State) (b : BurrRef) (p : BProg) (reads : List Disturb) (o r : Nat) :
    Except Wait (Status × Nat × List (Nat × Int) × State) :=
  match s.burrRead b p reads (boMaddr o + r * boStride o) (boRowBytes o) with
  | .error w => .error w
  | .ok (.ok, _, d, t) =>
    (match t.burrRead b p reads (boSaddr o + r * boScaleBytes o) (boScaleBytes o) with
      | .error w => .error w
      | .ok (.ok, _, sc, u) => .ok (.ok, 0, rowElems (boFm o) (boK o) d sc, u)
      | .ok (e, a, _, u) => .ok (e, a, [], u))
  | .ok (e, a, _, t) => .ok (e, a, [], t)

/-- Consecutive rows from `r`. -/
def State.burrRows (s : State) (b : BurrRef) (p : BProg) (reads : List Disturb) (o : Nat) :
    List Nat → Except Wait (Status × Nat × List (List (Nat × Int)) × State)
  | [] => .ok (.ok, 0, [], s)
  | r :: rs =>
    match s.burrRow b p reads o r with
    | .error w => .error w
    | .ok (.ok, _, l, t) =>
      (match t.burrRows b p reads o rs with
        | .error w => .error w
        | .ok (st, a, ls, u) => .ok (st, a, l :: ls, u))
    | .ok (e, a, _, t) => .ok (e, a, [], t)

/-- The elements of a scratch vector of 16-bit codes. -/
def BurrU.halves (u : BurrU) (off n : Nat) : List Nat := (List.range n).map fun j => u.rd (off + 2 * j) 2
def BurrU.words (u : BurrU) (off n : Nat) : List Nat := (List.range n).map fun j => u.rd (off + 4 * j) 4

/-- Products of a row with a vector. -/
def rowProds (o : Nat) (row : List (Nat × Int)) (x : List Nat) : List FVal :=
  (row.zip x).map fun e => burrProd (boFm o) e.1.1 e.1.2 (boFs o) e.2

/-- MV: row `r` (R213). -/
def unitMv (b : BurrRef) (p : BProg) (reads : List Disturb) (o r : Nat) (s : State) : UnitRes :=
  match s.burrRow b p reads o r with
  | .error w => .wait w
  | .ok (.ok, _, row, t) =>
    let u := t.burr b
    let y := boSy o + 4 * r
    let c := if boAcc o then u.rd y 4 else 0
    .ok (t.setBurr b (u.wr y 4 (burrDot c (rowProds o row (u.halves (boSx o) (boK o))))))
  | .ok (e, a, _, t) => .fail e a t

/-- MVT: rows 4g to 4g + 3, the last group with the rows that are left (R213; DESIGN CHOICE for that group, log 109). -/
def unitMvt (b : BurrRef) (p : BProg) (reads : List Disturb) (o g : Nat) (s : State) : UnitRes :=
  let n := min 4 (boR o - 4 * g)
  match s.burrRows b p reads o (upFrom (4 * g) n) with
  | .error w => .wait w
  | .ok (.ok, _, rows, t) =>
    let u := t.burr b
    let x := u.halves (boSx o + 8 * g) n
    .ok (t.setBurr b ((List.range (boK o)).foldl (fun a k =>
      let y := boSy o + 4 * k
      let c := if boAcc o || decide (g ≠ 0) then a.rd y 4 else 0
      let ps := (rows.zip x).map fun e =>
        burrProd (boFm o) ((e.1[k]?.getD (0, 0)).1) ((e.1[k]?.getD (0, 0)).2) (boFs o) e.2
      a.wr y 4 (mxStep c ps)) u))
  | .ok (e, a, _, t) => .fail e a t

/-- SCORE: position `r` against every query (R214). -/
def unitScore (b : BurrRef) (p : BProg) (reads : List Disturb) (o r : Nat) (s : State) : UnitRes :=
  match s.burrRow b p reads o r with
  | .error w => .wait w
  | .ok (.ok, _, row, t) =>
    let u := t.burr b
    .ok (t.setBurr b ((List.range (boQ o)).foldl (fun a q =>
      a.wr (boSy o + 4 * (q * boR o + r)) 4
        (burrDot 0 (rowProds o row (u.halves (boSx o + 2 * boK o * q) (boK o))))) u))
  | .ok (e, a, _, t) => .fail e a t

/-- The rescale of a query's state at its own maximum (R215); the maximum is stored with the first group (DESIGN CHOICE, log 111). -/
def wsumScale (o q : Nat) (u : BurrU) : BurrU :=
  let base := boSz o + 4 * q * (boK o + 2)
  let m := u.rd base 4
  let mn := (u.words (boSx o + 4 * q * boR o) (boR o)).foldl f32max2 m
  let rho := burrLin (burrLam (f32sub m mn))
  (List.range (boK o + 1)).foldl (fun a j => a.wr (base + 4 + 4 * j) 4 (f32mul (a.rd (base + 4 + 4 * j) 4) rho))
    (u.wr base 4 mn)
/-- One group of four positions added to a query's state (R215). -/
def wsumGroup (o q g : Nat) (rows : List (List (Nat × Int))) (u : BurrU) : BurrU :=
  let base := boSz o + 4 * q * (boK o + 2)
  let m := u.rd base 4
  let w := (u.words (boSx o + 4 * (q * boR o + 4 * g)) 4).map fun x => burrLam (f32sub x m)
  let u1 := u.wr (base + 4) 4 (mxStep (u.rd (base + 4) 4) (w.map fun x => f32d (burrLin x)))
  (List.range (boK o)).foldl (fun a j =>
    let y := base + 8 + 4 * j
    let ps := (rows.zip w).map fun e =>
      f32d (lnProd (boFm o) ((e.1[j]?.getD (0, 0)).1) ((e.1[j]?.getD (0, 0)).2) .ln16 e.2 0)
    a.wr y 4 (mxStep (a.rd y 4) ps)) u1

/-- WSUM: positions 4g to 4g + 3, the first group after the rescale (R215). -/
def unitWsum (b : BurrRef) (p : BProg) (reads : List Disturb) (o g : Nat) (s : State) : UnitRes :=
  match s.burrRows b p reads o (upFrom (4 * g) 4) with
  | .error w => .wait w
  | .ok (.ok, _, rows, t) =>
    let qs := List.range (boQ o)
    let u := t.burr b
    let u1 := if g = 0 then qs.foldl (fun a q => wsumScale o q a) u else u
    .ok (t.setBurr b (qs.foldl (fun a q => wsumGroup o q g rows a) u1))
  | .ok (e, a, _, t) => .fail e a t

/-- A 32-element block of a source row converted: its exponent and codes (R75, R217). -/
def appendBlock (f : Format) (l : List Nat) : Int × List Nat :=
  let e := if f.isBlock then autoExp f (l.map fun x => elemLog2 .ln16 x 0) else 0
  (e, l.map fun x => convert .ln16 f .rne x 0 e)

/-- APPEND: row `r` converted and written (R217). -/
def unitAppend (b : BurrRef) (p : BProg) (o r : Nat) (s : State) : UnitRes :=
  let f := boFm o
  let u := s.burr b
  let blocks := (List.range (boK o / 32)).map fun i => appendBlock f (u.halves (boSx o + 2 * boK o * r + 64 * i) 32)
  let data := packCodes f.bits (blocks.flatMap fun x => x.2)
  let sc := blocks.map fun x => BitVec.ofInt 8 x.1
  s.burrStores b p ((boMaddr o + r * boStride o, data) :: (if f.isBlock then [(boSaddr o + r * boScaleBytes o, sc)] else []))

/-- The cluster L2 of the launching die that a result slot's line goes to: bits [9:7] of its address (R223). -/
def slotCluster (b : BurrRef) (pa : Nat) : Option Nat := some (8 * b.die.val + pa / 128 % 8)
/-- Writes of a Burr to a result slot, outside its channel view, each with its stash (R223, R300). -/
def State.slotWrite (s : State) (b : BurrRef) (p : BProg) (ca : Nat) : List (Nat × Nat) → List Byte → UnitRes
  | [], _ => .ok s
  | (va, n) :: r, l =>
    match s.vaWrite (.burr b.key) p.ctx p.pl va n (leNat (l.take n)) false (slotCluster b) with
    | .error w => .wait w
    | .ok (.ok, t) => t.slotWrite b p ca r (l.drop n)
    | .ok (e, t) => .fail e ca t

/-- The arrival word of a launch's result slots incremented (R223). -/
def State.slotArrive (s : State) (b : BurrRef) (p : BProg) (ca : Nat) : UnitRes :=
  let va := (bhRbase p.hdr + 2 ^ 64 - 64) % 2 ^ 64
  match s.xlate (.burr b.key) p.ctx p.pl 2 va with
  | .error w => .wait w
  | .ok (.ok pa il, u) =>
    (match u.ncAtomic (u.reqId (.burr b.key)) p.ctx p.pl il pa [⟨0, 2, 1, 0⟩] with
      | .error w => .wait w
      | .ok (.ok, _, v) => .ok v
      | .ok (e, _, v) => .fail e ca v)
  | .ok (a, u) => let f := u.xlFail (.burr b.key) p.ctx p.pl 2 va a; .fail f.1 ca f.2

/-- A 64-byte block of a COPY or FILL: offset and bytes. -/
def copySpan (o k : Nat) : Nat × Nat := (64 * k, min 64 (boLen o - 64 * k))

/-- COPY SUB 3: block `k` to the result slot, and after the last block the arrival word (R221, R223). A failing access is recorded at MADDR
plus its block's offset, since a result slot has no channel address (DESIGN CHOICE, log 128). -/
def unitSlot (b : BurrRef) (p : BProg) (o k : Nat) (s : State) : UnitRes :=
  let w := copySpan o k
  let ca := boMaddr o + w.1
  let va := (bhRbase p.hdr + b.idx * bhRstride p.hdr + ca) % 2 ^ 64
  if boLen o ≤ w.1 then s.slotArrive b p ca
  else
    match s.vaTest (.burr b.key) p.ctx p.pl (linePieces va 3 w.2) with
    | .error e => .wait e
    | .ok (.ok, t) => (t.slotWrite b p ca (linePieces va 3 w.2) ((t.burr b).get (boSx o + w.1) w.2)).undo s
    | .ok (e, t) => .fail e ca t

/-- COPY: a block of 64 bytes (R211, R217, R221). -/
def unitCopy (b : BurrRef) (p : BProg) (reads : List Disturb) (o k : Nat) (s : State) : UnitRes :=
  let u := s.burr b
  let w := copySpan o k
  match boSub o with
  | 0 =>
    (match s.burrRead b p reads (boMaddr o + w.1) w.2 with
      | .error w => .wait w
      | .ok (.ok, _, l, t) => .ok (t.setBurr b ((t.burr b).put (boSy o + w.1) l))
      | .ok (e, a, _, t) => .fail e a t)
  | 1 => s.burrStores b p [(boMaddr o + w.1, u.get (boSx o + w.1) w.2)]
  | 2 =>
    let l := if k = 0 then u.get (boSx o) (boLen o) else u.snap
    .ok (s.setBurr b ({ u with snap := l }.put (boSy o + w.1) ((l.drop w.1).take w.2)))
  | _ => unitSlot b p o k s

/-- FILL: a block of the pattern (R211). -/
def unitFill (b : BurrRef) (p : BProg) (o k : Nat) (s : State) : UnitRes :=
  let w := copySpan o k
  let l := (List.range w.2).map fun i => BitVec.ofNat 8 (boImm o / 256 ^ (i % 4))
  if boSub o = 0 then .ok (s.setBurr b ((s.burr b).put (boSy o + w.1) l))
  else s.burrStores b p [(boMaddr o + w.1, l)]

/-- AXPY (R211, R217). -/
def unitAxpy (b : BurrRef) (o : Nat) (s : State) : UnitRes :=
  let u := s.burr b
  let x := u.words (boSx o) (boK o)
  let y := u.words (boSy o) (boK o)
  let z := (x.zip y).map fun e => f32fma (boImm o) e.1 e.2
  .ok (s.setBurr b ((withIdx z).foldl (fun a e => a.wr (boSy o + 4 * e.1) 4 e.2) u))

/-- REDUCE by the tree of R187 (R211, R217); the tree of no columns has no first element, and its value is free (R216: a function of the operation and the row). -/
def unitReduce (b : BurrRef) (o : Nat) (s : State) : UnitRes :=
  let u := s.burr b
  let z := (List.range (boR o)).map fun r =>
    let l := (u.words (boSx o + 4 * boK o * r) (boK o)).map fun x => (x, 0)
    if boK o = 0 then (Config.emptyReduce o r).toNat
    else redOut .fp32 (boSub o) ((treeFold (redOp .fp32 (boSub o)) 16 l).headD (0, 0))
  .ok (s.setBurr b ((withIdx z).foldl (fun a e => a.wr (boSy o + 4 * e.1) 4 e.2) u))

/-! ### Running a program (R219-R221) -/

/-- Units from `row` on, at most `n` of them, to `last`: each one's result stands; a failing one stops the Burr. -/
def burrGo (b : BurrRef) (unit : Nat → State → UnitRes) : Nat → Nat → Nat → State → State × Bool
  | 0, _, _, s => (s, true)
  | n + 1, row, last, s =>
    if last ≤ row then (s, true)
    else
      match unit row s with
      | .ok t => burrGo b unit n (row + 1) last (t.setBurRow b (row + 1))
      | .wait w => (s.await w, false)
      | .fail st ca t => (t.burrFail b st ca, false)

/-- The program that a Burr runs, with its current operation, where it runs and its code is `opc`. -/
def State.burrFront (s : State) (b : BurrRef) (opc : Nat) : Option (BProg × Nat) :=
  match (s.burr b).run with
  | none => none
  | some p =>
    match p.ops[s.burIdx b]? with
    | none => none
    | some o =>
      if s.running b.cdie false && decide (s.burSt b = 1 ∨ s.burSt b = 2) && decide (boOpc o = opc) && decide (b.idx < 64)
      then some (p, o) else none

/-- An operation of a Burr: the checks at its start, then up to `n` units; after the last one the program goes on. An
operation code that no row has fails with the row of GATE. -/
def State.burrOp (s : State) (b : BurrRef) (opc n : Nat) (unit : BProg → Nat → Nat → State → UnitRes) : State :=
  match s.burrFront b opc with
  | none => s
  | some (p, o) =>
    if !burrCheck p.hdr o b.idx then s.burrFail b .perm 0
    else
      let row := s.burRow b
      let r := burrGo b (unit p o) n row (boUnits o) s
      if r.2 && decide (boUnits o ≤ row + n) then
        let u := r.1.burr b
        (r.1.setBurr b { u with ra := [] }).burrGoTo b p (s.burIdx b + 1)
      else r.1

/-- MV: up to `n` rows. -/
def execBurrMv (b : BurrRef) (n : Nat) (reads : List Disturb) (s : State) : Host.Outcome State Fault Refusal :=
  done s (s.burrOp b 1 n fun p o r => unitMv b p reads o r)
/-- MVT: up to `n` groups of four rows. -/
def execBurrMvt (b : BurrRef) (n : Nat) (reads : List Disturb) (s : State) : Host.Outcome State Fault Refusal :=
  done s (s.burrOp b 2 n fun p o g => unitMvt b p reads o g)
/-- SCORE: up to `n` positions. -/
def execScore (b : BurrRef) (n : Nat) (reads : List Disturb) (s : State) : Host.Outcome State Fault Refusal :=
  done s (s.burrOp b 3 n fun p o r => unitScore b p reads o r)
/-- WSUM: up to `n` groups of four positions. -/
def execWsum (b : BurrRef) (n : Nat) (reads : List Disturb) (s : State) : Host.Outcome State Fault Refusal :=
  done s (s.burrOp b 4 n fun p o g => unitWsum b p reads o g)
/-- APPEND: up to `n` rows. -/
def execAppend (b : BurrRef) (n : Nat) (s : State) : Host.Outcome State Fault Refusal :=
  done s (s.burrOp b 5 n fun p o r => unitAppend b p o r)
/-- AXPY. -/
def execAxpy (b : BurrRef) (s : State) : Host.Outcome State Fault Refusal :=
  done s (s.burrOp b 6 1 fun _ o _ => unitAxpy b o)
/-- REDUCE. -/
def execBurrReduce (b : BurrRef) (s : State) : Host.Outcome State Fault Refusal :=
  done s (s.burrOp b 7 1 fun _ o _ => unitReduce b o)
/-- COPY: up to `n` blocks. -/
def execBurrCopy (b : BurrRef) (n : Nat) (reads : List Disturb) (s : State) : Host.Outcome State Fault Refusal :=
  done s (s.burrOp b 8 n fun p o k => unitCopy b p reads o k)
/-- FILL: up to `n` blocks. -/
def execBurrFill (b : BurrRef) (n : Nat) (s : State) : Host.Outcome State Fault Refusal :=
  done s (s.burrOp b 9 n fun p o k => unitFill b p o k)

/-! ### GATE (R224, R225) -/

/-- Blocks of an operation's memory operand in the order in which it reads them. -/
def boReadBlocks (o : Nat) : List Nat :=
  match boOpc o with
  | 1 | 2 | 3 | 4 =>
    ((List.range (boR o)).flatMap fun r =>
      blocksOf (boMaddr o + r * boStride o) (boRowBytes o) ++ blocksOf (boSaddr o + r * boScaleBytes o) (boScaleBytes o)).eraseDups
  | 8 => if boSub o = 0 then blocksOf (boMaddr o) (boLen o) else []
  | _ => []

/-- Blocks read ahead; a block that cannot be read is left for the operation. -/
def State.readAhead (s : State) (b : BurrRef) (p : BProg) (reads : List Disturb) : List Nat → State
  | [] => s
  | q :: r =>
    match s.burrBlock b p reads q with
    | .ok (.ok, d, t) =>
      let u := t.burr b
      (t.setBurr b { u with ra := aSet u.ra q d }).readAhead b p reads r
    | .ok (_, _, t) => t
    | .error w => s.await w

/-- GATE: it opens where (gate count − IMM) as a signed 16-bit value is not negative; until then up to `n` blocks of the
next operation's memory operand are read ahead. An operation code that no row has fails here (R211, R212). A reset of the tile domain ends it
with ABRT and leaves the Burr IDLE with no record (R233; DESIGN CHOICE, log 138). -/
def execGate (b : BurrRef) (n : Nat) (reads : List Disturb) (s : State) : Host.Outcome State Fault Refusal :=
  done s (match (s.burr b).run with
    | none => s
    | some p =>
      match p.ops[s.burIdx b]? with
      | none => s
      | some o =>
        if !s.running b.cdie false || decide (s.burSt b ≠ 1 ∧ s.burSt b ≠ 2) || decide (64 ≤ b.idx) then s
        else if boOpc o = 0 ∨ 10 < boOpc o then s.burrFail b .perm 0
        else if boOpc o ≠ 10 then s
        else if !burrCheck p.hdr o b.idx then s.burrFail b .perm 0
        else if (s.burGate b + 65536 - boImm o % 65536) % 65536 < 32768 then s.burrGoTo b p (s.burIdx b + 1)
        else if p.draining then s.burrEnd b .abrt 0
        else
          let t := s.setBurSt b 2
          let k := burrSkip p.ops b.idx (p.ops.length + 1) (s.burIdx b + 1)
          match p.ops[k]? with
          | some x =>
            if boRa x && burrCheck p.hdr x b.idx then
              t.readAhead b p reads ((boReadBlocks x).take (min n (boR o / 64)))
            else t
          | none => t)

/-! ### Launches (R218-R220) -/

/-- The launch of a command. -/
def State.blaunch? (s : State) (die : Fin 4) (id : Nat) : Option BLaunch :=
  s.blaunches.find? fun l => decide (l.die = die) && decide (l.id = id)
def burrsOf (die : Fin 4) (m : Nat) : List BurrRef := ((List.range 64).filter (nbit m)).map fun i => ⟨die, i⟩
def State.setBlaunch (s : State) (l : BLaunch) : State :=
  { s with blaunches := s.blaunches.map fun x => if x.die = l.die ∧ x.id = l.id then l else x }

/-- A program taken up as pending by a Burr. -/
def State.burrPend (s : State) (l : BLaunch) (b : BurrRef) : State :=
  let u := s.burr b
  (s.setBurr b { u with pend := some ⟨l.die, l.id, l.ctx, l.pl, l.hdr, l.ops, false⟩ }).setRf b.cdie .burState b.idx 4 4 1

/-- Whether a launch of a stream is still to be delivered before another one: launches reach their Burrs in stream order (R219). -/
def State.blaunchBefore (s : State) (die : Fin 4) (id q : Nat) : Bool :=
  s.blaunches.any fun x => decide (x.die = die) && decide (x.id < id) && decide (x.todo ≠ 0) &&
    (match s.cmd? die x.id with | some c => decide (c.queue = q) | none => false)

/-- BURR_LAUNCH_DELIVER: a launch reaches its Burrs once each has a free pending place, its queue is in service and every earlier
launch of its stream is delivered; one whose mask names a disabled, retired or absent Burr completes with UNAV (R218, R219, R230); one that
a pause has returned ends with ABRT on such a Burr (DESIGN CHOICE, log 136). -/
def execBurrLaunchDeliver (die : Fin 4) (id : Nat) (s : State) : Host.Outcome State Fault Refusal :=
  done s (match s.blaunch? die id, s.cmd? die id with
    | some l, some c =>
      let bs := burrsOf die l.todo
      let first := !c.started
      if l.todo = 0 ∨ s.running (.cd die) true = false ∨ s.rf (.cd die) .cqCfg c.queue 23 21 = 3
          ∨ s.preempted.contains (die.val, l.ctx) = true ∨ s.blaunchBefore die id c.queue = true then s
      else if first && bs.any (fun b => s.burGone b) then
        ({ s with blaunches := s.blaunches.filter fun x => decide (¬ (x.die = die ∧ x.id = id)) }.cmdStart c).cmdFin die id
          .unav 0 (BitVec.ofNat 64 (bhTag l.hdr))
      else if bs.all (fun b => (s.burr b).pend.isNone) then
        let t := bs.foldl (fun x b => if x.burGone b then x.burrCount die l.id b .abrt else x.burrPend l b)
          ((s.setBlaunch { l with todo := 0 }).newWork (.cd die) 4)
        if first then t.cmdStart c else t
      else s
    | _, _ => s)

/-- BURR_PROGRAM_START: the pending program starts after the running one has ended (R219). -/
def execBurrProgramStart (b : BurrRef) (s : State) : Host.Outcome State Fault Refusal :=
  done s (
    let u := s.burr b
    match u.run, u.pend with
    | none, some p =>
      if s.running b.cdie false && decide (s.burSt b = 0 ∨ s.burSt b = 4) && decide (b.idx < 64) && !s.burrAbsent b then
        (((s.setBurr b { u with run := some p, pend := none, ra := [] }).setRf b.cdie .burState b.idx 4 4 0).setRf
          b.cdie .burState b.idx 47 36 p.ctx).burrGoTo b p 0
      else s
    | _, _ => s)

/-- BURR_LAUNCH_COMPLETE: when every Burr has ended, the launch completes with the first status under R20 (R220); after a
reset of the tile domain no completion is written (R233). -/
def execBurrLaunchComplete (die : Fin 4) (id : Nat) (s : State) : Host.Outcome State Fault Refusal :=
  done s (match s.blaunch? die id with
    | none => s
    | some l =>
      if l.left ≠ 0 ∨ l.todo ≠ 0 then s
      else
        let t := { s with blaunches := s.blaunches.filter fun x => decide (¬ (x.die = die ∧ x.id = id)) }
        if l.quiet then t
        else if s.prodHeld (.cd die) 0 || !s.running (.cd die) true then s
        else
          match s.cmd? die id with
          | none => t
          | some c => t.completeCmd { c with info := l.bad, tag := BitVec.ofNat 64 (bhTag l.hdr) } l.st)

/-! ### Feeds (R222) -/

/-- Whether a word of a feed meets a scratch operand of the running operation. -/
def burrTouches (o off : Nat) : Bool := (boScratch o).any fun x => decide (off < x.1 + x.2) && decide (x.1 < off + 4)

/-- Feed words entering scratch: a word that the running operation works on ends old or new (R222). -/
def feedWords (o : Option Nat) (off : Nat) : List (List Byte) → BurrU → Nat → BurrU × Nat
  | [], u, f => (u, f)
  | w :: r, u, f =>
    match o with
    | some x =>
      if burrTouches x off then
        feedWords o (off + 4) r (if Config.freeBool f then u.put off w else u) (f + 1)
      else feedWords o (off + 4) r (u.put off w) f
    | none => feedWords o (off + 4) r (u.put off w) f

/-- The operation that a Burr is working on: one in progress, not a GATE. -/
def State.burrBusyOp (s : State) (b : BurrRef) : Option Nat :=
  match (s.burr b).run with
  | none => none
  | some p => if s.burSt b = 1 ∧ s.burRow b ≠ 0 then p.ops[s.burIdx b]? else none

/-- Whether a feed is in flight to a Burr. -/
def State.feedComing (s : State) (b : BurrRef) : Bool := s.feeds.any fun f => decide (f.die = b.die) && nbit f.todo b.idx

/-- A pause that waits for feeds takes effect once none is in flight: the program stops, its read-ahead discarded (R230). -/
def State.burrHold (s : State) (b : BurrRef) : State :=
  let u := s.burr b
  if u.pausing && !s.feedComing b then
    let t := s.setBurr b { u with ra := [], pausing := false }
    if s.burSt b = 1 ∨ s.burSt b = 2 then t.setBurSt b 3 else t
  else s

/-- A pause (R230): a running program of the context is to stop; the pending program of a Burr that stops, and one of the context, goes
back to be delivered again. -/
def State.burrPause (s : State) (ctx : Nat) (b : BurrRef) : State :=
  let u := s.burr b
  let stops := match u.run with
    | some p => decide (p.ctx = ctx) && decide (s.burSt b = 1 ∨ s.burSt b = 2)
    | none => false
  let s1 := if stops then (s.setBurr b { u with pausing := true }).burrHold b else s
  match u.pend with
  | some p =>
    if stops || decide (p.ctx = ctx) then
      let u1 := s1.burr b
      { (s1.setBurr b { u1 with pend := none }).setRf b.cdie .burState b.idx 4 4 0 with
        blaunches := s1.blaunches.map fun l =>
          if l.id = p.lid ∧ l.die = p.home then { l with todo := l.todo + 2 ^ b.idx } else l }
    else s1
  | none => s1

/-- BURR_FEED_ARRIVE: a Burr takes a feed's bytes and counts it; when the last one has, the command has its status. -/
def execBurrFeedArrive (b : BurrRef) (id : Nat) (s : State) : Host.Outcome State Fault Refusal :=
  done s (match s.feeds.find? (fun f => decide (f.die = b.die) && decide (f.id = id)) with
    | none => s
    | some f =>
      if nbit f.todo b.idx = false ∨ 64 ≤ b.idx ∨ s.running b.cdie false = false then s
      else
        let va := (f.src.toNat + b.idx * f.stride.toNat) % 2 ^ 64
        match s.vaSpan (.cp b.die) f.ctx f.pl va f.len with
        | .error w => s.await w
        | .ok (st, l, t) =>
          let t1 :=
            if st = .ok then
              let r := feedWords (t.burrBusyOp b) f.off (fours f.len l) (t.burr b) t.free
              ({ t.setBurr b r.1 with free := r.2 } : State).setRf b.cdie .burState b.idx 63 48 ((t.burGate b + 1) % 65536)
            else t
          let f1 := { f with todo := f.todo - 2 ^ b.idx, st := Status.first f.st st }
          if f1.todo = 0 then
            ({ t1 with feeds := t1.feeds.filter fun x => decide (¬ (x.die = f.die ∧ x.id = id)) }.cmdFin b.die id f1.st 0 0).burrHold b
          else ({ t1 with feeds := t1.feeds.map fun x => if x.die = f.die ∧ x.id = id then f1 else x } : State).burrHold b)

/-! ### Disabling, resets (R232, R233) -/

/-- The running program and the pending one end with ABRT; the Burr takes a state. -/
def State.burrStop (s : State) (b : BurrRef) (next : Nat) : State := (s.burrEnd b .abrt next).burrDropPend b

/-- The channel of a Burr leaves service (R274): its programs end with ABRT, and it keeps DISABLED and RETIRED. -/
def State.burrLeaves (s : State) (b : BurrRef) : State :=
  s.burrStop b (if s.burSt b = 5 ∨ s.burSt b = 6 then s.burSt b else 0)

/-- BURR_DISABLE (R232): a write of BUR_STATEi with EN 0. -/
def execBurrDisable (w : Wr) (s : State) : Host.Outcome State Fault Refusal :=
  done s (
    if w.val.getLsbD 0 then s
    else
      match s.ctlStore w.die .burState w.idx w.pl w.ctx w.val, w.die with
      | (.ok, t), .cd n =>
        let b : BurrRef := ⟨n, w.idx % 64⟩
        (if t.burSt b = 6 then t else t.burrStop b 5).answer .ok 0
      | (e, t), _ => t.answer e 0)

/-- BURR_ENABLE (R232, Table 7-8): a write of BUR_STATEi with EN 1. -/
def execBurrEnable (w : Wr) (s : State) : Host.Outcome State Fault Refusal :=
  done s (
    if !w.val.getLsbD 0 then s
    else
      match s.ctlStore w.die .burState w.idx w.pl w.ctx w.val, w.die with
      | (.ok, t), .cd n =>
        let b : BurrRef := ⟨n, w.idx % 64⟩
        (if t.burSt b = 5 then t.setBurSt b 0 else t).answer .ok 0
      | (e, t), _ => t.answer e 0)

/-- A reset of a die's tile domain (R233): pending programs end, GATEs that wait end their programs, and no completion is
written. -/
def State.burrTileReset (s : State) (die : Fin 4) : State :=
  let bs := (List.range 64).map fun i => (⟨die, i⟩ : BurrRef)
  let s1 := bs.foldl (fun x b =>
    let y := x.burrDropPend b
    match (y.burr b).run with
    | none => y
    | some p => y.setBurr b { y.burr b with run := some { p with draining := true } }) s
  { s1 with
    blaunches := (s1.blaunches.filter fun l => decide (l.die ≠ die) || decide (l.todo ≠ l.left)).map fun l =>
      if l.die = die then { l with quiet := true, left := l.left - (l.left &&& l.todo), todo := 0 } else l
    feeds := s1.feeds.filter fun f => decide (f.die ≠ die) }

/-- A reset or loss of a die's memory-controller domain (R233): every program ends with no further effect. -/
def State.burrMcReset (s : State) (die : Fin 4) : State :=
  let bs := (List.range 64).map fun i => (⟨die, i⟩ : BurrRef)
  bs.foldl (fun x b =>
    let keep := x.burSt b
    let y := ((x.setBurr b BurrU.empty).setReg b.cdie .burState b.idx 1).setReg b.cdie .burFault b.idx 0
    if keep = 6 then y.setBurSt b 6 else y)
    { s with blaunches := s.blaunches.filter fun l => decide (l.die ≠ die) }

end Sys2Proof.Machine
end

