-- ==== Sys2Proof/Machine/Sampler.lean ====
section
/-!
DEFINITION. Categorical samplers (Chapter 08): descriptors with their checks, the sampling procedure, host sampling, and
what disabling and pre-emption do.
-/

namespace Sys2Proof

/-- Global index of a sampler (Table 11-10). -/
def SmpRef.key (u : SmpRef) : Nat := 4 * u.die.val + u.unit

end Sys2Proof

namespace Sys2Proof.Machine
open Sys2Proof

/-! ### Descriptor (Table 8-1) -/

def sdOpc (d : Nat) : Nat := dF d 23 16
def sdFmt (d : Nat) : Nat := dF d 27 24
def sdN (d : Nat) : Nat := dF d 63 44 + 1
def sdK (d : Nat) : Nat := dF d 41 32 + 1
def sdLaddr (d : Nat) : Nat := dF d 127 64
def sdRaddr (d : Nat) : Nat := dF d 191 128
def sdSeed (d : Nat) : Nat := dF d 255 192
def sdDrawId (d : Nat) : Nat := dF d 287 256
def sdDraw (d : Nat) : Nat := dF d 319 288
def sdInvt (d : Nat) : Nat := dF d 351 320
def sdTopp (d : Nat) : Nat := dF d 383 352
def sdTag (d : Nat) : Nat := dF d 447 384
def sdHbuf (d : Nat) : Nat := dF d 255 192
def sdHseq (d : Nat) : Nat := dF d 287 256
def sdHtimeout (d : Nat) : Nat := dF d 303 288
def sdCopy (d : Nat) : Bool := nbit d 30
def sdNotify (d : Nat) : Bool := nbit d 29
def sdRngsrc (d : Nat) : Bool := nbit d 28
/-- Bytes of an element. -/
def sdElem (d : Nat) : Nat := if sdFmt d = 0 then 4 else 2

/-- Checks at delivery (R241). -/
def State.smpCheck (s : State) (die : Fin 4) (d : Nat) : Bool :=
  versionOk (s.reg (.cd die) .smpIfVersion 0) (dF d 15 0) && decide (sdFmt d = 0 ∨ sdFmt d = 3)
    && decide (dF d 511 448 = 0) && decide (dF d 43 42 = 0) && decide (dF d 31 31 = 0)
    && decide (sdRaddr d % 32 = 0)
    && (match sdOpc d with
      | 1 =>
        decide (dF d 30 29 = 0) && decide (sdLaddr d % sdElem d = 0) && decide (sdK d ≤ sdN d)
          && !(isNan32 (sdInvt d) || isInf32 (sdInvt d)) && decide (sdInvt d < 2 ^ 31)
          && !isNan32 (sdTopp d) && decide (1 ≤ sdTopp d ∧ sdTopp d ≤ 0x3F800000)
          && (sdRngsrc d || decide (sdDraw d = 0))
      | 2 =>
        decide (dF d 28 28 = 0) && decide (dF d 41 32 = 0) && decide (dF d 319 304 = 0) && decide (dF d 383 320 = 0)
          && decide (sdHbuf d % 64 = 0) && (!sdCopy d || decide (sdLaddr d % sdElem d = 0))
      | _ => false)

/-! ### The procedure (Table 8-2) -/

/-- A logit as step 1 takes it: none where it is excluded. -/
def smpLogit (fmt raw : Nat) : Option Nat :=
  if fmt = 0 then
    if isNan32 raw then none
    else if isInf32 raw then (if raw < 2 ^ 31 then some f32max else none)
    else some raw
  else if ln16isNal raw then none else some (lnTo32 .ln16 raw 0)

/-- Ordered key of a binary32 value that is not NaN, −0 below +0. -/
def ordKey (b : Nat) : Int := if b < 2 ^ 31 then (b : Int) else (2 ^ 31 - 1 : Int) - (b : Int)

/-- An entry put in its place in a list of candidates, larger first, a later index behind its equals (step 3). -/
def candPut (e : Nat × Nat) : List (Nat × Nat) → List (Nat × Nat)
  | [] => [e]
  | a :: r => if ordKey a.2 < ordKey e.2 then e :: a :: r else a :: candPut e r
/-- The first `k` entries in that order. -/
def topK (k : Nat) (l : List (Nat × Nat)) : List (Nat × Nat) := l.foldl (fun c e => (candPut e c).take k) []

/-- Cumulative sums in order (step 5). -/
def cumSums : Nat → List Nat → List Nat
  | _, [] => []
  | c, w :: r => f32add c w :: cumSums (f32add c w) r
/-- The place of the first element that a test accepts. -/
def firstAt (p : Nat → Bool) : List Nat → Nat → Option Nat
  | [], _ => none
  | a :: r, i => if p a then some i else firstAt p r (i + 1)
/-- a ≥ b and a > b of finite binary32 values. -/
def f32ge (a b : Nat) : Bool := !(f32d a).lt (f32d b)
def f32gt (a b : Nat) : Bool := (f32d b).lt (f32d a)

/-- The result record of Table 8-3. -/
structure SmpRec where
  index : Nat
  prob : Nat
  pfull : Nat
  zmax : Nat
  sum : Nat
  nkept : Nat
  ncand : Nat
  draw : Nat
  st : Status
deriving DecidableEq, Repr

def SmpRec.bytes (r : SmpRec) : List Nat :=
  natBytes 4 r.index ++ natBytes 4 r.prob ++ natBytes 4 r.pfull ++ natBytes 4 r.zmax ++ natBytes 4 r.sum
    ++ natBytes 2 r.nkept ++ natBytes 2 r.ncand ++ natBytes 4 r.draw ++ natBytes 4 r.st.code
/-- A record that carries only a status (R248, R254). -/
def smpFail (st : Status) : SmpRec := ⟨0xFFFFFFFF, 0, 0, 0, 0, 0, 0, 0, st⟩

/-- The draw of a descriptor (R243). -/
def smpDraw (d : Nat) : Nat :=
  if sdRngsrc d then sdDraw d
  else
    (genDraw 32 (genLoad (genMix (BitVec.ofNat 64 (sdSeed d) ^^^ genMix (BitVec.ofNat 64 (0xFFFF * 2 ^ 32 + sdDrawId d)))))).1

/-- SAMPLE over the valid entries (R242, R244, R245). -/
def smpResult (d : Nat) (x : List (Nat × Nat)) : SmpRec :=
  match topK 1 x with
  | [] => ⟨0xFFFFFFFF, f32nan, f32nan, f32nan, f32nan, 0, 0, 0, .ok⟩
  | g :: _ =>
    if sdInvt d = 0 then ⟨g.1, 0x3F800000, 0x3F800000, g.2, 0x3F800000, 1, 1, 0, .ok⟩
    else
      let cand := topK (sdK d) (x.map fun e => (e.1, f32mul e.2 (sdInvt d)))
      let m := (cand.headD (0, 0)).2
      let w := cand.map fun e => f32fun 5 (f32sub e.2 m)
      let sum := (treeFold f32add 10 w).headD 0
      let cs := cumSums 0 w
      let cut := f32mul (sdTopp d) sum
      let n := match firstAt (fun v => f32ge v cut) cs 0 with | some j => j + 1 | none => cand.length
      let last := cs[n - 1]?.getD 0
      let draw := smpDraw d
      let t := f32mul (f32e (.fin false (draw / 256) (-24))) last
      let j := match firstAt (fun v => f32gt v t) (cs.take n) 0 with | some j => j | none => n - 1
      let wj := w[j]?.getD 0
      ⟨(cand[j]?.getD (0, 0)).1, f32div wj last, f32div wj sum, m, sum, n, cand.length, draw, .ok⟩

/-! ### Units -/

def SmpU.empty : SmpU := ⟨none, none⟩
def State.smp (s : State) (u : SmpRef) : SmpU := aGet s.samplers SmpU.empty u.key
def State.setSmp (s : State) (u : SmpRef) (x : SmpU) : State := { s with samplers := aSet s.samplers u.key x }
/-- STATE, PEND and EN of SMP_STATEu (Table 8-8). -/
def State.smpSt (s : State) (u : SmpRef) : Nat := s.rf (.cd u.die) .smpState u.unit 7 5
def State.setSmpSt (s : State) (u : SmpRef) (v : Nat) : State := s.setRf (.cd u.die) .smpState u.unit 7 5 v
def State.smpEn (s : State) (u : SmpRef) : Bool := decide (s.rf (.cd u.die) .smpState u.unit 0 0 = 1)
def State.setSmpPend (s : State) (u : SmpRef) (v : Nat) : State := s.setRf (.cd u.die) .smpState u.unit 4 4 v

/-- The completion of a descriptor: its command counts, and SAMPLE_DONE is posted where E is set (R247, R350,
Table 12-5). -/
def State.smpTell (s : State) (u : SmpRef) (j : SmpJob) (st : Status) (r : SmpRec) : State :=
  match s.cmd? u.die j.cmd with
  | none => s
  | some c =>
    let t := s.completeCmd c st
    if cwE c.word then
      t.post (.cd u.die) (64 + u.unit) (t.cqEq u.die c.queue)
        (eventBytes 3 st j.ctx (t.reqId (.sampler u.key)) c.queue (BitVec.ofNat 64 (sdTag j.desc)) t.now r.bytes)
    else t

/-- The running descriptor ends: record, status, completion; the unit is free, or disabled where EN is 0 (R247, R248,
R254). -/
def State.smpEnd (s : State) (u : SmpRef) (j : SmpJob) (r : SmpRec) : Except Wait State :=
  match s.vaPut (.sampler u.key) j.ctx j.pl (sdRaddr j.desc) (r.bytes.map (BitVec.ofNat 8)) with
  | .error w => .error w
  | .ok (wst, t) =>
    let st := Status.first r.st wst
    let x := t.smp u
    let t1 := ((t.setSmp u { x with run := none }).setRf (.cd u.die) .smpState u.unit 11 8 st.code).giveUp fun i =>
      decide (i = t.reqId (.sampler u.key))
    .ok ((t1.setSmpSt u (if t1.smpEn u then 0 else 4)).smpTell u j st r)

/-- A descriptor that ends before it has run: no record is written (R238, R241, R254), STATUS shows it and CTXID does not (DESIGN CHOICE,
log 139), and the event carries a record of its status alone (DESIGN CHOICE, log 130). -/
def State.smpRefuse (s : State) (u : SmpRef) (j : SmpJob) (st : Status) : State :=
  (s.setRf (.cd u.die) .smpState u.unit 11 8 st.code).smpTell u j st (smpFail st)

/-- Whether a unit has a free place: no pending descriptor, or a free running place that the pending one takes (R238). -/
def State.smpFree (s : State) (u : SmpRef) : Bool :=
  (s.smp u).pend.isNone || ((s.smp u).run.isNone && decide (s.smpSt u = 0))
/-- The unit that a SAMPLE command goes to (R238, Table 12-3): the one it names, or the lowest with a free place. -/
def State.smpPick (s : State) (c : Cmd) : Option SmpRef :=
  if c.word.getLsbD 2 then
    let us := [0, 1, 2, 3].map fun i => (⟨c.die, i⟩ : SmpRef)
    if us.all (fun u => decide (s.smpSt u = 4) || !s.smpEn u) then us.head?
    else us.find? fun u => s.smpEn u && s.smpFree u
  else some ⟨c.die, fld c.word 1 0⟩
/-- A pending descriptor starts in a free unit (R238). -/
def State.smpBegin (s : State) (u : SmpRef) : State :=
  let x := s.smp u
  match x.run, x.pend with
  | none, some j =>
    if s.running (.cd u.die) true && decide (s.smpSt u = 0) && decide (u.unit < 4) then
      let t := (s.setSmp u { x with run := some j, pend := none }).setSmpPend u 0
      ((t.setSmpSt u 1).setRf (.cd u.die) .smpState u.unit 48 37 j.ctx).setRf (.cd u.die) .smpState u.unit 36 16 0
    else s
  | _, _ => s

/-- Whether a descriptor of a command is in a unit. -/
def State.smpHas (s : State) (die : Fin 4) (id : Nat) : Bool :=
  [0, 1, 2, 3].any fun i =>
    let x := s.smp ⟨die, i⟩
    [x.run, x.pend].any fun j => match j with | some k => decide (k.cmd = id) | none => false

/-- The descriptor of a SAMPLE command: the one that came back (R253), or its 64 bytes. -/
def State.smpDesc (s : State) (die : Fin 4) (c : Cmd) : Except Wait (Status × Nat × State) :=
  match c.back with
  | some b => .ok (.ok, b.1, s)
  | none => match s.vaSpan (.cp die) c.ctx c.pl (c.opnd 0).toNat 64 with
    | .ok (st, l, t) => .ok (st, leNat l, t)
    | .error w => .error w

/-- SAMPLER_DELIVER (R238, R241, R253): the descriptor of a SAMPLE command is read, checked and taken up as pending. One refused here
leaves SMP_STATE as it is (DESIGN CHOICE, log 139). -/
def execSamplerDeliver (die : Fin 4) (id : Nat) (s : State) : Host.Outcome State Fault Refusal :=
  done s (match s.cmd? die id with
    | none => s
    | some c =>
      if cwOp c.word ≠ 6 ∨ c.fin.isSome = true ∨ s.smpHas die id = true ∨ s.running (.cd die) true = false ∨
          s.preempted.contains (die.val, c.ctx) = true ∨ s.rf (.cd die) .cqCfg c.queue 23 21 = 3 then s
      else
        match s.smpPick c with
        | none => s
        | some u =>
          let gone := decide (s.smpSt u = 4) || !s.smpEn u
          if !gone && !s.smpFree u then s
          else
            match s.smpDesc die c with
            | .error w => s.await w
            | .ok (st, desc, t) =>
              let j : SmpJob := ⟨id, c.queue, c.ctx, c.pl, desc, (c.back.map Prod.snd).getD false, [], 0⟩
              let t1 := if c.started then t else t.cmdStart c
              if gone then t1.smpTell u j .unav (smpFail .unav)
              else if st ≠ .ok then t1.smpTell u { j with desc := 0 } st (smpFail st)
              else if !t1.smpCheck die desc then t1.smpTell u j .perm (smpFail .perm)
              else
                let t2 := (t1.newWork (.cd die) 5).smpBegin u
                (t2.setSmp u { t2.smp u with pend := some j }).setSmpPend u 1)

/-- SAMPLER_START (R238). -/
def execSamplerStart (u : SmpRef) (s : State) : Host.Outcome State Fault Refusal := done s (s.smpBegin u)

/-- The running descriptor of a unit in a STATE, with an operation code. -/
def State.smpFront (s : State) (u : SmpRef) (opc : Nat) (sts : List Nat) : Option SmpJob :=
  match (s.smp u).run with
  | none => none
  | some j =>
    if s.running (.cd u.die) true && sts.contains (s.smpSt u) && decide (sdOpc j.desc = opc) && decide (u.unit < 4) &&
        !s.prodHeld (.cd u.die) (64 + u.unit) then some j else none

/-- A step that may have to wait leaves what it waits for. -/
def orStay (s : State) : Except Wait State → State
  | .ok t => t
  | .error w => s.await w

/-- Elements of a span of bytes. -/
def elemsOf (size : Nat) : Nat → List Byte → List Nat
  | 0, _ => []
  | n + 1, l => leNat (l.take size) :: elemsOf size n (l.drop size)

/-- SMP_SAMPLE (R242-R248): up to `n` more logits are scanned; when all have been, the selection and the record. -/
def execSmpSample (u : SmpRef) (n : Nat) (s : State) : Host.Outcome State Fault Refusal :=
  done s (match s.smpFront u 1 [1, 2] with
    | none => s
    | some j =>
      let d := j.desc
      if s.smpSt u = 2 then orStay s (s.smpEnd u j (smpResult d j.x))
      else
        let k := min n (sdN d - j.pos)
        match s.vaSpan (.sampler u.key) j.ctx j.pl (sdLaddr d + sdElem d * j.pos) (sdElem d * k) with
        | .error w => s.await w
        | .ok (.ok, l, t) =>
          let new := (withIdx (elemsOf (sdElem d) k l)).filterMap fun e =>
            (smpLogit (sdFmt d) e.2).map fun x => (j.pos + e.1, x)
          let j1 := { j with x := j.x ++ new, pos := j.pos + k }
          let t1 := (t.setSmp u { t.smp u with run := some j1 }).setRf (.cd u.die) .smpState u.unit 36 16 j1.pos
          if j1.pos = sdN d then t1.setSmpSt u 2 else t1
        | .ok (e, _, t) => orStay s (t.smpEnd u j (smpFail e)))

/-! ### Host sampling (R250-R252) -/

/-- The writes that present a request (R251 step 2); a reissued request leaves RSPSEQ (R253). -/
def State.hostPresent (s : State) (u : SmpRef) (j : SmpJob) : Except Wait (Status × State) :=
  let d := j.desc
  let w (x : Except Wait (Status × State)) (off v : Nat) : Except Wait (Status × State) :=
    match x with
    | .ok (.ok, t) => t.vaPut (.sampler u.key) j.ctx j.pl (sdHbuf d + off) (leBytes 4 v)
    | x => x
  let a := w (w (.ok (.ok, s)) 4 (sdN d)) 8 (sdFmt d)
  let b := if j.again then a else w a 16 (sdHseq d ^^^ 0xFFFFFFFF)
  w b 0 (sdHseq d)

/-- The descriptor goes back to the command processor, to be delivered again (R253). -/
def State.smpReturn (s : State) (u : SmpRef) (j : SmpJob) (again : Bool) : State :=
  { s with cmds := s.cmds.map fun c => if c.die = u.die ∧ c.id = j.cmd then { c with back := some (j.desc, again) } else c }

/-- SMP_HOST (R251, R253): up to `n` more elements are copied; then the request is presented. -/
def execSmpHost (u : SmpRef) (n : Nat) (s : State) : Host.Outcome State Fault Refusal :=
  done s (match s.smpFront u 2 [1] with
    | none => s
    | some j =>
      let d := j.desc
      let total := if sdCopy d then sdN d else 0
      if j.pos < total then
        let k := min n (total - j.pos)
        match s.vaSpan (.sampler u.key) j.ctx j.pl (sdLaddr d + sdElem d * j.pos) (sdElem d * k) with
        | .error w => s.await w
        | .ok (.ok, l, t) =>
          (match t.vaPut (.sampler u.key) j.ctx j.pl (sdHbuf d + 64 + sdElem d * j.pos) l with
            | .error w => s.await w
            | .ok (.ok, t1) =>
              (t1.setSmp u { t1.smp u with run := some { j with pos := j.pos + k } }).setRf (.cd u.die) .smpState u.unit 36 16
                (j.pos + k)
            | .ok (e, t1) => orStay s (t1.smpEnd u j (smpFail e)))
        | .ok (e, _, t) => orStay s (t.smpEnd u j (smpFail e))
      else
        match s.hostPresent u j with
        | .error w => s.await w
        | .ok (.ok, t) =>
          let t1 :=
            if sdNotify d then
              t.post (.cd u.die) (64 + u.unit) (t.cqEq u.die j.queue)
                (eventBytes 4 .ok j.ctx (t.reqId (.sampler u.key)) j.queue (BitVec.ofNat 64 (sdTag d)) t.now
                  (natBytes 4 (sdHseq d) ++ natBytes 4 (sdN d) ++ natBytes 8 (sdHbuf d)))
            else t
          if t1.preempted.contains (u.die.val, j.ctx) then
            ((t1.setSmp u { t1.smp u with run := none }).setSmpSt u 0).smpReturn u j true
          else t1.setSmpSt u 3
        | .ok (e, t) => orStay s (t.smpEnd u j (smpFail e)))

/-- One poll of a waiting request: the record of its answer, where it has come (R251 step 4, R252). -/
def State.hostAnswer (s : State) (u : SmpRef) (j : SmpJob) : Except Wait (Option SmpRec × State) :=
  let d := j.desc
  match s.vaSpan (.sampler u.key) j.ctx j.pl (sdHbuf d + 16) 4 with
  | .error w => .error w
  | .ok (.ok, l, t) =>
    if leNat l ≠ sdHseq d then .ok (none, t)
    else
      (match t.vaSpan (.sampler u.key) j.ctx j.pl (sdHbuf d + 20) 8 with
        | .error w => .error w
        | .ok (.ok, m, v) =>
          let i := leNat (m.take 4)
          let bad := decide (sdN d ≤ i)
          .ok (some ⟨if bad then 0xFFFFFFFF else i, leNat (m.drop 4), f32nan, f32nan, f32nan, 0, 0, 0,
            if bad then .perm else .ok⟩, v)
        | .ok (e, _, v) => .ok (some (smpFail e), v))
  | .ok (e, _, t) => .ok (some (smpFail e), t)

/-- HOST_POLL (R251). -/
def execHostPoll (u : SmpRef) (s : State) : Host.Outcome State Fault Refusal :=
  done s (match s.smpFront u 2 [3] with
    | none => s
    | some j =>
      match s.hostAnswer u j with
      | .error w => s.await w
      | .ok (none, t) => t
      | .ok (some r, t) => orStay s (t.smpEnd u j r))

/-- HOST_TIMEOUT (R252): the limit of a request that has one passes; an answer at the same poll is accepted. -/
def execHostTimeout (u : SmpRef) (s : State) : Host.Outcome State Fault Refusal :=
  done s (match s.smpFront u 2 [3] with
    | none => s
    | some j =>
      if sdHtimeout j.desc = 0 then s
      else
        match s.hostAnswer u j with
        | .error w => s.await w
        | .ok (none, t) => orStay s (t.smpEnd u j (smpFail .tout))
        | .ok (some r, t) => orStay s (t.smpEnd u j r))

/-! ### Disabling, pre-emption, reset (R253, R254) -/

/-- The work of a unit ends as a disable or a KILL ends it: a HOST with ABRT at once, a pending descriptor with ABRT; a
SAMPLE drains (R254). -/
def State.smpStop (s : State) (u : SmpRef) : Except Wait State :=
  let a := match (s.smp u).run with
    | some j => if sdOpc j.desc = 2 then s.smpEnd u j (smpFail .abrt) else .ok s
    | none => .ok s
  match a with
  | .error w => .error w
  | .ok t =>
    match (t.smp u).pend with
    | some j => .ok (((t.setSmp u { t.smp u with pend := none }).setSmpPend u 0).smpRefuse u j .abrt)
    | none => .ok t

/-- SAMPLER_DISABLE (R254): a write of SMP_STATEu with EN 0. -/
def State.smpOff (s : State) (w : Wr) : State :=
  if w.val.getLsbD 0 then s
    else
      match (s.touch w.die .smpState).ctlStore w.die .smpState w.idx w.pl w.ctx w.val, w.die with
      | (.ok, t), .cd n =>
        let u : SmpRef := ⟨n, w.idx % 4⟩
        (match t.smpStop u with
          | .error w => s.await w
          | .ok v => (if (v.smp u).run.isNone then v.setSmpSt u 4 else v).answer .ok 0)
      | (e, t), _ => t.answerTo (.samplerDisable w) e 0
/-- SAMPLER_DISABLE (R254). -/
def execSamplerDisable (w : Wr) (s : State) : Host.Outcome State Fault Refusal := done s (s.smpOff w)

/-- SAMPLER_ENABLE (R254, Table 8-8): a write of SMP_STATEu with EN 1. -/
def State.smpOn (s : State) (w : Wr) : State :=
  if !w.val.getLsbD 0 then s
    else
      match (s.touch w.die .smpState).ctlStore w.die .smpState w.idx w.pl w.ctx w.val, w.die with
      | (.ok, t), .cd n =>
        let u : SmpRef := ⟨n, w.idx % 4⟩
        (if t.smpSt u = 4 then t.setSmpSt u 0 else t).answer .ok 0
      | (e, t), _ => t.answerTo (.samplerEnable w) e 0
/-- SAMPLER_ENABLE (R254). -/
def execSamplerEnable (w : Wr) (s : State) : Host.Outcome State Fault Refusal := done s (s.smpOn w)

/-- Pre-emption of a context (R253): a waiting HOST, with its reads given up, and a pending descriptor go back to the command processor. -/
def State.smpPause (s : State) (ctx : Nat) (u : SmpRef) : State :=
  let x := s.smp u
  let s1 := match x.pend with
    | some j => if j.ctx = ctx then ((s.setSmp u { x with pend := none }).setSmpPend u 0).smpReturn u j j.again else s
    | none => s
  let y := s1.smp u
  match y.run with
  | some j =>
    if j.ctx = ctx ∧ s1.smpSt u = 3 then
      (((s1.setSmp u { y with run := none }).setSmpSt u (if s1.smpEn u then 0 else 4)).giveUp
        fun r => decide (r = s1.reqId (.sampler (4 * u.die.val + u.unit)))).smpReturn u j true
    else s1
  | none => s1

/-- A reset of the tile domain (R254). -/
def State.smpReset (s : State) (die : Fin 4) : State :=
  ([0, 1, 2, 3].foldl (fun x i => (x.setSmp ⟨die, i⟩ SmpU.empty).setReg (.cd die) .smpState i 1) s).giveUp fun r =>
    decide (0x3000 + 4 * die.val ≤ r ∧ r < 0x3004 + 4 * die.val)

end Sys2Proof.Machine
end

