-- ==== Sys2Proof/Machine/Dma.lean ====
section
/-!
DEFINITION. DMA channels (R336-R346, R358, R359): descriptors with their checks, segments, stops with their records, and
the actions of DMA_CTRL.
-/

namespace Sys2Proof.Machine
open Sys2Proof

/-! ### Descriptors (Table 12-1) -/

def ddOpc (d : Nat) : Nat := dF d 23 16
def ddChain (d : Nat) : Bool := nbit d 24
def ddStrm (d : Nat) : Bool := nbit d 27
def ddEvt (d : Nat) : Bool := nbit d 25
def ddLen (d : Nat) : Nat := dF d 63 32
def ddSrc (d : Nat) : Nat := dF d 127 64
def ddDst (d : Nat) : Nat := dF d 191 128
def ddSstride (d : Nat) : Nat := dF d 223 192
def ddDstride (d : Nat) : Nat := dF d 255 224
def ddRows (d : Nat) : Nat := dF d 287 256
def ddLseq (d : Nat) : Nat := dF d 319 288
def ddImm (d : Nat) : Nat := dF d 383 320
def ddNext (d : Nat) : Nat := dF d 447 384
def ddTag (d : Nat) : Nat := dF d 511 448

/-- Checks of a descriptor (R340, R342). -/
def State.ddCheck (s : State) (die : Die) (d : Nat) : Bool :=
  let c := ddOpc d
  let src := decide (c = 1 ∨ c = 4 ∨ c = 5)
  versionOk (s.reg die .dmaIfVersion 0) (dF d 15 0) && decide (1 ≤ c ∧ c ≤ 5) && decide (dF d 31 28 = 0)
    && decide (ddLen d ≠ 0) && decide (ddRows d ≠ 0)
    && (decide (ddRows d ≠ 1) || (decide (ddSstride d = 0) && decide (ddDstride d = 0)))
    && (!ddChain d || decide (ddNext d % 64 = 0))
    && (src || (decide (ddSrc d = 0) && decide (ddSstride d = 0)))
    && (decide (c = 4 ∨ c = 5) || decide (ddLseq d = 0)) && (decide (c = 2 ∨ c = 3) || decide (ddImm d = 0))
    && (decide (c ≠ 3) || (decide (ddLen d = 8) && decide (ddRows d = 1) && decide (ddDst d % 8 = 0)))

/-! ### Channels -/

def State.dmaCtxId (s : State) (d : Die) (ch : Nat) : Nat := s.rf d .dmaCtx ch 11 0
def State.dmaPl (s : State) (d : Die) (ch : Nat) : Nat := s.rf d .dmaCtx ch 33 32
def State.dmaSt (s : State) (d : Die) (ch : Nat) : Nat := s.rf d .dmaStatus ch 2 0
def State.setDmaSt (s : State) (d : Die) (ch v : Nat) : State := s.setRf d .dmaStatus ch 2 0 v
def State.dma? (s : State) (d : Die) (ch : Nat) : Option DmaRun := aFind s.dmas (d, ch)
def State.setDma (s : State) (d : Die) (ch : Nat) (r : DmaRun) : State := { s with dmas := aSet s.dmas (d, ch) r }
def State.setCursor (s : State) (d : Die) (ch row byte : Nat) : State :=
  s.setReg d .dmaCursor ch (BitVec.ofNat 64 (row % 2 ^ 32 * 2 ^ 32 + byte % 2 ^ 32))
/-- Whether a channel's engine works: its domain runs and its events are not held (R355). -/
def State.dmaWorks (s : State) (d : Die) (ch : Nat) : Bool :=
  s.ctlUp d true && decide (ch < unitCount d .dma) && !s.prodHeld d (1 + ch)

/-- An event of a channel (Table 12-5). -/
def State.dmaPost (s : State) (d : Die) (ch typ : Nat) (st : Status) (tag : Nat) (pay : List Nat) : State :=
  let q := match s.dma? d ch with | some r => r.queue | none => 0xFF
  s.post d (1 + ch) (s.rf d .dmaCtx ch 45 40)
    (eventBytes typ st (s.dmaCtxId d ch) (s.reqId (.dma d ch)) q (BitVec.ofNat 64 tag) s.now pay)

/-- The command of a chain, if it still waits, has its status (R352). -/
def State.dmaTell (s : State) (d : Die) (ch : Nat) (st : Status) : State :=
  match s.dma? d ch, d with
  | some r, .cd n => (match r.cmd with
    | some id => (s.setDma d ch { r with cmd := none }).cmdFin n id st 0 0
    | none => s)
  | _, _ => s
/-- The end of a chain with a status; the channel takes a state and its command has its status (R344, R346, R359). -/
def State.dmaEnd (s : State) (d : Die) (ch : Nat) (st : Status) (next : Nat) : State :=
  let t := s.dmaTell d ch st
  (({ t with dmas := aErase t.dmas (d, ch) }.setRf d .dmaStatus ch 11 8 st.code).setDmaSt d ch next).giveUp fun i =>
    decide (i = s.reqId (.dma d ch))

/-- A channel that stops at a fault while a SYNC of its context, or of a frame, runs holds no translation when it is done (R330). -/
def State.syncForget (s : State) (d : Die) (ch : Nat) : State :=
  match s.hubCmd with
  | some h =>
    if ((h.op = 2 ∨ h.op = 3) ∧ h.ctx = s.dmaCtxId d ch) ∨ h.op = 7 ∨ h.op = 10 then
      { s with tlb := s.tlb.filter fun e => decide (e.who ≠ .dma d ch) }
    else s
  | none => s

/-- The channel stops (R345, R346): at a failed place, whose status its command takes (R352), or for a PAUSE; a disable ends the
chain (R359). -/
def State.dmaStop (s : State) (d : Die) (ch : Nat) (r : DmaRun) (st : Status) (row byte : Nat) (rec : List Nat) : State :=
  let tag := if r.got then ddTag r.desc else 0
  let t := ((s.setDma d ch { r with segs := [], row := row, byte := byte, stop := 0, begun := false }).setCursor d ch row byte).giveUp
    fun i => decide (i = s.reqId (.dma d ch))
  let errPay := natBytes 8 r.addr ++ natBytes 4 byte ++ natBytes 4 row
  if r.stop = 2 then (t.dmaPost d ch 7 .abrt tag errPay).dmaEnd d ch .abrt 5
  else
    match st with
    | .ok => t.setDmaSt d ch 4
    | .xlat =>
      let t1 := (((t.syncForget d ch).dmaTell d ch .xlat).setRf d .dmaStatus ch 11 8 st.code).setDmaSt d ch 2
      let t2 := (List.range 4).foldl (fun x j =>
        x.setReg d .dmaFault (4 * ch + j) (BitVec.ofNat 64 (bytesNat ((rec.drop (8 * j)).take 8)))) t1
      t2.dmaPost d ch 6 .xlat tag rec
    | e => ((((t.syncForget d ch).dmaTell d ch e).setRf d .dmaStatus ch 11 8 e.code).setDmaSt d ch 3).dmaPost d ch 7 e tag errPay

/-! ### Accesses of a channel (R321) -/

/-- The record of Table 11-7. -/
def State.faultRec (s : State) (d : Die) (ch typ va level : Nat) (entry : W64) : List Nat :=
  natBytes 8 va ++ natBytes 2 (s.dmaCtxId d ch) ++ [level + 16 * typ, s.dmaPl d ch] ++ natBytes 2 (s.reqId (.dma d ch))
    ++ [0, 0] ++ natBytes 8 s.now.toNat ++ natBytes 8 entry.toNat

/-- The pages of a span looked up before it is accessed: the record of the first entry that is not present. -/
def State.dmaPages (s : State) (d : Die) (ch typ : Nat) : List (Nat × Nat) → Except Wait (Option (List Nat) × State)
  | [] => .ok (none, s)
  | (va, _) :: r =>
    match s.xlate (.dma d ch) (s.dmaCtxId d ch) (s.dmaPl d ch) typ va with
    | .error w => .error w
    | .ok (.ok _ _, t) => t.dmaPages d ch typ r
    | .ok (.absent lv e, t) => .ok (some (t.faultRec d ch typ va lv e), t)
    | .ok (_, _) => .ok (none, s)

/-- Bytes read by a channel: status, bytes, fault record. -/
def State.dmaRead (s : State) (d : Die) (ch va n : Nat) : Except Wait (Status × List Byte × List Nat × State) :=
  match s.dmaPages d ch 0 (linePieces va (n / 128 + 2) n) with
  | .error w => .error w
  | .ok (some rec, t) => .ok (.xlat, [], rec, t)
  | .ok (none, t) =>
    match t.vaSpan (.dma d ch) (t.dmaCtxId d ch) (t.dmaPl d ch) va n with
    | .error w => .error w
    | .ok (st, l, u) => .ok (st, l, [], u)

/-- Bytes written by a channel, with the hint of its descriptor (R340): status and fault record. -/
def State.dmaPut (s : State) (d : Die) (ch va : Nat) (l : List Byte) (strm : Bool) : Except Wait (Status × List Nat × State) :=
  match s.dmaPages d ch 1 (linePieces va (l.length / 128 + 2) l.length) with
  | .error w => .error w
  | .ok (some rec, t) => .ok (.xlat, rec, t)
  | .ok (none, t) =>
    match t.vaPut (.dma d ch) (t.dmaCtxId d ch) (t.dmaPl d ch) va l strm with
    | .error w => .error w
    | .ok (st, u) => .ok (st, [], u)

/-- The tile of a global tile index on a die (R49). -/
def State.tileAt (s : State) (die : Fin 4) (g : Nat) : Option TileRef :=
  let n := s.nTiles die.val
  let k := g - die.val * (8 * n)
  if n ≠ 0 ∧ die.val * (8 * n) ≤ g ∧ k < 8 * n then some ⟨die, 16 * (k / n) + k % n⟩ else none

/-- The block that a local address names (R341): a status where there is none. -/
def State.localBlock (s : State) (d : Die) (ch addr lseq n : Nat) : Status × Option (TileRef × Block) :=
  match d with
  | .cd die =>
    if addr / 2 ^ 41 ≠ 0 then (.perm, none)
    else
      match s.tileAt die (addr / 2 ^ 32 % 512) with
      | none => (.perm, none)
      | some t =>
        match (s.tile t).blocks.find? (fun b => decide (bidSeq b.bid = lseq)) with
        | none => (.unav, none)
        | some b =>
          if b.ctx ≠ s.dmaCtxId d ch then (.perm, none)
          else if b.size < addr % 2 ^ 32 + n then (.perm, none) else (.ok, some (t, b))
  | _ => (.perm, none)

/-! ### Segments (R343) -/

/-- The next segment of a channel: row, byte, length, source and destination. -/
def DmaRun.next (r : DmaRun) : Nat × Nat × Nat × Nat :=
  let dst := (ddDst r.desc + r.row * ddDstride r.desc + r.byte) % 2 ^ 64
  let src := (ddSrc r.desc + r.row * ddSstride r.desc + r.byte) % 2 ^ 64
  (min (ddLen r.desc - r.byte) (128 - dst % 128), src, dst, 0)
def DmaRun.advance (r : DmaRun) (n : Nat) : DmaRun :=
  if ddLen r.desc ≤ r.byte + n then { r with row := r.row + 1, byte := 0 } else { r with byte := r.byte + n }

/-- A channel that can issue a segment of an operation code: RUN, its descriptor read, nothing stopping it but for a segment
already under way, fewer than 128 in flight. -/
def State.dmaFront (s : State) (d : Die) (ch opc : Nat) : Option DmaRun :=
  match s.dma? d ch with
  | none => none
  | some r =>
    if s.dmaWorks d ch && decide (s.dmaSt d ch = 1) && r.got && decide (ddOpc r.desc = opc) && (decide (r.stop = 0) || r.begun) &&
        decide (r.row < ddRows r.desc) && decide (r.segs.length < 128) then some r else none

/-- Whether an address lies in the source of a descriptor (R342). -/
def ddInSrc (d a : Nat) : Bool :=
  let k := if ddSstride d = 0 then 0 else min (ddRows d - 1) ((a - ddSrc d) / ddSstride d)
  decide (ddSrc d ≤ a ∧ a < ddSrc d + k * ddSstride d + ddLen d)
/-- Source bytes about to be overwritten by a segment of their own descriptor are kept as they are. -/
def State.dmaKeep (s : State) (d : Die) (ch : Nat) (r : DmaRun) : Except Wait (DmaRun × State) :=
  let mine := (upFrom r.next.2.2.1 r.next.1).filter (ddInSrc r.desc)
  if mine.isEmpty then .ok (r, s)
  else
    match s.dmaRead d ch r.next.2.2.1 r.next.1 with
    | .error w => .error w
    | .ok (.ok, l, _, t) =>
      let new := ((upFrom r.next.2.2.1 r.next.1).zip l).filter fun e => ddInSrc r.desc e.1 && (aFind r.old e.1).isNone
      .ok ({ r with old := new.foldl (fun m e => aSet m e.1 e.2) r.old }, t)
    | .ok (_, _, _, t) => .ok (r, t)
/-- The bytes that a segment of COPY writes: the source as it was, and in the overlap a source byte that the descriptor has
overwritten as before or after that write (R342). -/
def overlapBytes (r : DmaRun) (f : Nat) (va dst : Nat) (l : List Byte) : List Byte :=
  (withIdx l).map fun e =>
    match aFind r.old (va + e.1) with
    | some b => if ddInSrc r.desc (dst + e.1) && Config.freeBool (f + e.1) then e.2 else b
    | none => e.2

/-- A segment issued: what the access answers is kept until its response. One that waits is under way. -/
def State.dmaIssue (s : State) (d : Die) (ch opc : Nat) (f : State → DmaRun → Except Wait (DmaRun × Status × List Nat × State)) : State :=
  match s.dmaFront d ch opc with
  | none => s
  | some r0 =>
    match f s r0 with
    | .error w => (s.setDma d ch { r0 with begun := true }).await w
    | .ok (r, st, rec, t) =>
      t.setDma d ch (({ r with segs := r.segs ++ [⟨r.row, r.byte, r.next.1, st, rec⟩], begun := false } : DmaRun).advance r.next.1)
/-- A segment's write. -/
def State.dmaSeg (s : State) (d : Die) (ch : Nat) (r : DmaRun) (l : List Byte) : Except Wait (DmaRun × Status × List Nat × State) :=
  match s.dmaPut d ch r.next.2.2.1 l (ddStrm r.desc) with
  | .error w => .error w
  | .ok (st, rec, t) => .ok (r, st, rec, t)

/-- COPY. -/
def execDmaCopy (d : Die) (ch : Nat) (s : State) : Host.Outcome State Fault Refusal :=
  done s (s.dmaIssue d ch 1 fun s r0 =>
    match s.dmaKeep d ch r0 with
    | .error w => .error w
    | .ok (r, s) =>
      match s.dmaRead d ch r.next.2.1 r.next.1 with
      | .error w => .error w
      | .ok (.ok, l, _, t) => { t with free := t.free + 128 }.dmaSeg d ch r (overlapBytes r t.free r.next.2.1 r.next.2.2.1 l)
      | .ok (e, _, rec, t) => .ok (r, e, rec, t))

/-- FILL: byte (offset mod 8) of IMM, the offset within its row. -/
def execDmaFill (d : Die) (ch : Nat) (s : State) : Host.Outcome State Fault Refusal :=
  done s (s.dmaIssue d ch 2 fun s r =>
    s.dmaSeg d ch r ((List.range r.next.1).map fun i => BitVec.ofNat 8 (ddImm r.desc / 256 ^ ((r.byte + i) % 8))))

/-- WRITE: IMM, after every earlier write of the chain. -/
def execDmaWrite (d : Die) (ch : Nat) (s : State) : Host.Outcome State Fault Refusal :=
  done s (s.dmaIssue d ch 3 fun s r => s.dmaSeg d ch r (leBytes 8 (ddImm r.desc)))

/-- TOLOCAL: into a resident block's local memory. -/
def execTolocal (d : Die) (ch : Nat) (s : State) : Host.Outcome State Fault Refusal :=
  done s (s.dmaIssue d ch 4 fun s r =>
    match s.localBlock d ch r.next.2.2.1 (ddLseq r.desc) r.next.1 with
    | (.ok, some (t, b)) =>
      (match s.dmaRead d ch r.next.2.1 r.next.1 with
        | .error w => .error w
        | .ok (.ok, l, _, u) => .ok (r, .ok, [], u.setBlock t (b.lwr (r.next.2.2.1 % 2 ^ 32) r.next.1 (leNat l)))
        | .ok (e, _, rec, u) => .ok (r, e, rec, u))
    | (e, _) => .ok (r, e, [], s))

/-- FROMLOCAL: out of a resident block's local memory. -/
def execFromlocal (d : Die) (ch : Nat) (s : State) : Host.Outcome State Fault Refusal :=
  done s (s.dmaIssue d ch 5 fun s r =>
    match s.localBlock d ch r.next.2.1 (ddLseq r.desc) r.next.1 with
    | (.ok, some (_, b)) => s.dmaSeg d ch r (leBytes r.next.1 (b.lrd (r.next.2.1 % 2 ^ 32) r.next.1))
    | (e, _) => .ok (r, e, [], s))

/-- The end of a descriptor (R344): the next one of the chain, or IDLE with DMA_DONE. -/
def State.dmaDone (s : State) (d : Die) (ch : Nat) (r : DmaRun) : State :=
  let t := s.setRf d .dmaStatus ch 63 32 ((s.rf d .dmaStatus ch 63 32 + 1) % 2 ^ 32)
  let t := t.setRf d .dmaStatus ch 11 8 0
  if ddChain r.desc then
    let u := if ddEvt r.desc then t.dmaPost d ch 5 .ok (ddTag r.desc) (natBytes 8 r.addr) else t
    let n : DmaRun := { r with
      addr := ddNext r.desc, desc := 0, got := false, row := 0, byte := 0, begun := false, segs := [], old := [] }
    ((u.setDma d ch n).setRf d .dmaChain ch 56 0 (ddNext r.desc % 2 ^ 57)).setCursor d ch 0 0
  else (t.dmaPost d ch 5 .ok (ddTag r.desc) (natBytes 8 r.addr)).dmaEnd d ch .ok 0

/-- What the channel does when nothing is in flight: it stops for a PAUSE or a disable, or its descriptor is done. -/
def State.dmaSettle (s : State) (d : Die) (ch : Nat) (r : DmaRun) : State :=
  if r.segs ≠ [] ∨ r.begun = true then s
  else if r.got = true ∧ ddRows r.desc ≤ r.row ∧ r.stop = 0 then s.dmaDone d ch r
  else if r.stop ≠ 0 then s.dmaStop d ch r .ok r.row r.byte []
  else s

/-- DMA_SEGMENT_RESPONSE (R343, R345): the oldest segment in flight completes; the cursor advances, or the channel stops
there, once the segment under way has its responses too. -/
def execDmaSegmentResponse (d : Die) (ch : Nat) (s : State) : Host.Outcome State Fault Refusal :=
  done s (match s.dma? d ch with
    | none => s
    | some r =>
      if !s.dmaWorks d ch || decide (s.dmaSt d ch ≠ 1) then s
      else
        match r.segs with
        | [] => s.dmaSettle d ch r
        | g :: rest =>
          if g.st ≠ .ok then (if r.begun then s else s.dmaStop d ch r g.st g.row g.byte g.report)
          else
            let r1 := { r with segs := rest }
            let pos := match rest with | h :: _ => (h.row, h.byte) | [] => (r.row, r.byte)
            ((s.setDma d ch r1).setCursor d ch pos.1 pos.2).dmaSettle d ch r1)

/-- DMA_DESCRIPTOR_READ (R342, R345): the descriptor at DMA_CHAIN is read and checked. -/
def execDmaDescriptorRead (d : Die) (ch : Nat) (s : State) : Host.Outcome State Fault Refusal :=
  done s (match s.dma? d ch with
    | none => s
    | some r =>
      if !s.dmaWorks d ch || decide (s.dmaSt d ch ≠ 1) || r.got || (decide (r.stop ≠ 0) && !r.begun) then s
      else
        match s.dmaRead d ch r.addr 64 with
        | .error w => (s.setDma d ch { r with begun := true }).await w
        | .ok (.ok, l, _, t) =>
          let desc := leNat l
          if t.ddCheck d desc then
            let r1 := { r with desc := desc, got := true, row := 0, byte := 0, begun := false }
            ((t.setDma d ch r1).setCursor d ch 0 0).dmaSettle d ch r1
          else t.dmaStop d ch { r with desc := 0 } .perm 0 0 []
        | .ok (e, _, rec, t) => t.dmaStop d ch r e 0 0 rec)

/-! ### Actions of DMA_CTRL (R339, R346, R359) -/

/-- The action of a write, the first of R339's order: 1 disable, 2 ABORT, 3 PAUSE, 4 RESUME, 5 GO, 6 an enable, 0 none. -/
def dmaAction (old val : W64) : Nat :=
  if old.getLsbD 31 && !val.getLsbD 31 then 1
  else if !old.getLsbD 31 && val.getLsbD 31 then 6
  else if val.getLsbD 2 then 2
  else if val.getLsbD 3 then 3
  else if val.getLsbD 1 then 4
  else if val.getLsbD 0 then 5 else 0

/-- A write of DMA_CTRL whose action is `a`, and the action on the selected channel. -/
def State.dmaCtl (s : State) (w : Wr) (c : Instr) (a : Nat) (f : State → Nat → State) : State :=
  let s := s.touch w.die .dmaCtrl
  match s.gate w.die .dmaCtrl w.pl w.ctx with
  | .ok =>
    let ch := s.selUnit w.die w.pl .dma
    if dmaAction (s.reg w.die .dmaCtrl ch) w.val ≠ a then s
    else (f (s.setRf w.die .dmaCtrl ch 31 31 (b2n (w.val.getLsbD 31))) ch).answer .ok 0
  | e => s.answerTo c e 0

/-- A chain starts at an address. -/
def State.dmaStart (s : State) (d : Die) (ch addr : Nat) (cmd : Option Nat) (queue : Nat) : State :=
  let t := (s.setDma d ch ⟨addr, 0, false, 0, 0, false, [], 0, cmd, queue, []⟩).setCursor d ch 0 0
  ((t.setRf d .dmaStatus ch 63 32 0).setDmaSt d ch 1).newWork d 3

/-- DMA_GO (R344, Table 12-15). -/
def State.dmaGoWrite (s : State) (w : Wr) : State :=
  s.dmaCtl w (.dmaGo w) 5 fun t ch =>
    if t.dmaSt w.die ch = 0 ∧ t.rf w.die .dmaCtx ch 12 12 = 1 then
      t.dmaStart w.die ch (va57 (t.reg w.die .dmaChain ch).toNat) none 0xFF
    else t
/-- DMA_GO (R344). -/
def execDmaGo (w : Wr) (s : State) : Host.Outcome State Fault Refusal := done s (s.dmaGoWrite w)

/-- A stopped channel goes on at its cursor (R346). -/
def State.dmaGoOn (s : State) (d : Die) (ch : Nat) : State :=
  match s.dma? d ch with
  | none => s
  | some r =>
    let c := s.reg d .dmaCursor ch
    (s.setDma d ch { r with row := fld c 63 32, byte := fld c 31 0, segs := [], stop := 0, begun := false }).setDmaSt d ch 1 |>.newWork d 3

/-- Whether a die has pre-empted a context and not resumed it. -/
def State.isPreempted (s : State) (d : Die) (ctx : Nat) : Bool :=
  match d with
  | .cd n => s.preempted.contains (n.val, ctx)
  | _ => false

/-- DMA_RESUME (R346, Table 12-10). -/
def State.dmaResumeWrite (s : State) (w : Wr) : State :=
  s.dmaCtl w (.dmaResume w) 4 fun t ch =>
    let st := t.dmaSt w.die ch
    if st = 2 ∨ st = 3 ∨ st = 4 then
      if t.isPreempted w.die (t.dmaCtxId w.die ch) then t.setDmaSt w.die ch 4 else t.dmaGoOn w.die ch
    else t
/-- DMA_RESUME (R346). -/
def execDmaResume (w : Wr) (s : State) : Host.Outcome State Fault Refusal := done s (s.dmaResumeWrite w)

/-- DMA_ABORT (R346). -/
def State.dmaAbortWrite (s : State) (w : Wr) : State :=
  s.dmaCtl w (.dmaAbort w) 2 fun t ch =>
    let st := t.dmaSt w.die ch
    if 1 ≤ st ∧ st ≤ 4 then t.dmaEnd w.die ch .abrt 0 else t
/-- DMA_ABORT (R346). -/
def execDmaAbort (w : Wr) (s : State) : Host.Outcome State Fault Refusal := done s (s.dmaAbortWrite w)

/-- A channel is asked to stop (R346, R359): at once where nothing is in flight. -/
def State.dmaAskStop (s : State) (d : Die) (ch k : Nat) : State :=
  match s.dma? d ch with
  | none => s
  | some r =>
    let r1 := { r with stop := max r.stop k }
    let t := s.setDma d ch r1
    if r1.segs = [] ∧ r1.begun = false then t.dmaStop d ch r1 .ok r1.row r1.byte [] else t

/-- DMA_PAUSE (R346). -/
def State.dmaPauseWrite (s : State) (w : Wr) : State :=
  s.dmaCtl w (.dmaPause w) 3 fun t ch => if t.dmaSt w.die ch = 1 then t.dmaAskStop w.die ch 1 else t
/-- DMA_PAUSE (R346). -/
def execDmaPause (w : Wr) (s : State) : Host.Outcome State Fault Refusal := done s (s.dmaPauseWrite w)

/-- A channel disabled (Table 12-11). -/
def State.dmaDisable (s : State) (d : Die) (ch : Nat) : State :=
  match s.dmaSt d ch with
  | 1 => s.dmaAskStop d ch 2
  | 0 => s.setDmaSt d ch 5
  | 2 | 3 | 4 => s.dmaEnd d ch .abrt 5
  | _ => s

/-- DMA_DISABLE (R359). -/
def State.dmaOff (s : State) (w : Wr) : State :=
  s.dmaCtl w (.dmaDisable w) 1 fun t ch => t.dmaDisable w.die ch
/-- DMA_DISABLE (R359). -/
def execDmaDisable (w : Wr) (s : State) : Host.Outcome State Fault Refusal := done s (s.dmaOff w)

/-- DMA_ENABLE (R359, Table 12-15). -/
def State.dmaOn (s : State) (w : Wr) : State :=
  s.dmaCtl w (.dmaEnable w) 6 fun t ch => if t.dmaSt w.die ch = 5 then t.setDmaSt w.die ch 0 else t
/-- DMA_ENABLE (R359). -/
def execDmaEnable (w : Wr) (s : State) : Host.Outcome State Fault Refusal := done s (s.dmaOn w)

/-- The channels of a die after a reset of the domain that holds them: everything at its reset value. -/
def State.dmaReset (s : State) (d : Die) : State :=
  { s with dmas := s.dmas.filter fun e => decide (e.1.1 ≠ d) }.giveUp fun i =>
    (List.range 32).any fun ch => decide (i = s.reqId (.dma d ch))

end Sys2Proof.Machine
end

