-- ==== Sys2Proof/Machine/XlateCmd.lean ====
section
/-!
DEFINITION. Commands to the hub's protection tables and translation caches (R312, R313, R322-R332, R366): CPT_CMD,
XLT_INV, the replicas and the completions.
-/

namespace Sys2Proof.Machine
open Sys2Proof

/-! ### Entries -/

/-- A CPT entry with its reserved bits zero (Table 11-2). -/
def cptClean (e : BitVec 128) : BitVec 128 := setFld (setFld (setFld e 87 80 0) 47 10 0) 4 4 0
/-- An FDT or CDT entry with its reserved bits zero (Table 11-3). -/
def fdtClean (e : W16) : W16 := setFld e 13 8 0
/-- A CPT entry that a WRITE may not supply (R312). -/
def cptRefused (ctx : Nat) (e : BitVec 128) : Bool :=
  decide (2 ≤ fld e 1 0) || (decide (ctx ≠ 0) && decide (fld e 71 64 = 0 ∨ fld e 71 64 = 0xFF))
/-- GEN of a new entry: one above the entry it replaces. -/
def State.cptPut (s : State) (ctx : Nat) (e : BitVec 128) : State :=
  { s with cpt := aSet s.cpt ctx (setFld e 63 48 ((fld (s.cptMaster ctx) 63 48 + 1) % 65536)) }
/-- The two stage registers of a bank. -/
def State.cptStage (s : State) (bank : Nat) : BitVec 128 :=
  (s.reg .hub .cptStage1 bank) ++ (s.reg .hub .cptStage0 bank)
def State.setStage (s : State) (bank : Nat) (e : BitVec 128) : State :=
  (s.setReg .hub .cptStage0 bank (e.extractLsb' 0 64)).setReg .hub .cptStage1 bank (e.extractLsb' 64 64)

/-! ### Rights (R332, Table 11-9) -/

/-- Whether a level with a CTXID has a context in its guest. -/
def State.ownCtx (s : State) (mine ctx : Nat) : Bool :=
  decide (cptGid (s.cptMaster mine) ≠ 0) && decide (cptGid (s.cptMaster mine) = cptGid (s.cptMaster ctx))
/-- A management frame: a present entry VALID with PD 0. -/
def mgmtEntry (e : W16) : Bool := e.getLsbD 15 && decide (fld e 7 0 = 0)

/-- An operation of CPT_CMD permitted to a level. -/
def State.cptRight (s : State) (op pl mine ctx : Nat) (present new : W16) : Bool :=
  match op with
  | 1 | 2 => decide (pl = 0) || (decide (pl = 1) && decide (ctx ≠ 0))
  | 3 | 4 | 5 => decide (pl ≤ 1) || (decide (pl = 2) && s.ownCtx mine ctx)
  | 6 | 9 => decide (pl = 0) || (decide (pl = 1) && !mgmtEntry present && !mgmtEntry new)
  | 7 | 10 => decide (pl = 0) || (decide (pl = 1) && !mgmtEntry present)
  | _ => decide (pl ≤ 1)

/-- An invalidation permitted to a level. -/
def State.invRight (s : State) (pl mine scope ctx gid : Nat) : Bool :=
  decide (pl ≤ 1) ||
    (decide (pl = 2) &&
      (match scope with
        | 0 | 1 => decide (cptGid (s.cptMaster mine) = cptGid (s.cptMaster ctx))
        | 2 => decide (cptGid (s.cptMaster mine) = gid)
        | _ => false))

/-! ### Removal of translations (R322, R323, R329) -/

/-- Whether an invalidation covers a context. -/
def State.invCtx (s : State) (scope ctx gid c : Nat) : Bool :=
  match scope with
  | 0 | 1 => decide (c = ctx)
  | 2 => decide (cptGid (s.cptMaster c) = gid)
  | _ => true
/-- Whether a cached translation overlaps the range of Table 11-14. -/
def tlbInRange (e : TlbE) (range : W64) : Bool :=
  let lo := fld range 56 16 * 65536
  let hi := lo + (fld range 15 0 + 1) * 65536
  let a := e.vpage * 2 ^ e.bits
  decide (a < hi) && decide (lo < a + 2 ^ e.bits)
/-- Walks of some contexts start again at the top-level table; what walkers have been answered for them is discarded. -/
def State.restartWalks (s : State) (p : Nat → Bool) : State :=
  let again (w : Walk) : Walk := { w with level := 4, table := fld (s.cptAt (repIdx (xDie w.who)) w.ctx) 127 88 * 4096 }
  let walker (r : Req) : Bool := r.eng && decide (r.rid / 4096 = 10) && p r.ctx
  let whos := (s.reqs.filter walker).map fun r => (r.who, r.pa)
  { s with
    walks := s.walks.map fun w => if p w.ctx then again w else w
    reqs := s.reqs.filter fun r => !walker r
    net := s.net.filter fun m => !(whos.contains (m.who, m.pa) && [MsgKind.dataNc, .nack].contains m.kind)
    ncBuf := s.ncBuf.filter fun e => !walker e.1 }
def State.invalidate (s : State) (scope ctx gid : Nat) (range : W64) : State :=
  let covers := s.invCtx scope ctx gid
  ({ s with
    tlb := s.tlb.filter fun e => !(covers e.ctx && (decide (scope ≠ 0) || tlbInRange e range))
    wcache := s.wcache.filter fun e => !covers e.ctx } : State).restartWalks covers
/-- Translations of a context removed (SYNC). -/
def State.invContext (s : State) (ctx : Nat) : State := s.invalidate 1 ctx 0 0
/-- Translations that cover a span of physical addresses removed, and every walk restarted (FDT_SYNC, CDT_SYNC). -/
def State.invSpan (s : State) (base size : Nat) : State :=
  ({ s with
    tlb := s.tlb.filter fun e => !(decide (e.pbase < base + size) && decide (base < e.pbase + 2 ^ e.bits))
    wcache := s.wcache.filter fun e => !(decide (e.table < base + size) && decide (base < e.table + 4096)) } :
    State).restartWalks fun _ => true

/-! ### Accesses under way (R323, R329) -/

/-- The accesses of some contexts that are under way, and the stores of every tile's write buffer. -/
def State.drains (s : State) (p : Nat → Bool) : List Drain :=
  let lanes := s.tiles.flatMap fun e =>
    (e.2.ops.filter fun o => (match e.2.block? o.bid with | some b => p b.ctx | none => false) &&
      o.lanes.any fun l => decide (l.st = .wait) || decide (l.st = .stall)).map fun o => Drain.lane e.1 o.oid
  let stores := s.tiles.flatMap fun e => e.2.wb.flatMap fun w => w.who.map fun q => Drain.store e.1 q.1
  let segs := s.dmas.flatMap fun e =>
    if p (s.dmaCtxId e.1.1 e.1.2) then
      (e.2.segs.map fun g => Drain.seg e.1.1 e.1.2 e.2.addr g.row g.byte) ++
        (if e.2.begun then [Drain.seg e.1.1 e.1.2 e.2.addr e.2.row e.2.byte] else [])
    else []
  let outs := (s.io.outb.filter fun o => decide (o.ans = none) && p (s.dmaCtxId .hub (o.req % 128))).map fun o => Drain.out o.req o.pa
  lanes ++ stores ++ segs ++ outs ++ ((s.reqs.filter fun r => p r.ctx).map fun r => Drain.req r.who r.pa)
/-- Whether one of them is still under way. -/
def State.draining (s : State) : Drain → Bool
  | .lane t i => (s.tile t).ops.any fun o => decide (o.oid = i) && o.lanes.any fun l => decide (l.st = .wait) || decide (l.st = .stall)
  | .store t i => (s.tile t).wb.any fun w => w.who.any fun q => decide (q.1 = i)
  | .req who pa => (s.findReq who pa).isSome
  | .seg d ch addr row byte => match s.dma? d ch with
    | some r => decide (r.addr = addr) &&
        ((r.segs.any fun g => decide (g.row = row ∧ g.byte = byte)) || (r.begun && decide (r.row = row ∧ r.byte = byte)))
    | none => false
  | .out rid pa => s.io.outb.any fun o => decide (o.req = rid ∧ o.pa = pa ∧ o.ans = none)

/-! ### CPT_CMD (R324, R327, R329, R366) -/

/-- The bank of a privilege level. -/
def bankOf (pl : Nat) : Nat := if pl ≤ 1 then 0 else 1
/-- A refused start (R324): the write completes with the status, and STATUS takes it. -/
def State.cptRefuse (s : State) (bank : Nat) (st : Status) : State :=
  (s.setRf .hub .cptCmd bank 59 56 st.code).answer st 0
/-- CDT index of FRAME. -/
def cdtOf (frame : Nat) : Nat := frame % 2 ^ 14
/-- Base of a CDT entry's 1 GiB of device memory. -/
def cdtBase (i : Nat) : Nat := cxlBase + i / 8192 * 2 ^ 47 + i % 8192 * 2 ^ 30

/-- A write of CPT_CMD that starts operation `op`: refusals in R20's order, PERM before BUSY; then the effect at acceptance. -/
def State.cptStart (s : State) (w : Wr) (op : Nat) (f : State → Nat → Nat → Nat → State) : State :=
  match s.gate .hub .cptCmd w.pl w.ctx with
  | .ok =>
    let bank := bankOf w.pl
    let ctx := fld w.val 11 0
    let frame := fld w.val 47 30
    let stage := s.cptStage bank
    let present := if op ≤ 8 then s.fdtMaster frame else aGet s.cdt 0 (cdtOf frame)
    if fld w.val 51 48 ≠ op ∨ w.die ≠ .hub then s
    else if !s.cptRight op w.pl w.ctx ctx present (stage.extractLsb' 0 16) then s.cptRefuse bank .perm
    else if (op = 1 ∨ op = 2) ∧ cptRefused ctx stage = true then s.cptRefuse bank .perm
    else if s.hubCmd.isSome then s.cptRefuse bank .busy
    else
      let t := ((s.setRf .hub .cptCmd bank 47 30 frame).setRf .hub .cptCmd bank 11 0 ctx).setRf .hub .cptCmd bank 63 63 1
      (f { t with hubCmd := some ⟨op, bank, ctx, frame, 0, 0, 0, 0, 0, false, []⟩ } bank ctx frame).answer .ok 0
  | e => s.answer e 0

/-- CPT_CMD WRITE. -/
def execCptWrite (w : Wr) (s : State) : Host.Outcome State Fault Refusal :=
  done s (s.cptStart w 1 fun t bank ctx _ => t.cptPut ctx (cptClean (t.cptStage bank)))
/-- CPT_CMD WRITE_SYNC. -/
def execWriteSync (w : Wr) (s : State) : Host.Outcome State Fault Refusal :=
  done s (s.cptStart w 2 fun t bank ctx _ => (t.cptPut ctx (cptClean (t.cptStage bank))).invContext ctx)
/-- CPT_CMD SYNC. -/
def execCptSync (w : Wr) (s : State) : Host.Outcome State Fault Refusal :=
  done s (s.cptStart w 3 fun t _ ctx _ => t.invContext ctx)
/-- CPT_CMD READ. -/
def execCptRead (w : Wr) (s : State) : Host.Outcome State Fault Refusal :=
  done s (s.cptStart w 4 fun t bank ctx _ => t.setStage bank (t.cptMaster ctx))
/-- CPT_CMD SET_ROOT. -/
def execSetRoot (w : Wr) (s : State) : Host.Outcome State Fault Refusal :=
  done s (s.cptStart w 5 fun t bank ctx _ => t.cptPut ctx (setFld (t.cptMaster ctx) 127 88 (fld (t.cptStage bank) 127 88)))
/-- CPT_CMD FDT_WRITE. -/
def execFdtWrite (w : Wr) (s : State) : Host.Outcome State Fault Refusal :=
  done s (s.cptStart w 6 fun t bank _ frame =>
    { t with fdt := aSet t.fdt frame (fdtClean ((t.cptStage bank).extractLsb' 0 16)) })
/-- CPT_CMD FDT_SYNC. -/
def execFdtSync (w : Wr) (s : State) : Host.Outcome State Fault Refusal :=
  done s (s.cptStart w 7 fun t _ _ frame => t.invSpan (frame * 2 ^ 21) (2 ^ 21))
/-- CPT_CMD FDT_READ. -/
def execFdtRead (w : Wr) (s : State) : Host.Outcome State Fault Refusal :=
  done s (s.cptStart w 8 fun t bank _ frame =>
    t.setReg .hub .cptStage0 bank (BitVec.ofNat 64 (t.fdtMaster frame).toNat))
/-- CPT_CMD CDT_WRITE (R366). -/
def execCdtWrite (w : Wr) (s : State) : Host.Outcome State Fault Refusal :=
  done s (s.cptStart w 9 fun t bank _ frame =>
    { t with cdt := aSet t.cdt (cdtOf frame) (fdtClean ((t.cptStage bank).extractLsb' 0 16)) })
/-- CPT_CMD CDT_SYNC (R366). -/
def execCdtSync (w : Wr) (s : State) : Host.Outcome State Fault Refusal :=
  done s (s.cptStart w 10 fun t _ _ frame => t.invSpan (cdtBase (cdtOf frame)) (2 ^ 30))
/-- CPT_CMD CDT_READ (R366). -/
def execCdtRead (w : Wr) (s : State) : Host.Outcome State Fault Refusal :=
  done s (s.cptStart w 11 fun t bank _ frame =>
    t.setReg .hub .cptStage0 bank (BitVec.ofNat 64 ((aGet t.cdt 0 (cdtOf frame)).toNat)))

/-! ### Replicas (R312, R313, R327) -/

/-- REPLICA_UPDATE: replica `rep` (compute dies 0 to 3, the hub 4) takes up the master's value of an entry: kind 0 of the
CPT, 1 of the FDT, 2 of the CDT, which the hub's homes alone hold. -/
def execReplicaUpdate (rep kind i : Nat) (s : State) : Host.Outcome State Fault Refusal :=
  done s (
    let up := if rep = 4 then s.running .hub false else decide (rep < 4) && s.running (.cd (cdOf rep)) false
    if !up then s
    else
      match kind with
      | 0 => if i < 4096 then { s with cptRep := aSet s.cptRep (rep, i) (s.cptMaster i) } else s
      | 1 => if i < 2 ^ 18 then { s with fdtRep := aSet s.fdtRep (rep, i) (s.fdtMaster i) } else s
      | _ => if rep = 4 ∧ i < 2 ^ 14 then { s with cdtRep := aSet s.cdtRep i (aGet s.cdt 0 i) } else s)

/-- The replicas that stand: those of running dies. -/
def State.liveReps (s : State) : List Nat :=
  [0, 1, 2, 3, 4].filter fun r => if r = 4 then s.running .hub false else s.running (.cd (cdOf r)) false
def State.cptInStep (s : State) (ctx : Nat) : Bool := s.liveReps.all fun r => decide (s.cptAt r ctx = s.cptMaster ctx)
def State.fdtInStep (s : State) (f : Nat) : Bool := s.liveReps.all fun r => decide (s.fdtAt r f = s.fdtMaster f)
def State.cdtInStep (s : State) (i : Nat) : Bool := decide (aGet s.cdtRep 0 i = aGet s.cdt 0 i)

/-- What a synchronising command leaves when every replica holds its value: no translation of its context or frame; and what
it then waits for. None for a command that does not synchronise. -/
def State.syncSweep (s : State) (h : HubCmd) : Option (Bool × State × List Drain) :=
  match h.op with
  | 2 | 3 => some (s.cptInStep h.ctx, s.invContext h.ctx, s.drains fun c => decide (c = h.ctx))
  | 7 => some (s.fdtInStep h.frame, s.invSpan (h.frame * 2 ^ 21) (2 ^ 21), s.drains fun _ => true)
  | 10 => some (s.cdtInStep (cdtOf h.frame), s.invSpan (cdtBase (cdtOf h.frame)) (2 ^ 30), s.drains fun _ => true)
  | _ => none
/-- The command of CPT_CMD ends with OK. -/
def State.cptOver (s : State) (h : HubCmd) : State :=
  { (s.setRf .hub .cptCmd h.bank 63 63 0).setRf .hub .cptCmd h.bank 59 56 0 with hubCmd := none }

/-- CPT_COMMAND_COMPLETE (R324, R329): a synchronising command sweeps when every replica holds the value, and completes when no
access judged before is under way. -/
def execCptCommandComplete (s : State) : Host.Outcome State Fault Refusal :=
  done s (match s.hubCmd with
    | none => s
    | some h =>
      if 11 < h.op ∨ s.running .hub false = false then s
      else if h.swept then (if h.drain.any s.draining then s else s.cptOver h)
      else
        match s.syncSweep h with
        | none => s.cptOver h
        | some (ready, t, l) =>
          if !ready then s
          else if l.any t.draining then { t with hubCmd := some { h with swept := true, drain := l } }
          else t.cptOver h)

/-! ### XLT_INV (R322-R324) -/

def State.invRefuse (s : State) (bank : Nat) (st : Status) : State :=
  (s.setRf .hub .xltInvCmd bank 59 56 st.code).answer st 0

/-- An invalidation accepted (R323): the covered entries are removed, and what is under way now is waited for. -/
def State.invStart (s : State) (h : HubCmd) : State :=
  { s with hubCmd := some { h with drain := s.drains (s.invCtx h.scope h.ctx h.gid) } }.invalidate h.scope h.ctx h.gid h.range

/-- XLT_INV: a write of XLT_INV_CMD with GO. -/
def execXltInv (w : Wr) (s : State) : Host.Outcome State Fault Refusal :=
  done s (match s.gate .hub .xltInvCmd w.pl w.ctx with
    | .ok =>
      let bank := bankOf w.pl
      let scope := fld w.val 49 48
      let gid := fld w.val 47 40
      let ctx := fld w.val 11 0
      if !w.val.getLsbD 12 || decide (w.die ≠ .hub) then s
      else if !s.invRight w.pl w.ctx scope ctx gid then s.invRefuse bank .perm
      else if s.hubCmd.isSome then s.invRefuse bank .busy
      else
        let range := s.reg .hub .xltInvAddr bank
        let t := ((s.setRf .hub .xltInvCmd bank 49 40 (fld w.val 49 40)).setRf .hub .xltInvCmd bank 11 0 ctx).setRf
          .hub .xltInvCmd bank 63 63 1
        (t.invStart ⟨16, bank, ctx, 0, scope, gid, range, 0, 0, true, []⟩).answer .ok 0
    | e => s.answer e 0)

/-- XLT_INV_COMPLETE (R323): the sweep is over, the accesses that used removed entries have been answered, and the
tiles' write buffers have drained what they held at acceptance; a command stream's command has its status. -/
def execXltInvComplete (s : State) : Host.Outcome State Fault Refusal :=
  done s (match s.hubCmd with
    | none => s
    | some h =>
      if h.op ≠ 16 ∨ s.running .hub false = false ∨ h.drain.any s.draining = true then s
      else
        let t := { s with hubCmd := none }
        if h.bank = 2 then t.cmdFin (cdOf h.die) h.cmd .ok 0 0
        else (t.setRf .hub .xltInvCmd h.bank 63 63 0).setRf .hub .xltInvCmd h.bank 59 56 0)

end Sys2Proof.Machine
end

