-- ==== Sys2Proof/Machine/Command.lean ====
section
/-!
DEFINITION. Command streams (R347-R352): doorbells, enabling and disabling, the commands of Table 12-3 with their format
errors, completions; and event queues as software uses them (R354, R355).
-/

namespace Sys2Proof.Machine
open Sys2Proof

/-! ### Queues (R347, R348, R359) -/

/-- Words of a queue's ring. -/
def State.cqWords (s : State) (die : Fin 4) (q : Nat) : Nat := 2 ^ (s.rf (.cd die) .cqCfg q 31 28 + 12) / 8

/-- CQ_DOORBELL (R348); in N1 and N2 it waits, and wakes the package (R403). -/
def State.cqRing (s : State) (w : Wr) : State :=
  match w.die, s.gate w.die .cqDoorbell w.pl w.ctx with
    | .cd n, .ok =>
      let q := w.idx % 64
      let t := fld w.val 31 0
      let head := s.cqHead n q
      let tail := s.cqTail n q
      if s.cqSt n q = 5 ∨ w.ctx ≠ s.rf w.die .cqCfg q 11 0 ∨ s.rf w.die .cqCfg q 49 48 < w.pl then s.answer .perm 0
      else if 2 ^ 31 ≤ (t + 2 ^ 32 - tail) % 2 ^ 32 then s.answer .perm 0
      else if s.cqWords n q < (t + 2 ^ 32 - head) % 2 ^ 32 then s.answer .busy 0
      else (((s.setRf w.die .cqPtr q 63 32 t).cqSettle n q).wakeIf 2 q).answer .ok 0
    | _, .ok => s
    | _, e => (if e = .held then s.wakeIf 2 (w.idx % 64) else s).answerTo (.cqDoorbell w) e 0
/-- CQ_DOORBELL (R348). -/
def execCqDoorbell (w : Wr) (s : State) : Host.Outcome State Fault Refusal := done s (s.cqRing w)

/-- CQ_ENABLE (R347): a write of CQ_CFG that sets EN. -/
def State.cqOn (s : State) (w : Wr) : State :=
  let s := s.touch w.die .cqCfg
  match w.die, s.gate w.die .cqCfg w.pl w.ctx with
    | .cd n, .ok =>
      let q := s.selUnit w.die w.pl .cq
      if s.rf w.die .cqCfg q 12 12 = 1 ∨ w.val.getLsbD 12 = false then s
      else
        match s.ctlStore w.die .cqCfg 0 w.pl w.ctx w.val with
        | (.ok, t) =>
          if !versionOk (s.reg w.die .cqIfVersion 0) (fld w.val 47 32) then s.answer .busy 0
          else (({ t with calls := aErase t.calls (n.val, q) }.setReg w.die .cqPtr q 0).setCqSt n q 0).answer .ok 0
        | (e, t) => t.answer e 0
    | _, .ok => s
    | _, e => s.answerTo (.cqEnable w) e 0
/-- CQ_ENABLE (R347). -/
def execCqEnable (w : Wr) (s : State) : Host.Outcome State Fault Refusal := done s (s.cqOn w)

/-- What a queue has read and not started is discarded (R359): its waiting command, with the placement or the delivery it
waits for. -/
def State.cqDiscard (s : State) (n : Fin 4) (q : Nat) : State :=
  let gone := (s.cmds.filter fun c => decide (c.die = n) && decide (c.queue = q) && !c.started).map fun c => c.id
  { s with
    cmds := s.cmds.filter fun c => !(decide (c.die = n) && gone.contains c.id)
    calls := aErase s.calls (n.val, q)
    blaunches := s.blaunches.filter fun l => !(decide (l.die = n) && gone.contains l.id)
    launches := (s.launches.map fun l => if l.die = n ∧ l.queue = q then { l with todo := [] } else l).filter fun l =>
      !(decide (l.die = n) && decide (l.queue = q) && l.live.isEmpty) }

/-- CQ_DISABLE (R359): a write of CQ_CFG that clears EN; refused with PERM before BUSY (R20). -/
def State.cqOff (s : State) (w : Wr) : State :=
  let s := s.touch w.die .cqCfg
  match w.die, s.gate w.die .cqCfg w.pl w.ctx with
    | .cd n, .ok =>
      let q := s.selUnit w.die w.pl .cq
      let st := s.cqSt n q
      if s.rf w.die .cqCfg q 12 12 = 0 ∨ w.val.getLsbD 12 = true then s
      else
        match s.ctlStore w.die .cqCfg 0 w.pl w.ctx w.val with
        | (.ok, t) =>
          if st = 1 ∨ st = 2 ∨ s.cmds.any (fun c => decide (c.die = n) && decide (c.queue = q) && c.started) = true then
            s.answer .busy 0
          else ((t.cqDiscard n q).setCqSt n q 5).answer .ok 0
        | (e, t) => t.answer e 0
    | _, .ok => s
    | _, e => s.answerTo (.cqDisable w) e 0
/-- CQ_DISABLE (R359). -/
def execCqDisable (w : Wr) (s : State) : Host.Outcome State Fault Refusal := done s (s.cqOff w)

/-! ### The next command of a queue (R349) -/

/-- What a queue offers. -/
inductive CqFront where
  | none
  | wait (w : Wait)
  | part (w : W64) (s : State)
  | bad (st : Status) (w : W64) (s : State)
  | word (w : W64) (ops : List W64) (s : State)
deriving DecidableEq, Repr

/-- Words as a list. -/
def wordsOf : Nat → List Byte → List W64
  | 0, _ => []
  | n + 1, l => BitVec.ofNat 64 (leNat (l.take 8)) :: wordsOf n (l.drop 8)

/-- Words of a ring read one at a time. -/
def State.ringWords (s : State) (die : Fin 4) (q ctx pl : Nat) : Nat → Nat → Except Wait (Status × List W64 × State)
  | 0, _ => .ok (.ok, [], s)
  | n + 1, x =>
    let base := va57 (s.rf (.cd die) .cqBase q 56 0)
    match s.vaSpan (.cp die) ctx pl (base + 8 * (x % s.cqWords die q)) 8 with
    | .error w => .error w
    | .ok (.ok, l, t) =>
      (match t.ringWords die q ctx pl n (x + 1) with
        | .error w => .error w
        | .ok (st, ws, u) => .ok (st, BitVec.ofNat 64 (leNat l) :: ws, u))
    | .ok (e, _, t) => .ok (e, [], t)

/-- Words at the place where a queue reads: its called buffer, or its ring. -/
def State.cqRead (s : State) (die : Fin 4) (q ctx pl n : Nat) : Except Wait (Status × List W64 × State) :=
  match s.call? die q with
  | some p =>
    (match s.vaSpan (.cp die) ctx pl (p.va + 8 * p.pos) (8 * n) with
      | .error w => .error w
      | .ok (st, l, t) => .ok (st, wordsOf n l, t))
  | none => s.ringWords die q ctx pl n (s.cqHead die q)
/-- Words that are there to read. -/
def State.cqDepth (s : State) (die : Fin 4) (q : Nat) : Nat :=
  match s.call? die q with
  | some p => p.words - p.pos
  | none => (s.cqTail die q + 2 ^ 32 - s.cqHead die q) % 2 ^ 32

/-- Whether a queue in service has words to read and no command that waits to start. -/
def State.cqOffers (s : State) (die : Fin 4) (q : Nat) : Bool :=
  decide (s.cqSt die q ≤ 2) && decide (s.cqDepth die q ≠ 0) &&
    !s.cmds.any fun c => decide (c.die = die) && decide (c.queue = q) && !c.started
/-- Whether every earlier command of a queue has completed. -/
def State.allEarlier (s : State) (die : Fin 4) (q : Nat) : Bool :=
  !s.cmds.any fun c => decide (c.die = die) && decide (c.queue = q)
/-- Whether the condition holds that Table 12-3 states for a command of a queue to go on: a chain's channel IDLE, or unable to take it; a
count reached; every earlier command completed; the hub free, or the command refused. -/
def State.cqHolds (s : State) (die : Fin 4) (q : Nat) (w : W64) : Bool :=
  let ctx := s.rf (.cd die) .cqCfg q 11 0
  match cwOp w with
  | 0x03 =>
    let st := s.dmaSt (.cd die) (fld w 4 0)
    let x := s.reg (.cd die) .dmaCtx (fld w 4 0)
    decide (st = 0 ∨ st = 6) || !x.getLsbD 12 || decide (fld x 11 0 ≠ ctx)
  | 0x07 => decide (fld w 47 0 ≤ s.rf (.cd die) .cqCount q 62 0)
  | 0x09 => !w.getLsbD 1 || s.allEarlier die q
  | 0x0B => s.allEarlier die q
  | 0x0D =>
    !s.running .hub false || !s.invRight (s.rf (.cd die) .cqCfg q 49 48) ctx (fld w 13 12) (fld w 11 0) (fld w 23 16) || s.hubCmd.isNone
  | _ => true
/-- Whether a queue is ready (R349): it has words to read, and where it waits, all words of its next command are there by now and that
command's condition holds. -/
def State.cqReady (s : State) (die : Fin 4) (q : Nat) : Bool :=
  s.cqOffers die q &&
    (decide (s.cqSt die q ≠ 2) ||
      match s.cqRead die q (s.rf (.cd die) .cqCfg q 11 0) (s.rf (.cd die) .cqCfg q 49 48) 1 with
      | .ok (.ok, l, _) => decide (1 + cwLen (l.headD 0) ≤ s.cqDepth die q) && s.cqHolds die q (l.headD 0)
      | .ok _ => true
      | .error _ => false)
/-- Whether a queue has its turn (R349): none that is ready comes before it in the round from the queue served last. -/
def State.cqTurnOf (s : State) (die : Fin 4) (q : Nat) : Bool :=
  let k := aGet s.cqTurn 63 die.val
  !(((List.range 64).map fun i => (k + 1 + i) % 64).takeWhile fun x => decide (x ≠ q)).any (s.cqReady die)

/-- The command that a queue in service would start next; none while it is empty, while it is not its turn, while
one of its commands waits to start, or while the command processor holds an event (R348, R349, R355). -/
def State.cqFront (s : State) (die : Fin 4) (q : Nat) : CqFront :=
  let ctx := s.rf (.cd die) .cqCfg q 11 0
  let pl := s.rf (.cd die) .cqCfg q 49 48
  if !s.running (.cd die) true || decide (64 ≤ q) || s.prodHeld (.cd die) 0 || !s.cqOffers die q || !s.cqTurnOf die q then .none
  else
    match s.cqRead die q ctx pl 1 with
    | .error w => .wait w
    | .ok (.ok, l, t) =>
      let w := l.headD 0
      let n := 1 + cwLen w
      if s.cqDepth die q < n then (if (s.call? die q).isSome then .bad .perm w t else .part w t)
      else
        (match t.cqRead die q ctx pl n with
          | .error w => .wait w
          | .ok (.ok, ws, u) => .word w (ws.drop 1) u
          | .ok (e, _, u) => .bad e w u)
    | .ok (e, _, t) => .bad e 0 t

/-- A queue has been served (R349). -/
def State.cqServed (s : State) (die : Fin 4) (q : Nat) : State := { s with cqTurn := aSet s.cqTurn die.val q }

/-- The queue stops in ERROR (R352). -/
def State.cqError (s : State) (die : Fin 4) (q : Nat) (st : Status) (w : W64) : State :=
  let t := ((s.cqServed die q).setRf (.cd die) .cqCfg q 27 24 st.code).setCqSt die q 4
  t.post (.cd die) 0 (t.cqEq die q)
    (eventBytes 8 st (t.rf (.cd die) .cqCfg q 11 0) (0x4000 + die.val) q (BitVec.ofNat 64 (t.cqHead die q)) t.now
      (natBytes 8 w.toNat))

/-- Whether an operation is one of Table 12-3. -/
def cwKnown (op : Nat) : Bool := decide (op = 0) || decide (op = 1) || decide (3 ≤ op ∧ op ≤ 14)

/-- Format rules of a command (R350, R351): LEN, reserved bits, aligned addresses, and no CALL in a called buffer. -/
def cwFormatOk (inCall : Bool) (w : W64) (ops : List W64) : Bool :=
  let op := cwOp w
  let n := cwLen w
  let a (hi lo : Nat) : Bool := decide (fld w hi lo = 0)
  let al (i : Nat) : Bool := decide ((ops[i]?.getD 0).toNat % 8 = 0)
  cwKnown op && a 50 48 &&
    (match op with
      | 0x00 => a 47 0
      | 0x01 => decide (n = 5) && a 17 0 && decide (fld (ops[4]?.getD 0) 63 32 = 0)
      | 0x03 => decide (n = 1) && a 47 5
      | 0x04 => decide (n = 2) && a 47 0
      | 0x05 => decide (n = 2 ∨ n = 3) && a 15 0
      | 0x06 => decide (n = 1) && a 47 3
      | 0x07 => decide (n = 0)
      | 0x08 => decide (n = 2) && a 47 32 && a 15 3 && decide (fld w 1 0 ≠ 3) && al 0
      | 0x09 => decide (n = 2) && a 47 2 && al 0
      | 0x0A => decide (n = 1) && a 47 0 && al 0
      | 0x0B => decide (n = 0) && a 47 0
      | 0x0C => decide (n = 0)
      | 0x0D => decide (n = 1) && a 47 24 && a 15 14 && decide (fld (ops[0]?.getD 0) 63 57 = 0)
      | _ => decide (n = 1) && a 47 20 && decide (fld w 19 0 ≠ 0) && al 0 && !inCall)

/-- A record of the command at the front. -/
def State.cqCmd (s : State) (die : Fin 4) (q : Nat) (w : W64) (ops : List W64) : Cmd :=
  ⟨s.nextCmd, die, q, s.cqHead die q, w, ops, s.rf (.cd die) .cqCfg q 11 0, s.rf (.cd die) .cqCfg q 49 48, false, none, 0, 0,
    s.now, none⟩
/-- A command begun: it waits to start. -/
def State.cmdBegin (s : State) (c : Cmd) : State :=
  ({ s with cmds := s.cmds ++ [c], nextCmd := s.nextCmd + 1 }.cqServed c.die c.queue).cqSettle c.die c.queue
/-- A command begun and started. -/
def State.cmdRun (s : State) (c : Cmd) : State := (s.cmdBegin c).cmdStart c
/-- A command begun, started and completed. -/
def State.cmdNow (s : State) (c : Cmd) (st : Status) : State :=
  let t := s.cmdRun c
  (t.completeCmd { c with started := true } st).cqSettle c.die c.queue

/-- A command of a queue that waits where it stands. -/
def State.cqWait (s : State) (die : Fin 4) (q : Nat) : State := s.setCqSt die q 2
/-- A command of a queue whose operation is `op`: a format error stops the queue; a command whose words straddle TAIL waits for the
rest (R348), and one whose condition does not hold waits for that (R349); otherwise its effect. -/
def State.cqRow (s : State) (die : Fin 4) (q op : Nat) (f : State → Cmd → State) : State :=
  let mine (w : W64) : Bool := decide (cwOp w = op) || (decide (op = 0) && !cwKnown (cwOp w))
  match s.cqFront die q with
  | .none => s
  | .wait w => s.await w
  | .part w t => if mine w then t.cqWait die q else s
  | .bad st w t => if mine w then t.cqError die q st w else s
  | .word w ops t =>
    if mine w then
      if cwFormatOk (s.call? die q).isSome w ops then
        (if t.cqHolds die q w then f t (t.cqCmd die q w ops) else t.cqWait die q)
      else t.cqError die q .perm w
    else s

/-! ### Commands (Table 12-3) -/

/-- NOP; and a word whose OP is none of the table's. -/
def execCmdNop (die : Fin 4) (q : Nat) (s : State) : Host.Outcome State Fault Refusal :=
  done s (s.cqRow die q 0 fun t c => t.cmdNow c .ok)

/-- Tiles that a LAUNCH masks, by die-local index. -/
def launchTiles (c : Cmd) : List Nat := (List.range 96).filter (nbit ((c.opnd 3).toNat + fld (c.opnd 4) 31 0 * 2 ^ 64))
/-- Whether a die-local tile is retired (Table 15-23). -/
def State.tileRetired (s : State) (die : Fin 4) (i : Nat) : Bool :=
  (s.reg (.cd die) .fltTileRetire (i / 64)).getLsbD (i % 64)

/-- LAUNCH (R351, R352): the launch takes the die's next sequence number, and its blocks are placed as room appears. -/
def execLaunch (die : Fin 4) (q : Nat) (s : State) : Host.Outcome State Fault Refusal :=
  done s (s.cqRow die q 1 fun t c =>
    let tiles := launchTiles c
    if tiles.any (t.tileRetired die) then t.cqError die q .unav c.word
    else if !fitsWith [] c.word || decide (lwRegs c.word < 16) || tiles.isEmpty ||
        tiles.any (fun i => decide (8 * t.nTiles die.val ≤ i)) then t.cqError die q .perm c.word
    else
      let seq := (aGet t.nextLaunch 0 die.val).toNat
      let l : Launch := ⟨die, q, c.head, seq, c.ctx, c.pl, c.word, c.ops, tiles, [], .ok⟩
      { t with
        launches := t.launches ++ [l]
        nextLaunch := aSet t.nextLaunch die.val (BitVec.ofNat 32 (seq + 1)) }.cmdBegin { c with info := seq })

/-- CMD_DMA: the chain is handed to its channel once that is IDLE; a channel of another context refuses it. -/
def execCmdDma (die : Fin 4) (q : Nat) (s : State) : Host.Outcome State Fault Refusal :=
  done s (s.cqRow die q 3 fun t c =>
    let d := Die.cd die
    let ch := fld c.word 4 0
    let x := t.reg d .dmaCtx ch
    let refuse (st : Status) : State := (t.cmdRun c).cmdFin die c.id st 0 0
    if t.dmaSt d ch = 6 then refuse .unav
    else if !x.getLsbD 12 || decide (fld x 11 0 ≠ c.ctx) then refuse .perm
    else
      let va := (c.opnd 0).toNat / 64 * 64
      ((t.cmdRun c).setReg d .dmaChain ch (BitVec.ofNat 64 (va % 2 ^ 57))).dmaStart d ch va (some c.id) q)

/-- Operations of a Burr program as read. -/
def opsList : Nat → List Byte → List Nat
  | 0, _ => []
  | n + 1, l => leNat (l.take 32) :: opsList n (l.drop 32)

/-- CMD_BURR (R218): the program is read and checked, its operations too; then it waits to be delivered. A disabled or retired
Burr that the mask selects comes first in R20's order. -/
def execCmdBurr (die : Fin 4) (q : Nat) (s : State) : Host.Outcome State Fault Refusal :=
  done s (s.cqRow die q 4 fun t c =>
    let va := (c.opnd 0).toNat
    let mask := (c.opnd 1).toNat
    let gone := if (burrsOf die mask).any (fun b => t.burGone b) then Status.unav else .ok
    let refuse (u : State) (st : Status) (tag : Nat) : State :=
      (u.cmdRun c).cmdFin die c.id (Status.first gone st) 0 (BitVec.ofNat 64 tag)
    if mask = 0 ∨ va % 64 ≠ 0 then refuse t .perm 0
    else
      match t.vaSpan (.cp die) c.ctx c.pl va 64 with
      | .error w => t.await w
      | .ok (.ok, l, u) =>
        let h := leNat l
        if gone = .unav then refuse u .unav (bhTag h)
        else if !u.burrHeaderOk die h then refuse u .perm (bhTag h)
        else
          (match u.vaSpan (.cp die) c.ctx c.pl (va + 64) (32 * bhNops h) with
            | .error w => t.await w
            | .ok (.ok, m, v) =>
              let ops := opsList (bhNops h) m
              if !burrOpsOk h ops then refuse v .perm (bhTag h)
              else
                let b : BLaunch := ⟨c.id, die, c.ctx, c.pl, h, ops, mask, mask, 0, .ok, false⟩
                { v with blaunches := v.blaunches ++ [b] }.cmdBegin c
            | .ok (e, _, v) => refuse v e (bhTag h))
      | .ok (e, _, u) => refuse u e 0)

/-- FEED (R222). -/
def execFeed (die : Fin 4) (q : Nat) (s : State) : Host.Outcome State Fault Refusal :=
  done s (s.cqRow die q 5 fun t c =>
    let off := fld c.word 47 32
    let len := fld c.word 31 16
    let mask := (c.opnd 1).toNat
    let refuse (st : Status) : State := (t.cmdRun c).cmdFin die c.id st 0 0
    if (burrsOf die mask).any (fun b => t.burGone b) then refuse .unav
    else if mask = 0 ∨ len < 4 ∨ 49152 < len ∨ len % 4 ≠ 0 ∨ off % 4 ≠ 0 ∨ 65536 < off + len then refuse .perm
    else
      let f : Feed := ⟨c.id, die, c.ctx, c.pl, c.opnd 0, off, len, c.opnd 2, mask, .ok⟩
      { t with feeds := t.feeds ++ [f] }.cmdRun c)

/-- CMD_SAMPLE (R238): the descriptor waits to be delivered. -/
def execCmdSample (die : Fin 4) (q : Nat) (s : State) : Host.Outcome State Fault Refusal :=
  done s (s.cqRow die q 6 fun t c => t.cmdBegin c)

/-- WAITC. -/
def execWaitc (die : Fin 4) (q : Nat) (s : State) : Host.Outcome State Fault Refusal :=
  done s (s.cqRow die q 7 fun t c =>
    t.cmdNow c .ok)

/-- WAITM: the wait begins. -/
def execWaitm (die : Fin 4) (q : Nat) (s : State) : Host.Outcome State Fault Refusal :=
  done s (s.cqRow die q 8 fun t c => t.cmdBegin c)

/-- The WAITM that a queue waits in. -/
def State.waitm (s : State) (die : Fin 4) (q : Nat) : Option Cmd :=
  if !s.running (.cd die) true || decide (2 < s.cqSt die q) || s.prodHeld (.cd die) 0 then none
  else
    s.cmds.find? fun c => decide (c.die = die) && decide (c.queue = q) && decide (cwOp c.word = 8) && !c.started
/-- A command that waited starts and completes. -/
def State.cmdOver (s : State) (c : Cmd) (st : Status) : State :=
  ((s.cmdStart c).completeCmd { c with started := true } st).cqSettle c.die c.queue

/-- One read of the word of a WAITM: whether its condition holds. -/
def State.waitmRead (s : State) (c : Cmd) : Except Wait (Status × Bool × State) :=
  match s.vaSpan (.cp c.die) c.ctx c.pl (c.opnd 0).toNat 8 with
  | .error w => .error w
  | .ok (.ok, l, t) =>
    let m := leNat l
    let v := (c.opnd 1).toNat
    .ok (.ok, (match fld c.word 1 0 with | 0 => decide (m = v) | 1 => decide (m ≠ v) | _ => decide (v ≤ m)), t)
  | .ok (e, _, t) => .ok (e, true, t)

/-- WAITM_POLL. -/
def execWaitmPoll (die : Fin 4) (q : Nat) (s : State) : Host.Outcome State Fault Refusal :=
  done s (match s.waitm die q with
    | none => s
    | some c =>
      match s.waitmRead c with
      | .error w => s.await w
      | .ok (st, hit, t) => if hit then t.cmdOver c st else t)

/-- WAITM_TIMEOUT (R352): the limit of a WAITM that has one passes; a condition that holds at that read is accepted. -/
def execWaitmTimeout (die : Fin 4) (q : Nat) (s : State) : Host.Outcome State Fault Refusal :=
  done s (match s.waitm die q with
    | none => s
    | some c =>
      if fld c.word 31 16 = 0 then s
      else
        match s.waitmRead c with
        | .error w => s.await w
        | .ok (st, hit, t) => t.cmdOver c (if hit then st else .tout))

/-- CMD_WRITE. -/
def execCmdWrite (die : Fin 4) (q : Nat) (s : State) : Host.Outcome State Fault Refusal :=
  done s (s.cqRow die q 9 fun t c =>
    match t.vaPut (.cp die) c.ctx c.pl (c.opnd 0).toNat (leBytes 8 (c.opnd 1).toNat) with
    | .error w => t.await w
    | .ok (st, u) => u.cmdNow c st)

/-- CMD_TIME. -/
def execCmdTime (die : Fin 4) (q : Nat) (s : State) : Host.Outcome State Fault Refusal :=
  done s (s.cqRow die q 10 fun t c =>
    match t.vaPut (.cp die) c.ctx c.pl (c.opnd 0).toNat (leBytes 8 t.now.toNat) with
    | .error w => t.await w
    | .ok (st, u) => u.cmdNow c st)

/-- CMD_FENCE. -/
def execCmdFence (die : Fin 4) (q : Nat) (s : State) : Host.Outcome State Fault Refusal :=
  done s (s.cqRow die q 11 fun t c => t.cmdNow c .ok)

/-- EVENT: a SOFT event with the value as TAG. -/
def execEvent (die : Fin 4) (q : Nat) (s : State) : Host.Outcome State Fault Refusal :=
  done s (s.cqRow die q 12 fun t c =>
    (t.post (.cd die) 0 (t.cqEq die q)
      (eventBytes 10 .ok c.ctx (0x4000 + die.val) q (BitVec.ofNat 64 (fld c.word 47 0)) t.now [])).cmdNow c .ok)

/-- CMD_XLT_INV: an invalidation with the rights of the queue's level; while the hub is busy it is tried again. -/
def execCmdXltInv (die : Fin 4) (q : Nat) (s : State) : Host.Outcome State Fault Refusal :=
  done s (s.cqRow die q 13 fun t c =>
    let scope := fld c.word 13 12
    let gid := fld c.word 23 16
    let ctx := fld c.word 11 0
    if !t.running .hub false then (t.cmdRun c).cmdFin die c.id .unav 0 0
    else if !t.invRight c.pl c.ctx scope ctx gid then (t.cmdRun c).cmdFin die c.id .perm 0 0
    else
      (t.invStart ⟨16, 2, ctx, 0, scope, gid, c.opnd 0, die.val, c.id, true, []⟩).cmdRun c)

/-- CMD_CALL: the words of the buffer come next. -/
def execCmdCall (die : Fin 4) (q : Nat) (s : State) : Host.Outcome State Fault Refusal :=
  done s (s.cqRow die q 14 fun t c =>
    ({ t with
      nextCmd := t.nextCmd + 1
      calls := aSet t.calls (die.val, q) ⟨{ c with started := true }, (c.opnd 0).toNat, fld c.word 19 0, 0⟩ }.cqServed die q).cqSettle
      die q)

/-- A SAMPLE that ends with no unit holding it, as KILL ends one (R350, R357): SAMPLE_DONE is the command processor's, with the TAG of the
descriptor where it has been read (DESIGN CHOICE, log 130). -/
def State.sampleOver (s : State) (c : Cmd) (st : Status) : State :=
  let t := s.completeCmd c st
  if cwE c.word then
    t.post (.cd c.die) 0 (t.cqEq c.die c.queue)
      (eventBytes 3 st c.ctx (0x4000 + c.die.val) c.queue (BitVec.ofNat 64 (match c.back with | some b => sdTag b.1 | none => 0)) t.now
        (smpFail st).bytes)
  else t

/-- COMMAND_COMPLETE (R350, R351): an asynchronous command that has its final status completes; a LAUNCH when its blocks
have all ended or halted. -/
def execCommandComplete (die : Fin 4) (id : Nat) (s : State) : Host.Outcome State Fault Refusal :=
  done s (match s.cmd? die id with
    | none => s
    | some c =>
      if !s.running (.cd die) true || s.prodHeld (.cd die) 0 || !c.started then s
      else
        match c.fin with
        | some st => (if cwOp c.word = 6 then s.sampleOver c st else s.completeCmd c st).cqSettle die c.queue
        | none =>
          if cwOp c.word ≠ 1 then s
          else
            match s.launches.find? (fun l => decide (l.die = die) && decide (l.seq = c.info)) with
            | none => s
            | some l =>
              if l.todo = [] ∧ l.live = [] then
                ({ s with launches := s.launches.filter fun x => decide (¬ (x.die = die ∧ x.seq = c.info)) }.completeCmd c
                  l.st).cqSettle die c.queue
              else s)

/-! ### Event queues (R354, R355, R359) -/

/-- EVENT_PUSH_RETRY (R355). -/
def execEventPushRetry (d : Die) (prod : Nat) (s : State) : Host.Outcome State Fault Refusal :=
  done s (if s.ctlUp d true then s.retryProd d prod else s)

def State.eqRefused (s : State) (d : Die) (q : Nat) : State := s.setRf d .eqStatus q 40 40 1

/-- Entries removed (R355): a removal of more than are held removes nothing. -/
def State.eqPop (s : State) (d : Die) (q n : Nat) : State :=
  let depth := s.rf d .eqStatus q 8 0
  if n = 0 then s
  else if depth < n then s.eqRefused d q
  else
    let t := (s.setRf d .eqStatus q 8 0 (depth - n)).setRf d .eqStatus q 23 16 ((s.rf d .eqStatus q 23 16 + n) % 256)
    if depth - n = 0 then t else t.eqInterrupt d q

/-- Held producers of a queue in their fixed order (R355), the hub's Millrace queues last (log 129). -/
def State.retryQueue (s : State) (d : Die) (q : Nat) : State := s.retryBelow d q 192

/-- A software push (R355): refused where the queue is not enabled or full. -/
def State.eqSoft (s : State) (w : Wr) (q : Nat) : Except Wait State :=
  let t := s.retryQueue w.die q
  let st := t.rf w.die .eqStatus q 34 32
  if st = 0 ∨ (st = 1 ∧ 256 ≤ t.rf w.die .eqStatus q 8 0) then .ok (t.eqRefused w.die q)
  else
    match t.eqTry w.die q (eventBytes 10 .ok w.ctx 0x6000 0xFF (BitVec.ofNat 64 (fld w.val 63 32)) t.now []) with
    | .ok r => .ok r.2
    | .error e => .error e

/-- A write of EQ_OP. -/
def State.eqOpWrite (s : State) (w : Wr) (c : Instr) (f : State → Nat → Except Wait State) : State :=
  let s := s.touch w.die .eqOp
  match s.gate w.die .eqOp w.pl w.ctx with
  | .ok =>
    (match f s (s.selUnit w.die w.pl .eq) with
      | .ok t => t.answer .ok 0
      | .error e => s.await e)
  | e => s.answerTo c e 0

/-- EQ_POP: a write of EQ_OP with POP, and after it the PUSH that the same write may ask for (R339). -/
def State.eqPopWrite (s : State) (w : Wr) : State :=
  if fld w.val 8 0 = 0 ∧ w.val.getLsbD 9 = true then s
    else s.eqOpWrite w (.eqPop w) fun t q =>
      let u := t.eqPop w.die q (fld w.val 8 0)
      if w.val.getLsbD 9 then u.eqSoft w q else .ok u
/-- EQ_POP (R339). -/
def execEqPop (w : Wr) (s : State) : Host.Outcome State Fault Refusal := done s (s.eqPopWrite w)

/-- EQ_PUSH: a write of EQ_OP with PUSH alone. -/
def State.eqPushWrite (s : State) (w : Wr) : State :=
  if fld w.val 8 0 ≠ 0 ∨ w.val.getLsbD 9 = false then s else s.eqOpWrite w (.eqPush w) fun t q => t.eqSoft w q
/-- EQ_PUSH. -/
def execEqPush (w : Wr) (s : State) : Host.Outcome State Fault Refusal := done s (s.eqPushWrite w)

/-- EQ_ENABLE (R354): a write of EQ_CFG that sets EN. -/
def State.eqOn (s : State) (w : Wr) : State :=
  let s := s.touch w.die .eqCfg
  match s.gate w.die .eqCfg w.pl w.ctx with
    | .ok =>
      let q := s.selUnit w.die w.pl .eq
      if s.rf w.die .eqCfg q 12 12 = 1 ∨ w.val.getLsbD 12 = false then s
      else
        match s.ctlStore w.die .eqCfg 0 w.pl w.ctx w.val with
        | (.ok, t) =>
          ((((t.setRf w.die .eqStatus q 63 48 0).setRf w.die .eqStatus q 34 32 1).setRf w.die .eqStatus q 23 16 0).setRf
            w.die .eqStatus q 8 0 0).answer .ok 0
        | (e, t) => t.answer e 0
    | e => s.answerTo (.eqEnable w) e 0
/-- EQ_ENABLE (R354). -/
def execEqEnable (w : Wr) (s : State) : Host.Outcome State Fault Refusal := done s (s.eqOn w)

/-- EQ_DISABLE (R359): a write of EQ_CFG that clears EN. -/
def State.eqOff (s : State) (w : Wr) : State :=
  let s := s.touch w.die .eqCfg
  match s.gate w.die .eqCfg w.pl w.ctx with
    | .ok =>
      let q := s.selUnit w.die w.pl .eq
      if s.rf w.die .eqCfg q 12 12 = 0 ∨ w.val.getLsbD 12 = true then s
      else
        match s.ctlStore w.die .eqCfg 0 w.pl w.ctx w.val with
        | (.ok, t) =>
          if s.rf w.die .eqStatus q 8 0 ≠ 0 ∨ s.heldEv.any (fun h => decide (h.die = w.die) && decide (h.queue = q)) = true then
            s.answer .busy 0
          else (t.setRf w.die .eqStatus q 34 32 0).answer .ok 0
        | (e, t) => t.answer e 0
    | e => s.answerTo (.eqDisable w) e 0
/-- EQ_DISABLE (R359). -/
def execEqDisable (w : Wr) (s : State) : Host.Outcome State Fault Refusal := done s (s.eqOff w)

end Sys2Proof.Machine
end

