-- ==== Sys2Proof/Machine/Preempt.lean ====
section
/-!
DEFINITION. Pre-emption (R147, R169, R199, R230, R231, R253, R356-R358): the operations of CQ_PREEMPT, the block image of
Table 12-9 with its Millstone and vector-engine regions, and the Burr image.
-/

namespace Sys2Proof.Machine
open Sys2Proof

/-! ### Block images (Tables 12-9, 5-5, 5-6, 6-8, 6-9) -/

/-- A list of numbers as little-endian fields of `n` bytes. -/
def packLe (n : Nat) (l : List Nat) : List Byte := l.flatMap (leBytes n)
/-- Field `i` of `n` bytes in a byte string. -/
def byteField (l : List Byte) (off n : Nat) : Nat := leNat ((l.drop off).take n)

/-- The 576-byte tail of an engine region: unfinished descriptors, the progress word, zeros. -/
def descRegion (l : List Desc) (n : Nat) : List Byte :=
  let u := l.take 8
  let prog := match u with | d :: _ => d.prog | [] => 0
  let word := if u.isEmpty then 0 else n * 2 ^ 32 + prog * 2 ^ 16 + u.length
  (u.flatMap fun d => leBytes 64 d.words) ++ List.replicate (512 - 64 * u.length) 0 ++ leBytes 8 word ++ List.replicate 504 0

/-- The Millstone region. -/
def mxRegion (b : Block) (l : List Desc) : List Byte :=
  packLe 4 ((List.range 16384).map fun e => aGet b.acc 0 (e / 4096, e % 4096)) ++ descRegion l b.accN
/-- The vector-engine region. -/
def vxRegion (b : Block) (l : List Desc) : List Byte :=
  packLe 4 ((List.range 16384).map fun e => (aGet b.bufs 0 (e / 4096, e % 4096)).toNat) ++ descRegion l b.vxN ++
    packLe 8 (b.lanegen.map fun g => g.toNat)

/-- The WAITK that a group stands at: its counter and value. -/
def waitkOf (x : Tile) (b : Block) (g : Group) : Nat × Nat :=
  match g.pc? with
  | none => (0, 0)
  | some pc =>
    match x.word? b.ctx pc with
    | none => (0, 0)
    | some w =>
      if tdecode w = some .waitk then
        (wf w 50 48, if wb w 47 then (g.ru (wA w)).toNat % 2 ^ 32 else wf w 23 8)
      else (0, 0)

/-- The record of a group. -/
def groupRec (x : Tile) (b : Block) (g : Group) : List Byte :=
  let k := waitkOf x b g
  let lane (i : Nat) : Option Lane := g.lanes[i]?
  packLe 8 ((List.range 64).map fun i => (g.ru i).toNat) ++
    packLe 1 ((List.range 64).map fun i => match lane i with | some l => l.p % 256 | none => 0) ++
    leBytes 8 (maskOf ((List.range 64).filter fun i => match lane i with | some l => l.exited | none => false)) ++
    leBytes 1 g.arrived ++ leBytes 1 k.1 ++ leBytes 2 0 ++ leBytes 4 k.2 ++
    leBytes 48 ((withIdx g.lanes).foldl (fun a e => a + e.2.atBar % 64 * 2 ^ (6 * e.1)) 0)

/-- The pieces of a block's image, each with its offset; areas that the block does not use have none. -/
def imagePieces (x : Tile) (b : Block) (mx vx : List Desc) : List (Nat × List Byte) :=
  let a := allocOf b.nregs
  let lanes := b.groups.flatMap fun g => g.lanes
  let hdr := leBytes 2 0x100 ++ leBytes 2 b.ctx ++ leBytes 4 (bidDie b.bid) ++ leBytes 4 (bidSeq b.bid) ++ leBytes 4 0 ++
    packLe 8 (b.words.map fun w => w.toNat) ++ packLe 4 (b.k.map fun w => w.toNat) ++ leBytes 4 a ++ leBytes 4 b.size
  [(0, hdr ++ List.replicate (4096 - hdr.length) 0)] ++
    (if b.accN = 0 ∧ mx = [] then [] else [(0x1000, mxRegion b mx)]) ++
    (if b.vxN = 0 ∧ b.vxUsed = false then [] else [(0x12000, vxRegion b vx)]) ++
    [(0x23000, lanes.flatMap fun l => leBytes 8 l.pc.toNat ++ leBytes 8 l.gen.toNat),
      (0x2B000, b.groups.flatMap (groupRec x b)),
      (0x35000, packLe 4 (lanes.flatMap fun l => (List.range a).map fun k => (aGet l.v 0 k).toNat))] ++
    (if b.size = 0 then [] else [(0x75000, (List.range b.size).map fun i => aGet b.lmem 0 i)])

/-- Pieces written one after another, stopping at the first status that is not OK. -/
def State.putPieces (s : State) (who : XReq) (ctx pl va : Nat) : List (Nat × List Byte) → Except Wait (Status × State)
  | [] => .ok (.ok, s)
  | p :: r =>
    match s.vaPut who ctx pl (va + p.1) p.2 with
    | .ok (.ok, t) => t.putPieces who ctx pl va r
    | x => x

/-- The level of the accesses to images: that of the context named, at most PL1. -/
def State.imgLevel (s : State) (n : Fin 4) (ctx : Nat) : Nat := s.eqLevel (.cd n) ctx

/-! ### Operations in progress -/

def State.pre? (s : State) (n : Fin 4) : Option PreOp := aFind s.preOps n.val
def State.setPre (s : State) (n : Fin 4) (o : PreOp) : State := { s with preOps := aSet s.preOps n.val o }

/-- The end of an operation: STATUS, the counts of a PREEMPT, BUSY, and the PREEMPT event. -/
def State.preEnd (s : State) (n : Fin 4) (o : PreOp) : State :=
  let d := Die.cd n
  let t := { s with preOps := aErase s.preOps n.val }
  let t := if o.op = 1 then (t.setRf d .cqPreempt 0 45 37 o.saved).setRf d .cqPreempt 0 36 28 o.retained else t
  let t := (t.setRf d .cqPreempt 0 59 56 o.st.code).setRf d .cqPreempt 0 63 63 0
  t.post d 0 (t.rf d .cqPreempt 0 51 46)
    (eventBytes 9 o.st o.ctx (0x4000 + n.val) 0xFF (BitVec.ofNat 64 o.op) t.now
      (natBytes 2 (t.rf d .cqPreempt 0 45 37) ++ natBytes 2 (t.rf d .cqPreempt 0 36 28)))

/-- The channels of a die that carry a context. -/
def State.chansOf (s : State) (n : Fin 4) (ctx : Nat) : List Nat :=
  (List.range 32).filter fun ch => decide (s.rf (.cd n) .dmaCtx ch 12 12 = 1) && decide (s.dmaCtxId (.cd n) ch = ctx)
/-- Whether a channel of the context still runs. -/
def State.chanRuns (s : State) (n : Fin 4) (ctx : Nat) : Bool :=
  (s.chansOf n ctx).any fun ch => decide (s.dmaSt (.cd n) ch = 1)

/-- The blocks of a context on a die, by ascending die-local tile, then launch sequence number: tile and block. -/
def State.blocksOn (s : State) (n : Fin 4) (ctx : Nat) : List (Nat × Block) :=
  let k := s.nTiles n.val
  (List.range (8 * k)).flatMap fun i =>
    let tl := 16 * (i / k) + i % k
    let bs := (s.tile ⟨n, tl⟩).blocks.filter fun b => decide (b.ctx = ctx)
    (bs.mergeSort fun a b => decide (bidSeq a.bid ≤ bidSeq b.bid)).map fun b => (tl, b)

/-! ### Restoring (R171, R201, R357) -/

/-- The descriptors of an engine region, with what the model remembers of their issue. Where it remembers nothing (Table 5-5 has no
place for it; log 53), a descriptor counts as issued by group 0 with no lane active and address 0, its issue order being that of the
region, and its counter is free. -/
def restoreDescs (l : List Byte) (bid : Nat) (known : List Desc) : List Desc :=
  let word := byteField l 512 8
  let prog := word / 2 ^ 16 % 2 ^ 10
  (List.range (min 8 (word % 16))).map fun i =>
    let w := byteField l (64 * i) 64
    let p := if i = 0 then prog else 0
    match known[i]? with
    | some d => { d with words := w, prog := p, checked := decide (0 < p) }
    | none => ⟨i, bid, 0, 0, 0, 0, (Config.freeWord i).toNat % 8, w, p, decide (0 < p), none, [], 0⟩

/-- A group from its record, its threads' words and its threads' registers. -/
def restoreGroup (W a : Nat) (g : Nat) (slot issued : Nat) (thr rec regs : List Byte) : Group :=
  let waits := byteField rec 592 48
  let mask := byteField rec 576 8
  let arr := byteField rec 584 1
  ⟨slot, (List.range W).map fun i =>
      let t := g * W + i
      let w := waits / 2 ^ (6 * i) % 64
      ⟨BitVec.ofNat 64 (byteField thr (16 * t) 8), nbit mask i, if w = 0 ∧ arr = 64 then 64 else w,
        (List.range a).map fun k => (k, BitVec.ofNat 32 (byteField regs (4 * (a * t + k)) 4)),
        byteField rec (512 + i) 1, BitVec.ofNat 64 (byteField thr (16 * t + 8) 8)⟩,
    (List.range 64).map fun i => (i, BitVec.ofNat 64 (byteField rec (8 * i) 8)), arr, issued⟩

/-- What an attempt to load an image comes to: it waits for room, or for an access, or is over. -/
inductive LoadRes where
  | room
  | wait (w : Wait)
  | done (st : Status) (s : State)
deriving DecidableEq, Repr

/-- Areas of an image read by the tile, each an offset and a length, stopping at the first status that is not OK. -/
def State.imgReads (s : State) (t : TileRef) (ctx va : Nat) : List (Nat × Nat) → Except Wait (Status × List (List Byte) × State)
  | [] => .ok (.ok, [], s)
  | p :: r =>
    match (if p.2 = 0 then .ok (.ok, [], s) else s.vaSpan (.tile t) ctx (s.imgLevel t.die ctx) (va + p.1) p.2) with
    | .error w => .error w
    | .ok (.ok, l, u) =>
      (match u.imgReads t ctx va r with
        | .ok (st, ls, v) => .ok (st, l :: ls, v)
        | .error w => .error w)
    | .ok (e, _, u) => .ok (e, [], u)

/-- The record beside an image: that of its frame, or the last one of its block. -/
def State.imgSide (s : State) (t : TileRef) (o : PreOp) (va bid : Nat) : Option PreSide :=
  let pa := match s.xlate (.tile t) o.sctx (s.imgLevel t.die o.sctx) 0 va with | .ok (.ok pa _, _) => pa | _ => 0
  match s.preSides.find? (fun p => decide (p.pa = pa) && decide (p.bid = bid) && decide (p.ctx = o.ctx)) with
  | some p => some p
  | none => s.preSides.find? fun p => decide (p.bid = bid) && decide (p.ctx = o.ctx)
/-- Whether a block stands on some tile of a die (R357). -/
def State.blockOn (s : State) (n : Fin 4) (bid : Nat) : Bool :=
  s.tiles.any fun e => decide (e.1.die = n) && (e.2.block? bid).isSome

/-- A restored block, from its header and its areas. -/
def restoreBlock (b0 : Block) (h : List Byte) (bid : Nat) (side : Option PreSide) (mxIn vxIn : Bool)
    (mxr vxr thr grs regs lm : List Byte) : Block :=
  let gi (g : Nat) : Nat := match side with | some p => p.gissued[g]?.getD 0 | none => 0
  let a := allocOf b0.nregs
  { b0 with
    bid := bid
    k := (List.range 8).map fun i => BitVec.ofNat 32 (byteField h (0x40 + 4 * i) 4)
    groups := (withIdx b0.groups).map fun e => restoreGroup b0.width a e.1 e.2.slot (gi e.1) thr (grs.drop (640 * e.1)) regs
    acc := if mxIn then (List.range (4096 * b0.accN)).map fun e => ((e / 4096, e % 4096), byteField mxr (4 * e) 4) else []
    bufs := if vxIn then
      (List.range (4096 * b0.vxN)).map fun e => ((e / 4096, e % 4096), BitVec.ofNat 32 (byteField vxr (4 * e) 4)) else []
    lanegen := if vxIn then (List.range 128).map fun i => BitVec.ofNat 64 (byteField vxr (0x10400 + 8 * i) 8)
      else (match side with | some p => p.lanegen | none => b0.lanegen)
    lmem := withIdx lm
    issued := match side with | some p => p.issued | none => 16
    vxUsed := vxIn }

/-- An image loaded into a tile, where it is not TAKEN and there is room: TAKEN is set and the block runs. -/
def State.imgLoad (s : State) (t : TileRef) (o : PreOp) (va : Nat) (evenTaken : Bool) : LoadRes :=
  match s.imgReads t o.sctx va [(0, 0x68)] with
  | .error w => .wait w
  | .ok (.ok, hs, s1) =>
    let h := hs.headD []
    let word (i : Nat) : W64 := BitVec.ofNat 64 (byteField h (0x10 + 8 * i) 8)
    let w := word 0
    let bid := mkBid (byteField h 4 4 % 4) (byteField h 8 4)
    let x := s1.tile t
    let side := s1.imgSide t o va bid
    if byteField h 0 2 ≠ 0x100 ∨ byteField h 2 2 ≠ o.ctx then .done .perm s1
    else if byteField h 12 4 ≠ 0 ∧ evenTaken = false then .done .ok s1
    else if s1.blockOn t.die bid then .done .perm s1
    else if s1.tileShut t then .done .unav s1
    else if !fitsWith x.blocks w then .room
    else
      let threads := lwWidth w * lwGroups w
      let l : Launch := ⟨cdOf (bidDie bid), 0, 0, bidSeq bid, o.ctx,
        (match s1.launches.find? (fun y => decide (y.die.val = bidDie bid) && decide (y.seq = bidSeq bid)), side with
          | some y, _ => y.pl
          | none, some p => p.pl
          | none, none => 3), w, (upFrom 1 5).map word, [], [], .ok⟩
      let b0 := newBlock l (s1.tileIndex t) x.slots
      let mxIn := decide (lwAcc w ≠ 0) || (match side with | some p => !p.mx.isEmpty | none => false)
      let vxIn := decide (lwVx w ≠ 0) || (match side with | some p => p.vxUsed | none => false)
      match s1.imgReads t o.sctx va
          [(0x1000, if mxIn then 0x10400 else 0), (0x12000, if vxIn then 0x10800 else 0), (0x23000, 16 * threads),
            (0x2B000, 640 * lwGroups w), (0x35000, 4 * allocOf (lwRegs w) * threads), (0x75000, lwSize w)] with
      | .error w => .wait w
      | .ok (.ok, ls, s2) =>
        let area (i : Nat) : List Byte := ls[i]?.getD []
        let b := restoreBlock b0 h bid side mxIn vxIn (area 0) (area 1) (area 2) (area 3) (area 4) (area 5)
        let mx := if mxIn then restoreDescs ((area 0).drop 0x10000) bid (match side with | some p => p.mx | none => []) else []
        let vx0 := if vxIn then restoreDescs ((area 1).drop 0x10000) bid (match side with | some p => p.vx | none => []) else []
        let vx := if side.isSome then vx0
          else vx0.map fun d => { d with vec := vxVector b d.words, odd := oddLanes b d.words d.prog }
        if 8 < (x.queued x.mx).length + mx.length ∨ 8 < (x.queued x.vx).length + vx.length then .room
        else
          (match s2.vaPut (.tile t) o.sctx (s2.imgLevel t.die o.sctx) (va + 12) (leBytes 4 1) with
            | .error w => .wait w
            | .ok (.ok, s5) =>
              let y := s5.tile t
              let s6 := s5.setTile t { y with blocks := y.blocks ++ [b], icache := [], mx := y.mx ++ mx, vx := y.vx ++ vx }
              let away : List (Nat × Nat) := match side with | some p => [(p.home.die.val, p.home.tile)] | none => []
              let s7 : State := { s6 with
                preSides := s6.preSides.filter fun p => decide (some p ≠ side)
                launches := s6.launches.map fun l =>
                  if l.die.val = bidDie bid ∧ l.seq = bidSeq bid then
                    { l with live := (l.live.filter fun e => decide (¬ away.contains e)) ++ [(t.die.val, t.tile)] }
                  else l }
              .done .ok ((s7.newWork (.cd t.die) 1).openBarrier t bid)
            | .ok (e, s5) => .done e s5)
      | .ok (e, _, s2) => .done e s2
  | .ok (e, _, s1) => .done e s1

/-- The images of an operation loaded as far as they can be now. -/
def State.loadAll (s : State) (n : Fin 4) (o : PreOp) : List (Nat × Nat × Nat) → State × PreOp
  | [] => (s, { o with todo := [] })
  | e :: r =>
    match s.imgLoad ⟨n, e.1⟩ o e.2.1 (decide (e.2.2 = 1)) with
    | .done st t => t.loadAll n { o with st := Status.first o.st st } r
    | .room => let x := s.loadAll n o r; (x.1, { x.2 with todo := e :: x.2.todo })
    | .wait w => let x := (s.await w).loadAll n o r; (x.1, { x.2 with todo := e :: x.2.todo })

/-- Whether work of a context that runs to completion, or a pause that waits for a feed, is still under way on a die (R230, R253,
Table 12-8). -/
def State.ctxBusy (s : State) (n : Fin 4) (ctx : Nat) : Bool :=
  s.chanRuns n ctx || s.feeds.any (fun f => decide (f.die = n) && decide (f.ctx = ctx)) ||
    ((List.range 64).any fun i => let u := s.burr ⟨n, i⟩
      u.pausing && (match u.run with | some p => decide (p.ctx = ctx) | none => false)) ||
    ([0, 1, 2, 3].any fun i => match (s.smp ⟨n, i⟩).run with | some j => decide (j.ctx = ctx) | none => false) ||
    (match s.hubCmd with
      | some h => decide (h.bank = 2 ∧ h.die = n.val) && (match s.cmd? n h.cmd with | some c => decide (c.ctx = ctx) | none => false)
      | none => false)

/-- An operation in progress goes on as far as it can: a PREEMPT or KILL ends once nothing of the context is left to stop, a
RESUME or RESTORE once its images are loaded. -/
def State.preGo (s : State) (n : Fin 4) : State :=
  match s.pre? n with
  | none => s
  | some o =>
    if s.running (.cd n) true = false then s
    else if o.op = 1 then
      let still (e : Nat × Nat × Nat) : Bool :=
        match (s.tile ⟨n, e.1⟩).block? e.2.1 with | some b => decide (b.st = .stopping) | none => false
      let left := o.todo.filter still
      let o1 := { o with todo := left, retained := o.retained + (o.todo.length - left.length) }
      if left = [] ∧ s.ctxBusy n o.ctx = false then s.preEnd n o1 else s.setPre n o1
    else if o.op = 7 then (if s.chanRuns n o.ctx then s else s.preEnd n o)
    else
      let r := s.loadAll n o o.todo
      if r.2.todo = [] then r.1.preEnd n r.2 else r.1.setPre n r.2

/-! ### Operations (R356, R357) -/

/-- A write of CQ_PREEMPT whose OP is `op`: checks, fields, BUSY, and the operation. -/
def State.preWrite (s : State) (w : Wr) (c : Instr) (op : Nat) (f : State → Fin 4 → PreOp → Except Wait State) : State :=
  match w.die with
  | .cd n =>
    if fld w.val 55 52 ≠ op then s
    else
      match (s.touch w.die .cqPreempt).ctlStore w.die .cqPreempt 0 w.pl w.ctx w.val with
      | (.ok, t) =>
        if s.rf w.die .cqPreempt 0 63 63 = 1 then s.answer .busy 0
        else
          let o : PreOp := ⟨op, fld w.val 11 0, fld w.val 23 12, [], 0, 0, .ok⟩
          (match f (t.setRf w.die .cqPreempt 0 63 63 1) n o with
            | .ok u => u.answer .ok 0
            | .error e => s.await e)
      | (e, t) => t.answerTo c e 0
  | _ => s

/-- The context's queues on a die that are in service. -/
def State.queuesOf (s : State) (n : Fin 4) (ctx : Nat) (sts : List Nat) : List Nat :=
  (List.range 64).filter fun q => decide (s.rf (.cd n) .cqCfg q 11 0 = ctx) && sts.contains (s.cqSt n q)
/-- The Burrs of a die. -/
def burrsAll (n : Fin 4) : List BurrRef := (List.range 64).map fun i => ⟨n, i⟩
def smpsAll (n : Fin 4) : List SmpRef := [0, 1, 2, 3].map fun i => ⟨n, i⟩

/-- The context's queues pause; commands that wait to start are forgotten, to be read again, but for a LAUNCH
(Table 12-8). -/
def State.queuesPause (s : State) (n : Fin 4) (ctx : Nat) : State :=
  let qs := s.queuesOf n ctx [0, 1, 2]
  let mine (c : Cmd) : Bool := decide (c.die = n) && qs.contains c.queue && !c.started && decide (cwOp c.word ≠ 1)
  let gone := (s.cmds.filter mine).map fun c => c.id
  let t : State := { s with
    cmds := s.cmds.filter fun c => !mine c
    blaunches := s.blaunches.filter fun l => !(decide (l.die = n) && gone.contains l.id) }
  qs.foldl (fun t q => t.setCqSt n q 3) t

/-- PREEMPT (R356): queues pause, channels, samplers and Burrs stop, and the context's blocks stop and are numbered. -/
def State.preemptWrite (s : State) (w : Wr) : State :=
  s.preWrite w (.preempt w) 1 fun t n o =>
    let t1 := t.queuesPause n o.ctx
    let t2 := (t1.chansOf n o.ctx).foldl (fun x ch => if x.dmaSt (.cd n) ch = 1 then x.dmaAskStop (.cd n) ch 1 else x) t1
    let t3 := (smpsAll n).foldl (fun x u => x.smpPause o.ctx u) t2
    let t4 := (burrsAll n).foldl (fun x b => x.burrPause o.ctx b) t3
    let bs := (t4.blocksOn n o.ctx).filter fun e => decide (e.2.st ≠ .halted)
    let t5 := bs.foldl (fun x e => x.setBlock ⟨n, e.1⟩ { e.2 with st := .stopping }) t4
    let t6 : State := { t5 with
      preempted := if t5.preempted.contains (n.val, o.ctx) then t5.preempted else t5.preempted ++ [(n.val, o.ctx)]
      preImgs := t5.preImgs.filter fun p => decide (¬ (p.die = n ∧ p.ctx = o.ctx)) }
    .ok ((t6.setPre n { o with todo := (withIdx bs).map fun e => (e.2.1, e.2.2.bid, e.1) }).preGo n)
/-- PREEMPT (R356). -/
def execPreempt (w : Wr) (s : State) : Host.Outcome State Fault Refusal := done s (s.preemptWrite w)

/-- Whether a stopping block has stopped: nothing that runs to completion is left (R147, R169, R199). -/
def Tile.stopped (x : Tile) (bid : Nat) : Bool :=
  (x.opsOf bid).isEmpty && x.wb.isEmpty && !(x.mx ++ x.vx).any fun d => decide (d.bid = bid) && d.fin.isSome

/-- BLOCK_IMAGE_WRITTEN (R356): the image of a stopped block is performed and its tile frees the block, or a failed write
leaves it retained. -/
def execBlockImageWritten (b : BlockRef) (s : State) : Host.Outcome State Fault Refusal :=
  done s (
    let t := b.tileRef
    let x := s.tile t
    match s.pre? t.die, x.block? b.bid with
    | some o, some k =>
      (match o.todo.find? (fun e => decide (e.1 = t.tile) && decide (e.2.1 = b.bid)) with
        | none => s
        | some e =>
          if decide (o.op ≠ 1) || decide (k.st ≠ .stopping) || !x.stopped b.bid || !s.running (.cd t.die) true then s
          else
            let mine (d : Desc) : Bool := decide (d.bid = b.bid)
            let mx := x.mx.filter mine
            let vx := x.vx.filter mine
            let va := va57 (s.rf (.cd t.die) .cqPreemptArea 0 56 0) + 0x200000 * e.2.2
            let pl := s.imgLevel t.die o.sctx
            (match s.putPieces (.tile t) o.sctx pl va (imagePieces x k mx vx) with
              | .error w => s.await w
              | .ok (.ok, u) =>
                let pa := match u.xlate (.tile t) o.sctx pl 1 va with | .ok (.ok pa _, _) => pa | _ => 0
                let y := u.tile t
                let u1 := u.setTile t { y.dropBlock b.bid with
                  mx := y.mx.filter fun d => !mine d, vx := y.vx.filter fun d => !mine d }
                let side : PreSide := ⟨pa, o.ctx, b.bid, t, k.pl, k.lanegen, k.vxUsed, k.issued, k.groups.map fun g => g.issued, mx, vx⟩
                let u2 : State := { u1 with
                  preImgs := u1.preImgs ++ [⟨t.die, o.ctx, t.tile, va⟩]
                  preSides := (u1.preSides.filter fun p => decide (p.pa ≠ pa)) ++ [side] }
                (u2.setPre t.die { o with todo := o.todo.filter fun z => decide (z ≠ e), saved := o.saved + 1 }).preGo t.die
              | .ok (st, u) =>
                ((u.setBlock t { k with st := .retained }).setPre t.die
                  { o with todo := o.todo.filter fun z => decide (z ≠ e), retained := o.retained + 1,
                           st := Status.first o.st st }).preGo t.die))
    | _, _ => s)

/-- A paused Burr goes on (R230). -/
def State.burrResume (s : State) (ctx : Nat) (b : BurrRef) : State :=
  match (s.burr b).run with
  | some p => if p.ctx = ctx ∧ s.burSt b = 3 then (s.setBurSt b 1).newWork b.cdie 4 else s
  | none => s

/-- RESUME (R357): everything of the context returns to service, and each image of its last PREEMPT here whose TAKEN flag is clear goes
back to its tile; one that fails to load stays to be restored by a later RESUME. -/
def State.resumeWrite (s : State) (w : Wr) : State :=
  s.preWrite w (.preemptResume w) 2 fun t n o =>
    let t1 := { t with preempted := t.preempted.filter fun p => decide (p ≠ (n.val, o.ctx)) }
    let t2 := (t1.queuesOf n o.ctx [3]).foldl (fun x q => (x.setCqSt n q 0).cqSettle n q) t1
    let t3 := (t2.chansOf n o.ctx).foldl (fun x ch => if x.dmaSt (.cd n) ch = 4 then x.dmaGoOn (.cd n) ch else x) t2
    let t4 := (burrsAll n).foldl (fun x b => x.burrResume o.ctx b) t3
    let im := t4.preImgs.filter fun p => decide (p.die = n) && decide (p.ctx = o.ctx)
    .ok ((t4.setPre n { o with todo := im.map fun p => (p.tile, p.va, 0) }).preGo n)
/-- RESUME (R357). -/
def execPreemptResume (w : Wr) (s : State) : Host.Outcome State Fault Refusal := done s (s.resumeWrite w)

/-- RESTORE (R357): one image goes to the tile that CQ_PREEMPT_ARG names. -/
def State.restoreWrite (s : State) (w : Wr) : State :=
  s.preWrite w (.restore w) 3 fun t n o =>
    let i := t.rf w.die .cqPreemptArg 0 22 16
    let k := t.nTiles n.val
    let va := va57 (t.rf w.die .cqPreemptArea 0 56 0) + 0x200000 * t.rf w.die .cqPreemptArg 0 8 0
    if k = 0 ∨ 8 * k ≤ i then .ok (t.preEnd n { o with st := .perm })
    else if t.tileRetired n i then .ok (t.preEnd n { o with st := .unav })
    else .ok ((t.setPre n { o with todo := [(16 * (i / k) + i % k, va, 1)] }).preGo n)
/-- RESTORE (R357). -/
def execRestore (w : Wr) (s : State) : Host.Outcome State Fault Refusal := done s (s.restoreWrite w)

/-- The image of a Burr (R231). -/
def burrImage (u : BurrU) (p : BProg) (st : W64) : List (Nat × List Byte) :=
  [(0, u.get 0 65536),
    (0x10000, leBytes 64 p.hdr ++ p.ops.flatMap (leBytes 32) ++ List.replicate (8192 - 32 * p.ops.length) 0),
    (0x12040, leBytes 8 st.toNat)]

/-- Burrs saved one after another. -/
def State.burrSaves (s : State) (n : Fin 4) (o : PreOp) (base : Nat) : List BurrRef → Status → Except Wait (Status × State)
  | [], st => .ok (st, s)
  | b :: r, st =>
    match (s.burr b).run with
    | some p =>
      if p.ctx ≠ o.ctx ∨ s.burSt b ≠ 3 then s.burrSaves n o base r st
      else
        let va := base + 0x20000 * b.idx
        (match s.putPieces (.cp n) o.sctx (s.imgLevel n o.sctx) va (burrImage (s.burr b) p (s.reg b.cdie .burState b.idx)) with
          | .error w => .error w
          | .ok (.ok, t) =>
            let u := t.burr b
            let t1 := (t.setBurr b { u with run := none, ra := [], snap := [] }).setBurSt b 0
            let t2 : State := { t1 with
              burrImgs := t1.burrImgs ++ [⟨n, o.ctx, b.idx, va, p.home, p.lid, p.pl, p.draining, u.snap⟩] }
            t2.burrSaves n o base r st
          | .ok (e, t) => t.burrSaves n o base r (Status.first st e))
    | none => s.burrSaves n o base r st

/-- BSAVE (R231, R357). -/
def State.bsaveWrite (s : State) (w : Wr) : State :=
  s.preWrite w (.bsave w) 4 fun t n o =>
    let t0 : State := { t with burrImgs := t.burrImgs.filter fun x => decide (¬ (x.die = n ∧ x.ctx = o.ctx)) }
    match t0.burrSaves n o (va57 (t.rf w.die .cqPreemptBarea 0 56 0)) (burrsAll n) .ok with
    | .error e => .error e
    | .ok (st, u) => .ok (u.preEnd n { o with st := st })
/-- BSAVE (R231). -/
def execBsave (w : Wr) (s : State) : Host.Outcome State Fault Refusal := done s (s.bsaveWrite w)

/-- Burr images loaded one after another. -/
def State.burrLoads (s : State) (n : Fin 4) (o : PreOp) (base : Nat) : List BurrImg → Status → Except Wait (Status × State)
  | [], st => .ok (st, s)
  | m :: r, st =>
    let b : BurrRef := ⟨n, m.idx⟩
    match s.vaSpan (.cp n) o.sctx (s.imgLevel n o.sctx) (base + 0x20000 * m.idx) 0x12048 with
    | .error w => .error w
    | .ok (.ok, l, t) =>
      let h := byteField l 0x10000 64
      let v := BitVec.ofNat 64 (byteField l 0x12040 8)
      if bhVer h ≠ 0x100 ∨ fld v 47 36 ≠ o.ctx ∨ t.burSt b ≠ 0 ∨ (t.burr b).run.isSome = true then
        t.burrLoads n o base r (Status.first st .perm)
      else
        let ops := (List.range (bhNops h)).map fun i => byteField l (0x10040 + 32 * i) 32
        let p : BProg := ⟨m.home, m.lid, m.ctx, m.pl, h, ops, m.draining⟩
        let u : BurrU := ⟨withIdx (l.take 65536), some p, (t.burr b).pend, [], m.snap, false⟩
        let keep := t.rf b.cdie .burState b.idx 4 4
        ((((t.setBurr b u).setReg b.cdie .burState b.idx v).setBurSt b 3).setRf b.cdie .burState b.idx 4 4 keep).burrLoads n o base r st
    | .ok (e, _, t) => t.burrLoads n o base r (Status.first st e)

/-- The images that the last BSAVE of a context wrote for a die's area, there or on another die; else those of its last BSAVE anywhere. -/
def State.burrImgsFor (s : State) (n : Fin 4) (ctx base : Nat) : List BurrImg :=
  let all := s.burrImgs.filter fun m => decide (m.ctx = ctx)
  let near := all.filter fun m => decide (m.die = n) || decide (m.va = base + 0x20000 * m.idx)
  let l := if near.isEmpty then all else near
  l.filter fun m => decide (l.find? (fun x => decide (x.idx = m.idx) && (decide (x.die = n) || !l.any fun y => decide (y.idx = m.idx ∧ y.die = n))) = some m)
/-- The Burr images that an area holds in memory, of some Burrs: VERSION 1.0, the context, and a PAUSED Burr (R231, R357). -/
def State.burrScan (s : State) (n : Fin 4) (o : PreOp) (base : Nat) : List Nat → Except Wait (List BurrImg × State)
  | [] => .ok ([], s)
  | i :: r =>
    let pl := s.imgLevel n o.sctx
    match s.vaSpan (.cp n) o.sctx pl (base + 0x20000 * i + 0x10000) 64, s.vaSpan (.cp n) o.sctx pl (base + 0x20000 * i + 0x12040) 8 with
    | .error w, _ => .error w
    | _, .error w => .error w
    | .ok (.ok, h, _), .ok (.ok, v, _) =>
      let st := BitVec.ofNat 64 (leNat v)
      (match s.burrScan n o base r with
        | .error w => .error w
        | .ok (l, t) =>
          if bhVer (leNat h) = 0x100 ∧ fld st 47 36 = o.ctx ∧ fld st 7 5 = 3 then
            .ok (⟨n, o.ctx, i, base + 0x20000 * i, n, 2 ^ 64, pl, false, []⟩ :: l, t)
          else .ok (l, t))
    | _, _ => s.burrScan n o base r

/-- BRESTORE (R231, R357): the images of the context's last BSAVE; where none is on record, those that memory holds (log 119). -/
def State.brestoreWrite (s : State) (w : Wr) : State :=
  s.preWrite w (.brestore w) 5 fun t n o =>
    let base := va57 (t.rf w.die .cqPreemptBarea 0 56 0)
    let known := t.burrImgsFor n o.ctx base
    match if known.isEmpty then t.burrScan n o base (List.range 64) else .ok (known, t) with
    | .error e => .error e
    | .ok (l, t1) =>
      match t1.burrLoads n o base l .ok with
      | .error e => .error e
      | .ok (st, u) => .ok (u.preEnd n { o with st := st })
/-- BRESTORE (R231). -/
def execBrestore (w : Wr) (s : State) : Host.Outcome State Fault Refusal := done s (s.brestoreWrite w)

/-- A block leaves its tile with everything it has in progress there (R168, R198): a halted one is reported where it has
not been, any other ends with ABRT. -/
def State.blockGone (s : State) (t : TileRef) (b : Block) : State :=
  let x := s.tile t
  let keep (d : Desc) : Bool := decide (d.bid ≠ b.bid)
  let s1 := s.setTile t { x with ops := x.ops.filter (fun m => decide (m.bid ≠ b.bid)), mx := x.mx.filter keep, vx := x.vx.filter keep }
  let s2 := if b.st = .halted then s1.haltTell t b.bid else s1.launchEnd t b.bid .abrt
  s2.setTile t ((s2.tile t).dropBlock b.bid)

/-- RELEASE (R357): the context's halted and retained blocks are freed. -/
def State.releaseWrite (s : State) (w : Wr) : State :=
  s.preWrite w (.release w) 6 fun t n o =>
    let bs := (t.blocksOn n o.ctx).filter fun e => decide (e.2.st = .halted ∨ e.2.st = .retained)
    .ok ((bs.foldl (fun x e => x.blockGone ⟨n, e.1⟩ e.2) t).preEnd n o)
/-- RELEASE (R357). -/
def execRelease (w : Wr) (s : State) : Host.Outcome State Fault Refusal := done s (s.releaseWrite w)

/-- The programs of a context on a Burr end with ABRT; the Burr stays enabled. -/
def State.burrKill (s : State) (ctx : Nat) (b : BurrRef) : State :=
  let s1 := match (s.burr b).pend with | some p => if p.ctx = ctx then s.burrDropPend b else s | none => s
  match (s1.burr b).run with
  | some p => if p.ctx = ctx then s1.burrEnd b .abrt (if s1.burSt b = 5 ∨ s1.burSt b = 6 then s1.burSt b else 0) else s1
  | none => s1

/-- The descriptors of a context in a sampler end as a disable ends them (R254). -/
def State.smpKill (s : State) (ctx : Nat) (u : SmpRef) : Except Wait State :=
  let a := match (s.smp u).pend with
    | some j =>
      if j.ctx = ctx then ((s.setSmp u { s.smp u with pend := none }).setSmpPend u 0).smpRefuse u j .abrt else s
    | none => s
  match (a.smp u).run with
  | some j => if j.ctx = ctx ∧ sdOpc j.desc = 2 then a.smpEnd u j (smpFail .abrt) else .ok a
  | none => .ok a
def State.smpKills (s : State) (ctx : Nat) : List SmpRef → Except Wait State
  | [] => .ok s
  | u :: r => match s.smpKill ctx u with | .ok t => t.smpKills ctx r | .error e => .error e

/-- The commands of a context that no engine holds have the final status ABRT; those of its Burr launches and chains get
theirs from the engines. -/
def State.cmdsKill (s : State) (n : Fin 4) (qs : List Nat) : State :=
  let t := (s.cmds.filter fun c => decide (c.die = n) && qs.contains c.queue).foldl (fun x c =>
    let y := if c.started then x else x.cmdStart c
    let held := decide (cwOp c.word = 3) || decide (cwOp c.word = 13) || decide (cwOp c.word = 1) ||
      (decide (cwOp c.word = 4) && c.started) || (decide (cwOp c.word = 6) && y.smpHas n c.id)
    if c.fin.isSome || held then y else y.cmdFin n c.id .abrt 0 0) s
  qs.foldl (fun x q => match x.call? n q with
    | some p => { x with calls := aErase x.calls (n.val, q) }.completeCmd p.call .abrt
    | none => x) t

/-- KILL (R357, Table 12-11): all work of the context on the die ends with ABRT; its queues and channels are disabled. -/
def State.killWrite (s : State) (w : Wr) : State :=
  s.preWrite w (.kill w) 7 fun t n o =>
    match t.smpKills o.ctx (smpsAll n) with
    | .error e => .error e
    | .ok t0 =>
      let t1 := (t0.blocksOn n o.ctx).foldl (fun x e => x.blockGone ⟨n, e.1⟩ e.2) t0
      let t2 : State := { t1 with
        launches := t1.launches.map fun l =>
          if l.die = n ∧ l.ctx = o.ctx ∧ (l.todo ≠ [] ∨ l.live ≠ []) then
            { l with todo := [], live := l.live.filter (fun e => decide (e.1 ≠ n.val)), st := Status.first l.st .abrt }
          else l
        preempted := t1.preempted.filter fun p => decide (p ≠ (n.val, o.ctx))
        preImgs := t1.preImgs.filter fun p => decide (¬ (p.die = n ∧ p.ctx = o.ctx))
        burrImgs := t1.burrImgs.filter fun p => decide (¬ (p.die = n ∧ p.ctx = o.ctx))
        feeds := t1.feeds.filter fun f => decide (¬ (f.die = n ∧ f.ctx = o.ctx)) }
      let early := (t2.cmds.filter fun c => decide (c.die = n) && !c.started).map fun c => c.id
      let t3 := (burrsAll n).foldl (fun x b => x.burrKill o.ctx b) t2
      let t4 : State := { t3 with blaunches := (t3.blaunches.filter fun l =>
          !(decide (l.die = n) && decide (l.ctx = o.ctx) && early.contains l.id)).map fun l =>
        if l.die = n ∧ l.ctx = o.ctx ∧ l.left ≠ 0 then
          { l with todo := 0, left := 0, bad := l.bad + l.left, st := Status.first l.st .abrt }
        else l }
      let qs := t4.queuesOf n o.ctx [0, 1, 2, 3, 4]
      let t5 := t4.cmdsKill n qs
      let t6 := qs.foldl (fun x q => (x.setRf (.cd n) .cqCfg q 12 12 0).setCqSt n q 5) t5
      let t7 := (t6.chansOf n o.ctx).foldl (fun x ch => (x.setRf (.cd n) .dmaCtrl ch 31 31 0).dmaDisable (.cd n) ch) t6
      .ok ((t7.setPre n o).preGo n)
/-- KILL (R357). -/
def execKill (w : Wr) (s : State) : Host.Outcome State Fault Refusal := done s (s.killWrite w)

end Sys2Proof.Machine
end

