-- ==== Sys2Proof/Machine/Io.lean ====
section
/-!
DEFINITION. PCIe ports, the interrupt window, the Sluice window and ordered mode (R361-R373).
-/

namespace Sys2Proof

/-- The status of a PCIe completion. -/
def PcieEnd.status : PcieEnd → Status
  | .ok => .ok
  | .unsupported | .aborted => .perm
  | .timeout => .tout
  | .poisoned => .pois

end Sys2Proof

namespace Sys2Proof.Machine
open Sys2Proof

/-! ### Outbound requests (R362) -/

/-- Whether a requester may send to root-port memory space. -/
def State.outboundMay (s : State) : PcieWho → Bool
  | .host c => decide (c < 96)
  | .mgmt c => decide (c < 4)
  | .dma ch => decide (ch < 16) && s.pcieMay (.dma .hub ch)
  | .other => false
/-- A request of a hub DMA channel on its way, with the end that PCIe gives it. -/
def OutReq.ending (o : OutReq) (req : Nat) (r : Tlp) (st : Status) (v : Nat) : OutReq :=
  if o.ans.isNone && decide (o.req = req ∧ o.pa = r.pa ∧ o.len = r.len ∧ o.wr = r.wr ∧ (r.wr = true → o.data = r.data)) then
    { o with ans := some (st, v) }
  else o
/-- PCIE_OUTBOUND: a request of `who` to root-port memory space, which PCIe ends with `e` and, for a read, with data `d`; a hub DMA
channel's own access that is on its way takes that end. -/
def execPcieOutbound (who : PcieWho) (r : Tlp) (e : PcieEnd) (d : Nat) (s : State) : Host.Outcome State Fault Refusal :=
  done s (
    if s.region r.pa ≠ .pcie ∨ s.running .hub false = false then s
    else if !s.outboundMay who || inIntWindow r.pa then s.answer .perm 0
    else if !s.rpUp r.pa then s.answer .unav 0
    else
      let v := if r.wr ∨ e ≠ .ok then 0 else d % 2 ^ (8 * r.len)
      match who with
      | .dma ch =>
        let l := s.io.outb.map fun o => o.ending (s.reqId (.dma .hub ch)) r e.status v
        (if l = s.io.outb then s.emit .tlp (if r.wr then [1, r.pa, r.len, r.data] else [0, r.pa, r.len]) else { s with io := { s.io with outb := l } }).answer
          e.status (BitVec.ofNat 64 (v % 2 ^ 64))
      | _ => (s.emit .tlp (if r.wr then [1, r.pa, r.len, r.data] else [0, r.pa, r.len])).answer e.status (BitVec.ofNat 64 (v % 2 ^ 64)))
/-- Requests on their way to a port that goes down end with UNAV (R362). -/
def State.outbDown (s : State) (p : Nat) : State :=
  let down (o : OutReq) : OutReq := if (o.pa - pcieBase) / 2 ^ 46 = p ∧ o.ans = none then { o with ans := some (.unav, 0) } else o
  { s with io := { s.io with outb := s.io.outb.map down } }

/-! ### Requests from devices and from the external host (R363, R367-R369, R371) -/

/-- Bytes read at physical addresses piece by piece. -/
def State.paReads (s : State) (rid ctx pl : Nat) : List (Nat × Nat) → Except Wait (Status × List Byte × State)
  | [] => .ok (.ok, [], s)
  | (pa, n) :: r =>
    match s.ncBytes rid ctx pl 0 0 pa n with
    | .error w => .error w
    | .ok (.ok, v, t) =>
      (match t.paReads rid ctx pl r with
        | .ok (st, l, u) => .ok (st, leBytes n v ++ l, u)
        | .error w => .error w)
    | .ok (e, _, t) => .ok (e, [], t)
/-- Bytes written at physical addresses piece by piece. -/
def State.paWrites (s : State) (rid ctx pl : Nat) : List (Nat × Nat) → Nat → Except Wait (Status × State)
  | [], _ => .ok (.ok, s)
  | (pa, n) :: r, v =>
    match s.ncWrite rid ctx pl 0 pa (spanMask (pa % 128) n) (linePut 0 (pa % 128) n (v % 2 ^ (8 * n))) with
    | .error w => .error w
    | .ok (.ok, t) => t.paWrites rid ctx pl r (v / 2 ^ (8 * n))
    | .ok (e, t) => .ok (e, t)

/-- A TLP that fails: logged with WHERE 2; a read receives Completer Abort (R363, R368). -/
def State.tlpFail (s : State) (x : HubTlp) (why : Nat) : State :=
  let t := s.violate .hub x.pa x.pl (b2n x.wr) why 2 x.rid x.ctx
  if x.wr then t else t.emit .tlp [2, x.port, 2]
/-- The reason logged for an access that failed: what the home's replica gives, or no region (8). -/
def State.tlpWhy (s : State) (x : HubTlp) : Nat :=
  let why := match s.homeAt (x.pa / 128 * 128) with
    | .at l =>
      if x.rid / 4096 = 8 then s.rpReason (repIdx (homeDie l.p)) (b2n x.wr) x.pa
      else s.homeReason l x.ctx x.pl (b2n x.wr) 0 (x.pa / 128 * 128)
    | _ => 8
  if why = 0 then 8 else why
/-- Bytes of BAR2 (R367): the MSI-X table at 0x0000, the pending-bit array at 0x2000; elsewhere zero. -/
def State.bar2Byte (s : State) (off : Nat) : Byte :=
  if off < 0x1000 then s.msixByte off
  else if 0x2000 ≤ off ∧ off < 0x2020 then BitVec.ofNat 8 (s.msix.pend / 256 ^ (off - 0x2000))
  else 0
/-- An access to BAR2: the table is read and written, and a vector whose mask has gone sends what is pending. -/
def State.bar2Access (s : State) (r : HubTlp) : State :=
  if !r.wr then s.emit .tlp [2, r.port, 0, leNat ((List.range r.len).map fun i => s.bar2Byte (r.pa + i))]
  else
    let bytes := (withIdx (leBytes r.len r.data)).filter fun e => decide (r.pa + e.1 < 0x1000)
    ({ s with msix := { s.msix with table := bytes.foldl (fun m e => aSet m (r.pa + e.1) e.2) s.msix.table } } : State).msixFlush r.port

/-- An access to the interrupt window (R363): a 4-byte write is an interrupt for a host core; any other is dropped and logged. -/
def State.irqAccess (s : State) (r : HubTlp) : State :=
  let core := r.pa / 2 ^ 6 % 2 ^ 7
  if r.wr && decide (r.len = 4) && decide (core < 96) then s.emit .interrupt [core, r.data % 256]
  else s.violate .hub r.pa 0 (b2n r.wr) 8 2 r.rid 0

/-- The access of a TLP to memory: a successful completion for a read, nothing for a posted write. -/
def State.tlpMem (s : State) (x : HubTlp) : Except Wait State :=
  let ps := linePieces x.pa (x.len / 128 + 2) x.len
  if x.wr then
    match s.paWrites x.rid x.ctx x.pl ps x.data with
    | .error w => .error w
    | .ok (.ok, t) => .ok t
    | .ok (_, t) => .ok (t.tlpFail x (s.tlpWhy x))
  else
    match s.paReads x.rid x.ctx x.pl ps with
    | .error w => .error w
    | .ok (.ok, l, t) => .ok (t.emit .tlp [2, x.port, 0, leNat l])
    | .ok (_, _, t) => .ok (t.tlpFail x (s.tlpWhy x))

/-- The access of a TLP that a port has taken. -/
def State.tlpTry (s : State) (x : HubTlp) : Except Wait State :=
  match x.kind with
  | .mem => s.tlpMem x
  | .irq => .ok (s.irqAccess x)
  | .bar2 => .ok (s.bar2Access x)

/-- The TLPs that wait go on in their order, each port's behind its own earlier ones (R371). -/
def State.tlpsGo (s : State) : List HubTlp → List Nat → State
  | [], _ => s
  | x :: r, ports =>
    if ports.contains x.port then s.tlpsGo r ports
    else
      match s.tlpTry x with
      | .ok t => { t with io := { t.io with tlps := lDrop (fun y => decide (y = x)) t.io.tlps } }.tlpsGo r ports
      | .error w => (s.await w).tlpsGo r (x.port :: ports)
/-- A TLP that a port takes: refused where `why` is not 0, done at once where it can be, else kept. -/
def State.tlpRun (s : State) (x : HubTlp) (why : Nat) : State :=
  let s := s.newWork .hub 11
  if why ≠ 0 then s.tlpFail x why
  else if s.io.tlps.any fun y => decide (y.port = x.port) then { s with io := { s.io with tlps := s.io.tlps ++ [x] } }
  else
    match s.tlpTry x with
    | .ok t => t
    | .error w => { s with io := { s.io with tlps := s.io.tlps ++ [x] } }.await w

/-- ROOT_PORT_REQUEST (R363, R314, R364): the rule for traffic without a context at the hub, and the window; the home checks it
again. -/
def execRootPortRequest (r : Tlp) (s : State) : Host.Outcome State Fault Refusal :=
  done s (
    if !s.portIo r.port || inIntWindow r.pa then s
    else
      let w := s.reg .hub .hubRpWin r.port
      let f := r.pa / 2 ^ 21
      let a := s.rpReason 4 (b2n r.wr) r.pa
      let inside := w.getLsbD 63 && decide (fld w 17 0 ≤ f) && decide (f ≤ fld w 49 32)
      s.tlpRun ⟨.mem, r.port, r.wr, r.pa, r.len, r.data, 0x8000 + r.port, 0, 0⟩ (if a ≠ 0 then a else if !inside then 8 else 0))

/-- INTERRUPT_WINDOW_WRITE (R363), behind what the port has taken before (R371). -/
def execInterruptWindowWrite (r : Tlp) (s : State) : Host.Outcome State Fault Refusal :=
  done s (
    if !s.portIo r.port || !inIntWindow r.pa then s
    else s.tlpRun ⟨.irq, r.port, r.wr, r.pa, r.len, r.data, 0x8000 + r.port, 0, 0⟩ 0)

/-- SLUICE_ACCESS (R367, R368): BAR0 offset `t.tlp.pa` through the window as it stands, or BAR2, behind what the port has taken
before (R371). -/
def execSluiceAccess (t : BarTlp) (s : State) : Host.Outcome State Fault Refusal :=
  done s (
    let r := t.tlp
    if !s.portMode r.port 1 || decide ((if t.bar2 then 2 ^ 16 else 2 ^ 28) < r.pa + r.len) then s
    else if t.bar2 then s.tlpRun ⟨.bar2, r.port, r.wr, r.pa, r.len, r.data, 0x7000 + r.port, 0, 0⟩ 0
    else
      let c := s.reg .hub .hubSluiceCtrl 0
      if !c.getLsbD 63 then (if r.wr then s else s.emit .tlp [2, r.port, 1])
      else
        let pa := fld c 51 28 * 2 ^ 28 + r.pa
        let ctx := fld c 11 0
        let pl := fld c 62 61
        let why := match s.region pa with
          | .cxl => 0
          | _ => s.protReason 4 ctx pl (b2n r.wr) 0 pa
        s.tlpRun ⟨.mem, r.port, r.wr, pa, r.len, r.data, 0x7000 + r.port, ctx, pl⟩ why)

/-- SLUICE_CTRL_WRITE (R369, Table 13-7): PL0 is stored as PL1, CTXID 0 as 1. -/
def execSluiceCtrlWrite (w : Wr) (s : State) : Host.Outcome State Fault Refusal :=
  done s (match s.ctlStore w.die .hubSluiceCtrl 0 w.pl w.ctx w.val with
    | (.ok, t) =>
      let r := t.reg .hub .hubSluiceCtrl 0
      let r1 := if fld r 62 61 = 0 then setFld r 62 61 1 else r
      let r2 := if fld r1 11 0 = 0 then setFld r1 11 0 1 else r1
      (t.setReg .hub .hubSluiceCtrl 0 r2).answer .ok 0
    | (e, t) => t.answer e 0)

/-- ORDERED_MODE_ENTER (R373): traffic on second routes has drained. -/
def execOrderedModeEnter (s : State) : Host.Outcome State Fault Refusal :=
  done s (
    let r := s.reg .hub .hubOrderStatus 0
    if s.running .hub false && decide (fld r 2 0 ≠ 0) && !r.getLsbD 31 then
      s.setReg .hub .hubOrderStatus 0 (setFld (setFld r 31 31 1) 30 30 0)
    else s)

end Sys2Proof.Machine
end

