-- ==== Sys2Proof/Machine/Millrace.lean ====
section
/-!
DEFINITION. The Millrace fabric (R374-R387): routes, send queues, operations and their completion, packets, commit units,
peer loss, snapshots of the fabric tables, and management messages.
-/

namespace Sys2Proof

/-- Lanes of requests and of responses (R377). -/
def Pkt.onReq (p : Pkt) : Bool := decide (p.vl = 0 ∨ p.vl = 2 ∨ p.vl = 4)
def Pkt.onRsp (p : Pkt) : Bool := decide (p.vl = 1 ∨ p.vl = 3 ∨ p.vl = 5)

end Sys2Proof

namespace Sys2Proof.Machine
open Sys2Proof

/-! ### Stations, ports, routes (R375) -/

/-- Whether the installed licence has the feature set FL (R8, Table 16-7). -/
def State.fl (s : State) : Bool := decide (s.rf .hub .licStatus 0 17 16 = 1)
def State.station (s : State) : Nat := s.rf .hub .mrcCfg 0 63 48
def State.mrcUp (s : State) (p : Nat) : Bool := s.running .hub false && decide (p < 12) && (s.reg .hub .mrcPortStatus p).getLsbD 31
/-- The endpoint-map entry of a station. -/
def State.ep (s : State) (station : Nat) : W32 := aGet s.tables.epMap 0 station
/-- The port by which packets for a station leave. -/
def State.route (s : State) (station : Nat) : Option Nat :=
  let e := s.ep station
  if !e.getLsbD 0 then none
  else if s.mrcUp (fld e 7 4) then some (fld e 7 4)
  else if s.mrcUp (fld e 11 8) then some (fld e 11 8) else none

/-- A packet as it leaves: port, opcode, VL, station, context, operation, unit, packet, LAST, FENCE, ARG, address, status,
bytes, data; then the arrival word and number of units of its operation. -/
structure TxPkt where
  opc : Nat
  vl : Nat
  dst : Nat
  ctx : Nat
  opid : Nat
  unit : Nat
  seq : Nat
  last : Bool
  fence : Bool
  arg : Nat
  addr : Nat
  st : Status
  len : Nat
  data : Nat
  arrive : Nat
  units : Nat
deriving DecidableEq, Repr

/-- What is known of a station: the times of the last packet from it and to it, and the port last used toward it. -/
def State.peer (s : State) (station : Nat) : W64 × W64 × Nat := aGet s.peers (s.now, s.now, (s.route station).getD 0) station
/-- A packet sent by a port (Table 13-2); a package without a station number sends only LIVE (R375). -/
def State.sendPkt (s : State) (port : Nat) (p : TxPkt) : State :=
  if s.station = 0xFFFF ∧ p.opc ≠ 8 then s
  else
    let r := s.reg .hub .mrcPortStatus port
    { s with peers := aSet s.peers p.dst ((s.peer p.dst).1, s.now, port) }.emit .packet
      [port, p.opc, p.vl, p.dst, s.station, p.ctx, p.opid, p.unit, p.seq, b2n p.last, b2n p.fence, p.arg, p.addr, p.st.code,
        fld r 15 8, fld r 7 0, p.len, p.data, p.arrive, p.units]

/-- A plain packet of an opcode. -/
def txPkt (opc vl dst ctx opid unit : Nat) : TxPkt := ⟨opc, vl, dst, ctx, opid, unit, 0, true, false, 0, 0, .ok, 0, 0, 0, 0⟩

/-! ### Descriptors (Table 13-4) -/

def mdOpc (d : Nat) : Nat := dF d 23 16
def mdEvt (d : Nat) : Bool := nbit d 39
def mdFence (d : Nat) : Bool := nbit d 40
def mdArg (d : Nat) : Nat := dF d 44 41
def mdVl (d : Nat) : Nat := dF d 47 45
def mdDst (d : Nat) : Nat := dF d 95 80
def mdLen (d : Nat) : Nat := dF d 127 96
def mdLaddr (d : Nat) : Nat := dF d 191 128
def mdRaddr (d : Nat) : Nat := dF d 255 192
def mdOpnd2 (d : Nat) : Nat := dF d 319 256
def mdOpnd (d : Nat) : Nat := dF d 383 320
def mdCw (d : Nat) : Nat := dF d 447 384
def mdTag (d : Nat) : Nat := dF d 511 448

/-- The format check of a descriptor (R382); `inColl` for an entry of a schedule (R381). -/
def State.mdOk (s : State) (d : Nat) (inColl : Bool) : Bool :=
  let opc := mdOpc d
  versionOk (s.reg .hub .mrcIfVersion 0) (dF d 15 0) && decide (dF d 38 24 = 0) && decide (dF d 79 48 = 0) &&
    decide (1 ≤ opc ∧ opc ≤ 6) && decide (mdCw d % 8 = 0) && decide (mdVl d = 0 ∨ mdVl d = 2 ∨ mdVl d = 4) &&
    (match opc with
      | 3 => decide (mdArg d ≤ 5) && decide (mdLen d = 8) && decide (mdRaddr d % 8 = 0)
      | 4 => decide (mdArg d ≤ 2)
      | 5 => decide (mdOpnd d % 2 ^ 16 + mdOpnd d / 2 ^ 16 % 2 ^ 16 ≤ 4096)
      | _ => true) &&
    (!inColl || decide (opc = 1 ∨ opc = 4 ∨ opc = 6))

def unitSize : Nat := 2 ^ 22
/-- Lengths of the commit units of an operation. -/
def unitLens (len : Nat) : List Nat := (List.range (cdiv len unitSize)).map fun u => min unitSize (len - unitSize * u)

/-! ### Send queues (R380) -/

def State.sqSt (s : State) (q : Nat) : Nat := s.rf .hub .mrcSqCfg q 23 21
def State.setSqSt (s : State) (q v : Nat) : State := s.setRf .hub .mrcSqCfg q 23 21 v
def State.sqHead (s : State) (q : Nat) : Nat := s.rf .hub .mrcSqPtr q 31 0
def State.sqTail (s : State) (q : Nat) : Nat := s.rf .hub .mrcSqPtr q 63 32
/-- Descriptors that a ring holds. -/
def State.sqSize (s : State) (q : Nat) : Nat := 2 ^ (s.rf .hub .mrcSqCfg q 31 28 + 12) / 64
def State.sqCtx (s : State) (q : Nat) : Nat := s.rf .hub .mrcSqCfg q 11 0
def State.sqPl (s : State) (q : Nat) : Nat := s.rf .hub .mrcSqCfg q 51 50
/-- RUN while descriptors are left to start, else IDLE. -/
def State.sqSettle (s : State) (q : Nat) : State :=
  if 1 < s.sqSt q then s else s.setSqSt q (if s.sqHead q = s.sqTail q then 0 else 1)

/-- A new TAIL under R348: the refusal, if any. -/
def State.sqTailCheck (s : State) (q t : Nat) : Status :=
  if 2 ^ 31 ≤ (t + 2 ^ 32 - s.sqTail q) % 2 ^ 32 then .perm
  else if s.sqSize q < (t + 2 ^ 32 - s.sqHead q) % 2 ^ 32 then .busy else .ok

/-- MRC_SQ_DOORBELL. -/
def execMrcSqDoorbell (w : Wr) (s : State) : Host.Outcome State Fault Refusal :=
  done s (match s.gate w.die .mrcSqDoorbell w.pl w.ctx with
    | .ok =>
      let q := w.idx % 64
      let t := fld w.val 31 0
      if s.sqSt q = 4 ∨ w.ctx ≠ s.sqCtx q ∨ s.sqPl q < w.pl then s.answer .perm 0
      else
        (match s.sqTailCheck q t with
          | .ok => (((s.setRf .hub .mrcSqPtr q 63 32 t).sqSettle q).wakeIf 2 (0x80 + q)).answer .ok 0
          | e => s.answer e 0)
    | e => s.answer e 0)

/-- The queue stops in ERROR. -/
def State.sqError (s : State) (q : Nat) (st : Status) : State := (s.setRf .hub .mrcSqCfg q 27 24 st.code).setSqSt q 3

/-- SQ_TAIL_POLL. -/
def execSqTailPoll (q : Nat) (s : State) : Host.Outcome State Fault Refusal :=
  done s (
    if s.running .hub false = false ∨ 64 ≤ q ∨ 1 < s.sqSt q ∨ s.rf .hub .mrcSqCfg q 49 49 = 0 then s
    else
      match s.vaSpan (.millrace 0) (s.sqCtx q) (s.sqPl q) (va57 (s.rf .hub .mrcSqTailaddr q 56 0)) 8 with
      | .error w => s.await w
      | .ok (.ok, l, t) =>
        let n := leNat l % 2 ^ 32
        if t.sqTailCheck q n = .ok then (t.setRf .hub .mrcSqPtr q 63 32 n).sqSettle q else t
      | .ok (e, _, t) => t.sqError q e)

/-- SQ_ENABLE: a write of MRC_SQ_CFG that sets EN (R347, R380). -/
def execSqEnable (w : Wr) (s : State) : Host.Outcome State Fault Refusal :=
  done s (match s.gate w.die .mrcSqCfg w.pl w.ctx with
    | .ok =>
      let q := s.selUnit w.die w.pl .sq
      if s.rf .hub .mrcSqCfg q 12 12 = 1 ∨ w.val.getLsbD 12 = false then s
      else
        (match s.ctlStore w.die .mrcSqCfg 0 w.pl w.ctx w.val with
          | (.ok, t) =>
            if !versionOk (s.reg .hub .mrcIfVersion 0) (fld w.val 47 32) then s.answer .busy 0
            else ((t.setReg .hub .mrcSqPtr q 0).setSqSt q 0).answer .ok 0
          | (e, t) => t.answer e 0)
    | e => s.answer e 0)

/-- SQ_DISABLE: a write of MRC_SQ_CFG that clears EN (R359). -/
def execSqDisable (w : Wr) (s : State) : Host.Outcome State Fault Refusal :=
  done s (match s.gate w.die .mrcSqCfg w.pl w.ctx with
    | .ok =>
      let q := s.selUnit w.die w.pl .sq
      if s.rf .hub .mrcSqCfg q 12 12 = 0 ∨ w.val.getLsbD 12 = true then s
      else
        (match s.ctlStore w.die .mrcSqCfg 0 w.pl w.ctx w.val with
          | (.ok, t) =>
            if s.sqSt q = 1 ∨ s.mops.any (fun o => decide (o.q = q)) = true then s.answer .busy 0
            else (t.setSqSt q 4).answer .ok 0
          | (e, t) => t.answer e 0)
    | e => s.answer e 0)

/-! ### Starting operations (R375, R381-R383) -/

/-- The packets of one unit of a PUT or RPUT. -/
def unitPkts (opc : Nat) (d opid ctx unit units : Nat) (base : Nat) (data : List Byte) : List TxPkt :=
  let n := cdiv data.length 4096
  (List.range n).map fun k =>
    let l := (data.drop (4096 * k)).take 4096
    { txPkt opc (mdVl d) (mdDst d) ctx opid unit with
      seq := k, last := decide (k + 1 = n), fence := mdFence d, arg := if opc = 6 then mdArg d else 0, addr := base + 4096 * k,
      len := l.length, data := leNat l, arrive := mdOpnd2 d, units := units }

/-- An operation begins: what it sends, and its record. -/
def State.mrcBegin (s : State) (q d ctx pl : Nat) (parent : Option Nat) : Except Wait State :=
  let id := s.mrcNext
  let o : MrcOp := ⟨id, q, d, ctx, pl, parent, 0, [], 0, false, .ok, []⟩
  let add (t : State) (o : MrcOp) : State := ({ t with mops := t.mops ++ [o], mrcNext := (id + 1) % 2 ^ 32 } : State).newWork .hub 9
  let isOver (t : State) (st : Status) : Except Wait State := .ok (add t { o with isOver := true, st := st })
  let opc := mdOpc d
  if !s.fl then isOver s .unav
  else if !s.mdOk d parent.isSome then isOver s .perm
  else if opc = 6 then .ok (add s o)
  else if opc = 5 then
    .ok (add s { o with entries := upFrom (mdOpnd d % 2 ^ 16) (mdOpnd d / 2 ^ 16 % 2 ^ 16) })
  else if s.station = 0xFFFF then isOver s .unav
  else
    match s.route (mdDst d) with
    | none => isOver s .unav
    | some port =>
      let lens := unitLens (mdLen d)
      let o := { o with port := port, units := List.range lens.length, isOver := decide (lens = []) }
      if opc = 1 ∨ opc = 4 then
        match s.vaSpan (.millrace port) ctx pl (mdLaddr d) (mdLen d) with
        | .error w => .error w
        | .ok (.ok, l, t) =>
          let pk := (withIdx lens).flatMap fun e =>
            unitPkts (if opc = 1 then 1 else 6) d id ctx e.1 lens.length (mdRaddr d + unitSize * e.1) ((l.drop (unitSize * e.1)).take e.2)
          .ok (add (pk.foldl (fun x p => x.sendPkt port p) t) o)
        | .ok (e, _, t) => .ok (add t { o with isOver := true, st := e })
      else if opc = 2 then
        let pk := (withIdx lens).map fun e =>
          { txPkt 2 (mdVl d) (mdDst d) ctx id e.1 with
            fence := mdFence d, addr := mdRaddr d + unitSize * e.1, len := 8, data := e.2, units := lens.length }
        .ok (add (pk.foldl (fun x p => x.sendPkt port p) s) o)
      else
        let p := { txPkt 4 (mdVl d) (mdDst d) ctx id 0 with
          fence := mdFence d, arg := mdArg d, addr := mdRaddr d, len := 16, data := mdOpnd d + mdOpnd2 d * 2 ^ 64 }
        .ok (add (s.sendPkt port p) { o with units := [0] })

/-- The next descriptor of a queue in service: it is started where its operation is one of `opcs` and a FENCE lets it. -/
def State.sqStart (s : State) (q : Nat) (mine : Nat → Bool) : State :=
  if s.running .hub false = false ∨ 64 ≤ q ∨ s.sqSt q ≠ 1 ∨ s.sqHead q = s.sqTail q ∨ s.prodHeld .hub (128 + q) = true then s
  else
    let ctx := s.sqCtx q
    let pl := s.sqPl q
    match s.vaSpan (.millrace 0) ctx pl (va57 (s.rf .hub .mrcSqBase q 56 0) + 64 * (s.sqHead q % s.sqSize q)) 64 with
    | .error w => s.await w
    | .ok (.ok, l, t) =>
      let d := leNat l
      if !mine (mdOpc d) || (mdFence d && s.mops.any (fun o => decide (o.q = q))) then s
      else
        (match t.mrcBegin q d ctx pl none with
          | .error w => s.await w
          | .ok u => (u.setRf .hub .mrcSqPtr q 31 0 ((u.sqHead q + 1) % 2 ^ 32)).sqSettle q)
    | .ok (e, _, t) => t.sqError q e

/-- MRC_PUT; and a descriptor whose OPC is none of Table 13-4. -/
def execMrcPut (q : Nat) (s : State) : Host.Outcome State Fault Refusal :=
  done s (s.sqStart q fun c => decide (c = 1 ∨ c = 0 ∨ 6 < c))
/-- MRC_GET. -/
def execMrcGet (q : Nat) (s : State) : Host.Outcome State Fault Refusal := done s (s.sqStart q fun c => decide (c = 2))
/-- MRC_ATOMIC. -/
def execMrcAtomic (q : Nat) (s : State) : Host.Outcome State Fault Refusal := done s (s.sqStart q fun c => decide (c = 3))
/-- MRC_RPUT. -/
def execMrcRput (q : Nat) (s : State) : Host.Outcome State Fault Refusal := done s (s.sqStart q fun c => decide (c = 4))
/-- COLL: its entries run one after another as MRC_OP_COMPLETE finds the one before ended. -/
def execColl (q : Nat) (s : State) : Host.Outcome State Fault Refusal := done s (s.sqStart q fun c => decide (c = 5))
/-- WAITIN: MRC_OP_COMPLETE finds it ready. -/
def execWaitin (q : Nat) (s : State) : Host.Outcome State Fault Refusal := done s (s.sqStart q fun c => decide (c = 6))

/-! ### Completion (R382) -/

def State.mop? (s : State) (id : Nat) : Option MrcOp := s.mops.find? fun o => decide (o.id = id)
def State.setMop (s : State) (o : MrcOp) : State := { s with mops := s.mops.map fun x => if x.id = o.id then o else x }

/-- A 64-bit atomic at a virtual address: status and the value before. -/
def State.vaAtomic (s : State) (who : XReq) (ctx pl va : Nat) (a : AtOp) : Except Wait (Status × Nat × State) :=
  if va % 8 ≠ 0 then .ok (.perm, 0, s)
  else
    match s.xlate who ctx pl 2 va with
    | .error w => .error w
    | .ok (.ok pa il, t) =>
      (match t.region pa with
        | .control | .pcie => .ok (.perm, 0, t)
        | _ =>
          match t.ncAtomic (t.reqId who) ctx pl il pa [a] with
          | .error w => .error w
          | .ok (st, l, u) => .ok (st, l.headD 0, u))
    | .ok (x, t) => let f := t.xlFail who ctx pl 2 va x; .ok (f.1, 0, f.2)
/-- A word at a virtual address incremented. -/
def State.bumpWord (s : State) (who : XReq) (ctx pl va : Nat) : Except Wait (Status × State) :=
  match s.vaAtomic who ctx pl va ⟨0, 2, 1, 0⟩ with
  | .error w => .error w
  | .ok (st, _, t) => .ok (st, t)

/-- An operation that has ended completes: its completion word, its event, and the COLL that it belongs to. -/
def State.mrcFinish (s : State) (o : MrcOp) : Except Wait State :=
  let d := o.desc
  let bumped := if mdCw d = 0 ∨ mdCw d % 8 ≠ 0 then .ok (.ok, s) else s.bumpWord (.millrace o.port) o.ctx o.pl (mdCw d)
  match bumped with
  | .error w => .error w
  | .ok (wst, t) =>
    let st := Status.first o.st wst
    let t1 := if mdEvt d ∨ st ≠ .ok then
        t.post .hub (128 + o.q) (t.rf .hub .mrcSqCfg o.q 55 52)
          (eventBytes 11 st o.ctx (0x9000 + o.port) 0xFF (BitVec.ofNat 64 (mdTag d)) t.now
            (natBytes 2 (mdDst d) ++ natBytes 6 (mdOpc d) ++ natBytes 8 o.committed))
      else t
    let t2 : State := { t1 with mops := t1.mops.filter fun x => decide (x.id ≠ o.id) }
    match o.parent with
    | none => .ok (t2.sqSettle o.q)
    | some p =>
      .ok { t2 with mops := t2.mops.map fun x =>
        if x.id = p then
          { x with entries := x.entries.drop 1, committed := x.committed + o.committed, isOver := x.isOver || decide (st ≠ .ok),
                   st := Status.first x.st st }
        else x }

/-- MRC_OP_COMPLETE (R381, R382): an operation that has ended completes; a WAITIN that is ready, or a COLL with no entry
left, ends; a COLL whose last entry is done starts the next. -/
def execMrcOpComplete (opid : Nat) (s : State) : Host.Outcome State Fault Refusal :=
  done s (match s.mop? opid with
    | none => s
    | some o =>
      if s.running .hub false = false ∨ s.prodHeld .hub (128 + o.q) = true then s
      else if o.isOver then orStay s (s.mrcFinish o)
      else if mdOpc o.desc = 6 then
        (match s.vaSpan (.millrace o.port) o.ctx o.pl (mdLaddr o.desc) 8 with
          | .error w => s.await w
          | .ok (.ok, l, t) => if mdOpnd o.desc ≤ leNat l then orStay s (t.mrcFinish { o with isOver := true }) else t
          | .ok (e, _, t) => orStay s (t.mrcFinish { o with isOver := true, st := e }))
      else if mdOpc o.desc = 5 then
        (match o.entries with
          | [] => orStay s (s.mrcFinish { o with isOver := true })
          | e :: _ =>
            if s.mops.any (fun x => decide (x.parent = some o.id)) then s
            else
              let d := aGet s.tables.collTab 0 e
              let l := (mdLaddr d + mdLaddr o.desc) % 2 ^ 64
              let r := (mdRaddr d + mdRaddr o.desc) % 2 ^ 64
              let d1 := d - mdLaddr d * 2 ^ 128 - mdRaddr d * 2 ^ 192 + l * 2 ^ 128 + r * 2 ^ 192
              orStay s (s.mrcBegin o.q d1 o.ctx o.pl (some o.id)))
      else s)

/-! ### Packets received (R376-R379, R383) -/

/-- The record of a refusal at the port. -/
def State.inLog (s : State) (p : Pkt) (typ : Nat) : State := s.violate .hub p.addr 3 typ 5 2 (0x9000 + p.port) p.ctx

/-- A packet is taken: its station is alive, and `f` follows; a packet of another protocol major, or on a lane that its
opcode does not use, is dropped and counted; a response, or a packet on VL6, that carries CTXID 0 is refused (R48, R378). -/
def State.takePkt (s : State) (p : Pkt) (lane : Bool) (f : State → State) : State :=
  if !s.mrcUp p.port then s
  else if p.vmaj ≠ s.rf .hub .mrcPortStatus p.port 15 8 ∨ lane = false then
    { s with mrcDrops := aSet s.mrcDrops p.port (aGet s.mrcDrops 0 p.port + 1) }
  else
    let t := { s with peers := aSet s.peers p.src (s.now, (s.peer p.src).2) }
    (if p.ctx = 0 ∧ p.vl ≠ 7 ∧ p.onReq = false then t.inLog p 1 else f t).wakeIf 3 p.port

/-- The refusal of an inbound request (R378, R379): context 0, or a station that may not send for the context. -/
def State.inRefused (s : State) (p : Pkt) : Bool :=
  let e := s.ep p.src
  decide (p.ctx = 0) || !e.getLsbD 0 || (!e.getLsbD 13 && decide (fld e 27 16 ≠ p.ctx))
/-- The answer to a request leaves by the station's route, or by the port that it came through. -/
def State.reply (s : State) (port : Nat) (p : TxPkt) : State := s.sendPkt ((s.route p.dst).getD port) p

/-- Places of 4 MiB in the staging area, 256 MiB at MRC_STAGE_BASE (R383). -/
def stageSlots : Nat := 64
/-- A place of the staging area that holds no unit. -/
def State.stageFree (s : State) : Option Nat := (List.range stageSlots).find? fun k => !s.rxUnits.any fun u => decide (u.slot = k)
/-- Physical address of a place in the staging area. -/
def State.stagePa (s : State) (slot : Nat) : Nat := s.rf .hub .mrcStageBase 0 56 0 + unitSize * slot
/-- Bytes of a packet written into the staging area. -/
def State.stagePut (s : State) (port slot off len data : Nat) : Except Wait (Status × State) :=
  let pa := s.stagePa slot + off
  s.paWrites (0x9000 + port) 0 0 (linePieces pa (len / 128 + 2) len) data

/-- A data packet joins its unit; the first of a unit opens it, where the staging area has room (R383). A packet that finds none, or
whose write waits, stays in its buffer (R377). -/
def State.stage (s : State) (p : Pkt) (kind ctx pl base : Nat) (st : Status) : State :=
  let key (u : RxUnit) : Bool := decide (u.src = p.src) && decide (u.opid = p.opid) && decide (u.unit = p.unit) && decide (u.kind = kind)
  match s.rxUnits.find? key with
  | none =>
    if p.seq ≠ 0 then s
    else
      match s.stageFree with
      | none => s
      | some k =>
        let u : RxUnit := ⟨p.port, p.src, p.opid, p.unit, kind, ctx, pl, p.vl, p.arg, base, k, p.len, 1, p.last, st, p.arrive, p.units, none, false⟩
        (match (if st = .ok then s.stagePut p.port k 0 p.len p.data else .ok (.ok, s)) with
          | .error w => s.await w
          | .ok (e, t) => { t with rxUnits := t.rxUnits ++ [{ u with st := Status.first st e }] })
  | some u =>
    if p.seq ≠ u.next ∨ u.whole = true then s
    else
      match (if Status.first u.st st = .ok then s.stagePut p.port u.slot u.len p.len p.data else .ok (.ok, s)) with
      | .error w => s.await w
      | .ok (e, t) =>
        let join (y : RxUnit) : RxUnit :=
          if key y then
            { y with len := y.len + p.len, next := y.next + 1, whole := p.last, st := Status.first (Status.first y.st st) e }
          else y
        { t with rxUnits := t.rxUnits.map join }

/-- PUT_DATA. -/
def execPutData (p : Pkt) (s : State) : Host.Outcome State Fault Refusal :=
  done s (s.takePkt p p.onReq fun t =>
    if t.inRefused p then (t.inLog p 1).stage p 1 p.ctx 3 p.addr .perm else t.stage p 1 p.ctx 3 p.addr .ok)
/-- RPUT_DATA. -/
def execRputData (p : Pkt) (s : State) : Host.Outcome State Fault Refusal :=
  done s (s.takePkt p p.onReq fun t =>
    if t.inRefused p then (t.inLog p 1).stage p 6 p.ctx 3 p.addr .perm else t.stage p 6 p.ctx 3 p.addr .ok)

/-- GET_REQ: the unit's bytes are read and sent back, or the refusal. -/
def execGetReq (p : Pkt) (s : State) : Host.Outcome State Fault Refusal :=
  done s (s.takePkt p p.onReq fun t =>
    let ans (u : State) (st : Status) : State :=
      u.reply p.port { txPkt 3 (p.vl + 1) p.src p.ctx p.opid p.unit with st := st, addr := p.addr, units := p.units }
    if t.inRefused p then ans (t.inLog p 0) .perm
    else
      match t.vaSpan (.millrace p.port) p.ctx 3 p.addr (min p.data unitSize) with
      | .error w => s.await w
      | .ok (.ok, l, u) =>
        let n := cdiv l.length 4096
        (List.range n).foldl (fun x k =>
          let c := (l.drop (4096 * k)).take 4096
          x.reply p.port { txPkt 3 (p.vl + 1) p.src p.ctx p.opid p.unit with
            seq := k, last := decide (k + 1 = n), addr := p.addr + 4096 * k, len := c.length, data := leNat c, units := p.units }) u
      | .ok (e, _, u) => ans u (if e = .xlat then .perm else e))

/-- An open operation that a response belongs to. -/
def State.openOp (s : State) (p : Pkt) (opcs : List Nat) : Option MrcOp :=
  s.mops.find? fun o => decide (o.id = p.opid) && decide (mdDst o.desc = p.src) && !o.isOver && opcs.contains (mdOpc o.desc) &&
    o.units.contains p.unit

/-- A unit of an operation has its status; the last one ends the operation. -/
def State.unitOver (s : State) (o : MrcOp) (unit : Nat) (st : Status) : State :=
  let left := o.units.filter fun x => decide (x ≠ unit)
  s.setMop { o with
    units := left
    committed := if st = .ok then o.committed + min unitSize (mdLen o.desc - unitSize * unit) else o.committed
    isOver := decide (left = [])
    st := Status.first o.st st }

/-- GET_DATA: staged locally; a status other than OK ends the unit. -/
def execGetData (p : Pkt) (s : State) : Host.Outcome State Fault Refusal :=
  done s (s.takePkt p p.onRsp fun t =>
    match t.openOp p [2] with
    | none => t
    | some o =>
      if p.st ≠ .ok then t.unitOver o p.unit p.st
      else t.stage p 3 o.ctx o.pl (mdLaddr o.desc + unitSize * p.unit) .ok)

/-- MRC_ACK: one unit of a PUT or RPUT has been committed, or refused. -/
def execMrcAck (p : Pkt) (s : State) : Host.Outcome State Fault Refusal :=
  done s (s.takePkt p p.onRsp fun t =>
    match t.openOp p [1, 4] with
    | none => t
    | some o => t.unitOver o p.unit p.st)

/-- The atomic of an ARG (Table 13-4): CAS compares with the first operand and stores the second. -/
def mrcAtOp (arg data : Nat) : AtOp :=
  let a := data % 2 ^ 64
  let b := data / 2 ^ 64 % 2 ^ 64
  match arg with
  | 0 => ⟨0, 2, a, 0⟩ | 1 => ⟨4, 2, a, 0⟩ | 2 => ⟨5, 2, a, 0⟩ | 3 => ⟨6, 2, a, 0⟩ | 4 => ⟨7, 2, a, 0⟩ | _ => ⟨8, 2, b, a⟩

/-- ATOMIC: performed on arrival, the old value sent back. -/
def execAtomic (p : Pkt) (s : State) : Host.Outcome State Fault Refusal :=
  done s (s.takePkt p p.onReq fun t =>
    let ans (u : State) (st : Status) (v : Nat) : State :=
      u.reply p.port { txPkt 5 (p.vl + 1) p.src p.ctx p.opid p.unit with st := st, arg := p.arg, addr := p.addr, len := 8, data := v }
    if t.inRefused p then ans (t.inLog p 2) .perm 0
    else if 5 < p.arg then ans t .perm 0
    else
      match t.vaAtomic (.millrace p.port) p.ctx 3 p.addr (mrcAtOp p.arg p.data) with
      | .error w => s.await w
      | .ok (st, v, u) => ans u (if st = .xlat then .perm else st) (if st = .ok then v else 0))

/-- ATOMIC_RSP: the old value goes to LADDR, and the operation ends. -/
def execAtomicRsp (p : Pkt) (s : State) : Host.Outcome State Fault Refusal :=
  done s (s.takePkt p p.onRsp fun t =>
    match t.openOp p [3] with
    | none => t
    | some o =>
      if p.st ≠ .ok then t.unitOver o p.unit p.st
      else
        match t.vaPut (.millrace p.port) o.ctx o.pl (mdLaddr o.desc) (leBytes 8 p.data) with
        | .error w => s.await w
        | .ok (st, u) => u.unitOver o p.unit st)

/-- LIVE: the peer's timer starts again. -/
def execLive (p : Pkt) (s : State) : Host.Outcome State Fault Refusal := done s (s.takePkt p (decide (p.vl = 6)) fun t => t)

/-- MGMT (R378): delivered to the management cores where the station may send on VL7. -/
def execMgmt (p : Pkt) (s : State) : Host.Outcome State Fault Refusal :=
  done s (s.takePkt p (decide (p.vl = 7) && s.fl && (s.ep p.src).getLsbD 0 && (s.ep p.src).getLsbD 12) fun t =>
    { t with vl7 := t.vl7 ++ [p.src] }.emit .mctp [2, p.src, p.len, p.data])

/-! ### Commit (R381, R383) -/

/-- One element of an RPUT (R381). -/
def rputElem (fmt a b : Nat) : Nat :=
  match fmt with
  | 0 => f32add a b
  | 1 => pfAdd a b
  | _ => iAdd tyS32 true a b
def rputBytes (fmt : Nat) : List Byte → List Byte → Nat → List Byte
  | _, _, 0 => []
  | old, new, n + 1 =>
    let w := if fmt = 1 then 8 else 4
    if new.length < w then []
    else leBytes w (rputElem fmt (leNat (old.take w)) (leNat (new.take w))) ++ rputBytes fmt (old.drop w) (new.drop w) n

/-- The bytes that the commit of a unit writes: what was staged, or for an RPUT the sums with the destination as it is (R381). -/
def State.commitData (s : State) (u : RxUnit) : Except Wait (Status × List Byte × State) :=
  match u.out with
  | some l => .ok (.ok, l, s)
  | none =>
    let pa := s.stagePa u.slot
    match s.paReads (0x9000 + u.port) 0 0 (linePieces pa (u.len / 128 + 2) u.len) with
    | .error w => .error w
    | .ok (.ok, new, t) =>
      if u.kind ≠ 6 then .ok (.ok, new, t)
      else
        (match t.vaSpan (.millrace u.port) u.ctx u.pl u.base u.len with
          | .error w => .error w
          | .ok (.ok, old, v) => .ok (.ok, rputBytes u.arg old new u.len, v)
          | .ok (e, _, v) => .ok (e, [], v))
    | .ok (e, _, t) => .ok (e, [], t)

/-- A unit's status and the state with it written: every line is tested before the first is written, so no byte reaches the destination unless
all do (R383); what it writes is settled first and kept while the copy goes on. The second part is
the state to stay in where the copy has to wait. -/
def State.commitUnit (s : State) (u : RxUnit) (key : RxUnit → Bool) : Except (Wait × State) (Status × State) :=
  if u.st ≠ .ok then .ok (u.st, s)
  else
    let who := XReq.millrace u.port
    match s.vaTest who u.ctx u.pl (linePieces u.base (u.len / 128 + 2) u.len) with
    | .error w => .error (w, s)
    | .ok (.ok, t0) =>
      (match t0.commitData u with
        | .error w => .error (w, s)
        | .ok (.ok, l, t) =>
          let t1 : State := { t with rxUnits := t.rxUnits.map fun x => if key x then { x with out := some l } else x }
          (match t1.vaPut who u.ctx u.pl u.base l with
            | .error w => .error (w, t1)
            | .ok r => .ok r)
        | .ok (e, _, t) => .ok (e, t))
    | .ok r => .ok r

/-- Whether ordered mode lets a unit be committed: units of one station on one VL in the order in which they came (R372). -/
def State.unitTurn (s : State) (u : RxUnit) : Bool :=
  !(s.reg .hub .hubOrderStatus 0).getLsbD 31 ||
    decide (s.rxUnits.find? (fun x => decide (x.src = u.src) && decide (x.vl = u.vl)) = some u)

/-- An inbound unit has ended: the record of its operation, and whether that was the last and all have been committed. -/
def State.rxCount (s : State) (u : RxUnit) (st : Status) : Bool × State :=
  let same (r : RxOp) : Bool := decide (r.src = u.src) && decide (r.opid = u.opid)
  let was := s.rxOps.find? same
  let n := (match was with | some r => r.got | none => 0) + 1
  let bad := (match was with | some r => r.bad | none => false) || decide (st ≠ .ok)
  let rest := s.rxOps.filter fun r => !same r
  if u.lost then (false, { s with rxOps := rest })
  else if n < u.units then (false, { s with rxOps := rest ++ [⟨u.src, u.opid, u.port, u.ctx, n, bad⟩] })
  else (!bad, { s with rxOps := rest })

/-- UNIT_COMMITTED: a whole unit is performed; a PUT or RPUT is acknowledged, and the last unit of its operation adds 1 to
the arrival word, unless its station has been lost. -/
def execUnitCommitted (src opid unit : Nat) (s : State) : Host.Outcome State Fault Refusal :=
  done s (
    let key (u : RxUnit) : Bool := decide (u.src = src) && decide (u.opid = opid) && decide (u.unit = unit) && u.whole
    match s.rxUnits.find? key with
    | none => s
    | some u =>
      if s.running .hub false = false ∨ s.unitTurn u = false then s
      else
        match s.commitUnit u key with
        | .error w => w.2.await w.1
        | .ok (st0, t) =>
          let st := if st0 = .xlat then .perm else st0
          let t1 : State := { t with rxUnits := lDrop key t.rxUnits }
          if u.kind = 3 then
            match t1.mops.find? (fun o => decide (o.id = opid) && decide (mdDst o.desc = src) && !o.isOver) with
            | some o => t1.unitOver o unit st
            | none => t1
          else
            let ack (x : State) : State := x.reply u.port { txPkt 7 (u.vl + 1) src u.ctx opid unit with st := st, units := u.units }
            let c := t1.rxCount u st
            if c.1 && decide (u.arrive ≠ 0) then
              match c.2.bumpWord (.millrace u.port) u.ctx u.pl u.arrive with
              | .error w => ({ s with rxUnits := t.rxUnits }).await w
              | .ok (_, t2) => ack t2
            else ack c.2)

/-! ### Peers (R384) -/

/-- Operations open with a station that has not been lost to them. -/
def State.opsWith (s : State) (station : Nat) : List MrcOp :=
  s.mops.filter fun o => decide (mdDst o.desc = station) && !o.isOver && decide (mdOpc o.desc ≤ 4) && decide (o.st ≠ .peer)
/-- What is open with a station, as (port, context, operation number), its own operations first, oldest first. -/
def State.openOnes (s : State) (station : Nat) : List (Nat × Nat × Nat) :=
  ((s.opsWith station).map fun o => (o.port, o.ctx, o.id)) ++
    ((s.rxUnits.filter fun u => decide (u.src = station) && !u.lost).map fun u => (u.port, u.ctx, u.opid)) ++
    (s.rxOps.filter fun r => decide (r.src = station)).map fun r => (r.port, r.ctx, r.opid)

/-- LIVE_SEND: nothing has been sent to an open peer for 10 µs, 1,000 counts of the package timestamp; the packet carries the context of
what is open. -/
def execLiveSend (station : Nat) (s : State) : Host.Outcome State Fault Refusal :=
  done s (
    match s.openOnes station with
    | [] => s
    | e :: _ =>
      if s.running .hub false && decide (1000 ≤ (s.now - (s.peer station).2.1).toNat) then
        match s.route station with
        | some port => s.sendPkt port (txPkt 8 6 station e.2.1 0 0)
        | none => s
      else s)

/-- An operation whose station is lost ends with PEER; a GET once its units that are staged in full are committed (Table 13-5). -/
def State.mopLost (s : State) (o : MrcOp) : MrcOp :=
  let staged := if mdOpc o.desc = 2 then
      o.units.filter fun k => s.rxUnits.any fun u => decide (u.kind = 3) && decide (u.opid = o.id) && decide (u.unit = k) && u.whole
    else []
  { o with units := staged, isOver := staged.isEmpty, st := .peer }

/-- PEER_LOST (Table 13-5): PLTO has passed without a packet; the station's open operations end with PEER, its incomplete
units are discarded, the loss is recorded and MRC_PEER is posted. -/
def execPeerLost (station : Nat) (s : State) : Host.Outcome State Fault Refusal :=
  done s (
    let x := s.peer station
    match s.openOnes station with
    | [] => s
    | e :: _ =>
      if !s.running .hub false || decide ((s.now - x.1).toNat < 100 * s.rf .hub .mrcCfg 0 47 36) then s
      else
        let mine := s.opsWith station
        let port := if (aFind s.peers station).isSome then x.2.2 else e.1
        let t : State := { s with
          mops := s.mops.map fun o => if mine.contains o then s.mopLost o else o
          rxUnits := (s.rxUnits.filter fun u => decide (u.src ≠ station) || u.whole).map fun u =>
            if u.src = station then { u with lost := true } else u
          rxOps := s.rxOps.filter fun r => decide (r.src ≠ station)
          peers := aErase s.peers station }
        let r := t.reg .hub .mrcPeerLog 0
        let r1 := setFld r 55 40 (min 65535 (fld r 55 40 + 1))
        let r2 := if r.getLsbD 63 then setFld r1 62 62 1
          else setFld (setFld (setFld r1 63 63 1) 39 24 station) 23 20 port
        (t.setReg .hub .mrcPeerLog 0 r2).post .hub 127 (t.rf .hub .mrcCfg 0 35 32)
          (eventBytes 12 .peer 0 (0x9000 + port) 0xFF (BitVec.ofNat 64 station) t.now (natBytes 4 port ++ natBytes 4 e.2.2)))

/-! ### Snapshots (R385) -/

/-- The active tables as a snapshot holds them: the endpoint map, the schedules, the VL settings. -/
def State.tableBytes (s : State) : List Byte :=
  ((List.range 65536).flatMap fun i => leBytes 16 (s.ep i).toNat) ++
    ((List.range 4096).flatMap fun i => leBytes 64 (aGet s.tables.collTab 0 i)) ++
    ((List.range 12).flatMap fun i => leBytes 8 (aGet s.tables.vlSet 0 i).toNat)
/-- Fields that an endpoint-map entry has. -/
def epMask (x : Nat) : W32 := BitVec.ofNat 32 x &&& 0x0FFF3FF1
/-- The tables of a snapshot loaded. -/
def State.loadTables (s : State) (l : List Byte) : State :=
  let m := (List.range 65536).filterMap fun i => let e := epMask (byteField l (16 * i) 4); if e = 0 then none else some (i, e)
  let c := (List.range 4096).filterMap fun i => let e := byteField l (0x100000 + 64 * i) 64; if e = 0 then none else some (i, e)
  { s with tables := ⟨m, c, (List.range 12).map fun i => (i, BitVec.ofNat 64 (byteField l (0x140000 + 8 * i) 8))⟩ }

/-- A write of MRC_SNAP_CMD with an OP: `f` gives the status, the slot used and the state. -/
def State.snapWrite (s : State) (w : Wr) (op : Nat) (f : State → W64 → Except Wait (Status × Option Nat × State)) : State :=
  if fld w.val 55 52 ≠ op then s
  else
    match s.ctlStore w.die .mrcSnapCmd 0 w.pl w.ctx w.val with
    | (.ok, t) =>
      let h := t.reg .hub .mrcSnapHandle 0
      let r := if !t.fl then .ok (.unav, none, t) else if h = 0 then .ok (.perm, none, t) else f t h
      (match r with
        | .error e => s.await e
        | .ok (st, slot, u) =>
          let u1 := u.setRf .hub .mrcSnapCmd 0 59 56 st.code
          let u2 := match slot with | some k => u1.setRf .hub .mrcSnapCmd 0 19 16 k | none => u1
          (u2.setRf .hub .mrcSnapCmd 0 15 0 (maskOf (u2.snapH.map fun e => e.1))).answer .ok 0)
    | (e, t) => t.answer e 0
def State.slotOf (s : State) (h : W64) : Option Nat := (s.snapH.find? fun e => decide (e.2 = h)).map fun e => e.1
def State.slotPa (s : State) (k : Nat) : Nat := s.rf .hub .mrcSnapArea 0 56 0 + 0x200000 * k
def snapPieces (pa : Nat) : List (Nat × Nat) := linePieces pa 20000 0x140060

/-- SNAP_SAVE. -/
def execSnapSave (w : Wr) (s : State) : Host.Outcome State Fault Refusal :=
  done s (s.snapWrite w 1 fun t h =>
    let slot := match t.slotOf h with
      | some k => some k
      | none => (List.range 16).find? fun k => (aFind t.snapH k).isNone
    match slot with
    | none => .ok (.busy, none, t)
    | some k =>
      match t.paWrites 0x6000 0 0 (snapPieces (t.slotPa k)) (leNat t.tableBytes) with
      | .error e => .error e
      | .ok (.ok, u) => .ok (.ok, some k, { u with snapH := aSet u.snapH k h })
      | .ok (e, u) => .ok (e, some k, { u with snapH := aErase u.snapH k }))

/-- SNAP_RESTORE. -/
def execSnapRestore (w : Wr) (s : State) : Host.Outcome State Fault Refusal :=
  done s (s.snapWrite w 2 fun t h =>
    match t.slotOf h with
    | none => .ok (.unav, none, t)
    | some k =>
      if !t.mops.isEmpty || (List.range 64).any (fun q => decide (t.sqSt q = 1)) then .ok (.busy, some k, t)
      else
        match t.paReads 0x6000 0 0 (snapPieces (t.slotPa k)) with
        | .error e => .error e
        | .ok (.ok, l, u) => .ok (.ok, some k, u.loadTables l)
        | .ok (e, _, u) => .ok (e, some k, u))

/-- SNAP_DROP. -/
def execSnapDrop (w : Wr) (s : State) : Host.Outcome State Fault Refusal :=
  done s (s.snapWrite w 3 fun t h =>
    match t.slotOf h with
    | none => .ok (.unav, none, t)
    | some k => .ok (.ok, some k, { t with snapH := aErase t.snapH k }))

/-! ### Management messages (R386, R387) -/

/-- Header of an image that nothing has verified: protocol major 1. -/
def hdrDefault : ImgHdr := ⟨0, 0, 0, 0, 0xFFFF, 1⟩
/-- Number of the running image: 0 A, 1 B (Table 16-10). -/
def State.fwActive (s : State) : Nat := s.rf .hub .fwStatus 0 1 1
def State.fwHdr (s : State) : ImgHdr := (aGet s.hdrs none s.fwActive).getD hdrDefault
/-- Whether management firmware runs, and whether the recovery code does (R453). -/
def State.fwRuns (s : State) : Bool := s.running .hub false && s.ready 1
def State.recovering (s : State) : Bool := s.running .hub false && s.recovery
/-- The image that is not in use. -/
def State.otherImg (s : State) : Nat := if s.recovering then 1 - s.bootRec.active % 2 else 1 - s.fwActive
/-- Major version of the mailbox protocol that is spoken. -/
def State.mailMajor (s : State) : Nat := if s.recovering then 1 else s.fwHdr.mbox

/-- A mailbox response (Table 16-11): path, VMAJ, VMIN, CMD, STATUS, TAG, RETRY, and payload bytes as a number. -/
def State.mailOut (s : State) (path cmd tag : Nat) (st : Status) (retry pay : Nat) : State :=
  s.emit .mailbox [path, s.mailMajor, 0, cmd, st.code, tag, retry, pay]
/-- A BUSY response, with a retry-after in ms that is the firmware's estimate, at least 1 (R461). -/
def State.mailBusy (s : State) (path cmd tag : Nat) : State :=
  let f := s.takeFree
  f.2.mailOut path cmd tag .busy (1 + f.1.toNat % 65535) 0

/-- A mailbox request arrives (R460, R461): refused by version, path or a payload above 1,016 bytes (4 KiB for FW_WRITE), or answered BUSY during a live activation or with the
queue full; otherwise it waits its turn. -/
def State.mailIn (s : State) (path data : Nat) : State :=
  let cmd := data / 2 ^ 16 % 256
  let tag := data / 2 ^ 32 % 2 ^ 16
  if !s.fwRuns && !s.recovering then s.mailOut path cmd tag .unav 0 0
  else if data % 256 ≠ s.mailMajor ∨ 256 ^ (8 + if cmd = 6 then 4096 else 1016) ≤ data then s.mailOut path cmd tag .perm 0 0
  else if cmd = 0 ∨ 11 < cmd ∨ (path = 2 ∧ 5 ≤ cmd) then s.mailOut path cmd tag .perm 0 0
  else if s.recovering && decide (cmd ≠ 1 ∧ cmd ≠ 6) then s.mailOut path cmd tag .unav 0 0
  else if s.rf .hub .fwStatus 0 2 2 = 1 then s.mailOut path cmd tag .busy 100 0
  else if 16 ≤ s.mbox.length then s.mailBusy path cmd tag
  else { s with mbox := s.mbox ++ [⟨path, cmd, tag, data / 2 ^ 64⟩] }

/-- A PLDM message that carries data of a firmware update: PLDM type 5, the request for firmware data (DSP0240, DSP0267). -/
def pldmData (data : Nat) : Bool := decide (data / 256 % 64 = 5 ∧ data / 2 ^ 16 % 256 = 0x15)

/-- MCTP_MESSAGE: a message over I3C (0), SGMII (1) or VL7 (2) goes to the management cores, a mailbox message into their
queue; on VL7 one whose packets have been delivered from a station that may send there, a type other than control and mailbox, and anywhere a type that is not carried, is answered with the error for
an unsupported type. In a power state that it wakes it is a wake source (Table 14-7). -/
def execMctpMessage (transport typ data : Nat) (s : State) : Host.Outcome State Fault Refusal :=
  done s (
    if s.running .hub false = false then (if transport < 2 ∧ s.pwrState = 4 then s.wakeIf 4 transport else s)
    else if transport = 2 ∧ (s.fl = false ∨ s.vl7 = []) then s
    else
      let s := if transport = 2 then { s with vl7 := s.vl7.filter fun x => decide (some x ≠ s.vl7.head?) } else s
      (if typ = 0x7E then s.mailIn transport data
       else if typ = 0 ∨ (transport < 2 ∧ (typ = 1 ∨ typ = 5)) then
         (if typ = 1 ∧ pldmData data = true ∧ (s.fwRuns || s.recovering) = true then s.pldmWrite s.otherImg else s).emit .mctp [transport, typ, data, 0]
       else s.emit .mctp [transport, typ, data, 1]).wakeIf 4 transport)

end Sys2Proof.Machine
end

