-- ==== Sys2Proof/Machine/Retire.lean ====
section
/-!
DEFINITION. Retirement of a pseudo-channel: MEM_RETIRE_CTRL.GO and the relayout (R279-R281, R434).
-/

namespace Sys2Proof.Machine

/-- Valid retirement entries (Table 9-19). -/
def State.retCount (s : State) : Nat := s.rf .hub .memRetireCtrl 0 4 0
def State.retResult (s : State) (v : Nat) : State := s.setRf .hub .memRetireCtrl 0 28 26 v

/-- Bands that entry `k` releases (R279). -/
def donorBands (bands k : Nat) : Nat := cdiv bands (513 - k)

/-- The Burr of a pseudo-channel's channel (R202, R257). -/
def burrOfPch (p : Nat) : BurrRef := ⟨pchDie p, pchIdx p / 2⟩
/-- A Burr is set to RETIRED: its programs end with ABRT. -/
def State.burrRetire (s : State) (b : BurrRef) : State := (s.burrEnd b .abrt 6).burrDropPend b

/-- A retirement refused or begun (R280). -/
def State.retireGo (s : State) (p : Nat) : State :=
  let k := s.retCount + 1
  let m := donorBands s.fuse.bands k
  let base := s.usable - m
  if (upFrom base m).any fun b => decide (s.bandMode b ≠ 0) then s.retResult 3
  else if 16 < k then s.retResult 4
  else if (s.pch p ≠ 3 ∧ s.pch p ≠ 4) ∨ s.running (.cd (pchDie p)) false = false ∨ s.pwrTarget ≠ 0 then s.retResult 5
  else
    let t := s.setReg .hub .memRetireEntry (k - 1) (BitVec.ofNat 64 (2 ^ 63 + p * 2 ^ 32 + base * 2 ^ 16 + m))
    let t := (t.setRf .hub .memRetireCtrl 0 63 48 base).setRf .hub .memRetireCtrl 0 47 32 0
    (((t.retResult 1).movePch p 5).burrRetire (burrOfPch p)).newWork (.cd (pchDie p)) 7

/-- RETIRE_GO: a write of MEM_RETIRE_CTRL with GO; while a relayout runs it has no effect. -/
def execRetireGo (w : Wr) (s : State) : Host.Outcome State Fault Refusal :=
  done s (match s.gate .hub .memRetireCtrl w.pl w.ctx with
    | .ok =>
      if w.val.getLsbD 25 = false then s
      else if s.relayout then s.answer .ok 0
      else
        let p := fld w.val 24 16
        ((s.setRf .hub .memRetireCtrl 0 24 16 p).retireGo p).answer .ok 0
    | e => s.answer e 0)

/-- One block copied to its donor through the decoder, poisoned where it is lost (R266, R269, R281). -/
def State.copyBlock (s : State) (p q src dst : Nat) (reads : List Disturb) (i : Nat) : State :=
  let r := s.burrDecode p (src + i) 3 reads
  let t := r.2.2.writeBlock q (dst + i) r.2.1
  if r.1 = .ok then t else t.setPoison (q * 2 ^ 24 + dst + i) true

/-- Recalls start for the lines of a list that the home's directory lists, while it has room for transactions (R281, R303). -/
def State.recallFor (s : State) (locs : List Nat) : State :=
  locs.foldl (fun t loc =>
    match t.ent loc with
    | none => t
    | some e =>
      if t.busyLine loc || decide (64 ≤ (t.txns.filter fun x => dirOf x.loc = dirOf loc).length) then t else t.startRecall loc e) s

/-- The relayout is complete (R281). -/
def State.relayoutDone (s : State) (e : RetEnt) : State :=
  let d := Die.cd (pchDie e.p)
  let t := (s.movePch e.p 6).setRf d .memPchState (pchIdx e.p) 12 8 e.k
  ((t.setRf .hub .memRetireCtrl 0 4 0 e.k).retResult 2).raise d (0x24 + pchIdx e.p / 64) e.p

/-- RELAYOUT_COPY: the next region, with the disturbed reads it meets. While a copy of one of its lines is listed, the home recalls it;
then the region is copied, its entries at the donor empty. It pauses while a memory-controller domain is absent or its lost contents are not yet filled with poison (R433, R434), and waits for a
line in a transaction or in its re-read. -/
def execRelayoutCopy (reads : List Disturb) (s : State) : Host.Outcome State Fault Refusal :=
  done s (match s.relayout, s.retEnts.getLast? with
    | true, some e =>
      let j := s.cursor
      let b := e.band j
      let locs := (upFrom (b * 256) 256).map fun i => e.p * 2 ^ 23 + i
      if allCds.any (fun n => !s.running (.cd n) false || s.lostMem.contains n.val) then s
      else if locs.any (fun l => (s.ent l).isSome) then s.recallFor locs
      else if locs.any s.busyLine || s.rereads.any (fun r => decide (r.p = e.p ∧ r.blk / 512 = b)) then s
      else
        let d := e.donor (s.retEnts.map fun x => x.p) j
        let t := (List.range 512).foldl (fun x i => x.copyBlock e.p d.2 (512 * b) (512 * d.1) reads i) s
        let t : State := { t with dir := t.dir.filter fun x => decide (¬ (locP x.1 = d.2 ∧ x.1 % 2 ^ 23 / 256 = d.1)) }
        let t := t.setRf .hub .memRetireCtrl 0 47 32 (j + 1)
        if s.fuse.bands - e.m ≤ j + 1 then t.relayoutDone e else t
    | _, _ => s)

end Sys2Proof.Machine
end

