-- ==== Sys2Proof/Machine/Domains.lean ====
section
/-!
DEFINITION. Domains that leave the running state and come back (R32-R34, R307, R409, R425-R427, R431-R435, R439, R449,
R466): what a reset of each takes with it, the planned drain of an agent, powering up and removing rails, repair of tiles, and the
end of RECOVERY.
-/

namespace Sys2Proof.Machine

/-! ### What goes with a domain -/

/-- Control registers that a test picks return to their reset values. -/
def State.dropRegs (s : State) (p : RKey → Bool) : State := { s with regs := s.regs.filter fun e => !p e.1 }

/-- Whether an identifier of Table 11-10 names a requester of a compute die's tile domain. -/
def State.tileRid (s : State) (n : Fin 4) (rid : Nat) : Bool :=
  decide (rid / 4096 ≤ 4) && decide (rid / 4096 ≠ 2) && decide (ridDie rid s.nTiles = .cd n)
/-- Whether a requester that translates lies in the tile domain of a die. -/
def inTileDom (n : Fin 4) : XReq → Bool
  | .tile t => decide (t.die = n)
  | .cp m => decide (m = n)
  | .dma d _ => decide (d = .cd n)
  | .sampler i => decide (i / 4 = n.val)
  | _ => false

/-- A caching agent with everything it holds and has asked for is gone. -/
def State.agentGone (s : State) (a : Nat) : State :=
  { s with
    cl := s.cl.filter fun e => decide (e.1.1 ≠ a)
    wbuf := s.wbuf.filter fun e => decide (e.1.1 ≠ a)
    reqs := s.reqs.filter fun r => decide (r.who ≠ a) }

/-- Requesters with identifiers of Table 11-10 that a test picks are gone, with what they have asked for; a response to them that
is on its way is discarded (R429). -/
def State.ridsGone (s : State) (p : Nat → Bool) : State :=
  let t := s.giveUp p
  { t with
    reqs := t.reqs.filter fun r => !(decide (64 ≤ r.who) && p (r.who - 64))
    net := t.net.filter fun m => !(decide (64 ≤ m.who) && p (m.who - 64)) }

def tilesOf (n : Fin 4) (clusters : List Nat) : List TileRef :=
  clusters.flatMap fun c => (List.range 12).map fun i => ⟨n, 16 * c + i⟩

/-- The throttled clock of a die, by die index, starts its window of 256 again with its domain's reset (R392). -/
def State.clkReset (s : State) (d : Nat) : State := { s with clkPhase := aErase s.clkPhase d }

/-- A reset of a compute die's tile domain: tiles, cluster L2s, command processor, DMA channels, samplers and their
registers (R33, R233, R254, R346, R427). Retired channels stay retired (R426). -/
def State.tileDomGone (s : State) (n : Fin 4) : State :=
  let d := Die.cd n
  let t := (s.burrTileReset n).smpReset n
  let t := ((upFrom (8 * n.val) 8).foldl State.agentGone (t.dmaReset d)).ridsGone (s.tileRid n)
  let u : State := { t with
    tiles := t.tiles.filter fun e => decide (e.1.die ≠ n)
    cycles := aErase t.cycles n.val
    launches := t.launches.filter fun l => decide (l.die ≠ n)
    nextLaunch := aErase t.nextLaunch n.val
    heldEv := t.heldEv.filter fun h => decide (h.die ≠ d)
    cmds := t.cmds.filter fun c => decide (c.die ≠ n)
    cqTurn := aErase t.cqTurn n.val
    calls := t.calls.filter fun e => decide (e.1.1 ≠ n.val)
    preempted := t.preempted.filter fun e => decide (e.1 ≠ n.val)
    preOps := aErase t.preOps n.val
    preImgs := t.preImgs.filter fun e => decide (e.die ≠ n)
    preSides := t.preSides.filter fun e => decide (e.home.die ≠ n)
    burrImgs := t.burrImgs.filter fun e => decide (e.die ≠ n)
    tlb := t.tlb.filter fun e => !inTileDom n e.who
    walks := t.walks.filter fun w => !inTileDom n w.who }
  let v := (u.clkReset (3 + n.val)).dropRegs fun k => decide (k.die = d) && (regInfo k.name).tileDom
  (v.dmaDead.filter fun e => decide (e.1 = d)).foldl (fun x e => x.setDmaSt d e.2 6) v

/-! ### The hub's record of reports (R414) -/

/-- A report at the hub (R414). -/
def State.latchPkg (s : State) (r : Report) (time : W64) : State :=
  let f := s.reg .hub .fltPkgFirst 0
  if f.getLsbD 63 then s.setReg .hub .fltPkgFirst 0 (setFld (setFld f 62 62 1) 48 33 (min 65535 (fld f 48 33 + 1)))
  else
    (s.setReg .hub .fltPkgFirst 0
      (setFld (setFld (setFld (setFld (setFld f 63 63 1) 61 61 (b2n r.forced)) 60 57 r.die.idx) 56 49 r.src) 31 0 r.info.toNat)).setReg
      .hub .fltPkgTime 0 time
/-- The collector of a die goes: what it has not taken is lost; what it had sent on arrives, unless all its links are down. -/
def State.collectorGone (s : State) (d : Die) : State :=
  let mine := s.forwards.filter fun x => decide (x.1.die = d)
  let t : State := { s with
    raised := s.raised.filter fun r => decide (r.die ≠ d)
    forwards := s.forwards.filter fun x => decide (x.1.die ≠ d) }
  if s.reach d .hub then mine.foldl (fun x e => x.latchPkg e.1 e.2) t else t

/-- Whether a register of a die outlives a reset of its partition: tile retirements are the hub's (R34). -/
def keptByHub (n : RegName) : Bool := decide (n = .fltTileRetire)

/-- Requests whose home was on a die that has gone end with UNAV where the answer is still to come (R431, R432), and what was on its
way to or from the die is lost. -/
def State.homeGone (s : State) (d : Die) : State :=
  let t : State := { s with net := s.net.filter fun m => decide (m.src ≠ d) && decide (m.dst ≠ d) }
  (t.reqs.filter fun r => decide (s.lineHome r.pa = d) && decide (r.phase = .home ∨ r.phase = .nacked ∨ r.phase = .arrived)).foldl
    (fun x r => x.replyErr r .unav) t

/-- Links are fenced or down (R431): what is queued for them is discarded, and requests that were sent over one of them and have no
response complete with UNAV. -/
def State.linksLost (s : State) (ks : List Nat) : State :=
  let crosses (l : List Nat) : Bool := l.any ks.contains
  let t : State := { s with net := s.net.filter fun m => !crosses m.route }
  (t.reqs.filter fun r => decide (r.phase ≠ .backoff) && crosses r.route &&
    !(t.net.any fun m => m.kind.answers && decide (m.who = r.who) && decide (m.pa = r.pa))).foldl (fun x r => x.replyErr r .unav) t

/-- A reset or loss of a compute die's memory-controller domain, which takes the tile domain with it (R33, R233): the
controllers, directory slices, links and collector of the die. The states of its pseudo-channels are remembered; where its stacks
are in self-refresh (`kept`), so are the scrub passes in progress with their counts (R270, R273, R433; log 98). -/
def State.cdGone (s : State) (n : Fin 4) (kept : Bool) : State :=
  let d := Die.cd n
  let mine (p : Nat) : Bool := decide (p < 512) && decide (pchDie p = n)
  let lost (p : Nat) : Bool := mine p && !kept
  let keep := (upFrom (128 * n.val) 128).foldl (fun m p => aSet m p (s.pch p)) s.pchKeep
  let t := (((s.collectorGone d).tileDomGone n).burrMcReset n).ridsGone fun rid => decide (rid / 4096 = 2) && decide (ridDie rid s.nTiles = d)
  let u : State := { t with
    pchKeep := keep
    tgRuns := t.tgRuns.filter fun r => decide (r.die ≠ n)
    rereads := t.rereads.filter fun r => !mine r.p
    answers := t.answers.filter fun e => !mine (e.1 / 2 ^ 24)
    scrubPos := t.scrubPos.filter fun e => !lost e.1
    thuRows := t.thuRows.filter fun e => !lost e.1
    thcCnt := t.thcCnt.filter fun e => !lost e.1
    trcCnt := t.trcCnt.filter fun e => !lost e.1
    refreshed := t.refreshed.filter fun e => !mine e.1.1
    dir := t.dir.filter fun e => !mine (locP e.1)
    txns := t.txns.filter fun x => !mine (locP x.loc)
    tokens := t.tokens.filter fun k => !mine (locP k.loc)
    tlb := t.tlb.filter fun e => decide (xDie e.who ≠ d)
    walks := t.walks.filter fun w => decide (xDie w.who ≠ d)
    wcache := t.wcache.filter fun e => decide (e.rep ≠ n.val) }
  let v := ((u.homeGone d).clkReset (7 + 2 * n.val)).clkReset (8 + 2 * n.val)
  (v.dropRegs fun k => decide (k.die = d) && !keptByHub k.name).orderSettle

/-- A reset or loss of a host die. -/
def State.hdGone (s : State) (k : Fin 2) : State :=
  let d := Die.hd k
  let t := ((s.collectorGone d).agentGone (32 + k.val)).ridsGone fun rid => decide (rid / 4096 = 5) && decide (ridDie rid s.nTiles = d)
  ({ t with net := t.net.filter fun m => decide (m.src ≠ d) && decide (m.dst ≠ d) }.clkReset (1 + k.val)).dropRegs fun x => decide (x.die = d)

/-- The status that one end of a link shows. -/
def State.setEnd (s : State) (e : Die × Nat) (v : W64) : State :=
  match e.1 with
  | .hd _ => s
  | d => s.setReg d .linkStatus e.2 v
/-- Links of a die are down: its ends read as at reset, and a far end still shows that it has fenced its link (R46, R431). -/
def State.linksDown (s : State) (d : Die) : State :=
  ((linksOf d).foldl (fun t k =>
    let near := endAt d k
    let far := if (linkEnds k).1 = near then (linkEnds k).2 else (linkEnds k).1
    (t.setEnd near 0).setEnd far (setFld 0 30 30 (t.rf far.1 .linkStatus far.2 30 30))) s).linksLost (linksOf d)

/-! ### Drains -/

/-- A line of an agent written back, or given up clean, and its entry settled (R307). A line in a transaction stays; the data of an
agent that the home has marked down is discarded, its line settled (R306). -/
def State.drainLine (s : State) (a pa : Nat) : State :=
  match s.homeAt (128 * pa) with
  | .at l =>
    if s.busyLine l.line then s
    else if s.isDown l.p a then { (s.settle l.line).dropLine a pa with wbuf := aErase s.wbuf (a, pa) }
    else
      match s.ent l.line with
      | some e =>
        if e.st = 2 then
          if e.owner = a then
            let o := s.ownerLine a pa
            let t := match o.1 with | some (d, p, _) => o.2.storeLine l d p | none => o.2
            { (t.dropLine a pa).freeEnt l.line with wbuf := aErase t.wbuf (a, pa) }
          else s.dropLine a pa
        else
          let m := sharersDrop e.sharers a
          let t := s.dropLine a pa
          if m = 0 then t.freeEnt l.line else t.setEnt l.line { e with sharers := m }
      | none => s.dropLine a pa
  | _ => s

/-- The planned drain of an agent: every line that it holds or has in its writeback buffer (R307). -/
def State.drainAgent (s : State) (a : Nat) : State :=
  let pas := (s.cl.filter fun e => decide (e.1.1 = a)).map (fun e => e.1.2) ++
    (s.wbuf.filter fun e => decide (e.1.1 = a)).map fun e => e.1.2
  pas.foldl (fun t pa => t.drainLine a pa) s
/-- Whether an agent has nothing outstanding and owns nothing. -/
def State.drained (s : State) (a : Nat) : Bool :=
  !(s.reqs.any fun r => decide (r.who = a)) && !(s.cl.any fun e => decide (e.1.1 = a) && decide (2 ≤ e.2.st)) &&
    !(s.wbuf.any fun e => decide (e.1.1 = a))

/-! ### RECOVERY -/

/-- A domain leaves the running state for another (R45, R372, R439); the timestamp copy of its die stops with its PLL (R38). -/
def State.domLeaves (s : State) (d : Die) (tile : Bool) (v : Nat) : State :=
  let was := s.dom d tile
  let t := ({ s with aligned := if tile then s.aligned else s.aligned.filter fun x => decide (x ≠ d) }.setDom d tile v).setReady (readyBit d tile) 0
  match d with
  | .cd n =>
    if tile then t
    else
      let u := (t.setReady (40 + 2 * n.val) 0).setReady (41 + 2 * n.val) 0
      if was = 2 then u.orderReason 2 1 else u
  | _ => if was = 2 then t.orderReason 2 1 else t

/-- The tile domain of a die that goes leaves its state, unless it is marked failed: that lasts until the next package reset or
exit from N4 (R409). -/
def State.tileLeaves (s : State) (n : Fin 4) (v : Nat) : State := if s.dom (.cd n) true = 4 then s else s.domLeaves (.cd n) true v

/-- BUSY of FLT_RESET_REQ: a requested reset is running. -/
def State.rstBusy (s : State) : State :=
  s.setRf .hub .fltResetReq 0 63 63 (b2n (s.resets.any fun r => r.asked))
def State.rstDrop (s : State) (p : RstOp → Bool) : State := ({ s with resets := s.resets.filter fun r => !p r } : State).rstBusy
/-- The reset of a die's partition that goes on with its power-up (R435). -/
def rejoining (d : Die) (r : RstOp) : Bool := decide (r.scope = 3) && !r.draining && decide (r.die = d)

/-- Partitions other than the hub. -/
def farDies : List Die := [.hd 0, .hd 1, .cd 0, .cd 1, .cd 2, .cd 3]
/-- Whether every partition runs with its links up and has rejoined, or is marked failed, and every home has finished its sweeps
(R372, R435). -/
def State.recovered (s : State) : Bool :=
  farDies.all (fun d => decide (s.dom d false = 2 ∨ s.dom d false = 4) && !s.resets.any (rejoining d)) &&
  allLinks.all (fun k => s.linkUp k || decide (s.dom (linkEnds k).1.1 false = 4) || decide (s.dom (linkEnds k).2.1 false = 4)) &&
  (List.range 35).all fun a => !(allCds.any fun n => (s.reg (.cd n) .memDirAgentDown 0).getLsbD a) || s.swept a
/-- RECOVERY clears, and the topology check is due, once that holds (R445). -/
def State.recoverySettle (s : State) : State :=
  if decide (s.rf .hub .hubOrderStatus 0 2 2 = 1) && s.recovered then { s.orderReason 2 0 with topoDue := true } else s

/-! ### Tiles that repair brings back (R426, R449) -/

/-- Built tiles of a cluster that passed the test at manufacture. -/
def State.goodBuilt (s : State) (n c : Nat) : List Nat := (List.range 13).filter fun b => !s.fuse.failed.contains (n, 13 * c + b)
/-- The built tile that serves a logical tile. -/
def State.builtOf (s : State) (n c t : Nat) : Nat := aGet s.tileMap ((s.goodBuilt n c)[t]?.getD t) (n, 12 * c + t)

/-- A tile is retired (R425): its bit, its built tile, and its source; one that is retired already stays so. -/
def State.retireTile (s : State) (n : Fin 4) (i : Nat) : State :=
  let nt := s.nTiles n.val
  if 8 * nt ≤ i ∨ s.tileRetired n i = true then s
  else
    let c := i / nt
    let t := s.setRf (.cd n) .fltTileRetire (i / 64) (i % 64) (i % 64) 1
    { t with builtBad := (n.val, 13 * c + s.builtOf n.val c (i % nt)) :: t.builtBad }.raise (.cd n) (0x48 + c) i

/-- The built tiles of a cluster's logical tiles as its tile domain resets (R426): a tile in service keeps its own, of those that were
enabled before; each other takes the lowest one that is neither assigned nor failed, where there is one. -/
def State.assignCluster (s : State) (n c before now : Nat) : List (Option Nat) :=
  let bad (b : Nat) : Bool := s.builtBad.contains (n, 13 * c + b)
  let keep (t : Nat) : Option Nat :=
    let b := s.builtOf n c t
    if t < before ∧ b < 13 ∧ bad b = false then some b else none
  let kept := (List.range now).filterMap keep
  (List.range now).foldl (fun l t =>
    l ++ [match keep t with
      | some b => some b
      | none => (s.goodBuilt n c).find? fun b => !bad b && !kept.contains b && !l.contains (some b)]) []

/-- The built tiles of a cluster put in force; 13 stands for none. -/
def State.putCluster (s : State) (n c : Nat) (l : List (Option Nat)) : State :=
  { s with tileMap := (withIdx l).foldl (fun m e =>
      let b := e.2.getD 13
      let k := (n, 12 * c + e.1)
      if b = (s.goodBuilt n c)[e.1]?.getD e.1 then aErase m k else aSet m k b) s.tileMap }

/-- The tile count of the licence in effect comes into force on a die (R449), its logical tiles are assigned, and those left without a
built tile are the retired ones (R426). -/
def State.assignTiles (s : State) (n : Fin 4) : State :=
  let now := if s.rf .hub .licStatus 0 15 2 = 320 then 10 else 12
  let maps := (List.range 8).map fun c => s.assignCluster n.val c (aGet s.dieTiles 0 n.val) now
  let t := { s with dieTiles := aSet s.dieTiles n.val now }.setRf .hub .licStatus 0 (28 + n.val) (28 + n.val) 0
  let t := (withIdx maps).foldl (fun x e => x.putCluster n.val e.1 e.2) t
  let out := maps.flatMap fun l => l.map Option.isNone
  [0, 1].foldl (fun x k => x.setReg (.cd n) .fltTileRetire k
    (BitVec.ofNat 64 ((List.range 64).foldl (fun m j => if out[64 * k + j]?.getD false then m + 2 ^ j else m) 0))) t

/-! ### Powering up (R409, R466) -/

/-- Rails of a domain in the order in which they come up, and the PLL (100) where the domain holds one. -/
def domSteps (d : Die) (tile : Bool) : List Nat :=
  match d with
  | .hub => [100]
  | .hd k => [8 + k.val, 100]
  | .cd n =>
    if tile then [n.val]
    else
      let s := 2 * n.val
      [4 + n.val, 10 + s, 18 + s, 26 + s, 11 + s, 19 + s, 27 + s, 100]
/-- The stack of a rail of Table 17-3. -/
def railStack (r : Nat) : Option Nat := if 10 ≤ r ∧ r < 34 then some ((r - 10) % 8) else none

/-- A DMA channel is retired (R346, R425): its source, and its state, which outlives every reset. -/
def State.retireChan (s : State) (d : Die) (ch : Nat) : State :=
  ({ s with dmaDead := if s.dmaDead.contains (d, ch) then s.dmaDead else (d, ch) :: s.dmaDead }.setDmaSt d ch 6).raise d
    (match d with | .hub => 0x4A | _ => 0x34) ch
/-- Channels of a die that fail their self-test are retired (R425). -/
def State.chanTest (s : State) (d : Die) (bad : List (Nat × Nat)) : State :=
  (bad.filter fun e => decide (e.1 = d.idx ∧ e.2 < unitCount d .dma) && !s.dmaDead.contains (d, e.2)).foldl (fun x e => x.retireChan d e.2) s

/-- The tile domain of a die runs: its tiles are assigned, and those whose self-test in step 8 fails are retired, with its channels
(R425, R437). -/
def State.tileUp (s : State) (n : Fin 4) : State :=
  let b := s.selfBad
  let t := ((s.setDom (.cd n) true 2).setReady (36 + n.val) 1).assignTiles n
  let u : State := { t with selfBad := ⟨b.tiles.filter fun x => decide (x.1 ≠ n.val), b.chans.filter fun x => decide (x.1 ≠ (Die.cd n).idx)⟩ }
  ((b.tiles.filter fun x => decide (x.1 = n.val)).foldl (fun x e => x.retireTile n e.2) u).chanTest (.cd n) b.chans

/-- Rails are removed one after the other: the first of a list that is there goes now, the others wait (R466). -/
def State.railsDown (s : State) (order : List Nat) : State :=
  match order.filter s.rails.contains with
  | [] => s
  | r :: l => { s with rails := s.rails.filter fun x => decide (x ≠ r), rdown := s.rdown ++ [(r :: l, s.now)] }.emit .railOff [r]
/-- The rail that went last of a sequence has fallen, or its 1 ms is over: the next one goes (R466). -/
def State.railNext (s : State) (e : List Nat × W64) : State :=
  { s with rdown := s.rdown.filter fun x => decide (x ≠ e) }.railsDown (e.1.drop 1)
/-- Sequences whose last rail went 1 ms ago go on. -/
def State.railTick (s : State) : State :=
  (s.rdown.filter fun e => decide (100000 ≤ (s.now - e.2).toNat)).foldl State.railNext s
/-- Rails of a compute die or host die in the order of their removal. -/
def offSteps (d : Die) : List Nat :=
  match d with
  | .cd n => n.val :: (domSteps d false).reverse
  | _ => (domSteps d false).reverse

/-- A domain's power-up starts with its first rail that is not there yet; a removal of its rails that is under way ends (R466). -/
def State.powerUp (s0 : State) (d : Die) (tile : Bool) : State :=
  let gone (k : Nat) : Bool := s0.deadStacks.contains k || s0.fuse.unfitted.contains (7 + k)
  let mine (l : List Nat) : Bool :=
    l.any (domSteps d tile).contains && (match railStack (l.headD 100) with | some k => !gone k | none => true)
  let s : State := { s0 with rdown := s0.rdown.filter fun e => !mine e.1 }
  let todo := (domSteps d tile).filter fun r =>
    !s.rails.contains r && (match railStack r with | some k => !gone k | none => true)
  let t := s.setDom d tile 1
  match todo, d with
  | [], .cd n => t.tileUp n
  | _, _ => ({ t with pups := t.pups ++ [PUp.mk d tile todo false] }.emit .rail [d.idx, b2n tile, todo.headD 100])

/-- A compute die's memory-controller domain runs: its replicas take the hub's tables (R312, R313). From step 8 of bring-up on its
tile domain follows (R435), unless it is marked failed (R409). -/
def State.cdUp (s : State) (n : Fin 4) : State :=
  let t : State := { s.setDom (.cd n) false 2 with
    cptRep := (s.cptRep.filter fun e => decide (e.1.1 ≠ n.val)) ++ s.cpt.map fun e => ((n.val, e.1), e.2)
    fdtRep := (s.fdtRep.filter fun e => decide (e.1.1 ≠ n.val)) ++ s.fdt.map fun e => ((n.val, e.1), e.2) }
  if (s.boot = 8 ∨ s.boot = 9) ∧ t.dom (.cd n) true ≠ 4 then t.powerUp (.cd n) true else t

/-- A host die runs, and reports ready once its timestamp copy is aligned (R38); in step 7 of bring-up its cores are released carrying CTXID 1 at PL1, at the address of piece 0 of the
host boot image (R441). -/
def State.hdUp (s : State) (k : Fin 2) : State :=
  let u := s.setDom (.hd k) false 2
  let t := if s.aligned.contains (.hd k) then u.setReady (30 + k.val) 1 else u
  if s.boot = 6 then t.emit .core [k.val, 1, 1, s.hostFrame * 2 ^ 21] else t

/-- The hub main domain leaves reset: the timestamp starts at zero, on exit from N4 at the real-time clock's count (R38, R39),
and ordered mode is asked for (R372). -/
def State.hubUp (s : State) : State :=
  let t0 : W64 := if s.pwrState = 4 then BitVec.ofNat 64 ((s.reg .hub .pwrRtcCount 0).toNat * 100000000 / 32768) else 0
  { (({ s with now := t0, boot := 3 }.setDom .hub false 2).setReady 0 1).orderReason 0 1 with kicked := t0 }

/-- The last step of a domain's power-up is done. -/
def State.domUp (s : State) (d : Die) (tile : Bool) : State :=
  match d with
  | .hub => s.hubUp
  | .hd k => s.hdUp k
  | .cd n => if tile then s.tileUp n else s.cdUp n

/-- A power-up goes on with the steps that are left: the next one starts, or the domain runs. -/
def State.pupWith (s : State) (u : PUp) (left : List Nat) : State :=
  let rest := s.pups.filter fun x => decide (x ≠ u)
  match left with
  | [] => { s with pups := rest }.domUp u.die u.tile
  | r :: l => { s with pups := rest ++ [{ u with todo := r :: l, again := false }] }.emit .rail [u.die.idx, b2n u.tile, r]

/-- A partition is marked failed: its domains, their power-ups and its reset are over, and its rails go (R409, R435). -/
def State.dieFails (s : State) (d : Die) : State :=
  let t := (match d with | .cd n => s.tileLeaves n 4 | _ => s).domLeaves d false 4
  ({ t with pups := t.pups.filter fun x => decide (x.die ≠ d) }.railsDown (offSteps d)).rstDrop (rejoining d)

/-- A domain is marked failed, its rails left off (R409); with a compute die's memory-controller domain its tile domain. -/
def State.domFails (s : State) (u : PUp) (why : Nat) : State :=
  let t :=
    if u.tile then
      ({ s with pups := s.pups.filter fun x => decide (x ≠ u) }.domLeaves u.die true 4).railsDown (domSteps u.die true)
    else s.dieFails u.die
  (t.raise .hub 0x02 (u.die.idx * 256 + why)).recoverySettle

/-- A stack's rails go off in reverse order; its pseudo-channels are OFF and its contents lost, and the programs on its Burrs end
(R274, R409, R466, R467). -/
def State.stackOff (s : State) (k : Nat) : State :=
  let t : State := { s with deadStacks := if s.deadStacks.contains k then s.deadStacks else k :: s.deadStacks }
  let t := (upFrom (64 * k) 64).foldl (fun x p => ((x.movePch p 0).fillPch p false)) t
  ((upFrom (32 * k) 32).foldl (fun x i => x.burrLeaves ⟨cdOf (i / 64), i % 64⟩) t).railsDown [26 + k, 18 + k, 10 + k]

/-- A power-up whose front step is a rail or a PLL. -/
def State.pupAt (s : State) (step : Nat) : Option PUp := s.pups.find? fun u => decide (u.todo.headD 101 = step)

/-- A step timed out (R409): undone and retried once; the second time the stack stays off, or the domain fails. -/
def State.stepTimeout (s : State) (u : PUp) (why : Nat) : State :=
  if !u.again then { s with pups := s.pups.map fun x => if x = u then { u with again := true } else x }
  else
    match railStack (u.todo.headD 100) with
    | some k =>
      let t := (s.stackOff k).raise .hub 0x02 ((7 + k) * 256 + 1)
      t.pupWith u (u.todo.filter fun r => decide (railStack r ≠ some k))
    | none => s.domFails u why

/-! ### Package reset (R34, R437, R484) -/

/-- Registers of the always-on domain (R34). -/
def aonReg (n : RegName) : Bool :=
  match n with
  | .pwrRtcCount | .pwrRtcAlarm | .pwrWakeRec | .memRetireEntry | .fltTileRetire | .fltPkgFirst | .fltPkgTime
  | .fltResetCause => true
  | _ => false
def pinReg (n : RegName) : Bool :=
  match n with
  | .pinMux | .pinGpioCtrl | .pinGpioIn => true
  | _ => false

/-- What is left when the hub main domain goes: the always-on domain, the flash, the fuses and what stands outside. The PIN_
registers are kept in N4 only (R34, R478); a relayout ends as a completed one (R484); ALIVE_OUT holds its level (R469). The record
of a link module is kept whole, lane-test and replay history with the retirements (DESIGN CHOICE, log 99). -/
def State.packageDown (s : State) (keepPins : Bool) : State :=
  let t : State := { State.reset with
    fuse := s.fuse
    pending := s.pending
    last := s.last
    out := s.out
    free := s.free
    linkMods := s.linkMods
    mrcLanes := s.mrcLanes
    dmaDead := s.dmaDead
    dieTiles := s.dieTiles
    tileMap := s.tileMap
    builtBad := s.builtBad
    bootLog := s.bootLog
    hdrs := s.hdrs
    settings := s.settings
    flash := s.flash
    pldm := s.pldm
    modesSet := s.modesSet
    hubEn := s.hubEn
    pwrGood := s.pwrGood
    rstIn := s.rstIn
    aonUp := s.aonUp
    xtal := s.xtal
    pins := s.pins
    jtag := s.jtag
    pinHold := if keepPins then s.pinHold else []
    resetBusy := true
    boot := 2
    mem := s.mem
    journal := [.wipeAll]
    regs := s.regs.filter fun e => aonReg e.1.name || (keepPins && pinReg e.1.name) }
  let k := s.retEnts.length
  let t := t.setReg .hub .memRetireCtrl 0 (setFld (setFld (setFld 0 63 48 s.usable) 28 26 (if k = 0 then 0 else 2)) 4 0 k)
  let t := (List.range 4).foldl (fun x p => x.setReg .hub .hubPcieCfg p (setFld 0 31 30 (s.rf .hub .hubPcieCfg p 31 30))) t
  let t := t.setReg .hub .fltAlive 0 (setFld 0 30 30 (s.rf .hub .fltAlive 0 30 30))
  t.setReg .hub .hubPartitionState 0 0x12

end Sys2Proof.Machine
end

