-- ==== Sys2Proof/Machine/Power.lean ====
section
/-!
DEFINITION. Power limits, Fantail, power states and energy accounting (R389-R410). Powers are in mW, energies of a 1 µs
sample in nJ; dies are numbered by their die index.
-/

namespace Sys2Proof.Machine

/-! ### The package limit (R389, R399) -/

def clampLimit (v : Nat) : Nat := min 80 (max 32 v)
/-- A new TARGET. -/
def State.setTarget (s : State) (v : Nat) : State := s.setRf .hub .pwrLimit 0 7 0 (clampLimit v)

/-- TARGET_WRITE: a write of PWR_LIMIT; CAP from PL0 only. -/
def execTargetWrite (w : Wr) (s : State) : Host.Outcome State Fault Refusal :=
  done s (match s.gate .hub .pwrLimit w.pl w.ctx with
    | .ok =>
      let t := s.setTarget (fld w.val 7 0)
      (if w.pl = 0 then t.setRf .hub .pwrLimit 0 15 8 (clampLimit (fld w.val 15 8)) else t).answer .ok 0
    | e => s.answer e 0)

def State.limitNow (s : State) : Nat := s.rf .hub .pwrLimit 0 23 16

/-- LIMIT_SAMPLE. -/
def execLimitSample (s : State) : Host.Outcome State Fault Refusal :=
  done s (if s.running .hub false then
      { s with limSample := min (s.rf .hub .pwrLimit 0 7 0) (s.rf .hub .pwrLimit 0 15 8) }
    else s)

/-- LIMIT_RAMP_STEP. -/
def execLimitRampStep (s : State) : Host.Outcome State Fault Refusal :=
  done s (
    let c := s.limitNow
    if s.running .hub false = false ∨ c = s.limSample then s
    else s.setRf .hub .pwrLimit 0 23 16 (if c < s.limSample then c + 1 else c - 1))

/-! ### Allocation and duty (R391, R392, R394-R396) -/

/-- Ceiling and floor of a die in mW (Table 14-1). -/
def dieCeil (d : Nat) : Nat := if d = 0 then 90000 else if d ≤ 2 then 150000 else if d ≤ 6 then 300000 else 70000
def dieFloor (d : Nat) : Nat := if d = 0 then 0 else if d ≤ 2 then 30000 else if d ≤ 6 then 60000 else 12000
/-- Dies that are throttled. -/
def throttled : List Nat := upFrom 1 14

/-- Draw and demand of a die in a sample, in mW. -/
def drawOf (l : List (Nat × Nat)) (d : Nat) : Nat := ((l[d]?).map (·.1)).getD 0
def demandOf (l : List (Nat × Nat)) (d : Nat) : Nat := ((l[d]?).map (·.2)).getD 0
/-- What a die may ask for: its demand, at most its ceiling. -/
def wantOf (l : List (Nat × Nat)) (d : Nat) : Nat := min (demandOf l d) (dieCeil d)

/-- The share of a die of a package limit in mW, as a fraction (R391). -/
def shareOf (limit : Nat) (l : List (Nat × Nat)) (d : Nat) : Nat × Nat :=
  let q := limit - min (drawOf l 0) 90000
  let se := throttled.foldl (fun a i => a + wantOf l i) 0
  let sf := throttled.foldl (fun a i => a + dieFloor i) 0
  let e := wantOf l d
  let f := dieFloor d
  if se ≤ q ∨ e ≤ f then (e, 1) else (f * (se - sf) + (e - f) * (q - sf), se - sf)

/-- The allocation of a die: its share cut for its junction reading and, in a long excursion, by a tenth (R395, R396). -/
def allocOf' (limit : Nat) (l : List (Nat × Nat)) (tj : Nat) (cut : Bool) (d : Nat) : Nat × Nat :=
  let a := shareOf limit l d
  let a := if 95 ≤ tj ∧ tj < 100 then (a.1 * (105 - tj), a.2 * 10) else a
  if cut then (a.1 * 9, a.2 * 10) else a

/-- The loop (R392): the next duty from the duty in force, the allocation and the draw. -/
def nextDuty (duty : Nat) (a : Nat × Nat) (p : Nat) : Nat := min 256 (max 16 (duty * a.1 / (a.2 * max p 1000)))

def State.loopDuty (s : State) (d : Nat) : Nat := aGet s.loopD 256 d
def State.drooping (s : State) (d : Nat) : Bool := (s.reg .hub .pwrDie d).getLsbD 0
/-- The duty in force: the lowest that applies (R394). -/
def State.dutyOf (s : State) (d : Nat) : Nat :=
  if d = 0 then 256
  else
    let x := if s.drooping d then min 128 (s.loopDuty d) else s.loopDuty d
    if s.hotHold.contains d then min 32 x else x
def State.showDuty (s : State) (d : Nat) : State := s.setRf .hub .pwrDie d 16 8 (s.dutyOf d)

/-- Clocks in 1 µs of the clock that a die's throttling withholds (Tables 1-6 and 14-2). -/
def sampleClocks (d : Nat) : Nat := if d ≤ 2 then 2400 else if d ≤ 6 then 1600 else 1200
/-- Clocks issued of the `n` from place `t` of the window (R392). -/
def issuedIn (duty t n : Nat) : Nat := (t + n) * duty / 256 - t * duty / 256

/-- Whether the throttled clock of a die runs: its domain does. -/
def State.clkRuns (s : State) (d : Nat) : Bool :=
  if d ≤ 2 then decide (s.dom (.hd (if d = 1 then 0 else 1)) false = 2)
  else if d ≤ 6 then decide (s.dom (.cd (cdOf (d - 3))) true = 2)
  else decide (s.dom (.cd (cdOf ((d - 7) / 2))) false = 2)
/-- Clocks withheld on a die in a sample are counted. -/
def State.countHeld (s : State) (d : Nat) : State :=
  if !s.clkRuns d then s
  else
  let t := aGet s.clkPhase 0 d
  let n := sampleClocks d
  let h := n - issuedIn (s.dutyOf d) t n
  let u := ({ s with clkPhase := aSet s.clkPhase d ((t + n) % 256) } : State).count .hub .pwrBubbleCnt d h
  if 3 ≤ d ∧ d ≤ 6 then { u with fan := { u.fan with held := u.fan.held + h, clocks := u.fan.clocks + n } } else u

/-- One die's part of a sample: its register, and its duty. -/
def State.sampleDie (l : List (Nat × Nat)) (s : State) (d : Nat) : State :=
  let p := drawOf l d
  if d = 0 then (s.setRf .hub .pwrDie 0 63 48 (p / 1000)).setRf .hub .pwrDie 0 47 32 (min p 90000 / 1000)
  else
    let a := allocOf' (s.limitNow * 25000) l (s.rf .hub .pwrDie d 31 24) s.excurCut d
    let t := ((s.countHeld d).setRf .hub .pwrDie d 63 48 (p / 1000)).setRf .hub .pwrDie d 47 32 (a.1 / a.2 / 1000)
    { t with loopD := aSet t.loopD d (nextDuty (s.dutyOf d) a p) }.showDuty d

/-- Energy in nJ added to a counter of µJ, the fraction carried (R400). -/
def State.addEnergy (s : State) (kind i : Nat) (n : RegName) (nj : Nat) : State :=
  let x := aGet s.enFrac 0 (kind, i) + nj
  ({ s with enFrac := aSet s.enFrac (kind, i) (x % 1000) } : State).count .hub n i (x / 1000)

/-- The energy of a die in a sample charged to contexts: the shares named, at most what the die drew, the rest to CTXID 0. -/
def State.chargeDie (l : List (Nat × Nat)) (shares : List Share) (s : State) (d : Nat) : State :=
  let e := drawOf l d
  let r := (shares.filter fun x => decide (x.die = d)).foldl
    (fun (a : State × Nat) x => let k := min x.nj a.2; (a.1.addEnergy 0 (x.ctx % 4096) .pwrEnCount k, a.2 - k)) (s, e)
  ((r.1.addEnergy 0 0 .pwrEnCount r.2).addEnergy 1 d .pwrDieEnergy e).addEnergy 2 0 .pwrPkgEnergy e

/-- POWER_SAMPLE: the draws and demands of the 15 dies in mW, and what the activity charges to contexts. -/
def execPowerSample (draws : List (Nat × Nat)) (shares : List Share) (s : State) : Host.Outcome State Fault Refusal :=
  done s (
    if s.running .hub false = false then s
    else
      let total := (List.range 15).foldl (fun a d => a + drawOf draws d) 0
      let isOver := decide (s.limitNow * 25000 < total)
      let s1 := if isOver then s else { s with excurCut := false }
      let s2 := (List.range 15).foldl (State.sampleDie draws) s1
      let s3 := (List.range 15).foldl (State.chargeDie draws shares) s2
      let us := if isOver then min 2047 (s.rf .hub .pwrStatus 0 10 0 + 1) else 0
      let s4 := ((s3.setRf .hub .pwrStatus 0 63 48 (min 65535 (total / 1000))).setRf .hub .pwrStatus 0 35 35 (b2n isOver)).setRf
        .hub .pwrStatus 0 10 0 us
      { s4 with fan := { s4.fan with draw := s4.fan.draw + total, samples := s4.fan.samples + 1 } })

/-- A droop hold starts on a die (R394). -/
def State.droopOn (s : State) (d : Nat) : State :=
  ((s.setRf .hub .pwrDie d 0 0 1).showDuty d).count .hub .pwrDroopCnt 0 1
/-- DROOP: the detector of a die, the hub's too, whose duty stays 256 (R390, R391). -/
def execDroop (d : Nat) (s : State) : Host.Outcome State Fault Refusal :=
  done s (if decide (d < 15) && s.running .hub false then s.droopOn d else s)
/-- DROOP_RELEASE. -/
def execDroopRelease (d : Nat) (s : State) : Host.Outcome State Fault Refusal :=
  done s (if decide (d < 15) && s.drooping d then (s.setRf .hub .pwrDie d 0 0 0).showDuty d else s)
/-- PACKAGE_OVERCURRENT (R395). -/
def execPackageOvercurrent (s : State) : Host.Outcome State Fault Refusal :=
  done s (if s.running .hub false then throttled.foldl State.droopOn s else s)

/-- EXCURSION_LIMIT (R395): the excursion has lasted 1.9 ms, which is work of power-loop supervision too (R461). -/
def execExcursionLimit (s : State) : Host.Outcome State Fault Refusal :=
  done s (
    let us := s.rf .hub .pwrStatus 0 10 0
    if us < 1900 ∨ s.excurCut = true then s
    else (({ s with excurCut := true, mgmtWork := s.mgmtWork ++ [1] } : State).count .hub .pwrExcurCnt 0 1).raise .hub 0x06 us)

/-- The highest junction reading, its die, and the summary bits (Table 14-10). -/
def State.thermalView (s : State) : State :=
  let best := (List.range 15).foldl (fun (m : Nat × Nat) d => let x := s.rf .hub .pwrDie d 31 24; if m.1 < x then (x, d) else m) (0, 0)
  let t := (s.setRf .hub .pwrStatus 0 47 40 best.1).setRf .hub .pwrStatus 0 39 36 best.2
  (t.setRf .hub .pwrStatus 0 34 34 (b2n (decide (95 ≤ best.1)))).setRf .hub .pwrStatus 0 33 33 (b2n (!s.hotHold.isEmpty))

/-- THERMAL_SAMPLE (R396). -/
def execThermalSample (d tj : Nat) (s : State) : Host.Outcome State Fault Refusal :=
  done s (
    if 15 ≤ d ∨ 256 ≤ tj ∨ s.running .hub false = false then s
    else
      let t := s.setRf .hub .pwrDie d 31 24 tj
      let held := s.hotHold.contains d
      let t := if d = 0 then t
        else if 100 ≤ tj ∧ held = false then ({ t with hotHold := t.hotHold ++ [d] } : State).raise .hub 0x04 (d * 256 + tj)
        else if tj < 99 then { t with hotHold := t.hotHold.filter fun x => decide (x ≠ d) }
        else t
      (t.showDuty d).thermalView)

/-- THERMAL_TRIP (R396): the trip's fault source, whose reaction resets the package. -/
def execThermalTrip (d tj : Nat) (s : State) : Host.Outcome State Fault Refusal :=
  done s (if d < 15 ∧ 110 ≤ tj ∧ tj < 256 ∧ s.running .hub false = true then s.raise .hub 0x05 (d * 256 + tj) else s)

/-! ### Slack (R398) -/

/-- Whether a context has work running on any compute die. -/
def State.ctxRuns (s : State) (ctx : Nat) : Bool :=
  (s.tiles.any fun e => e.2.blocks.any fun b => decide (b.ctx = ctx) && decide (b.st = .running ∨ b.st = .stopping)) ||
  (s.dmas.any fun e => decide (e.1.1 ≠ .hub) && decide (s.rf e.1.1 .dmaStatus e.1.2 2 0 = 1) && decide (s.rf e.1.1 .dmaCtx e.1.2 11 0 = ctx)) ||
  (s.burrs.any fun e => match e.2.run with | some p => decide (p.ctx = ctx) | none => false) ||
  (s.samplers.any fun e => match e.2.run with | some j => decide (j.ctx = ctx) | none => false)
/-- Whether a command queue of a context is in WAIT. -/
def State.ctxWaits (s : State) (ctx : Nat) : Bool :=
  allCds.any fun n => (List.range 64).any fun q => decide (s.rf (.cd n) .cqCfg q 23 21 = 2) && decide (s.rf (.cd n) .cqCfg q 11 0 = ctx)
def State.fanOn (s : State) : Bool := (s.reg .hub .pwrFanCfg 0).getLsbD 63 && !s.nx
/-- What a clk_time adds to the measurement; with EN 0 a period starts afresh. -/
def State.fanTick (s : State) : State :=
  if s.fanOn then
    let c := s.rf .hub .pwrFanCfg 0 59 48
    if !s.ctxRuns c && s.ctxWaits c then { s with fan := { s.fan with wait := s.fan.wait + 1 } } else s
  else { s with fan := ⟨s.now, 0, 0, 0, 0, 0, s.fan.seq⟩ }

/-- A fraction in units of 2^-16, saturating. -/
def frac16 (a b : Nat) : Nat := if b = 0 then 0 else min 65535 (a * 65536 / b)
/-- The payload of Table 14-5. -/
def State.slackBytes (s : State) : List Byte :=
  let f := s.fan
  let span := (s.now - f.since).toNat
  leBytes 4 f.seq ++ leBytes 2 (s.rf .hub .pwrFanCfg 0 59 48) ++ leBytes 1 s.limitNow ++ leBytes 1 s.limSample
    ++ leBytes 2 (frac16 f.wait span) ++ leBytes 2 (frac16 f.held f.clocks)
    ++ leBytes 2 (if f.samples = 0 then 0 else f.draw / f.samples / 1000) ++ leBytes 2 0 ++ leBytes 8 s.now.toNat ++ leBytes 8 0

/-- SLACK_REPORT: the period is over; the packet goes to the coordinator where a port leads to it. -/
def execSlackReport (s : State) : Host.Outcome State Fault Refusal :=
  done s (
    let cfg := s.reg .hub .pwrFanCfg 0
    if s.fanOn = false ∨ s.running .hub false = false ∨ (s.now - s.fan.since).toNat < 100000 * fld cfg 15 8 then s
    else
      let coord := fld cfg 47 32
      let pkt : TxPkt := { txPkt 0x09 6 coord (fld cfg 59 48) 0 0 with len := 32, data := leNat s.slackBytes }
      let t := match s.route coord with | some p => s.sendPkt p pkt | none => s
      { t with fan := ⟨s.now, 0, 0, 0, 0, 0, (s.fan.seq + 1) % 2 ^ 32⟩ })

/-- SLACK: a report of another package arrives for the software that coordinates (R376, R378, R398). -/
def execSlack (p : Pkt) (s : State) : Host.Outcome State Fault Refusal :=
  done s (s.takePkt p (decide (p.vl = 6)) fun t => t.emit .slack [p.src, p.ctx, p.len, p.data])

/-! ### Snapshots of the counters (R402) -/

/-- PWR_SNAP_TAKE. -/
def execPwrSnapTake (w : Wr) (s : State) : Host.Outcome State Fault Refusal :=
  done s (match s.gate .hub .pwrSnap w.pl w.ctx with
    | .ok =>
      if w.val.getLsbD 63 = false then s
      else
        let live := (s.regs.filter fun e => decide (e.1.die = .hub) && pwrCounter e.1.name).map fun e => ((e.1.name, e.1.idx), e.2)
        ({ s with pwrSnaps := aSet s.pwrSnaps w.pl live }.setReg .hub .pwrSnap w.pl (BitVec.ofNat 64 (fld s.now 62 0))).answer .ok 0
    | e => s.answer e 0)

/-! ### Entry to a power state (R403-R406) -/

/-- Exit latency in µs (Table 14-7). -/
def exitLatency (st : Nat) : Nat := match st with | 0 => 0 | 1 => 2 | 2 => 150 | 3 => 20000 | _ => 2000000

/-- The blocks that take part in a handshake, as (die index, code of Table 14-8). -/
def State.hsBlocks (s : State) : List (Nat × Nat) :=
  (allCds.flatMap fun n =>
    (if s.dom (.cd n) true = 2 then [1, 2, 3, 5, 6].map fun b => (3 + n.val, b) else []) ++
      if s.dom (.cd n) false = 2 then [(3 + n.val, 4), (3 + n.val, 7)] else []) ++
  ([0, 1].flatMap fun k => if s.dom (.hd k) false = 2 then [(1 + k.val, 8)] else []) ++ [3, 6, 9, 10, 11].map fun b => (0, b)

/-- An attempt starts; the answers of every block are awaited. -/
def State.tryBegin (s : State) (target : Nat) (auto : Bool) : State :=
  { s with pwrTry := some ⟨target, auto, [], [], 0⟩ }

/-- An answer (R405). -/
inductive HsAns where
  | accept
  | refuse
  | defer (us : Nat)
deriving DecidableEq, Repr

/-- The answer of a block (Table 14-8); N4 uses N3's. `good` says that a host die's suspend sequence has completed, or that
every link of the PCIe ports is in L1 or down; `us` is the block's estimate of its time. -/
def State.hsAnswer (s : State) (target die block : Nat) (good : Bool) (us : Nat) : HsAns :=
  let d := (Die.ofIdx die).getD .hub
  let n := match d with | .cd n => n | _ => 0
  let no (b : Bool) : HsAns := if b then .refuse else .accept
  if block = 1 then no (s.tiles.any fun e => decide (e.1.die = n) && !e.2.blocks.isEmpty)
  else if target ≤ 1 then .accept
  else
    match block with
    | 2 => no ((List.range 64).any (fun q => decide (s.cqSt n q = 1 ∨ s.cqSt n q = 2)) || s.cmds.any fun c => decide (c.die = n) && c.started)
    | 3 =>
      no ((List.range (unitCount d .dma)).any fun ch =>
        let st := s.dmaSt d ch
        if target = 2 then decide (st = 1) else decide (1 ≤ st ∧ st ≤ 4))
    | 4 =>
      let any (p : BurrRef → Bool) : Bool := (burrsAll n).any p
      if any fun b => decide (s.burSt b = 2) || (decide (3 ≤ target) && decide (s.burSt b = 3 ∨ s.burSt b = 4)) then .refuse
      else if any fun b => decide (s.burSt b = 1) || (s.burr b).pend.isSome then .defer (min us 1000)
      else .accept
    | 5 => no ((smpsAll n).any fun u => decide (s.smpSt u ≠ 0 ∧ s.smpSt u ≠ 4))
    | 6 => no (s.heldEv.any fun h => decide (h.die = d))
    | 7 => no (decide (3 ≤ target) && s.relayout && (match s.retEnts.getLast? with | some e => decide (pchDie e.p = n) | none => false))
    | 8 => no (decide (3 ≤ target) && !good)
    | 9 => no (decide (3 ≤ target) && (!s.mops.isEmpty || (List.range 64).any fun q => decide (s.sqSt q = 1)))
    | 10 =>
      if target ≤ 2 then .accept
      else if s.rf .hub .fwStatus 0 2 2 = 1 ∨ s.rf .hub .licStatus 0 1 0 = 2 ∨ s.licWait.isSome = true then .refuse
      else if !s.mbox.isEmpty then .defer (min us 1000) else .accept
    | 11 => if 3 ≤ target ∧ good = false then .defer (min us 1000) else .accept
    | _ => .accept

/-- The first refusal or missing answer is recorded (R405). -/
def State.refuser (s : State) (die block : Nat) : State :=
  (s.setRf .hub .pwrStateStatus 0 19 16 die).setRf .hub .pwrStateStatus 0 15 8 block

/-- A refusal, with the status that LAST becomes: the attempt is abandoned; an automatic one for N2 goes on with N1 (R404, R405). -/
def State.tryRefused (s : State) (t : PwrTry) (die block : Nat) (last : Status) : State :=
  let u := (s.refuser die block).tryOver last
  if t.auto && decide (t.target = 2) then u.tryBegin 1 true else u

/-- The last ACCEPT has come (R406): the entry is committed, unless new work has reached a block that had accepted. -/
def State.tryCommit (s : State) (t : PwrTry) : State :=
  if s.hsBlocks.all fun b => decide (s.hsAnswer t.target b.1 b.2 true 0 = .accept) then
    ({ s with pwrTry := none }.setRf .hub .pwrStateStatus 0 23 20 0).setRf .hub .pwrStateStatus 0 27 24 t.target
  else s.tryOver .abrt

/-- HANDSHAKE_ANSWER. -/
def execHandshakeAnswer (die block : Nat) (good : Bool) (us : Nat) (s : State) : Host.Outcome State Fault Refusal :=
  done s (match s.pwrTry with
    | none => s
    | some t =>
      if !s.hsBlocks.contains (die, block) || t.accepted.contains (die, block) || t.deferring.any (fun e => decide (e.1 = (die, block))) then s
      else
        match s.hsAnswer t.target die block good us with
        | .refuse => s.tryRefused t die block .busy
        | .defer n => { s with pwrTry := some { t with deferring := t.deferring ++ [((die, block), n)] } }
        | .accept =>
          let t1 := { t with accepted := t.accepted ++ [(die, block)] }
          if s.hsBlocks.all fun b => t1.accepted.contains b then s.tryCommit t1 else { s with pwrTry := some t1 })

/-- Whether a block has not answered yet. -/
def State.hsMissing (s : State) (t : PwrTry) : Option (Nat × Nat) :=
  s.hsBlocks.find? fun b => !t.accepted.contains b && !t.deferring.any fun e => decide (e.1 = b)
/-- The longest defer time of this round. -/
def PwrTry.longest (t : PwrTry) : Nat := t.deferring.foldl (fun m e => max m e.2) 0

/-- HANDSHAKE_DEFER_EXPIRE: every block is asked again. -/
def execHandshakeDeferExpire (s : State) : Host.Outcome State Fault Refusal :=
  done s (match s.pwrTry with
    | none => s
    | some t =>
      if (s.hsMissing t).isSome ∨ t.deferring = [] ∨ 10000 ≤ t.spent + t.longest then s
      else { s with pwrTry := some { t with accepted := [], deferring := [], spent := t.spent + t.longest } })

/-- HANDSHAKE_TIMEOUT: an answer is missing after 10 µs, which is recorded and raised and counts as a refusal; or deferral has
reached 10 ms. -/
def execHandshakeTimeout (s : State) : Host.Outcome State Fault Refusal :=
  done s (match s.pwrTry with
    | none => s
    | some t =>
      match s.hsMissing t with
      | some b => (s.tryRefused t b.1 b.2 .tout).raise .hub 0x03 (b.1 * 256 + b.2)
      | none => if t.deferring ≠ [] ∧ 10000 ≤ t.spent + t.longest then s.tryOver .tout else s)

/-- Whether no attempt, entry or exit is in progress. -/
def State.pwrQuiet (s : State) : Bool := s.pwrTry.isNone && decide (s.pwrTarget = s.pwrState) && s.wakeDue.isNone

/-- The fields of PWR_STATE_CTRL that a write sets. -/
def State.ctrlStore (s : State) (val : W64) : State := s.setReg .hub .pwrStateCtrl 0 (writeFields .pwrStateCtrl (s.reg .hub .pwrStateCtrl 0) val)

/-- A write lowers LATTOL below the exit latency of the state in effect: a wake (R404). -/
def State.latLowered (s : State) (old new : Nat) : State := if new < old ∧ new < exitLatency s.pwrState then s.wakeIf 5 0 else s

/-- A request for a state below N2 (R404). -/
def State.pwrRequest (s : State) (w : Wr) (target : Nat) : State :=
  match s.gate .hub .pwrStateCtrl w.pl w.ctx with
  | .ok =>
    if fld w.val 6 4 ≠ target then s
    else if w.pl ≠ 0 ∧ fld w.val 63 32 < exitLatency target then s.answer .perm 0
    else if s.pwrQuiet = false ∨ target ≤ s.pwrState then s.answer .busy 0
    else (((s.ctrlStore w.val).tryBegin target false).latLowered (s.rf .hub .pwrStateCtrl 0 63 32) (fld w.val 63 32)).answer .ok 0
  | e => s.answer e 0
/-- REQUEST_N3. -/
def execRequestN3 (w : Wr) (s : State) : Host.Outcome State Fault Refusal := done s (s.pwrRequest w 3)
/-- REQUEST_N4. -/
def execRequestN4 (w : Wr) (s : State) : Host.Outcome State Fault Refusal := done s (s.pwrRequest w 4)

/-- LATTOL_WRITE: a write of PWR_STATE_CTRL without a request; a LATTOL lowered below the exit latency of the state in effect
is a wake (R404). -/
def execLattolWrite (w : Wr) (s : State) : Host.Outcome State Fault Refusal :=
  done s (match s.gate .hub .pwrStateCtrl w.pl w.ctx with
    | .ok =>
      if fld w.val 6 4 ≠ 0 then s
      else
        ((s.ctrlStore w.val).latLowered (s.rf .hub .pwrStateCtrl 0 63 32) (fld w.val 63 32)).answer .ok 0
    | e => s.answer e 0)

/-- IDLEHOLD_EXPIRE (R404): the lowest state that LATTOL allows is tried. -/
def execIdleholdExpire (s : State) : Host.Outcome State Fault Refusal :=
  done s (
    let lat := s.rf .hub .pwrStateCtrl 0 63 32
    if s.rf .hub .pwrStateCtrl 0 1 1 = 0 ∨ s.inN0 = false ∨ s.pwrQuiet = false ∨ lat < 2 ∨ s.running .hub false = false ∨
        (s.tiles.any fun e => !e.2.blocks.isEmpty) = true then s
    else s.tryBegin (if lat < 150 then 1 else 2) true)

/-- Agents of the compute dies' tile domains, and with the host dies. -/
def tileAgents : List Nat := List.range 32
/-- Entry to N2: every cluster L2 is drained and its agents marked down; the tile domains go to retention. None while a
request is outstanding. -/
def State.enterN2 (s : State) : Option State :=
  let t := tileAgents.foldl State.drainAgent s
  if tileAgents.all t.drained then
    let u := allCds.foldl (fun x n => if x.dom (.cd n) true = 2 then x.domLeaves (.cd n) true 3 else x) t
    some (tileAgents.foldl (fun x a => (x.agentGone a).markDown a) u)
  else none

/-- Entry to N3 (R273, R403): accepted requests end and caches are drained, stacks go to self-refresh, compute and host dies off; the stack rails stay. -/
def State.enterN3 (s : State) : Option State :=
  let t := (List.range 34).foldl State.drainAgent s
  if !(List.range 34).all t.drained || t.txns.any (fun x => !isCxlP (locP x.loc)) || !t.rereads.isEmpty then none
  else
    let t := (List.range 34).foldl (fun x a => x.markDownOn .hub a) t
    let u := allCds.foldl (fun x n =>
      if x.dom (.cd n) false = 4 then x else (((x.tileLeaves n 0).domLeaves (.cd n) false 0).cdGone n true).linksDown (.cd n)) t
    let v := [0, 1].foldl (fun x k => if x.dom (.hd k) false = 4 then x else (x.domLeaves (.hd k) false 0).hdGone k) u
    some (farDies.foldl (fun x d => x.railsDown ((offSteps d).filter fun r => decide (r < 10))) v)

/-- The domains of a die are off, and so are its stacks. -/
def State.dieOff (s : State) (d : Die) : State :=
  let t := (match d with
    | .cd n => (((s.tileLeaves n 0).domLeaves d false 0).cdGone n false).linksDown d
    | .hd k => ((s.domLeaves d false 0).hdGone k).linksDown d
    | .hub => s)
  { t with pups := t.pups.filter fun u => decide (u.die ≠ d) }.railsDown (offSteps d)
/-- Entry to N4: the sequenced rails are removed, then HUB_EN, and the hub always-on domain alone is left (R403, R466, R474); none while
rails are being removed. -/
def State.enterN4 (s : State) : Option State :=
  if s.rdown ≠ [] then none
  else if s.rails ≠ [] then
    some (farDies.foldl (fun x d => if x.dom d false = 4 then x.railsDown (offSteps d) else x.dieOff d) s)
  else
    let t : State := { s.packageDown true with boot := 1, hubEn := false, pwrGood := false, resetBusy := false }
    some (((t.setDom .hub false 0).setReg .hub .pwrStateStatus 0 (setFld 0 27 24 4)).emit .pin [0, 0])

/-- POWER_STATE_ENTERED: the entry goes on, for N4 in two parts. -/
def execPowerStateEntered (s : State) : Host.Outcome State Fault Refusal :=
  done s (
    let tgt := s.pwrTarget
    if tgt ≤ s.pwrState ∨ s.pwrTry.isSome = true then s
    else
      let r := if tgt = 1 then some s else if tgt = 2 then s.enterN2 else if tgt = 3 then s.enterN3 else s.enterN4
      match r with
      | none => s
      | some t =>
        if tgt = 4 ∧ t.hubEn = true then t else ({ t with wakeDue := s.wakeDue }.setRf .hub .pwrStateStatus 0 31 28 tgt).setRf .hub .pwrStateStatus 0 23 20 0)

/-! ### Wake and exit (R403, R407, R408) -/

/-- Exit starts: what was off is powered up again; from N2 a tile domain whose rail has gone (R409, R466). -/
def State.exitBegin (s : State) : State :=
  if s.pwrState = 3 then
    let t := allCds.foldl (fun x n => if x.dom (.cd n) false = 0 then x.powerUp (.cd n) false else x) s
    [0, 1].foldl (fun x k => if x.dom (.hd k) false = 0 then x.powerUp (.hd k) false else x) t
  else if s.pwrState = 2 then
    allCds.foldl (fun x n =>
      if x.dom (.cd n) true = 3 ∧ x.rails.contains n.val = false then (x.tileDomGone n).powerUp (.cd n) true else x) s
  else s

/-- WAKE: the source that has fired is recorded, and exit starts. -/
def execWake (s : State) : Host.Outcome State Fault Refusal :=
  done s (match s.wakeDue with
    | none => s
    | some (src, detail) =>
      let from_ := s.pwrState
      if from_ = 0 ∨ s.pwrTarget ≠ from_ ∨ s.pwrTry.isSome = true then s
      else
        let time := if from_ = 4 then (s.reg .hub .pwrRtcCount 0).toNat else s.now.toNat
        let rec_ : W64 := BitVec.ofNat 64 (2 ^ 63 + from_ * 2 ^ 60 + src % 16 * 2 ^ 56 + detail % 256 * 2 ^ 48 + time % 2 ^ 48)
        (({ s with wakeDue := none }.setReg .hub .pwrWakeRec 0 rec_).setRf .hub .pwrStateStatus 0 27 24 0).exitBegin)

/-- Agents whose domains run, whose links have trained and whose sweeps have finished are marked up (R307). -/
def State.marksUp (s : State) (l : List Nat) : State :=
  l.foldl (fun x a => if x.agentUp a && x.agentLinked a && x.swept a then x.markUp a else x) s

/-- The pseudo-channels of a stack return to the states they had (R273, R433). -/
def State.pchBack (s : State) (k : Nat) : State :=
  if s.deadStacks.contains k then s
  else
    ((upFrom (64 * k) 64).foldl (fun x p =>
      let v := aGet s.pchKeep 0 p
      let y := x.setPch p v
      let ent := (s.retEnts.find? fun e => decide (e.p = p)).map fun e => e.k
      match ent with
      | some e => if v = 6 then (y.setRf (.cd (pchDie p)) .memPchState (pchIdx p) 12 8 e).setBurSt (burrOfPch p) 6 else y.setBurSt (burrOfPch p) 6
      | none => y) s).setReady (40 + k) 1

/-- An access that was held is performed (R403). -/
def State.perform (s : State) (c : Instr) : State :=
  match c with
  | .registerWrite w => s.regWrite w
  | .samplerDisable w => s.smpOff w
  | .samplerEnable w => s.smpOn w
  | .dmaGo w => s.dmaGoWrite w
  | .dmaResume w => s.dmaResumeWrite w
  | .dmaAbort w => s.dmaAbortWrite w
  | .dmaPause w => s.dmaPauseWrite w
  | .dmaDisable w => s.dmaOff w
  | .dmaEnable w => s.dmaOn w
  | .cqDoorbell w => s.cqRing w
  | .cqEnable w => s.cqOn w
  | .cqDisable w => s.cqOff w
  | .eqPop w => s.eqPopWrite w
  | .eqPush w => s.eqPushWrite w
  | .eqEnable w => s.eqOn w
  | .eqDisable w => s.eqOff w
  | .preempt w => s.preemptWrite w
  | .preemptResume w => s.resumeWrite w
  | .restore w => s.restoreWrite w
  | .bsave w => s.bsaveWrite w
  | .brestore w => s.brestoreWrite w
  | .release w => s.releaseWrite w
  | .kill w => s.killWrite w
  | _ => s
/-- The package is back in N0, and the accesses that were held are performed in their order. -/
def State.awake (s : State) : State :=
  let t := s.setRf .hub .pwrStateStatus 0 31 28 0
  t.held.foldl State.perform { t with held := [] }

/-- POWER_STATE_EXITED: the end condition of Table 14-7 holds. -/
def execPowerStateExited (s : State) : Host.Outcome State Fault Refusal :=
  done s (
    let st := s.pwrState
    if st = 0 ∨ s.pwrTarget ≠ 0 then s
    else if st = 1 then s.awake
    else if st = 2 then
      if s.pups.any fun u => u.tile then s
      else
        let t := allCds.foldl (fun x n => if x.dom (.cd n) true = 3 then (x.setDom (.cd n) true 2).setReady (36 + n.val) 1 else x) s
        (t.marksUp tileAgents).awake
    else if st = 3 then
      let settled (d : Die) : Bool := decide (s.dom d false = 2 ∨ s.dom d false = 4)
      if !farDies.all settled || allCds.any (fun n => decide (s.dom (.cd n) false = 2) && !s.linkUp (4 + n.val)) then s
      else
        let t := allCds.foldl (fun x n => if x.dom (.cd n) false = 2 then (x.pchBack (2 * n.val)).pchBack (2 * n.val + 1) else x) s
        (t.marksUp (List.range 34)).awake.recoverySettle
    else if s.boot = 9 ∨ s.boot = 10 then s.awake else s)

/-- RTC_TICK (R407): a tick of the crystal, which oscillates from its first one on after the supply has come (R471): the count advances,
and an alarm whose count it reaches fires. -/
def execRtcTick (s : State) : Host.Outcome State Fault Refusal :=
  done s (
    if s.aonUp = false then s
    else
      let t := { s with xtal := true }.setReg .hub .pwrRtcCount 0 (s.reg .hub .pwrRtcCount 0 + 1)
      t.alarmIf fun k => decide (k = (t.reg .hub .pwrRtcCount 0).toNat) || (!s.xtal && decide (k ≤ (t.reg .hub .pwrRtcCount 0).toNat)))

/-- ENDPOINT_WAKE_DOORBELL (R403): a 4-byte write at BAR2 offset 0x3000 of the endpoint port. -/
def execEndpointWakeDoorbell (r : Tlp) (s : State) : Host.Outcome State Fault Refusal :=
  done s (if r.wr && decide (r.pa = 0x3000) && decide (r.len = 4) && s.portMode r.port 1 then s.wakeIf 2 255 else s)

/-! ### The management cores (R461) -/

/-- A telemetry snapshot: package draw in W, highest junction temperature, package and die energy. -/
def State.telemTake (s : State) : State :=
  { s with telem := ⟨s.now, [s.rf .hub .pwrStatus 0 63 48, s.rf .hub .pwrStatus 0 47 40, (s.reg .hub .pwrPkgEnergy 0).toNat] ++
      (List.range 15).map fun d => (s.reg .hub .pwrDieEnergy d).toNat⟩ }
/-- Age of the snapshot in ms. -/
def State.telemAge (s : State) : Nat := (s.now - s.telem.time).toNat / 100000
/-- A piece of the work of the management cores that no command stands for, in the order of R461: fault handling, power-loop supervision,
and, where no mailbox request waits, telemetry, sampled every 1 ms; telemetry stops during a live activation (R457). -/
def State.mgmtTick (s : State) : State :=
  if s.fwRuns = false then s
  else if s.mgmtWork.contains 0 then { s with mgmtWork := s.mgmtWork.erase 0 }
  else if s.mgmtWork ≠ [] then { s with mgmtWork := s.mgmtWork.drop 1 }
  else if s.mbox ≠ [] ∨ s.rf .hub .fwStatus 0 2 2 = 1 ∨ s.telemAge < 1 then s
  else s.telemTake

/-! ### Rails and PLLs (R409, R466, R467) -/

/-- RAIL_PG: the rail is there, and the power-up that waits for it goes on. -/
def execRailPg (rail : Nat) (s : State) : Host.Outcome State Fault Refusal :=
  done s (match s.pupAt rail with
    | some u => if rail < 34 then { s with rails := s.rails ++ [rail] }.pupWith u (u.todo.drop 1) else s
    | none => s)

/-- RAIL_PG_TIMEOUT. -/
def execRailPgTimeout (rail : Nat) (s : State) : Host.Outcome State Fault Refusal :=
  done s (match s.pupAt rail with
    | some u => if rail < 34 then s.stepTimeout u 1 else s
    | none => s)

/-- The power-up of a die that waits for its PLL. -/
def State.pllAt (s : State) (d : Die) : Option PUp := s.pups.find? fun u => decide (u.die = d) && decide (u.todo.headD 101 = 100)
/-- PLL_LOCK_ACQUIRED. -/
def execPllLockAcquired (d : Die) (s : State) : Host.Outcome State Fault Refusal :=
  done s (match s.pllAt d with | some u => s.pupWith u (u.todo.drop 1) | none => s)
/-- PLL_LOCK_TIMEOUT. -/
def execPllLockTimeout (d : Die) (s : State) : Host.Outcome State Fault Refusal :=
  done s (match s.pllAt d with | some u => s.stepTimeout u 2 | none => s)

end Sys2Proof.Machine
end

