-- ==== Sys2Proof/Machine/Faults.lean ====
section
/-!
DEFINITION. Fault collection and reactions, upsets and retirement, links, reset scopes with their Weirs, and losing a die
(R411-R436, R466-R470).
-/

namespace Sys2Proof.Machine

/-! ### Reset scopes (R427-R430) -/

/-- The coherence agents inside a scope. -/
def RstOp.agents (r : RstOp) : List Nat :=
  match r.die with
  | .cd n => if r.scope = 0 then [] else if r.scope = 1 then [8 * n.val + r.cluster] else upFrom (8 * n.val) 8
  | .hd k => if r.scope = 3 then [32 + k.val] else []
  | .hub => []
/-- The tiles inside a scope. -/
def RstOp.tiles (r : RstOp) : List TileRef :=
  match r.die with
  | .cd n =>
    if r.scope = 0 then [⟨n, 16 * r.cluster + r.unit⟩]
    else if r.scope = 1 then tilesOf n [r.cluster] else tilesOf n (List.range 8)
  | _ => []
/-- Whether a scope lies inside another, or is the same. -/
def RstOp.inside (a b : RstOp) : Bool :=
  decide (a.die = b.die) &&
    (match b.scope with
      | 0 => decide (a.scope = 0 ∧ a.cluster = b.cluster ∧ a.unit = b.unit)
      | 1 => decide (a.scope ≤ 1 ∧ a.cluster = b.cluster)
      | 2 => decide (a.scope ≤ 2)
      | _ => true)

/-- A pre-emption does not count the blocks that a reset of their tiles ends (R430). -/
def State.preForget (s : State) (n : Fin 4) (l : List TileRef) : State :=
  match s.pre? n with
  | some o => if o.op = 1 then (s.setPre n { o with todo := o.todo.filter fun e => !l.contains ⟨n, e.1⟩ }).preGo n else s
  | none => s

/-- Work inside a scope stops as its Weir closes (R428): the blocks of the tiles inside a tile or a cluster end with ABRT;
write buffers and caches stay for the drain. A domain's units stop because it takes no more part (`State.closed`). -/
def State.weirClose (s : State) (r : RstOp) : State :=
  if r.scope ≤ 1 then
    let t := r.tiles.foldl (fun t x =>
      let y := t.tile x
      let u := y.blocks.foldl (fun z b => z.launchEnd x b.bid .abrt) t
      u.setTile x { y with blocks := [], ops := [], mx := [], vx := [] }) s
    match r.die with
    | .cd n => t.preForget n r.tiles
    | _ => t
  else s

/-- A reset of a scope is asked for (R430): none where one that contains it is running; the scope of a domain that does not
run has nothing to reset. Inner Weirs give way. -/
def State.rstBegin (s : State) (r : RstOp) : State :=
  if s.resets.any (fun x => r.inside x) || decide (s.dom r.die (decide (r.scope ≤ 2) && (match r.die with | .cd _ => true | _ => false)) ≠ 2) then s
  else
    let t : State := { s with resets := (s.resets.filter fun x => !x.inside r) ++ [r] }
    (t.weirClose r).rstBusy

/-- A new reset operation. -/
def rstOp (scope : Nat) (d : Die) (cluster unit : Nat) (asked : Bool) : RstOp := ⟨scope, d, cluster, unit, true, false, asked, []⟩

/-- A partition is reset, with its contents lost where they are not in self-refresh, its agents are marked down, and its power-up
starts (R307, R432, R433). -/
def State.partitionDown (s : State) (d : Die) (lost : Bool) : State :=
  let start (t : State) : State :=
    (({ t with
      pups := t.pups.filter fun u => decide (u.die ≠ d)
      unlocked := t.unlocked.filter fun x => decide (x ≠ d) }).powerUp d false)
  match d with
  | .cd n =>
    let t := ((((s.tileLeaves n 1).domLeaves d false 1).cdGone n (!lost)).linksDown d)
    let t : State := if lost && !t.lostMem.contains n.val then { t with lostMem := n.val :: t.lostMem } else t
    start ((rstOp 3 d 0 0 false).agents.foldl State.markDown t)
  | .hd k => start ((((s.domLeaves d false 1).hdGone k).linksDown d).markDown (32 + k.val))
  | .hub => s

/-- The reset of a scope whose drain has ended; a domain that leaves running has its agents marked down (R307). -/
def State.rstApply (s : State) (r : RstOp) : State :=
  let t : State := { s with resets := s.resets.map fun x => if x = r then { r with draining := false } else x }
  if r.scope ≤ 1 then
    (r.agents.foldl State.agentGone (r.tiles.foldl (fun x y => x.setTile y Tile.empty) t)).ridsGone fun rid =>
      r.tiles.any fun y => decide (rid = s.reqId (.tile y))
  else if r.scope = 2 then
    match r.die with
    | .cd n => r.agents.foldl State.markDown ((t.domLeaves r.die true 1).tileDomGone n)
    | _ => t
  else t.partitionDown r.die (!r.clean)

/-- Whether nothing of a scope is outstanding (R428), in a die whose clocks run. -/
def State.rstQuiet (s : State) (r : RstOp) : Bool :=
  !s.unlocked.contains r.die &&
  r.tiles.all (fun t =>
    let x := s.tile t
    x.wb.isEmpty && x.fills.isEmpty && x.ops.all fun o => o.lanes.all fun l => decide (l.st ≠ .wait)) &&
  r.agents.all s.drained &&
  (decide (r.scope ≤ 1) || (match r.die with
    | .cd n =>
      !(s.reqs.any fun q => decide (64 ≤ q.who) && s.tileRid n (q.who - 64)) &&
      (decide (r.scope = 2) || (!(s.txns.any fun x => decide (homeDie (locP x.loc) = r.die)) &&
        !s.rereads.any fun x => decide (homeDie x.p = r.die)))
    | _ => true))

/-- WEIR_DRAIN_DONE: the scope's agents have done their planned drain (R307), and it resets. -/
def execWeirDrainDone (i : Nat) (s : State) : Host.Outcome State Fault Refusal :=
  done s (match s.resets[i]? with
    | none => s
    | some r =>
      let t := r.agents.foldl State.drainAgent s
      if r.draining && t.rstQuiet r then
        let r1 := { r with clean := true }
        { t with resets := t.resets.map fun x => if x = r then r1 else x }.rstApply r1
      else s)

/-- WEIR_DRAIN_TIMEOUT (R428): WEIR_TOUT is raised, agents that have not finished are marked down, and the scope resets. -/
def execWeirDrainTimeout (i : Nat) (s : State) : Host.Outcome State Fault Refusal :=
  done s (match s.resets[i]? with
    | none => s
    | some r =>
      if r.draining = false then s
      else
        let late := r.agents.filter fun a => !s.drained a
        let r1 := { r with downed := late }
        let t : State := { s with resets := s.resets.map fun x => if x = r then r1 else x }
        let t := (t.raise .hub 0x08 (r.die.idx * 256 + r.scope)).raise r.die 0x08 r.scope
        (late.foldl (fun x a => x.markDown a) t).rstApply r1)

/-- SCOPE_RESET_DONE (R429): a tile, a cluster or a tile domain runs again; `bad` are the tiles and channels whose self-test failed
(R425). -/
def execScopeResetDone (i : Nat) (bad : SelfTest) (s : State) : Host.Outcome State Fault Refusal :=
  done s (match s.resets[i]? with
    | none => s
    | some r =>
      if r.draining || decide (3 ≤ r.scope) then s
      else
        let t := s.rstDrop fun x => decide (x = r)
        match r.die with
        | .cd n =>
          let t := if r.scope = 2 then (t.tileUp n).chanTest r.die bad.chans else t
          (bad.tiles.filter fun k => decide (k.1 = n.val) && r.tiles.any fun x => decide (s.localIndex x = k.2)).foldl
            (fun x k => x.retireTile n k.2) (t.marksUp (if r.scope = 2 then r.agents else r.downed))
        | _ => t)

/-- RESET_REQUEST: a write of FLT_RESET_REQ with GO (Table 15-22). -/
def execResetRequest (w : Wr) (s : State) : Host.Outcome State Fault Refusal :=
  done s (match s.gate .hub .fltResetReq w.pl w.ctx with
    | .ok =>
      if w.val.getLsbD 0 = false then s
      else
        let scope := fld w.val 51 48
        let unit := fld w.val 40 35
        let put := s.setReg .hub .fltResetReq 0 (writeFields .fltResetReq (s.reg .hub .fltResetReq 0) w.val)
        let say (t : State) (st : Status) : State := (t.setRf .hub .fltResetReq 0 59 56 st.code).answer st 0
        if scope = 4 ∧ w.pl = 0 then say { put.setRf .hub .fltResetCause 0 15 0 4 with resetDue := true } .ok
        else
          match scope, Die.ofIdx (fld w.val 47 44) with
          | 4, _ => say put .perm
          | _, some .hub => say put .perm
          | _, none => say put .perm
          | _, some d =>
            let far := match d with | .cd _ => true | _ => false
            if 4 < scope ∨ (far = false ∧ (scope = 1 ∨ scope = 2)) ∨ (scope = 0 ∧ (if far then 12 else 48) ≤ unit) then say put .perm
            else if far && decide (scope = 3) && s.relayout then say put .busy
            else say (put.rstBegin (rstOp scope d (fld w.val 43 41) unit true)) .ok
    | e => s.answer e 0)

/-! ### Collectors and reactions (R411-R417) -/

/-- Whether a collector works: its domain does (R411). -/
def State.collects (s : State) (d : Die) : Bool := decide (s.dom d false = 2)

/-- ALIVE_OUT stops and holds its level (R423): 1 by EPIN, 2 by the watchdog. -/
def State.aliveStop (s : State) (why : Nat) : State :=
  if s.rf .hub .fltAlive 0 31 31 = 1 then (s.setRf .hub .fltAlive 0 31 31 0).setRf .hub .fltAlive 0 29 28 why else s

/-- The block of a source's BRST column, as a reset to ask for (Tables 15-2 to 15-4). -/
def brstOp (d : Die) (src info : Nat) : Option RstOp :=
  match d with
  | .hub => none
  | .hd _ => if src = 0 then some (rstOp 3 d 0 0 false) else if src = 0x20 ∧ info < 48 then some (rstOp 0 d 0 info false) else none
  | .cd _ =>
    if src = 0 then some (rstOp 3 d 0 0 false)
    else if src = 0x33 then some (rstOp 2 d 0 0 false)
    else if 0x40 ≤ src ∧ src < 0x48 then
      (if info / 256 % 256 < 12 then some (rstOp 0 d (src - 0x40) (info / 256 % 256) false) else none)
    else if 0x58 ≤ src ∧ src < 0x60 then some (rstOp 1 d (src - 0x58) 0 false) else none

/-- A TRAP reaches the management cores (R416): work of fault handling, served before mailbox commands (R461). -/
def State.trapOut (s : State) (die src : Nat) : State := { s.emit .trap [die, src] with mgmtWork := s.mgmtWork ++ [0] }

/-- The reactions of a report (R415): BRST always; the others where the source's sticky bit was 0. The CAUSE is written and
ALIVE_OUT stopped before a package reset. -/
def State.react (s : State) (r : Report) (fresh : Bool) : State :=
  let v := s.reg r.die .fltReact r.src
  let on (i : Nat) : Bool := v.getLsbD i && fresh
  let t := if on 0 then s.sendInt (s.rf r.die .fltIntCfg 0 31 25) (s.rf r.die .fltIntCfg 0 24 17) else s
  let t : State :=
    if on 1 then (if t.liveNext then { t with heldTraps := t.heldTraps ++ [(r.die.idx, r.src)] } else t.trapOut r.die.idx r.src)
    else t
  let t := match v.getLsbD 2, brstOp r.die r.src r.info.toNat with | true, some o => t.rstBegin o | _, _ => t
  let t := if on 4 then t.aliveStop 1 else t
  if on 3 then { t.setRf .hub .fltResetCause 0 15 0 (r.die.idx * 2 ^ 12 + r.src * 2 ^ 4 + 3) with resetDue := true } else t

/-- A report latched, or counted while a record is held (R412). -/
def State.latch (s : State) (r : Report) : State :=
  let f := s.reg r.die .fltFirst 0
  if f.getLsbD 63 then s.setReg r.die .fltFirst 0 (setFld (setFld f 62 62 1) 47 32 (min 65535 (fld f 47 32 + 1)))
  else
    ((s.setReg r.die .fltFirst 0 (setFld (setFld (setFld f 63 63 1) 61 61 (b2n r.forced)) 7 0 r.src)).setReg
      r.die .fltFirstTime 0 s.now).setReg r.die .fltFirstInfo 0 (r.info.zeroExtend 64)

/-- A report taken by its collector: recorded, its sticky bit set, sent on to the hub, its reactions applied. -/
def State.takeReport (s : State) (r : Report) : State :=
  let old := s.rf r.die .fltSticky (r.src / 64) (r.src % 64) (r.src % 64)
  let t := (s.latch r).setRf r.die .fltSticky (r.src / 64) (r.src % 64) (r.src % 64) 1
  ({ t with forwards := t.forwards ++ [(r, s.now)] } : State).react r (decide (old = 0))

/-- Reports in the order of their source numbers. -/
def bySource : List Report → List Report
  | [] => []
  | r :: l =>
    let m := bySource l
    m.filter (fun x => decide (x.src < r.src)) ++ [r] ++ m.filter fun x => decide (r.src ≤ x.src)

/-- Reports of a list without the first `n` of a die. -/
def dropOf (d : Die) : Nat → List Report → List Report
  | _, [] => []
  | n, r :: l => if r.die = d then (match n with | 0 => r :: l | k + 1 => dropOf d k l) else r :: dropOf d n l

/-- FAULT_REPORT: the next `n` reports of a die arrive at its collector in one clock, the lowest source first. -/
def execFaultReport (d : Die) (n : Nat) (s : State) : Host.Outcome State Fault Refusal :=
  done s (
    let l := (s.raised.filter fun r => decide (r.die = d)).take n
    if s.collects d = false ∨ l = [] then s
    else (bySource l).foldl State.takeReport { s with raised := dropOf d n s.raised })

/-- FAULT_FORWARD: the next `n` reports of dies that a link still joins to the hub arrive there in one clk_mgmt, the lowest
die index first. -/
def execFaultForward (n : Nat) (s : State) : Host.Outcome State Fault Refusal :=
  done s (
    let can (x : Report × W64) : Bool := s.reach x.1.die .hub
    let l := (s.forwards.filter can).take n
    if s.running .hub false = false ∨ l = [] then s
    else
      let sorted := [0, 1, 2, 3, 4, 5, 6].flatMap fun i => l.filter fun x => decide (x.1.die.idx = i)
      let rest := s.forwards.filter (fun x => !can x) ++ (s.forwards.filter can).drop n
      sorted.foldl (fun t x => t.latchPkg x.1 x.2) { s with forwards := rest })

/-- A write of FLT_CTRL with both of its bits. -/
def State.fltClear (s : State) (w : Wr) (bit : Nat) : State :=
  match s.gate w.die .fltCtrl w.pl w.ctx with
  | .ok =>
    if w.val.getLsbD bit = false then s
    else
      let t := if w.val.getLsbD 0 then
          ((s.setReg w.die .fltFirst 0 0).setReg w.die .fltFirstTime 0 0).setReg w.die .fltFirstInfo 0 0 else s
      (if w.val.getLsbD 1 && decide (w.die = .hub) then (t.setReg .hub .fltPkgFirst 0 0).setReg .hub .fltPkgTime 0 0 else t).answer .ok 0
  | e => s.answer e 0
/-- FAULT_CLEAR. -/
def execFaultClear (w : Wr) (s : State) : Host.Outcome State Fault Refusal := done s (s.fltClear w 0)
/-- PKGCLEAR. -/
def execPkgclear (w : Wr) (s : State) : Host.Outcome State Fault Refusal := done s (s.fltClear w 1)

/-- FAULT_FORCE (R417): sources that the tables assign. -/
def execFaultForce (w : Wr) (s : State) : Host.Outcome State Fault Refusal :=
  done s (match s.gate w.die .fltForce w.pl w.ctx with
    | .ok =>
      let k := w.idx % 4
      let l := (List.range 64).filter fun j => w.val.getLsbD j && decide (defaultReact w.die (64 * k + j) ≠ 0)
      { s with raised := s.raised ++ l.map fun j => Report.mk w.die (64 * k + j) 0xFFFFFFFF#32 true }.answer .ok 0
    | e => s.answer e 0)

/-! ### ALIVE_OUT and the watchdog (R423, R424, R458) -/

/-- ALIVE_TOGGLE. -/
def execAliveToggle (s : State) : Host.Outcome State Fault Refusal :=
  done s (if s.rf .hub .fltAlive 0 31 31 = 1 then s.setRf .hub .fltAlive 0 30 30 (1 - s.rf .hub .fltAlive 0 30 30) else s)

/-- Whether a source with EPIN set has its sticky bit set in any collector. -/
def State.epinStands (s : State) : Bool :=
  allDies.any fun d => (List.range 256).any fun i => (s.reg d .fltSticky (i / 64)).getLsbD (i % 64) && (s.reg d .fltReact i).getLsbD 4

/-- ALIVE_RESTART. -/
def execAliveRestart (w : Wr) (s : State) : Host.Outcome State Fault Refusal :=
  done s (match s.gate .hub .fltAlive w.pl w.ctx with
    | .ok =>
      if w.val.getLsbD 0 = false then s
      else
        (if s.rf .hub .fltWdt 0 29 29 = 0 ∧ s.epinStands = false ∧ s.wdtRuns = true then
          (s.setRf .hub .fltAlive 0 31 31 1).setRf .hub .fltAlive 0 29 28 0
        else s).answer .ok 0
    | e => s.answer e 0)

/-- A kick: the period starts again, EXPIRED clears; the first one after EN starts ALIVE_OUT, unless the watchdog has expired before:
that waits for RESTART (R423, R424). -/
def State.kick (s : State) : State :=
  if s.rf .hub .fltWdt 0 31 31 = 0 then s
  else
    let t := { s with kicked := s.now, wdtRuns := true }.setRf .hub .fltWdt 0 29 29 0
    if s.wdtRuns then t else (t.setRf .hub .fltAlive 0 31 31 1).setRf .hub .fltAlive 0 29 28 0

/-- A write of FLT_WDT (Table 15-19). -/
def State.wdtWrite (s : State) (w : Wr) (bit : Nat) : State :=
  match s.gate .hub .fltWdt w.pl w.ctx with
  | .ok =>
    if w.val.getLsbD bit = false then s
    else
      let old := s.reg .hub .fltWdt 0
      let t := s.setReg .hub .fltWdt 0 (s.ctlValue .hub .fltWdt 0 w.pl w.ctx w.val).2
      let t := if !old.getLsbD 31 && w.val.getLsbD 31 then { t with kicked := s.now } else t
      (if w.val.getLsbD 30 then t.kick else t).answer .ok 0
  | e => s.answer e 0
/-- WDT_ENABLE. -/
def execWdtEnable (w : Wr) (s : State) : Host.Outcome State Fault Refusal := done s (s.wdtWrite w 31)
/-- WDT_KICK. -/
def execWdtKick (w : Wr) (s : State) : Host.Outcome State Fault Refusal := done s (s.wdtWrite w 30)
/-- WDT_EXPIRE: PERIOD ms have passed since the last kick. -/
def execWdtExpire (s : State) : Host.Outcome State Fault Refusal :=
  done s (
    let r := s.reg .hub .fltWdt 0
    if s.running .hub false = false ∨ fld r 31 31 = 0 ∨ fld r 29 29 = 1 ∨ (s.now - s.kicked).toNat < 100000 * fld r 15 0 then s
    else ((({ s with wdtRuns := true } : State).setRf .hub .fltWdt 0 29 29 1).aliveStop 2).raise .hub 0x07 0)

/-! ### Upsets (R422, R425) -/

/-- Counts of clk_time in 24 h. -/
def dayCounts : Nat := 24 * 3600 * 100000000
/-- An uncorrectable error of a retirable unit: whether it is the second within 24 h, and the time kept. -/
def State.upset (s : State) (key : Nat × Nat × Nat) : Bool × State :=
  let again := match aFind s.upsets key with | some t => decide ((s.now - t).toNat ≤ dayCounts) | none => false
  (again, { s with upsets := aSet s.upsets key s.now })

/-- Every block of a tile halts with POIS (R422). -/
def State.haltTile (s : State) (t : TileRef) : State :=
  (s.tile t).blocks.foldl (fun x b => x.haltBlock t b.bid ⟨b.issued, .pois, 0xA, 0, 0, 0, 0, 0, false⟩) s

/-- The line in a set and way of an agent's cache. -/
def State.lineAt (s : State) (a set way : Nat) : Option (Nat × CLine) :=
  (s.cl.find? fun e => decide (e.1.1 = a) && decide (cacheSet a e.1.2 = set) && decide (e.2.way = way)).map fun e => (e.1.2, e.2)

/-- A line treated as owned by a down agent (R306, R422): its entry is freed with the line poisoned, and the copy is gone. -/
def State.ownerLost (s : State) (a pa : Nat) : State :=
  match s.homeAt (128 * pa) with
  | .at l =>
    let t := match s.ent l.line with | some _ => (s.poisonLine l).freeEnt l.line | none => s
    t.dropLine a pa
  | _ => s.dropLine a pa

/-- ONDIE_UNCORRECTABLE: an uncorrectable error of on-die storage, with the effect of its storage and its source's report. -/
def execOndieUncorrectable (x : OnDie) (s : State) : Host.Outcome State Fault Refusal :=
  done s (match x with
    | .tile t arr =>
      if s.running (.cd t.die) true = false ∨ 128 ≤ t.tile then s
      else
        let i := s.localIndex t
        let u := s.upset (0, (Die.cd t.die).idx, i)
        let v := (u.2.haltTile t).raise (.cd t.die) (0x40 + t.tile / 16 % 8) (t.tile % 16 * 256 + arr % 256)
        if u.1 then v.retireTile t.die i else v
    | .l2data a set way half =>
      if 32 ≤ a then s
      else
        let t := match s.lineAt a set way with
          | some (pa, l) => s.setLine a pa { l with pois := l.pois ||| 2 ^ (half % 2) }
          | none => s
        t.raise (agentDie a) (0x50 + a % 8) (set % 2 ^ 16 * 2 ^ 16 + way % 16)
    | .l2tag a set way =>
      if 32 ≤ a then s
      else
        let t := match s.lineAt a set way with | some (pa, _) => s.ownerLost a pa | none => s
        t.raise (agentDie a) (0x58 + a % 8) (set % 2 ^ 16 * 2 ^ 16 + way % 16)
    | .burr b =>
      if 64 ≤ b.idx then s
      else (if (s.burr b).run.isSome then s.burrFail b .pois 0 else s).raise b.cdie 0x35 b.idx
    | .sampler u =>
      if 4 ≤ u.unit then s
      else
        (match (s.smp u).run with
          | some j =>
            (match s.smpEnd u j (smpFail .pois) with
              | .ok t => t.raise (.cd u.die) 0x36 u.unit
              | .error w => s.await w)
          | none => s.raise (.cd u.die) 0x36 u.unit)
    | .dma d ch =>
      if unitCount d .dma ≤ ch then s
      else
        let u := s.upset (1, d.idx, ch)
        let v := match u.2.dma? d ch with
          | some r => if u.1 then u.2 else u.2.dmaStop d ch r .pois r.row r.byte []
          | none => u.2
        if u.1 then (v.dmaEnd d ch .pois 6).retireChan d ch else v
    | .cp n => s.raise (.cd n) 0x33 0
    | .l3 k line =>
      let a := 32 + k.val
      let t := match s.line a line with | some l => s.setLine a line { l with pois := 3 } | none => s
      t.raise (.hd k) 0x21 (line % 2 ^ 32)
    | .core k c => if c < 48 then s.raise (.hd k) 0x20 c else s
    | .mgmt word => s.raise .hub 0x09 word)

/-- TILE_RETIRE: a write of FLT_TILE_RETIREk. -/
def execTileRetire (w : Wr) (s : State) : Host.Outcome State Fault Refusal :=
  done s (match w.die, s.gate w.die .fltTileRetire w.pl w.ctx with
    | .cd n, .ok =>
      (((List.range 64).filter fun j => w.val.getLsbD j).foldl (fun t j => t.retireTile n (64 * (w.idx % 2) + j)) s).answer .ok 0
    | _, .ok => s
    | _, e => s.answer e 0)

/-! ### Die-to-die links (R425, R431, R450) -/

/-- Spare lanes of a link that carry traffic (Table 1-10). -/
def State.linkSpares (s : State) (k : Nat) : Nat :=
  (s.linkLive k).foldl (fun a m => a + ((s.lmod k m).swaps.filter fun e => e.2.isSome).length) 0
/-- MODULES and SPARES shown (Table 1-10). -/
def State.linkShow (s : State) (k : Nat) : State :=
  s.setLink k (setFld (setFld (s.linkReg k) 27 24 (s.linkLive k).length) 23 16 (s.linkSpares k))
/-- A source of the class of links reported at both ends of a link (Table 15-1). -/
def State.raiseLink (s : State) (k base info : Nat) : State :=
  let e := linkEnds k
  (s.raise e.1.1 (base + e.1.2) info).raise e.2.1 (base + e.2.2) info

/-- A link is fenced (R431): requests that were sent over it and have no response complete with UNAV, what is queued for it is
discarded, and other routes take its traffic. -/
def State.fence (s : State) (k : Nat) : State :=
  (((s.setLink k (setFld (setFld (s.linkReg k) 31 31 0) 30 30 1)).linksLost [k]).raiseLink k 0x18 0).orderReason 2 1

/-- LINK_FENCE: no flit for 64 clk_fab. -/
def execLinkFence (k : Nat) (s : State) : Host.Outcome State Fault Refusal :=
  done s (if k < 12 ∧ s.linkUp k = true then s.fence k else s)

/-- LINK_CRC_ERROR: a flit is replayed; 64 replays of a lane within 10 ms make it permanent at the next retrain. -/
def execLinkCrcError (k m lane : Nat) (s : State) : Host.Outcome State Fault Refusal :=
  done s (
    if 12 ≤ k ∨ linkBuilt k ≤ m ∨ 68 ≤ lane ∨ s.linkUp k = false then s
    else
      let x := s.lmod k m
      let l := (x.replays.filter fun e => decide ((s.now - e.2).toNat < 1000000)) ++ [(lane, s.now)]
      let due := if 64 ≤ (l.filter fun e => decide (e.1 = lane)).length ∧ x.due.contains lane = false then x.due ++ [lane] else x.due
      s.setLmod k m { x with replays := l, due := due })

/-- A failed lane of a module: a spare takes the place of one that carries traffic, and past four failed lanes the module leaves
service (R27, R425). -/
def State.laneFails (s : State) (k m lane : Nat) : State :=
  let x := s.lmod k m
  if x.gone ∨ x.swaps.any (fun e => decide (e.1 = lane)) = true then s
  else if 4 ≤ x.swaps.length then (s.setLmod k m { x with swaps := [], gone := true }).raiseLink k 0x14 m
  else
    let spare := [64, 65, 66, 67].find? fun p => decide (p ≠ lane) && !x.swaps.any fun e => decide (e.2 = some p ∨ e.1 = p)
    let inUse := decide (lane < 64) || x.swaps.any fun e => decide (e.2 = some lane)
    let swaps := x.swaps.map fun e => if e.2 = some lane then (e.1, spare) else e
    let t := s.setLmod k m { x with swaps := swaps ++ [(lane, if lane < 64 then spare else none)] }
    match spare with
    | some p => if inUse then t.raiseLink k 0x10 (p * 2 ^ 16 + m * 2 ^ 8 + lane) else t
    | none => t

/-- The version that two ends agree on (R22, R450): the highest common major, and the lower of their highest minors in it. -/
def agree (a b : List (Nat × Nat)) : Option (Nat × Nat) :=
  a.foldl (fun best x =>
    match b.find? fun y => decide (y.1 = x.1) with
    | none => best
    | some y =>
      match best with
      | some z => if z.1 < x.1 then some (x.1, min x.2 y.2) else best
      | none => some (x.1, min x.2 y.2)) none
/-- The highest major that an end offers. -/
def topMajor (l : List (Nat × Nat)) : Nat := l.foldl (fun m x => max m x.1) 0

/-- What an end of a link makes known (R22, R450): a compute die the majors of its generation and of the one before, with the
highest minors that `l` gives them, where generation g has major g - 1 as in R450's worked example; another die as `l` says
(log 101). -/
def State.advert (s : State) (d : Die) (l : List (Nat × Nat)) : List (Nat × Nat) :=
  match d with
  | .cd _ =>
    let g := s.fuse.gen[d.idx]?.getD 0 % 16
    [g - 1, g - 2].map fun m => (m, (aFind l m).getD 0)
  | _ => l
/-- The version that the ends of a link negotiate. -/
def State.linkAgree (s : State) (k : Nat) (a b : List (Nat × Nat)) : Option (Nat × Nat) :=
  let e := linkEnds k
  agree (s.advert e.1.1 a) (s.advert e.2.1 b)
/-- A link whose ends have no common major (R435, R450): it stays down, LINK_VER is raised, and a domain that rejoins is marked
failed. -/
def State.linkNoVer (s : State) (k : Nat) (a b : List (Nat × Nat)) : State :=
  let e := linkEnds k
  let t : State := { s.setLink k (setFld (setFld (s.linkReg k) 31 31 0) 15 0 0) with linkVer := if s.linkVer.contains k then s.linkVer else k :: s.linkVer }
  let t := (t.raise e.1.1 (0x1C + e.1.2) (topMajor (s.advert e.2.1 b))).raise e.2.1 (0x1C + e.2.2) (topMajor (s.advert e.1.1 a))
  (t.resets.filter fun r => rejoining e.1.1 r || rejoining e.2.1 r).foldl (fun x r => x.dieFails r.die) t

/-- LINK_RETRAIN: module `m` retrains; `bad` are the lanes that fail the lane test; the ends negotiate again with what they make
known (R450). A retrain that fails, or finds no common major, fences the link. -/
def execLinkRetrain (k m : Nat) (bad : List Nat) (good : Retrain) (s : State) : Host.Outcome State Fault Refusal :=
  done s (
    if 12 ≤ k ∨ linkBuilt k ≤ m ∨ s.linkUp k = false then s
    else match good with
      | .fails => s.fence k
      | .ends a b =>
        let x := s.lmod k m
        let dead := x.due ++ bad.filter fun l => x.suspects.contains l && decide (l < 68)
        let t := s.setLmod k m { x with suspects := bad, due := [], replays := [] }
        let t := (dead.foldl (fun y l => y.laneFails k m l) t).linkShow k
        if (t.linkLive k).isEmpty then t.fence k
        else
          match t.linkAgree k a b with
          | none => (t.fence k).linkNoVer k a b
          | some v => t.setLink k (setFld (setFld (t.linkReg k) 15 8 v.1) 7 0 v.2))

/-- The timestamp copies of the dies at a link that trains are aligned: a compute die's over its link to the hub, a host die's over
either of its links; a die that runs then reports ready (R38, R439). -/
def State.alignAt (s : State) (k : Nat) : State :=
  let one (t : State) (d : Die) (bit : Nat) : State :=
    let u : State := { t with aligned := if t.aligned.contains d then t.aligned else d :: t.aligned }
    if u.dom d false = 2 then u.setReady bit 1 else u
  match (linkEnds k).1.1, (linkEnds k).2.1 with
  | .cd n, .hub => one s (.cd n) (32 + n.val)
  | .cd _, .hd j => one s (.hd j) (30 + j.val)
  | _, _ => s

/-- LINK_TRAINING: a link trains with the versions that its ends make known, (major, highest minor) each. -/
def execLinkTraining (k : Nat) (a b : List (Nat × Nat)) (s : State) : Host.Outcome State Fault Refusal :=
  done s (
    let e := linkEnds k
    let on (d : Die) : Bool := match d with | .hd _ => true | _ => decide (s.dom d false = 2)
    if 12 ≤ k ∨ on e.1.1 = false ∨ on e.2.1 = false ∨ (s.linkLive k).isEmpty = true then s
    else
      match s.linkAgree k a b with
      | none => s.linkNoVer k a b
      | some v =>
        let r := setFld (setFld (setFld (setFld (s.linkReg k) 31 31 1) 30 30 0) 15 8 v.1) 7 0 v.2
        let t : State := { (s.setLink k r).linkShow k with linkVer := s.linkVer.filter fun x => decide (x ≠ k) }
        (t.alignAt k).recoverySettle)

/-! ### Millrace and PCIe ports (R362, R376, R425) -/

def State.mlanes (s : State) (q : Nat) : MLanes := aGet s.mrcLanes ⟨[], [], [], []⟩ q
def laneMask (l : List Nat) : Nat := (List.range 8).foldl (fun m i => if l.contains i then m + 2 ^ i else m) 0

/-- Symbol errors that make a lane permanent within one second (R425). -/
def symLimit : Nat := 2 ^ 20
/-- MILLRACE_BAD_CRC: a packet with `n` symbol errors on a lane is replayed; the errors of the last second count. -/
def execMillraceBadCrc (q lane n : Nat) (s : State) : Host.Outcome State Fault Refusal :=
  done s (
    if s.mrcUp q = false ∨ 8 ≤ lane then s
    else
      let x := s.mlanes q
      let l := ((aGet x.errs [] lane).filter fun e => decide ((s.now - e.1).toNat < 100000000)) ++ [(s.now, n)]
      let hot := decide (symLimit < (l.map fun e => e.2).sum)
      { s with mrcLanes := aSet s.mrcLanes q { x with
          errs := aSet x.errs lane l
          hot := if hot && !x.hot.contains lane then lane :: x.hot else x.hot } })

/-- What a Millrace port's failed lanes leave of it: 8 lanes, the 4-lane half without a failed lane, or nothing (R425). -/
def State.mrcFit (s : State) (q : Nat) : State :=
  let f := (s.mlanes q).failed
  let low := f.any fun l => decide (l < 4)
  let high := f.any fun l => decide (4 ≤ l)
  let old := s.rf .hub .mrcPortStatus q 27 24
  if low && high then
    ((((s.setRf .hub .mrcPortStatus q 31 30 1).setRf .hub .mrcPortStatus q 27 24 0).setReady (18 + q) 0)).raise .hub (0x30 + q) (laneMask f)
  else if low || high then
    (if old = 4 then s else (s.setRf .hub .mrcPortStatus q 27 24 4).raise .hub (0x20 + q) (laneMask f))
  else s

/-- What the hub makes known on its Millrace ports: MRC_IF_VERSION (R22, R374). -/
def State.mrcAdvert (s : State) : List (Nat × Nat) := [(s.rf .hub .mrcIfVersion 0 15 8, s.rf .hub .mrcIfVersion 0 7 0)]
/-- A port with no version in common with its peer has no link: DOWN (log 101). -/
def State.mrcNoVer (s : State) (q : Nat) : State := (s.setReg .hub .mrcPortStatus q 0).setReady (18 + q) 0

/-- MRC_PORT_RETRAIN: a port retrains with the lanes that fail, and negotiates again with what its peer makes known. -/
def execMrcPortRetrain (q : Nat) (bad : PortTest) (s : State) : Host.Outcome State Fault Refusal :=
  done s (
    if s.mrcUp q = false then s
    else
      let x := s.mlanes q
      let dead := (List.range 8).filter fun l => x.hot.contains l || (x.suspects.contains l && bad.bad.contains l)
      let f := (List.range 8).filter fun l => x.failed.contains l || dead.contains l
      let t := { s with mrcLanes := aSet s.mrcLanes q ⟨f, bad.bad, [], []⟩ }.mrcFit q
      if t.mrcUp q = false then t
      else
        match agree s.mrcAdvert bad.peer with
        | none => t.mrcNoVer q
        | some v => (t.setRf .hub .mrcPortStatus q 15 8 v.1).setRf .hub .mrcPortStatus q 7 0 v.2)

/-- PCIE_LINK_DOWN: a port's link goes down, and its requests end with UNAV; or it reports an uncorrectable AER error and stays
up (R362, R419). -/
def execPcieLinkDown (p : Nat) (aer : LinkLoss) (s : State) : Host.Outcome State Fault Refusal :=
  done s (
    if 4 ≤ p ∨ s.running .hub false = false ∨ s.rf .hub .hubPcieCfg p 19 19 = 0 then s
    else (if aer.down then ((s.setRf .hub .hubPcieCfg p 19 19 0).setReady (14 + p) 0).outbDown p else s).raise .hub (0x40 + p) aer.aer)

/-! ### Clocks, rails, losing a die (R37, R432, R433, R435, R467, R470) -/

/-- PLL_LOCK: a die's PLL loses lock; the clocks of a die other than the hub stop until its partition has been reset (R37, R433). -/
def execPllLock (d : Die) (s : State) : Host.Outcome State Fault Refusal :=
  done s (
    if s.dom d false ≠ 2 ∨ s.unlocked.contains d = true then s
    else if d = .hub then s.raise .hub 1 0
    else ({ s with unlocked := d :: s.unlocked }).raise d 0 0)
/-- REF_LOSS. -/
def execRefLoss (s : State) : Host.Outcome State Fault Refusal :=
  done s (if s.running .hub false then s.raise .hub 0x00 0 else s)

/-- Every caching agent drops the lines whose home is on a die, dirty ones too (R432). -/
def State.dropHomed (s : State) (d : Die) : State :=
  let there (pa : Nat) : Bool :=
    match s.region (128 * pa), s.locOf (128 * pa) with | .pool, some l => decide (homeDie l.p = d) | _, _ => false
  { s with cl := s.cl.filter (fun e => !there e.1.2), wbuf := s.wbuf.filter fun e => !there e.1.2 }

/-- A die is lost (R432): its partition is reset at once without a drain, and its power-up starts. -/
def State.dieLose (s : State) (d : Die) : State :=
  let t := s.rstDrop fun r => decide (r.die = d)
  let op : RstOp := { rstOp 3 d 0 0 false with draining := false }
  ({ t with resets := t.resets ++ [op] } : State).dropHomed d |>.partitionDown d true

/-- Whether no link of a running die is in service any more: all are down, one of them fenced, and the die is not being brought back
(R432). -/
def State.cutOff (s : State) (d : Die) : Bool :=
  decide (s.dom d false = 2) && (linksOf d).all (fun k => !s.linkUp k) && (linksOf d).any (fun k => (s.linkReg k).getLsbD 30) &&
    !s.resets.any (rejoining d)
/-- DIE_LOST: no link of the die is in service; a loss of the hub is a package reset (R432). -/
def execDieLost (d : Die) (s : State) : Host.Outcome State Fault Refusal :=
  done s (if s.cutOff d = false then s else if d = .hub then { s with resetDue := true } else s.dieLose d)

/-- The domain rails' die. -/
def railDie (r : Nat) : Die := if r < 8 then .cd (cdOf (r % 4)) else .hd (if r = 8 then 0 else 1)
/-- RAIL_PG_FALL: of a rail that has been removed, so that the next of its sequence goes (R466); of one that is enabled, R467; where the
domain does not run, the rail is gone and nothing else follows. -/
def execRailPgFall (rail : Nat) (s : State) : Host.Outcome State Fault Refusal :=
  done s (
    match s.rdown.find? fun e => decide (e.1.headD 100 = rail) with
    | some e => s.railNext e
    | none =>
      if s.rails.contains rail = false ∨ 34 ≤ rail then s
      else
        let t : State := { s with rails := s.rails.filter fun r => decide (r ≠ rail) }
        match railStack rail with
        | some k =>
          if s.dom (.cd (cdOf (k / 2))) false = 2 then (t.stackOff k).raise .hub 0x02 ((7 + k) * 256 + 1) else t
        | none =>
          let d := railDie rail
          if s.dom d (decide (rail < 4)) = 2 then (t.dieLose d).raise .hub 0x02 (d.idx * 256 + 1) else t)

/-- POISON_FILL_DONE (R433): every block of the die's stacks is poisoned. -/
def execPoisonFillDone (d : Die) (s : State) : Host.Outcome State Fault Refusal :=
  done s (match d with
    | .cd n =>
      if s.lostMem.contains n.val && decide (s.dom d false = 2) then
        let ps := (upFrom (128 * n.val) 128).filter fun p => decide (3 ≤ aGet s.pchKeep 0 p)
        { ps.foldl (fun x p => x.fillPch p true) s with lostMem := s.lostMem.filter fun k => decide (k ≠ n.val) }
      else s
    | _ => s)

/-- DIE_REJOIN (R435): the die runs with its links up and its stacks ready; its agents are marked up, and RECOVERY clears where
nothing else holds it. -/
def execDieRejoin (d : Die) (s : State) : Host.Outcome State Fault Refusal :=
  done s (
    let mine := s.resets.filter (rejoining d)
    if mine = [] ∨ s.dom d false ≠ 2 ∨ s.dieLinked d = false then s
    else
      match d with
      | .cd n =>
        if s.lostMem.contains n.val || decide (s.dom d true ≠ 2 ∧ s.dom d true ≠ 4) then s
        else
          let t := ((s.rstDrop fun r => decide (r.scope = 3 ∧ r.die = d)).pchBack (2 * n.val)).pchBack (2 * n.val + 1)
          (t.marksUp (upFrom (8 * n.val) 8)).recoverySettle
      | .hd k => ((s.rstDrop fun r => decide (r.scope = 3 ∧ r.die = d)).marksUp [32 + k.val]).recoverySettle
      | .hub => s)

end Sys2Proof.Machine
end

