-- ==== Sys2Proof/Machine/Boot.lean ====
section
/-!
DEFINITION. Bring-up, licences, firmware life and the mailbox (R437-R461, R466-R468): the steps of Table 16-1, the topology
check, and the commands that the management cores serve.
-/

namespace Sys2Proof.Machine

/-! ### Power, reset and step 2 (R437, R466-R468) -/

/-- Step 2 starts when HUB_EN and PWR_GOOD are asserted and RESET_N is released. -/
def State.hubGo (s : State) : State :=
  if s.hubEn && s.pwrGood && !s.rstIn && decide (s.boot ≤ 2) && !(s.pups.any fun u => decide (u.die = .hub)) then
    { s with boot := 2 }.powerUp .hub false
  else s

/-- AON_POWER_ON: the supply has been removed and applied again, so that the always-on domain as a whole is reset (R34). What
is fused or in flash stays. -/
def execAonPowerOn (s : State) : Host.Outcome State Fault Refusal :=
  done s ({ State.reset with
    fuse := s.fuse
    pending := s.pending
    out := s.out
    free := s.free
    flash := s.flash
    bootLog := s.bootLog
    hdrs := s.hdrs
    settings := s.settings
    pldm := s.pldm
    pins := s.pins
    rstIn := s.rstIn
    mem := s.mem
    journal := [.wipeAll]
    resetBusy := true
    aonUp := true }.setDom .hub false 0)

/-- HUB_EN: asserted 1 ms after the release of the always-on domain, and on exit from N4. -/
def execHubEn (s : State) : Host.Outcome State Fault Refusal :=
  done s (
    if s.aonUp && !s.hubEn && decide (s.boot = 1) && (decide (s.pwrState ≠ 4) || decide (s.pwrTarget = 0)) then
      { s with hubEn := true }.emit .pin [0, 1]
    else s)

/-- PWR_GOOD_ASSERT: the rails that HUB_EN has the platform raise are within tolerance. -/
def execPwrGoodAssert (s : State) : Host.Outcome State Fault Refusal :=
  done s (if s.hubEn && !s.pwrGood then { s with pwrGood := true }.hubGo else s)

/-- A package reset by the reset input: CAUSE 2, unless a package reset is in progress, which is held at step 2 then: it goes back
there from a later step (R468). -/
def State.resetInput (s : State) : State :=
  if s.resetDue then s
  else if s.resetBusy then (if 2 < s.boot ∨ (s.pups.any fun u => decide (u.die = .hub)) = true then { s with resetDue := true } else s)
  else { s.setRf .hub .fltResetCause 0 15 0 2 with resetDue := true }

/-- RESET_N: a low pulse of 500 ns or more begins (`low`), or RESET_N is released. -/
def execResetN (low : Bool) (s : State) : Host.Outcome State Fault Refusal :=
  done s (if low then { s with rstIn := true }.resetInput else { s with rstIn := false }.hubGo)

/-- PWR_GOOD_FALL: an assertion of RESET_N (R467). -/
def execPwrGoodFall (s : State) : Host.Outcome State Fault Refusal :=
  done s (if s.pwrGood then { s with pwrGood := false }.resetInput else s)

/-- PACKAGE_RESET: a reset that is due goes down to step 2 (R34, R437, R484). -/
def execPackageReset (s : State) : Host.Outcome State Fault Refusal :=
  done s (
    if s.resetDue = false then s
    else { s.packageDown false with boot := if s.hubEn then 2 else 1 }.hubGo)

/-! ### Step 3: firmware images and settings (R453-R456) -/

/-- Whether the root of trust accepts an image: its signature has verified, so that it has a header, it fits its slot, its SVN is not
below the fused minimum, and it is not marked refused. -/
def State.imgOk (s : State) (i : Nat) (h : Option ImgHdr) : Bool :=
  match h with
  | some x => decide (x.size ≤ imgSize) && decide (s.fuse.minSvn ≤ x.svn) && !s.bootRec.refused.contains i
  | none => false
/-- What the root of trust finds of an image: what it found before of these bytes, else what it finds now. -/
def State.imgFind (s : State) (i : Nat) (h : Option ImgHdr) : Option ImgHdr := (aFind s.hdrs i).getD h

/-- Whether an image reads a settings record; with no record there is nothing that it cannot read. -/
def readsSchema (h : ImgHdr) (r : Option SetRec) : Bool :=
  match r with | some r => decide (h.smin ≤ r.schema.toNat) && decide (r.schema.toNat ≤ h.smax) | none => true

/-- An FW event (Table 16-10): recorded, and raised. -/
def State.fwEvent (s : State) (code : Nat) : State := (s.setRf .hub .fwStatus 0 15 12 code).raise .hub 0x0B code

/-- Port modes of the settings are written in step 3 of the first bring-up after the always-on supply is applied (R361). -/
def State.writeModes (s : State) (r : Option SetRec) : State :=
  if s.modesSet then s
  else
    let l := match r with | some r => r.modes | none => []
    let t := l.foldl (fun x e =>
      if 4 ≤ e.1 then x else x.setRf .hub .hubPcieCfg e.1 31 30 (if 2 ≤ e.1 ∧ e.2 = 2 then 0 else e.2)) s
    { t with modesSet := true }

/-- An image runs: what FW_STATUS shows of it, CONFIRM 0; a boot that reads its settings resets the handover count. -/
def State.fwRun (s : State) (i : Nat) (h : ImgHdr) (trial live : Bool) : State :=
  let r := s.settingsNow
  let ok := readsSchema h r
  let v := setFld (setFld (setFld (s.reg .hub .fwStatus 0) 63 48 ((r.map fun x => x.schema.toNat).getD 0)) 47 32 h.ver) 31 16 h.svn
  let v := setFld (setFld (setFld (setFld (setFld v 4 4 (b2n (!ok))) 3 3 (b2n trial)) 2 2 (b2n live)) 1 1 i) 0 0 0
  let t := ({ s with recovery := false }.setReg .hub .fwStatus 0 v).setReady 1 1
  (if ok then t.putBoot { t.bootRec with handover := 0 } else t).telemTake

/-- The recovery code runs: neither image is accepted (R453). A package that has been declared ready or degraded stays so (R445); one
that is being brought up goes no further. -/
def State.recoveryCode (s : State) : State :=
  let p := s.rf .hub .hubReady 0 63 62
  let t := if p = 1 ∨ p = 2 then s.setReady 1 0 else (s.setReady 1 0).setRf .hub .hubReady 0 63 62 3
  if s.boot = 9 then { t with recovery := true } else { t with recovery := true, boot := 10, resetBusy := false }

/-- Whether the handover of R456 step 3 applies to the image other than `i`. -/
def State.handsOver (s : State) (i : Nat) (h : Option ImgHdr) : Bool :=
  s.imgOk i h && decide (s.bootRec.handover = 0) && (match h with | some x => readsSchema x s.settingsNow | none => false)

/-- Traps that a live activation has held back go to the management cores (R457). -/
def State.freeTraps (s : State) : State :=
  { s.heldTraps.foldl (fun t x => t.trapOut x.1 x.2) s with heldTraps := [] }

/-- The handover of R456 step 3 to an image: it is marked active, and bring-up restarts from step 3. -/
def State.handOver (s : State) (i : Nat) : State :=
  { (s.putBoot { s.bootRec with active := i, trial := false, handover := s.bootRec.handover + 1 }).setReady 1 0 with boot := 3 }.fwEvent 1

/-- Step 3 of bring-up with what the root of trust finds of the images. -/
def State.bootLoad (s : State) (img : Nat → Option ImgHdr) : State :=
  let act := s.bootRec.active % 2
  let pick : Option (Nat × State) :=
    if s.imgOk act (img act) then some (act, s)
    else if s.imgOk (1 - act) (img (1 - act)) then
      some (1 - act, (s.putBoot { s.bootRec with active := 1 - act, trial := false }).fwEvent 5)
    else none
  match pick with
  | none => s.recoveryCode
  | some (i, t) =>
    match img i with
    | none => t.recoveryCode
    | some h =>
      let on (x : State) : State := { x.freeTraps with boot := 4 }.setRf .hub .licStatus 0 1 0 2
      let run : State := { t.fwRun i h t.bootRec.trial false with trialWait := t.bootRec.trial }
      if readsSchema h t.settingsNow then on (run.writeModes t.settingsNow)
      else if t.handsOver (1 - i) (img (1 - i)) then t.handOver (1 - i)
      else on { run.fwEvent 2 with modesSet := true }

/-- The new image of a live activation starts, and the traps held for it reach it (R457-R459); where it cannot read the settings, R456
applies. -/
def State.liveStart (s : State) (i : Nat) (h : ImgHdr) : State :=
  let t : State := { s with liveNext := false }
  let run : State := { t.fwRun i h true true with liveWait := true }
  if readsSchema h t.settingsNow then run.freeTraps
  else if t.handsOver (1 - i) (t.imgFind (1 - i) none) then (t.setRf .hub .fwStatus 0 2 2 0).handOver (1 - i)
  else (run.fwEvent 2).freeTraps

/-- FIRMWARE_LOAD: the root of trust loads and verifies an image, in step 3 or to start the new one of a live activation; `a` and `b` are
what it finds of images A and B where it has found nothing since they were written, none where the signature fails. -/
def execFirmwareLoad (a b : Option ImgHdr) (s : State) : Host.Outcome State Fault Refusal :=
  done s (
    let img (i : Nat) : Option ImgHdr := s.imgFind i (if i = 0 then a else b)
    let t : State := { s with hdrs := [(0, img 0), (1, img 1)] }
    let new := s.bootRec.active % 2
    if s.running .hub false = false then s
    else if s.boot = 3 then t.bootLoad img
    else if s.liveNext then (match img new with | some h => if t.imgOk new (some h) then t.liveStart new h else s | none => s)
    else s)

/-- The running image is marked refused, and the previous one restarts with an FW event (R454, R459). -/
def State.fwBack (s : State) (ev : Nat) : State :=
  let bad := s.fwActive
  let i := 1 - bad
  let b := s.bootRec
  let t : State := { s.putBoot { b with
      active := i
      trial := false
      refused := if b.refused.contains bad then b.refused else bad :: b.refused } with
    trialWait := false
    liveWait := false }
  match t.imgFind i none with
  | some h =>
    if t.imgOk i (some h) then
      let u := (t.fwRun i h false false).fwEvent ev
      (if readsSchema h t.settingsNow then u else u.fwEvent 2).freeTraps
    else (t.fwEvent ev).recoveryCode.freeTraps
  | none => (t.fwEvent ev).recoveryCode.freeTraps

/-- TRIAL_TIMEOUT (R454). -/
def execTrialTimeout (s : State) : Host.Outcome State Fault Refusal := done s (if s.trialWait then s.fwBack 3 else s)
/-- LIVE_CONFIRM_TIMEOUT (R459). -/
def execLiveConfirmTimeout (s : State) : Host.Outcome State Fault Refusal := done s (if s.liveWait then s.fwBack 4 else s)

/-- FW_CONFIRM: a write of FW_STATUS with CONFIRM, which PL0 alone may set: the trial of the running image and a live activation are
over. -/
def execFwConfirm (w : Wr) (s : State) : Host.Outcome State Fault Refusal :=
  done s (match s.gate .hub .fwStatus w.pl w.ctx with
    | .ok =>
      if w.val.getLsbD 0 = false then s
      else if w.pl ≠ 0 then s.answer .ok 0
      else
        let v := setFld (setFld (setFld (s.reg .hub .fwStatus 0) 3 3 0) 2 2 0) 0 0 1
        let t := s.setReg .hub .fwStatus 0 v
        let t := if s.bootRec.active % 2 = s.fwActive then t.putBoot { s.bootRec with trial := false } else t
        ({ t with trialWait := false, liveWait := false }).answer .ok 0
    | e => s.answer e 0)

/-- ROOT_OF_TRUST_KICK (R458): from the start of a handover until CONFIRM, or until the previous image has restarted. -/
def execRootOfTrustKick (s : State) : Host.Outcome State Fault Refusal := done s (if s.liveNext || s.liveWait then s.kick else s)

/-! ### Licences (R446-R449) -/

/-- A field of a licence, little-endian, and its bytes. -/
def licFld (l off n : Nat) : Nat := l / 256 ^ off % 256 ^ n
def licBytes (l off n : Nat) : List Byte := leBytes n (l / 256 ^ off)
def licTiles (l : Nat) : Nat := licFld l 0x02 2
def licFeat (l : Nat) : Nat := licFld l 0x04 1
/-- Whether a valid licence is in force. -/
def State.licensed (s : State) : Bool := decide (s.rf .hub .licStatus 0 1 0 = 1)

/-- The format of a licence: condition 1 of Table 16-6. -/
def licFormat (l : Nat) : Bool :=
  decide (licFld l 0 2 = 0x0100) && decide (licFld l 0x07 1 = 0) && decide (licFld l 0x0C 4 = 0) && decide (licFld l 0x20 32 = 0) &&
    decide (licTiles l = 384 ∨ licTiles l = 320) && decide (licFeat l = 1 ∨ licFeat l = 2) &&
    decide (licFld l 0x05 1 = 1 ∨ licFld l 0x05 1 = 2) && decide (licFld l 0x06 1 < 4)
/-- The key of a licence is a fused one that is not revoked: condition 2. -/
def Fuse.licKey (f : Fuse) (l : Nat) : Bool :=
  let k := licFld l 0x06 1
  decide (f.keys[k]? = some (sha384 (licBytes l 0x40 96))) && !f.revoked.contains k
/-- The signature verifies: condition 3. -/
def licSigned (l : Nat) : Bool :=
  ecVerify (beNat (licBytes l 0x40 48), beNat (licBytes l 0x70 48)) (sha384 (licBytes l 0 64)) (beNat (licBytes l 0xA0 48))
    (beNat (licBytes l 0xD0 48))

/-- The first condition of Table 16-6 that a licence fails, 0 for none; 6 and 7 look at the licence in force. -/
def State.licReason (s : State) (l : Nat) : Nat :=
  if licFormat l = false then 1
  else if s.fuse.licKey l = false then 2
  else if licSigned l = false then 3
  else if licFld l 0x10 16 ≠ s.fuse.uid.toNat then 4
  else if licFld l 0x05 1 ≠ (if s.fuse.high16 then 1 else 2) then 5
  else if s.licensed && decide (licFld l 0x08 4 ≤ s.rf .hub .licStatus 0 63 32) then 6
  else if s.licensed && (decide (licTiles l < s.rf .hub .licStatus 0 15 2) || (s.fl && decide (licFeat l = 2))) then 7
  else 0

/-- A licence refused: its reason recorded, LIC raised, nothing else changed. -/
def State.licRefuse (s : State) (reason : Nat) : State := (s.setRf .hub .licStatus 0 27 24 reason).raise .hub 0x0A reason
/-- A licence in force (Table 16-7). -/
def State.licUse (s : State) (slot l : Nat) : State :=
  let v := setFld (setFld (setFld (s.reg .hub .licStatus 0) 63 32 (licFld l 0x08 4)) 20 20 slot) 19 18 (licFld l 0x05 1)
  (s.setReg .hub .licStatus 0 (setFld (setFld (setFld v 17 16 (licFeat l)) 15 2 (licTiles l)) 1 0 1)).setReady 2 1

/-- A Millrace port trains with what its peer makes known, or finds no peer (R22, R374); failed lanes leave it narrowed or OFF
(R425). -/
def State.mrcTrain (s : State) (q : Nat) (peer : Option (List (Nat × Nat))) : State :=
  let f := (s.mlanes q).failed
  let low := f.any fun l => decide (l < 4)
  let high := f.any fun l => decide (4 ≤ l)
  if low && high then s.setReg .hub .mrcPortStatus q (setFld 0 30 30 1)
  else
    match agree s.mrcAdvert (peer.getD []) with
    | none => s.mrcNoVer q
    | some x =>
      (s.setReg .hub .mrcPortStatus q
        (setFld (setFld (setFld (setFld 0 31 31 1) 27 24 (if low || high then 4 else 8)) 15 8 x.1) 7 0 x.2)).setReady (18 + q) 1
/-- The twelve ports: under FL they train, but for those that are up; otherwise the licence disables them (R8). -/
def State.mrcTrainAll (s : State) (l : List (Nat × List (Nat × Nat))) : State :=
  (List.range 12).foldl (fun t q => if t.mrcUp q then t else if t.fl then t.mrcTrain q (aFind l q) else t.setReg .hub .mrcPortStatus q (setFld 0 30 30 1)) s

/-- The mode in which a PCIe port trains (R361, R364). -/
def State.pcieTrains (s : State) (p : Nat) : Nat :=
  let m (q : Nat) : Nat := s.rf .hub .hubPcieCfg q 31 30
  if m p = 1 then (if (List.range p).any fun q => decide (m q = 1) then 0 else 1)
  else if m p = 2 then (if s.fl && decide (p < 2) then 2 else 0)
  else m p
/-- A PCIe port that is not up trains: width and speed, none where no link comes up. -/
def State.pcieTrain (s : State) (p : Nat) (v : Option (Nat × Nat)) : State :=
  if s.rf .hub .hubPcieCfg p 19 19 = 1 then s else
  let mode := s.pcieTrains p
  let r := setFld (setFld 0 31 30 (s.rf .hub .hubPcieCfg p 31 30)) 29 28 mode
  match v with
  | some x =>
    if mode = 3 ∨ [1, 2, 4, 8, 16].contains x.1 = false ∨ x.2 = 0 ∨ 6 < x.2 then s.setReg .hub .hubPcieCfg p r
    else (s.setReg .hub .hubPcieCfg p (setFld (setFld (setFld r 27 23 x.1) 22 20 x.2) 19 19 1)).setReady (14 + p) 1
  | none => s.setReg .hub .hubPcieCfg p r

/-- A licence in place of the one in force, verified in its slot (R448, R449). -/
def State.licInstall (s : State) (k l : Nat) (mrc : List (Nat × List (Nat × Nat))) : State :=
  let up := decide (s.rf .hub .licStatus 0 15 2 < licTiles l)
  let nx := s.nx
  let t := ({ s with topoDue := true }.putBoot { s.bootRec with slot := k }).licUse k l
  let t := if up then allCds.foldl (fun x n => if x.dom (.cd n) false = 2 then x.setRf .hub .licStatus 0 (28 + n.val) (28 + n.val) 1 else x) t else t
  if nx && t.fl then t.mrcTrainAll mrc else t

/-- The second half of an install (R448): the slot written is read back and verified, only then marked current, and the request that
waits is answered. -/
def State.licFinish (s : State) (m : Mbx) (k : Nat) (mrc : List (Nat × List (Nat × Nat))) : State :=
  let t : State := { s with licWait := none }
  let l := t.licSlot k
  let r := t.licReason l
  if r = 0 then (t.licInstall k l mrc).mailOut m.path m.cmd m.tag .ok 0 0 else (t.licRefuse r).mailOut m.path m.cmd m.tag .perm 0 0

/-- LICENCE_VERIFY: step 4, or the verification of an install. In step 4 the current slot is verified first, then the other; with no
valid licence steps 5 to 8 do not run (R440). `pcie` and `mrc` list the ports that find a partner, with (width, speed), and what the
peer makes known. -/
def execLicenceVerify (pcie : List (Nat × (Nat × Nat))) (mrc : List (Nat × List (Nat × Nat))) (s : State) : Host.Outcome State Fault Refusal :=
  done s (
    if s.running .hub false = false then s
    else if s.boot ≠ 4 then (match s.licWait with | some w => s.licFinish w.1 w.2 mrc | none => s)
    else
      let s0 := s.setRf .hub .licStatus 0 1 0 0
      let k := s.bootRec.slot % 2
      let r1 := s0.licReason (s.licSlot k)
      let t :=
        if r1 = 0 then s0.licUse k (s.licSlot k)
        else
          let u := s0.licRefuse r1
          let r2 := u.licReason (s.licSlot (1 - k))
          if r2 = 0 then u.licUse (1 - k) (s.licSlot (1 - k)) else u.licRefuse r2
      let t := (List.range 4).foldl (fun x p => x.pcieTrain p (aFind pcie p)) t
      { t.mrcTrainAll mrc with boot := if t.licensed then 5 else 7 })

/-! ### Steps 5 to 8 (R437-R441) -/

/-- Whether a die, or a stack of index 7 to 14, is fitted (R443). -/
def State.fitted (s : State) (i : Nat) : Bool := !s.fuse.unfitted.contains i

/-- MC_POWER_UP: step 5, for the domains that are off. A die that is not fitted counts as failed. -/
def execMcPowerUp (s : State) : Host.Outcome State Fault Refusal :=
  done s (
    if s.boot ≠ 5 then s
    else
      let t := allCds.foldl (fun x n =>
        if s.fitted (3 + n.val) then (if x.dom (.cd n) false = 0 then x.powerUp (.cd n) false else x) else (x.setDom (.cd n) false 4).setDom (.cd n) true 4) s
      let t := [0, 1].foldl (fun x k => if s.fitted (1 + Fin.val k) then x else x.setDom (.hd k) false 4) t
      { t with boot := 6 })

/-- A pseudo-channel in step 6 leaves a state (R274, R438): OFF for training; TRAIN for RETIRED by an entry, for OFF where training
fails, else for TEST; TEST for ONLINE, filled with zeros. -/
def State.pchInit (s : State) (p : Nat) (bad : Bool) : State :=
  match s.pch p with
  | 0 => s.movePch p 1
  | 1 =>
    (match s.retEnts.find? fun e => decide (e.p = p) with
      | some e => ((s.movePch p 6).setRf (.cd (pchDie p)) .memPchState (pchIdx p) 12 8 e.k).setBurSt (burrOfPch p) 6
      | none => s.movePch p (if bad then 0 else 2))
  | 2 => (s.fillPch p false).enterOnline p
  | _ => s

/-- The state that the pseudo-channels of a stack leave next: TRAIN or TEST where one is in it, else OFF. -/
def State.stackPhase (s : State) (k : Nat) : Nat :=
  let on (v : Nat) : Bool := (upFrom (64 * k) 64).any fun p => decide (s.pch p = v)
  if on 1 then 1 else if on 2 then 2 else 0

/-- STACK_INIT: the next part of step 6 for a stack: its interface trains, its pseudo-channels go to TEST, they are filled and go
ONLINE; `bad` are those that fail training (R438, R484). The last one sets the STACK bit. -/
def execStackInit (k : Nat) (bad : List Nat) (s : State) : Host.Outcome State Fault Refusal :=
  done s (
    if 8 ≤ k ∨ s.boot < 6 ∨ 9 < s.boot ∨ s.dom (.cd (cdOf (k / 2))) false ≠ 2 ∨ s.ready (40 + k) = true ∨
        ([10 + k, 18 + k, 26 + k].all fun r => s.rails.contains r) = false ∨ (aFind s.pchKeep (64 * k)).isSome = true then s
    else
      let ph := s.stackPhase k
      let t := ((List.range 64).filter fun i => decide (s.pch (64 * k + i) = ph)).foldl (fun t i => t.pchInit (64 * k + i) (bad.contains i)) s
      if ph ≠ 0 ∧ t.stackPhase k = 0 then t.setReady (40 + k) 1 else t)

/-- Whether some pseudo-channel of a stack is ONLINE. -/
def State.stackOnline (s : State) (k : Nat) : Bool := (upFrom (64 * k) 64).any fun p => decide (s.pch p = 3)
/-- The lowest-numbered stack that is ONLINE. -/
def State.firstStack (s : State) : Option Nat := (List.range 8).find? fun k => s.ready (40 + k) && s.stackOnline k

/-- Length of the host boot image: its first eight bytes, at most 8 MiB. -/
def State.hostImgLen (s : State) : Nat := min (2 ^ 23) (leNat ((List.range 8).map fun i => s.flashByte (hostImgBase + i)))
/-- Where byte `i` of the host boot image goes: piece j in frame f of band j (R441). -/
def hostImgPa (f i : Nat) : Nat := i / 2 ^ 21 * 0x1000000 + f * 0x200000 + i % 2 ^ 21

/-- A byte stored by management firmware where its line is served. -/
def State.storeByte (s : State) (pa : Nat) (b : Byte) : State :=
  match s.locOf pa with
  | some l => if s.pchServes l.p then s.wrKey l.key b else s
  | none => s

/-- An entry of the context protection table and its replicas, and a frame's domain with its replicas. -/
def State.cptAll (s : State) (ctx : Nat) (e : BitVec 128) : State :=
  let t := s.cptPut ctx e
  { t with cptRep := [0, 1, 2, 3, 4].foldl (fun m r => aSet m (r, ctx) (t.cptMaster ctx)) t.cptRep }
def State.fdtAll (s : State) (f : Nat) (e : W16) : State :=
  { s with fdt := aSet s.fdt f e, fdtRep := [0, 1, 2, 3, 4].foldl (fun m r => aSet m (r, f) e) s.fdtRep }

/-- Actions 1 and 2 of R441, done once. -/
def State.hostLoad (s : State) (f : Nat) : State :=
  let t := s.setRf .hub .memBandMode 0 7 0 0xFF
  let n := s.hostImgLen
  let t := (List.range n).foldl (fun x i => x.storeByte (hostImgPa f i) (s.flashByte (hostImgBase + i))) t
  let e : BitVec 128 := setFld (setFld (setFld (setFld (setFld (setFld 0 71 64 1) 8 8 1) 6 6 1) 5 5 1) 3 2 1) 1 0 1
  let t := (List.range (cdiv n (2 ^ 21))).foldl (fun x j => x.fdtAll (hostImgPa f (j * 2 ^ 21) / 2 ^ 21) (setFld 0x8000 7 0 1)) (t.cptAll 1 e)
  { t with hostImg := true, hostFrame := f }

/-- Compute dies of a host die, with the links that join them to it (Table 1-3). -/
def hostLinks (k : Fin 2) : List (Nat × Fin 4) := if k = 0 then [(8, 0), (9, 2)] else [(10, 1), (11, 3)]

/-- HOST_RELEASE: step 7 for a host die. Its power-up ends with the release of its cores. -/
def execHostRelease (k : Fin 2) (s : State) : Host.Outcome State Fault Refusal :=
  done s (
    match s.firstStack with
    | none => s
    | some f =>
      if s.boot ≠ 6 ∨ s.released.contains k.val = true ∨ s.dom (.hd k) false ≠ 0 ∨ ((hostLinks k).any fun l => s.linkUp l.1) = false then s
      else
        let t := if s.hostImg then s else s.hostLoad f
        { t with released := t.released ++ [k.val] }.powerUp (.hd k) false)

/-- Whether step 6 has ended on every running compute die, with no stack ONLINE (R440). -/
def State.noStack (s : State) : Bool :=
  !((List.range 8).any s.stackOnline) &&
  (List.range 8).all fun k =>
    decide (s.dom (.cd (cdOf (k / 2))) false ≠ 2) || s.ready (40 + k) || s.deadStacks.contains k || !s.fitted (7 + k)
/-- Whether a host die's compute dies have all failed, or share no version with it: its step 7 cannot start (R440). -/
def State.hostCutOff (s : State) (k : Fin 2) : Bool :=
  (hostLinks k).all fun l => decide (s.dom (.cd l.2) false = 4) || s.linkVer.contains l.1 || (s.linkLive l.1).isEmpty
/-- Whether step 7 has ended for a host die. -/
def State.hostEnded (s : State) (k : Fin 2) : Bool :=
  decide (s.dom (.hd k) false = 2 ∨ s.dom (.hd k) false = 4) ||
    (decide (s.dom (.hd k) false = 0) && (s.noStack || s.hostCutOff k))
/-- Whether every compute die's memory-controller domain runs or has failed. -/
def State.mcEnded (s : State) : Bool := allCds.all fun n => decide (s.dom (.cd n) false = 2 ∨ s.dom (.cd n) false = 4)

/-- Whether the tile domain of a die waits for step 8: it is off, or in reset with its partition's reset behind it. -/
def State.tileWaits (s : State) (n : Fin 4) : Bool :=
  decide (s.dom (.cd n) false = 2) && decide (s.dom (.cd n) true ≤ 1) && !(s.pups.any fun u => decide (u.die = .cd n) && u.tile) &&
    !s.resets.any fun r => decide (r.scope = 2 ∧ r.die = .cd n)

/-- TILE_POWER_UP: step 8; `bad` are the tiles and channels whose self-test fails, those of the hub's channels, which the reset of the
package has reset, found now (R425). -/
def execTilePowerUp (bad : SelfTest) (s : State) : Host.Outcome State Fault Refusal :=
  done s (
    if s.boot ≠ 6 ∨ s.mcEnded = false ∨ s.hostEnded 0 = false ∨ s.hostEnded 1 = false then s
    else
      let t : State := { s with boot := 8, selfBad := bad }.chanTest .hub bad.chans
      allCds.foldl (fun x n => if x.tileWaits n then x.powerUp (.cd n) true else x) t)

/-! ### The topology check (R444, R445) -/

/-- Logical tiles of a compute die in service. -/
def State.tilesIn (s : State) (n : Fin 4) : Nat :=
  if s.dom (.cd n) true = 2 then ((List.range (8 * s.nTiles n.val)).filter fun i => !s.tileRetired n i).length else 0

/-- The place of a die among its kind, and the height of the stacks as the fuse map has it (R443). -/
def diePlace : Die → Nat
  | .hub => 0
  | .hd k => k.val
  | .cd n => n.val
def Fuse.height (f : Fuse) : Nat := if f.high16 then 16 else 12
/-- Whether what a die's HUB_DIE_ID shows differs from the fuse map in DIE_TYPE, DIE_INDEX or GENERATION (R44, R444). -/
def State.idWrong (s : State) (ids : List (Nat × Nat)) (d : Die) : Bool :=
  let v := (aFind ids d.idx).getD (s.reg d .hubDieId 0).toNat
  decide (v / 2 ^ 16 % 256 ≠ s.fuse.types[d.idx]?.getD 0 ∨ v / 2 ^ 12 % 16 ≠ diePlace d ∨ v / 2 ^ 8 % 16 ≠ s.fuse.gen[d.idx]?.getD 0)
/-- Whether a stack reports another height than the fused one. -/
def State.heightWrong (s : State) (heights : List (Nat × Nat)) (k : Nat) : Bool :=
  decide ((aFind heights k).getD (s.fuse.heights[k]?.getD 0) ≠ s.fuse.height)

/-- Whether a rule of Table 16-4 matches; `ids` and `heights` are what the check reads of a die's HUB_DIE_ID or a stack's height where
that is not what the part has been built with. -/
def State.topoRule (s : State) (ids heights : List (Nat × Nat)) (r : Nat) : Bool :=
  match r with
  | 1 => !s.licensed || decide (s.rf .hub .licStatus 0 19 18 ≠ if s.fuse.high16 then 1 else 2)
  | 2 => decide (s.dom (.hd 0) false ≠ 2) && decide (s.dom (.hd 1) false ≠ 2)
  | 3 => decide (s.rf .hub .hubReady 0 47 40 = 0)
  | 4 => (List.range 8).any fun k => s.fitted (7 + k) && s.ready (40 + k) && s.heightWrong heights k
  | 5 => allDies.any fun d => s.fitted d.idx && decide (s.dom d false = 2) && s.idWrong ids d
  | 6 =>
    (allDies.any fun d => s.fitted d.idx && (decide (s.dom d false = 4) || (match d with | .cd _ => decide (s.dom d true = 4) | _ => false))) ||
      !s.linkVer.isEmpty
  | 7 => allCds.any fun n => s.fitted (3 + n.val) && decide (s.tilesIn n < 8 * s.nTiles n.val)
  | 8 => (List.range 512).any fun p => s.fitted (7 + p / 64) && decide (s.pch p = 0 ∨ s.pch p = 4 ∨ s.pch p = 6)
  | 9 => allLinks.any fun k => decide ((s.linkLive k).length < linkBuilt k) || (s.linkReg k).getLsbD 30
  | _ =>
    s.fl && (List.range 12).any fun q => decide (s.rf .hub .mrcPortStatus q 27 24 = 4) || (s.reg .hub .mrcPortStatus q).getLsbD 30

/-- The result of a check: 1 ready, 2 degraded, 3 not ready, which a package once declared does not become again; and the rule. -/
def State.topoResult (s : State) (ids heights : List (Nat × Nat)) : Nat × Nat :=
  let hits := (upFrom 1 10).filter fun r => s.topoRule ids heights r
  let was := s.rf .hub .hubReady 0 63 62
  match hits with
  | [] => (1, 0)
  | r :: _ => (if r ≤ 5 ∧ was ≠ 1 ∧ was ≠ 2 then 3 else 2, r)

/-- Whether every domain runs or has failed, or is one that bring-up leaves out. -/
def State.allEnded (s : State) : Bool :=
  s.mcEnded && s.hostEnded 0 && s.hostEnded 1 && allCds.all fun n => decide (s.dom (.cd n) true = 2 ∨ s.dom (.cd n) true = 4)

/-- TOPOLOGY_CHECK: step 9, with no valid licence after step 4 (R440), and again when RECOVERY clears and after a licence change. -/
def execTopologyCheck (ids heights : List (Nat × Nat)) (s : State) : Host.Outcome State Fault Refusal :=
  done s (
    if s.boot = 7 ∨ (s.boot = 8 ∧ s.allEnded = true) ∨ (s.boot = 9 ∧ s.topoDue = true) then
      let r := s.topoResult ids heights
      let t := (s.setRf .hub .hubReady 0 63 62 r.1).setRf .hub .hubReady 0 61 56 r.2
      let t := if r.1 = 1 then t else t.raise .hub 0x0C r.2
      let t := if r.1 = 3 then t else t.orderReason 0 0
      { t with boot := 9, topoDue := false, resetBusy := false }
    else s)

/-! ### The mailbox (R460, R461) -/

/-- The front request is served where it is the command that runs and no fault handling or power-loop work comes before it (R461); on
default settings nothing but SETTINGS_RESET is (R456). -/
def State.mailTake (s : State) (cmd : Nat) (f : State → Mbx → State) : State :=
  match s.mbox with
  | [] => s
  | m :: rest =>
    if m.cmd ≠ cmd ∨ (s.fwRuns || s.recovering) = false ∨ s.rf .hub .fwStatus 0 2 2 = 1 ∨ s.mgmtWork ≠ [] then s
    else
      let t : State := { s with mbox := rest }
      if s.rf .hub .fwStatus 0 4 4 = 1 ∧ cmd ≠ 0x0B then t.mailOut m.path m.cmd m.tag .unav 0 0 else f t m
/-- A request that is answered as it is served. -/
def State.mailServe (s : State) (cmd : Nat) (f : State → Mbx → Status × Nat × State) : State :=
  s.mailTake cmd fun t m =>
    let r := f t m
    r.2.2.mailOut m.path m.cmd m.tag r.1 0 r.2.1

/-- Numbers of `n` bytes each, the first at the lowest address. -/
def packed (n : Nat) (l : List Nat) : Nat := l.foldr (fun x a => x % 256 ^ n + 256 ^ n * a) 0

/-- Versions that the links of the compute dies and the hub have negotiated, by port (R46, Table 16-8). -/
def State.linkVers (s : State) : List Nat :=
  (allCds.map Die.cd ++ [Die.hub]).flatMap fun d => (List.range 4).map fun p => s.rf d .linkStatus p 15 0
/-- GET_VERSION: firmware version, mailbox version, and the interface versions of Table 16-8, two bytes each. -/
def execGetVersion (s : State) : Host.Outcome State Fault Refusal :=
  done s (s.mailServe 0x01 fun t _ =>
    (.ok, packed 2 ([t.rf .hub .fwStatus 0 47 32, t.mailMajor * 256] ++
      (([.mxIfVersion, .vxIfVersion, .burIfVersion, .smpIfVersion, .cqIfVersion, .dmaIfVersion].map fun n => t.rf (.cd 0) n 0 15 0) ++
        [t.rf .hub .mrcIfVersion 0 15 0] ++ t.linkVers)), t))

/-- SET_LIMIT: TARGET, in units of 25 W (R399). -/
def execSetLimit (v : Nat) (s : State) : Host.Outcome State Fault Refusal :=
  done s (s.mailServe 0x02 fun t _ => (.ok, 0, t.setTarget v))

/-- GET_TELEMETRY: the snapshot with its age in ms; one older than the sampling interval, which management work stretches to `age` ms,
1 to 1,000, is taken anew first. -/
def execGetTelemetry (age : Nat) (s : State) : Host.Outcome State Fault Refusal :=
  done s (s.mailServe 0x03 fun t _ =>
    let u := if t.telemAge < max 1 (min 1000 age) then t else t.telemTake
    (.ok, packed 8 (u.telemAge :: u.telem.vals), u))

/-- GET_FAULTS: FLT_PKG_FIRST and its time, then each die's record, time and information and its sticky bits. -/
def execGetFaults (s : State) : Host.Outcome State Fault Refusal :=
  done s (s.mailServe 0x04 fun t _ =>
    (.ok, packed 8 ([(t.reg .hub .fltPkgFirst 0).toNat, (t.reg .hub .fltPkgTime 0).toNat] ++ allDies.flatMap fun d =>
      [(t.reg d .fltFirst 0).toNat, (t.reg d .fltFirstTime 0).toNat, (t.reg d .fltFirstInfo 0).toNat] ++
        (List.range 4).map fun k => (t.reg d .fltSticky k).toNat), t))

/-- The licence slot that is not in use. -/
def State.licFree (s : State) : Nat := if s.licensed then 1 - s.rf .hub .licStatus 0 20 20 else 1 - s.bootRec.slot % 2
/-- LICENCE_INSTALL: the payload is a licence, written to the slot not in use; it waits for its verification, and a second one meanwhile
completes with BUSY (R448). `flips` are bytes of the slot that have come out otherwise, as (offset, byte). -/
def execLicenceInstall (flips : List (Nat × Nat)) (s : State) : Host.Outcome State Fault Refusal :=
  done s (s.mailTake 0x05 fun t m =>
    if t.licWait.isSome then t.mailBusy m.path m.cmd m.tag
    else
      let k := t.licFree
      let u := t.flashPut (licBase k) (leBytes 256 m.data)
      { flips.foldl (fun x e => if e.1 < 256 then x.flashPut (licBase k + e.1) [BitVec.ofNat 8 e.2] else x) u with licWait := some (m, k) })

/-- FW_WRITE: `len` bytes of the payload at an offset of the image not in use, whose verdicts are void. -/
def execFwWrite (off len : Nat) (s : State) : Host.Outcome State Fault Refusal :=
  done s (s.mailServe 0x06 fun t m =>
    if 4096 < len ∨ 2 ^ 23 < off + len then (.perm, 0, t)
    else
      let i := t.otherImg
      (.ok, 0, (t.flashPut (imgBase i + off) (leBytes len m.data)).imgVoid i))

/-- FW_VERIFY: the written image with what the root of trust finds of it, where it has found nothing since it was written. -/
def execFwVerify (h : Option ImgHdr) (s : State) : Host.Outcome State Fault Refusal :=
  done s (s.mailServe 0x07 fun t _ =>
    let i := t.otherImg
    let x := t.imgFind i h
    (if t.imgOk i x then .ok else .perm, 0, { t with hdrs := aSet t.hdrs i x }))

/-- A live activation begins (R457-R459): the new image is loaded next, and waiting requests are told to come back. -/
def State.goLive (s : State) (i : Nat) : State :=
  let t := s.mbox.foldl (fun x m => x.mailOut m.path m.cmd m.tag .busy 100 0) s
  ({ t with mbox := [], liveNext := true }.putBoot { t.bootRec with active := i, trial := true }).setRf .hub .fwStatus 0 2 2 1

/-- FW_ACTIVATE: the verified image, at the next package reset or live. -/
def execFwActivate (live : Bool) (s : State) : Host.Outcome State Fault Refusal :=
  done s (s.mailServe 0x08 fun t _ =>
    let i := t.otherImg
    if t.imgOk i (t.imgFind i none) = false then (.perm, 0, t)
    else if live then (.ok, 0, t.goLive i)
    else (.ok, 0, t.putBoot { t.bootRec with active := i, trial := true }))

/-- SETTINGS_READ: SCHEMA and payload of the record in force. -/
def execSettingsRead (s : State) : Host.Outcome State Fault Refusal :=
  done s (s.mailServe 0x09 fun t _ =>
    match t.settingsNow with
    | some r => (.ok, r.schema.toNat + 2 ^ 16 * r.payload, t)
    | none => (.ok, 0, t))

/-- A record appended at the running image's SMAX (R456). -/
def State.appendSettings (s : State) (payload : Nat) (modes : List (Nat × Nat)) (good : Bool) : State :=
  let t := s.appendRec s.fwHdr.smax payload modes good
  if good then t.setRf .hub .fwStatus 0 63 48 s.fwHdr.smax else t

/-- SETTINGS_WRITE: a record with the payload, which sets `modes`; `good` is whether the append survives with its CRC. -/
def execSettingsWrite (modes : List (Nat × Nat)) (good : Bool) (s : State) : Host.Outcome State Fault Refusal :=
  done s (s.mailServe 0x0A fun t m => (.ok, 0, t.appendSettings m.data modes good))

/-- SETTINGS_RESET: a default record at SMAX; DEFAULTS and event code 2 clear. -/
def execSettingsReset (s : State) : Host.Outcome State Fault Refusal :=
  done s (s.mailServe 0x0B fun t _ =>
    let u := (t.appendSettings 0 [] true).setRf .hub .fwStatus 0 4 4 0
    (.ok, 0, if u.rf .hub .fwStatus 0 15 12 = 2 then u.setRf .hub .fwStatus 0 15 12 0 else u))

end Sys2Proof.Machine
end

