-- ==== Sys2Proof/Machine/Pins.lean ====
section
/-!
DEFINITION. Low-speed pins and the test access port (R472-R479).
-/

namespace Sys2Proof.Machine

/-! ### Pin multiplexing (R475-R478) -/

/-- The functions of a pin other than GPIO (Table 17-6). -/
def pinFuncs (k : Nat) : List Nat := if k ≤ 5 then [0, 1, 2] else [0]
/-- Whether a function only listens on its pin: RXD, CTS_N, MISO. -/
def funcInput (k f : Nat) : Bool := decide ((k, f) = (1, 1) ∨ (k, f) = (3, 1) ∨ (k, f) = (5, 1) ∨ (k, f) = (2, 2))
/-- The input level that a function sees while it does not hold its pin: RXD, CTS_N, SCL and SDA 1, MISO and a GPIO 0 (Table 17-6). -/
def inactiveLevel (k f : Nat) : Bool := [(1, 1), (3, 1), (4, 2), (5, 1), (5, 2)].contains (k, f)
/-- The input level that a function sees: the pin's once it is connected, its inactive level before and after (R475, Table 17-7). -/
def State.funcSees (s : State) (k f : Nat) : Bool :=
  if s.pinFunc k = f ∧ s.switching k = false then s.pinLevel k else inactiveLevel k f

/-- The level that a pin holds while it is switched: the last driven one, or for an input what its PULL sets, and without one the last
sampled (Table 17-7). -/
def State.holdLevel (s : State) (k : Nat) : Bool :=
  if (decide (s.pinFunc k = 0) && !s.gpioDrives k) || funcInput k (s.pinFunc k) then
    (if s.pinPull k = 1 then false else if s.pinPull k = 2 then true else s.pinLevel k)
  else s.pinLevel k

/-- PIN_MUX_WRITE (R476, R477): PERM for an illegal value before BUSY, as R20 ranks them. -/
def execPinMuxWrite (w : Wr) (s : State) : Host.Outcome State Fault Refusal :=
  done s (match s.gate .hub .pinMux w.pl w.ctx with
    | .ok =>
      let k := w.idx % 32
      if (pinFuncs k).contains (fld w.val 1 0) = false ∨ fld w.val 5 4 = 3 ∨ fld w.val 7 6 = 3 then s.answer .perm 0
      else if s.switching k then s.answer .busy 0
      else
        let new := setFld (setFld (setFld 0 7 6 (fld w.val 7 6)) 5 4 (fld w.val 5 4)) 1 0 (fld w.val 1 0)
        (if s.pinFunc k = fld w.val 1 0 then s.setReg .hub .pinMux k new
         else
          { s with pinHold := aSet s.pinHold k (s.holdLevel k) }.setReg .hub .pinMux k (setFld new 31 31 1)).answer .ok 0
    | e => s.answer e 0)

/-- PIN_SWITCH_DONE: 8 clk_side have passed, and the new function is connected. -/
def execPinSwitchDone (k : Nat) (s : State) : Host.Outcome State Fault Refusal :=
  done s (
    if 32 ≤ k ∨ s.switching k = false ∨ s.running .hub false = false then s
    else { s with pinHold := aErase s.pinHold k }.setRf .hub .pinMux k 31 31 0)

/-- GPIO_INPUT: the platform's level on a pin changes, and PIN_GPIO_IN follows the pin. -/
def execGpioInput (k : Nat) (level : Bool) (s : State) : Host.Outcome State Fault Refusal :=
  done s (if 32 ≤ k then s else { s with pins := aSet s.pins k level })

/-! ### Pads (R464, R474) -/

/-- Low-speed and control contacts (Table 17-2). -/
inductive Pad where
  | railEn (i : Nat) | railPg (i : Nat) | ls (k : Nat) | qspiSclk | qspiCsN | qspiIo (i : Nat) | i3cScl | i3cSda
  | resetN | pwrGood | aliveOut | testEn | hubEn | tck | tms | tdi | tdo | trstN
deriving DecidableEq, Repr

/-- What the part does with a pad: it drives a level, it listens with a weak pull or without, or the pad is in high impedance. -/
inductive PadState where
  | driven (level : Bool) | pullUp | pullDown | input | highZ
deriving DecidableEq, Repr

/-- The cells of the boundary register in the order of Table 17-2, the first nearest to TDO: one for each LVCMOS pin but the test access
port's own. -/
def boundaryPads : List Pad :=
  (List.range 34).map Pad.railEn ++ (List.range 34).map Pad.railPg ++ (List.range 32).map Pad.ls ++
    [.qspiSclk, .qspiCsN] ++ (List.range 4).map Pad.qspiIo ++ [.i3cScl, .i3cSda, .resetN, .pwrGood, .aliveOut, .testEn, .hubEn]
/-- Number of its cells. -/
def boundaryLen : Nat := boundaryPads.length

/-- Whether the hub main domain runs: until it does, and through every package reset, the pins are as R474 says. -/
def State.hubLit (s : State) : Bool := decide (s.dom .hub false = 2)
/-- Whether the enable of a sequenced rail is asserted: the rail is there, or a power-up waits for it (R466). -/
def State.railEn (s : State) (i : Nat) : Bool := s.rails.contains i || s.pups.any fun u => decide (u.todo.headD 100 = i)

/-- A pad under functional control. -/
def State.padFunc (s : State) (p : Pad) : PadState :=
  match p with
  | .railEn i => .driven (s.hubLit && s.railEn i)
  | .ls k =>
    if s.switching k then .driven (aGet s.pinHold false k)
    else if s.gpioDrives k || funcOutput k (s.pinFunc k) then .driven (s.pinLevel k)
    else if s.pinPull k = 1 then .pullDown else if s.pinPull k = 2 then .pullUp else .input
  | .qspiCsN => .driven (!s.hubLit || Config.freeBool (s.free + 33))
  | .qspiSclk => if s.hubLit then .driven (Config.freeBool (s.free + 32)) else .input
  | .aliveOut => .driven (decide (s.rf .hub .fltAlive 0 30 30 = 1))
  | .hubEn => .driven s.hubEn
  | .tms | .tdi | .trstN => .pullUp
  | .tck => .pullDown
  | .tdo => .highZ
  | .railPg _ | .qspiIo _ | .i3cScl | .i3cSda | .resetN | .pwrGood | .testEn => .input

/-- Pads that the boundary register can drive. -/
def Pad.drives : Pad → Bool
  | .railEn _ | .ls _ | .qspiSclk | .qspiCsN | .qspiIo _ | .i3cScl | .i3cSda | .aliveOut | .hubEn => true
  | _ => false
/-- Whether EXTEST, CLAMP or HIGHZ has the pins: only while RESET_N is asserted (R479). -/
def State.tapHolds (s : State) (ir : Nat) : Bool := s.rstIn && decide (s.jtag.tap = .runTestIdle) && decide (s.jtag.ir = ir)
/-- A pad (R474, R479). -/
def State.pad (s : State) (p : Pad) : PadState :=
  if p.drives && (s.tapHolds 2 || s.tapHolds 4) then .driven (s.jtag.bsr.testBit (boundaryPads.idxOf p))
  else if p.drives && s.tapHolds 5 then .highZ
  else s.padFunc p

/-- The level that a cell of the boundary register captures. RAIL_PGi is high with its rail, TESTEN is tied low (R464, R472); what the
spec gives no level for is free. -/
def State.padLevel (s : State) (p : Pad) : Bool :=
  match s.pad p, p with
  | .driven v, _ => v
  | _, .railPg i => s.rails.contains i
  | _, .ls k => s.pinLevel k
  | _, .resetN => !s.rstIn
  | _, .pwrGood => s.pwrGood
  | _, .testEn => false
  | _, p => Config.freeBool (s.free + 32 + boundaryPads.idxOf p)
/-- The levels of the pins as the boundary register captures them. -/
def State.boundary (s : State) : Nat := (withIdx boundaryPads).foldl (fun a e => a + b2n (s.padLevel e.2) * 2 ^ e.1) 0

/-! ### The test access port (R479) -/

/-- The identification code: version from the hub's STEPPING. -/
def State.idcode (s : State) : Nat := (s.fuse.ids.headD 0).toNat % 16 * 2 ^ 28 + 0xA4E3 * 2 ^ 12 + 0x433 * 2 + 1

/-- A register of `n` bits shifted by a scan: what comes out, and what it holds then. -/
def scanShift (x : Scan) (n held : Nat) : Nat × Nat :=
  let v := held + x.bits % 2 ^ x.len * 2 ^ n
  (v % 2 ^ x.len, v / 2 ^ x.len % 2 ^ n)
/-- An instruction is loaded, and its register scanned; the output names the instruction that acts, and what comes out on TDO unless that
is in high impedance (R474). -/
def State.scan (s : State) (ir acts tdo : Nat) : State :=
  { s with jtag := { s.jtag with tap := .runTestIdle, ir := ir } }.emit .jtag (acts :: if s.hubLit then [tdo] else [])
/-- The bypass register scanned: one bit, captured as 0. -/
def State.scanBypass (s : State) (ir acts : Nat) (x : Scan) : State := s.scan ir acts (scanShift x 1 0).1
/-- The boundary register scanned from the levels of the pins, and loaded. -/
def State.scanBoundary (s : State) (ir : Nat) (x : Scan) : State :=
  let r := scanShift x boundaryLen s.boundary
  { s with jtag := { s.jtag with bsr := r.2 } }.scan ir ir r.1

/-- JTAG_TAP_RESET. -/
def execJtagTapReset (s : State) : Host.Outcome State Fault Refusal := done s { s with jtag := { s.jtag with tap := .testLogicReset, ir := 3 } }
/-- IDCODE. -/
def execIdcode (s : State) : Host.Outcome State Fault Refusal := done s (s.scan 3 3 s.idcode)
/-- BYPASS, and every instruction code that is no public one. -/
def execBypass (x : IrScan) (s : State) : Host.Outcome State Fault Refusal := done s (s.scanBypass x.ir 0xFF x.scan)
/-- SAMPLE/PRELOAD: the pins are captured, and the boundary register is loaded. -/
def execSamplePreload (x : Scan) (s : State) : Host.Outcome State Fault Refusal := done s (s.scanBoundary 1 x)
/-- EXTEST: while RESET_N is asserted the pins are captured and driven from what is scanned in. -/
def execExtest (x : Scan) (s : State) : Host.Outcome State Fault Refusal :=
  done s (
    if s.rstIn then let t := s.scanBoundary 2 x; t.emit .pin [2, t.jtag.bsr]
    else s.scanBypass 2 0xFF x)
/-- CLAMP: while RESET_N is asserted the pins hold what was preloaded; the bypass register is scanned. -/
def execClamp (x : Scan) (s : State) : Host.Outcome State Fault Refusal :=
  done s (
    if s.rstIn then (s.scanBypass 4 4 x).emit .pin [4, s.jtag.bsr]
    else s.scanBypass 4 0xFF x)
/-- HIGHZ: while RESET_N is asserted the outputs are in high impedance; the bypass register is scanned. -/
def execHighz (x : Scan) (s : State) : Host.Outcome State Fault Refusal :=
  done s (
    if s.rstIn then (s.scanBypass 5 5 x).emit .pin [5]
    else s.scanBypass 5 0xFF x)

end Sys2Proof.Machine
end

