-- ==== Sys2Proof/Machine/Tick.lean ====
section
/-!
DEFINITION. What passes with time when no command waits: the package timestamp counts one clk_time while the hub main
domain runs, each running tile domain counts the 16 clk_tile of that time, in N1 none (R38, R141, R403), the time in the power state in
effect and a context's wait are measured (R398, R400), operations of CQ_PREEMPT in progress go on as far as they can (R356, R357),
traffic generators make an access each (R276), TLPs that wait go on (R371), rails that are being removed go one after the other (R466),
the management cores do a piece of their work (R461), and RECOVERY clears once nothing holds it (R372).
-/

namespace Sys2Proof.Machine

def State.tickDie (s : State) (d : Fin 4) : State :=
  let t := if s.running (.cd d) true && decide (s.pwrState ≠ 1) then { s with cycles := aSet s.cycles d.val (aGet s.cycles 0 d.val + 16) } else s
  t.preGo d

/-- TLPs that wait go on. -/
def State.tlpStep (s : State) : State := s.tlpsGo s.io.tlps []
/-- What the hub main domain counts in a clk_time. -/
def State.tickHub (s : State) : State :=
  ({ s with now := s.now + 1 }.count .hub .pwrResid s.pwrState 1).fanTick.recoverySettle.tlpStep.railTick.mgmtTick

def State.tick (s : State) : State :=
  (allCds.foldl State.tickDie (if s.running .hub false then s.tickHub else s)).tgTick

end Sys2Proof.Machine
end

