-- ==== Sys2Proof/Machine/Dispatch.lean ====
section
/-!
DEFINITION. The meaning of every command: one arm for each constructor of Instr, each a direct call of its meaning.
-/

namespace Sys2Proof.Machine
open Sys2Proof

def exec (i : Instr) (s : State) : Host.Outcome State Fault Refusal :=
  match i with
  | .registerWrite w => Sys2Proof.Machine.execRegisterWrite w s
  | .blockPlace t seq => Sys2Proof.Machine.execBlockPlace t seq s
  | .instructionFetch g ahead st => Sys2Proof.Machine.execInstructionFetch g ahead st s
  | .undefinedEncoding g => Sys2Proof.Machine.execUndefinedEncoding g s
  | .mov g => Sys2Proof.Machine.execMov g s
  | .add g => Sys2Proof.Machine.execAdd g s
  | .sub g => Sys2Proof.Machine.execSub g s
  | .mul g => Sys2Proof.Machine.execMul g s
  | .mulhi g => Sys2Proof.Machine.execMulhi g s
  | .mad g => Sys2Proof.Machine.execMad g s
  | .div g => Sys2Proof.Machine.execDiv g s
  | .rem g => Sys2Proof.Machine.execRem g s
  | .and g => Sys2Proof.Machine.execAnd g s
  | .or g => Sys2Proof.Machine.execOr g s
  | .xor g => Sys2Proof.Machine.execXor g s
  | .shl g => Sys2Proof.Machine.execShl g s
  | .shr g => Sys2Proof.Machine.execShr g s
  | .minmax g => Sys2Proof.Machine.execMinmax g s
  | .bitop g => Sys2Proof.Machine.execBitop g s
  | .setp g => Sys2Proof.Machine.execSetp g s
  | .fadd g => Sys2Proof.Machine.execFadd g s
  | .fsub g => Sys2Proof.Machine.execFsub g s
  | .fmul g => Sys2Proof.Machine.execFmul g s
  | .ffma g => Sys2Proof.Machine.execFfma g s
  | .fminmax g => Sys2Proof.Machine.execFminmax g s
  | .fdiv g => Sys2Proof.Machine.execFdiv g s
  | .fun1 g => Sys2Proof.Machine.execFun1 g s
  | .fun2 g => Sys2Proof.Machine.execFun2 g s
  | .lmul g => Sys2Proof.Machine.execLmul g s
  | .ldiv g => Sys2Proof.Machine.execLdiv g s
  | .lpow g => Sys2Proof.Machine.execLpow g s
  | .lroot g => Sys2Proof.Machine.execLroot g s
  | .ladd g => Sys2Proof.Machine.execLadd g s
  | .cvt g => Sys2Proof.Machine.execCvt g s
  | .lminmax g => Sys2Proof.Machine.execLminmax g s
  | .ldg g => Sys2Proof.Machine.execLdg g s
  | .stg g => Sys2Proof.Machine.execStg g s
  | .ldl g => Sys2Proof.Machine.execLdl g s
  | .stl g => Sys2Proof.Machine.execStl g s
  | .ldu g => Sys2Proof.Machine.execLdu g s
  | .prf g => Sys2Proof.Machine.execPrf g s
  | .aadd g => Sys2Proof.Machine.execAadd g s
  | .aadds g => Sys2Proof.Machine.execAadds g s
  | .amin g => Sys2Proof.Machine.execAmin g s
  | .amax g => Sys2Proof.Machine.execAmax g s
  | .aand g => Sys2Proof.Machine.execAand g s
  | .aor g => Sys2Proof.Machine.execAor g s
  | .axor g => Sys2Proof.Machine.execAxor g s
  | .axchg g => Sys2Proof.Machine.execAxchg g s
  | .acas g => Sys2Proof.Machine.execAcas g s
  | .bra g => Sys2Proof.Machine.execBra g s
  | .jmp g => Sys2Proof.Machine.execJmp g s
  | .call g => Sys2Proof.Machine.execCall g s
  | .exit g => Sys2Proof.Machine.execExit g s
  | .bar g => Sys2Proof.Machine.execBar g s
  | .nop g => Sys2Proof.Machine.execNop g s
  | .fence g => Sys2Proof.Machine.execFence g s
  | .waitk g => Sys2Proof.Machine.execWaitk g s
  | .rdk g => Sys2Proof.Machine.execRdk g s
  | .rnd g => Sys2Proof.Machine.execRnd g s
  | .time g => Sys2Proof.Machine.execTime g s
  | .sel g => Sys2Proof.Machine.execSel g s
  | .plop g => Sys2Proof.Machine.execPlop g s
  | .shfl g => Sys2Proof.Machine.execShfl g s
  | .vote g => Sys2Proof.Machine.execVote g s
  | .rdlane g => Sys2Proof.Machine.execRdlane g s
  | .mxi g => Sys2Proof.Machine.execMxi g s
  | .vxi g => Sys2Proof.Machine.execVxi g s
  | .umov g => Sys2Proof.Machine.execUmov g s
  | .uadd g => Sys2Proof.Machine.execUadd g s
  | .usub g => Sys2Proof.Machine.execUsub g s
  | .umul g => Sys2Proof.Machine.execUmul g s
  | .uand g => Sys2Proof.Machine.execUand g s
  | .uor g => Sys2Proof.Machine.execUor g s
  | .ushl g => Sys2Proof.Machine.execUshl g s
  | .ushr g => Sys2Proof.Machine.execUshr g s
  | .memoryResponse t oid st => Sys2Proof.Machine.execMemoryResponse t oid st s
  | .l1Fill t st => Sys2Proof.Machine.execL1Fill t st s
  | .writeBufferDrain t => Sys2Proof.Machine.execWriteBufferDrain t s
  | .writeBufferAck t st => Sys2Proof.Machine.execWriteBufferAck t st s
  | .blockEnd b => Sys2Proof.Machine.execBlockEnd b s
  | .mma t n => Sys2Proof.Machine.execMma t n s
  | .accLoad t => Sys2Proof.Machine.execAccLoad t s
  | .accStore t => Sys2Proof.Machine.execAccStore t s
  | .accZero t => Sys2Proof.Machine.execAccZero t s
  | .mxCounterIncrement t => Sys2Proof.Machine.execMxCounterIncrement t s
  | .vxLoad t n => Sys2Proof.Machine.execVxLoad t n s
  | .vxStore t n => Sys2Proof.Machine.execVxStore t n s
  | .cvtl t n => Sys2Proof.Machine.execCvtl t n s
  | .cvts t n => Sys2Proof.Machine.execCvts t n s
  | .cvtx t n => Sys2Proof.Machine.execCvtx t n s
  | .vxFill t n => Sys2Proof.Machine.execVxFill t n s
  | .vxCopy t n => Sys2Proof.Machine.execVxCopy t n s
  | .vxAdd t n => Sys2Proof.Machine.execVxAdd t n s
  | .vxSub t n => Sys2Proof.Machine.execVxSub t n s
  | .vxMul t n => Sys2Proof.Machine.execVxMul t n s
  | .vxDiv t n => Sys2Proof.Machine.execVxDiv t n s
  | .vxFma t n => Sys2Proof.Machine.execVxFma t n s
  | .vxMin t n => Sys2Proof.Machine.execVxMin t n s
  | .vxMax t n => Sys2Proof.Machine.execVxMax t n s
  | .vxSign t n => Sys2Proof.Machine.execVxSign t n s
  | .vxCmp t n => Sys2Proof.Machine.execVxCmp t n s
  | .vxSel t n => Sys2Proof.Machine.execVxSel t n s
  | .vxBit t n => Sys2Proof.Machine.execVxBit t n s
  | .vxFun t n => Sys2Proof.Machine.execVxFun t n s
  | .vxReduce t n => Sys2Proof.Machine.execVxReduce t n s
  | .vxRand t n => Sys2Proof.Machine.execVxRand t n s
  | .genGet t => Sys2Proof.Machine.execGenGet t s
  | .genSet t => Sys2Proof.Machine.execGenSet t s
  | .vxCounterIncrement t => Sys2Proof.Machine.execVxCounterIncrement t s
  | .burrLaunchDeliver die id => Sys2Proof.Machine.execBurrLaunchDeliver die id s
  | .burrProgramStart b => Sys2Proof.Machine.execBurrProgramStart b s
  | .burrMv b n reads => Sys2Proof.Machine.execBurrMv b n reads s
  | .burrMvt b n reads => Sys2Proof.Machine.execBurrMvt b n reads s
  | .score b n reads => Sys2Proof.Machine.execScore b n reads s
  | .wsum b n reads => Sys2Proof.Machine.execWsum b n reads s
  | .append b n => Sys2Proof.Machine.execAppend b n s
  | .axpy b => Sys2Proof.Machine.execAxpy b s
  | .burrReduce b => Sys2Proof.Machine.execBurrReduce b s
  | .burrCopy b n reads => Sys2Proof.Machine.execBurrCopy b n reads s
  | .burrFill b n => Sys2Proof.Machine.execBurrFill b n s
  | .gate b n reads => Sys2Proof.Machine.execGate b n reads s
  | .burrFeedArrive b id => Sys2Proof.Machine.execBurrFeedArrive b id s
  | .burrLaunchComplete die id => Sys2Proof.Machine.execBurrLaunchComplete die id s
  | .burrDisable w => Sys2Proof.Machine.execBurrDisable w s
  | .burrEnable w => Sys2Proof.Machine.execBurrEnable w s
  | .samplerDeliver die id => Sys2Proof.Machine.execSamplerDeliver die id s
  | .samplerStart u => Sys2Proof.Machine.execSamplerStart u s
  | .smpSample u n => Sys2Proof.Machine.execSmpSample u n s
  | .smpHost u n => Sys2Proof.Machine.execSmpHost u n s
  | .hostPoll u => Sys2Proof.Machine.execHostPoll u s
  | .hostTimeout u => Sys2Proof.Machine.execHostTimeout u s
  | .samplerDisable w => Sys2Proof.Machine.execSamplerDisable w s
  | .samplerEnable w => Sys2Proof.Machine.execSamplerEnable w s
  | .bandModeWrite w => Sys2Proof.Machine.execBandModeWrite w s
  | .uncorrectableReread d => Sys2Proof.Machine.execUncorrectableReread d s
  | .scrubRead d crossed => Sys2Proof.Machine.execScrubRead d crossed s
  | .refresh p bank => Sys2Proof.Machine.execRefresh p bank s
  | .channelRetrain die ch good => Sys2Proof.Machine.execChannelRetrain die ch good s
  | .pchThresholdClear w => Sys2Proof.Machine.execPchThresholdClear w s
  | .tgStart w => Sys2Proof.Machine.execTgStart w s
  | .tgAbort w n reads => Sys2Proof.Machine.execTgAbort w n reads s
  | .tgRunDone die ch reads => Sys2Proof.Machine.execTgRunDone die ch reads s
  | .retireGo w => Sys2Proof.Machine.execRetireGo w s
  | .relayoutCopy reads => Sys2Proof.Machine.execRelayoutCopy reads s
  | .rdS a => Sys2Proof.Machine.execRdS a s
  | .rdX a => Sys2Proof.Machine.execRdX a s
  | .upg a => Sys2Proof.Machine.execUpg a s
  | .itom a d => Sys2Proof.Machine.execItom a d s
  | .wb agent pa d => Sys2Proof.Machine.execWb agent pa d s
  | .cleanEvict agent pa => Sys2Proof.Machine.execCleanEvict agent pa s
  | .rdNc a => Sys2Proof.Machine.execRdNc a s
  | .wrNc a mask d stash => Sys2Proof.Machine.execWrNc a mask d stash s
  | .atNc a op => Sys2Proof.Machine.execAtNc a op s
  | .fwdS agent pa wrote d => Sys2Proof.Machine.execFwdS agent pa wrote d s
  | .fwdX agent pa wrote d => Sys2Proof.Machine.execFwdX agent pa wrote d s
  | .fwdNc agent pa wrote d => Sys2Proof.Machine.execFwdNc agent pa wrote d s
  | .inv agent pa => Sys2Proof.Machine.execInv agent pa s
  | .recall agent pa wrote d => Sys2Proof.Machine.execRecall agent pa wrote d s
  | .pushS agent pa => Sys2Proof.Machine.execPushS agent pa s
  | .dataS agent pa => Sys2Proof.Machine.execDataS agent pa s
  | .dataE agent pa => Sys2Proof.Machine.execDataE agent pa s
  | .dataX agent pa => Sys2Proof.Machine.execDataX agent pa s
  | .gntX agent pa => Sys2Proof.Machine.execGntX agent pa s
  | .dataNc req pa => Sys2Proof.Machine.execDataNc req pa s
  | .done req pa => Sys2Proof.Machine.execDone req pa s
  | .ack agent pa => Sys2Proof.Machine.execAck agent pa s
  | .fwdAck agent pa => Sys2Proof.Machine.execFwdAck agent pa s
  | .wbAck agent pa => Sys2Proof.Machine.execWbAck agent pa s
  | .nack who pa => Sys2Proof.Machine.execNack who pa s
  | .comp agent pa => Sys2Proof.Machine.execComp agent pa s
  | .nackRetry who pa => Sys2Proof.Machine.execNackRetry who pa s
  | .tokenExpire who pa => Sys2Proof.Machine.execTokenExpire who pa s
  | .homeTimeout pa => Sys2Proof.Machine.execHomeTimeout pa s
  | .agentMarkDown agent => Sys2Proof.Machine.execAgentMarkDown agent s
  | .directorySweep die => Sys2Proof.Machine.execDirectorySweep die s
  | .agentMarkUp agent => Sys2Proof.Machine.execAgentMarkUp agent s
  | .requestTimeout who pa => Sys2Proof.Machine.execRequestTimeout who pa s
  | .walkReadReturn t va st => Sys2Proof.Machine.execWalkReadReturn t va st s
  | .cptWrite w => Sys2Proof.Machine.execCptWrite w s
  | .writeSync w => Sys2Proof.Machine.execWriteSync w s
  | .cptSync w => Sys2Proof.Machine.execCptSync w s
  | .cptRead w => Sys2Proof.Machine.execCptRead w s
  | .setRoot w => Sys2Proof.Machine.execSetRoot w s
  | .fdtWrite w => Sys2Proof.Machine.execFdtWrite w s
  | .fdtSync w => Sys2Proof.Machine.execFdtSync w s
  | .fdtRead w => Sys2Proof.Machine.execFdtRead w s
  | .cdtWrite w => Sys2Proof.Machine.execCdtWrite w s
  | .cdtSync w => Sys2Proof.Machine.execCdtSync w s
  | .cdtRead w => Sys2Proof.Machine.execCdtRead w s
  | .replicaUpdate rep kind idx => Sys2Proof.Machine.execReplicaUpdate rep kind idx s
  | .cptCommandComplete => Sys2Proof.Machine.execCptCommandComplete s
  | .xltInv w => Sys2Proof.Machine.execXltInv w s
  | .xltInvComplete => Sys2Proof.Machine.execXltInvComplete s
  | .dmaGo w => Sys2Proof.Machine.execDmaGo w s
  | .dmaResume w => Sys2Proof.Machine.execDmaResume w s
  | .dmaAbort w => Sys2Proof.Machine.execDmaAbort w s
  | .dmaPause w => Sys2Proof.Machine.execDmaPause w s
  | .dmaDisable w => Sys2Proof.Machine.execDmaDisable w s
  | .dmaEnable w => Sys2Proof.Machine.execDmaEnable w s
  | .dmaDescriptorRead d ch => Sys2Proof.Machine.execDmaDescriptorRead d ch s
  | .dmaCopy d ch => Sys2Proof.Machine.execDmaCopy d ch s
  | .dmaFill d ch => Sys2Proof.Machine.execDmaFill d ch s
  | .dmaWrite d ch => Sys2Proof.Machine.execDmaWrite d ch s
  | .tolocal d ch => Sys2Proof.Machine.execTolocal d ch s
  | .fromlocal d ch => Sys2Proof.Machine.execFromlocal d ch s
  | .dmaSegmentResponse d ch => Sys2Proof.Machine.execDmaSegmentResponse d ch s
  | .cqDoorbell w => Sys2Proof.Machine.execCqDoorbell w s
  | .cqEnable w => Sys2Proof.Machine.execCqEnable w s
  | .cqDisable w => Sys2Proof.Machine.execCqDisable w s
  | .cmdNop die q => Sys2Proof.Machine.execCmdNop die q s
  | .launch die q => Sys2Proof.Machine.execLaunch die q s
  | .cmdDma die q => Sys2Proof.Machine.execCmdDma die q s
  | .cmdBurr die q => Sys2Proof.Machine.execCmdBurr die q s
  | .feed die q => Sys2Proof.Machine.execFeed die q s
  | .cmdSample die q => Sys2Proof.Machine.execCmdSample die q s
  | .waitc die q => Sys2Proof.Machine.execWaitc die q s
  | .waitm die q => Sys2Proof.Machine.execWaitm die q s
  | .waitmPoll die q => Sys2Proof.Machine.execWaitmPoll die q s
  | .waitmTimeout die q => Sys2Proof.Machine.execWaitmTimeout die q s
  | .cmdWrite die q => Sys2Proof.Machine.execCmdWrite die q s
  | .cmdTime die q => Sys2Proof.Machine.execCmdTime die q s
  | .cmdFence die q => Sys2Proof.Machine.execCmdFence die q s
  | .event die q => Sys2Proof.Machine.execEvent die q s
  | .cmdXltInv die q => Sys2Proof.Machine.execCmdXltInv die q s
  | .cmdCall die q => Sys2Proof.Machine.execCmdCall die q s
  | .commandComplete die id => Sys2Proof.Machine.execCommandComplete die id s
  | .eventPushRetry d prod => Sys2Proof.Machine.execEventPushRetry d prod s
  | .eqPop w => Sys2Proof.Machine.execEqPop w s
  | .eqPush w => Sys2Proof.Machine.execEqPush w s
  | .eqEnable w => Sys2Proof.Machine.execEqEnable w s
  | .eqDisable w => Sys2Proof.Machine.execEqDisable w s
  | .preempt w => Sys2Proof.Machine.execPreempt w s
  | .blockImageWritten b => Sys2Proof.Machine.execBlockImageWritten b s
  | .preemptResume w => Sys2Proof.Machine.execPreemptResume w s
  | .restore w => Sys2Proof.Machine.execRestore w s
  | .bsave w => Sys2Proof.Machine.execBsave w s
  | .brestore w => Sys2Proof.Machine.execBrestore w s
  | .release w => Sys2Proof.Machine.execRelease w s
  | .kill w => Sys2Proof.Machine.execKill w s
  | .pcieOutbound who t e d => Sys2Proof.Machine.execPcieOutbound who t e d s
  | .rootPortRequest t => Sys2Proof.Machine.execRootPortRequest t s
  | .interruptWindowWrite t => Sys2Proof.Machine.execInterruptWindowWrite t s
  | .sluiceAccess t => Sys2Proof.Machine.execSluiceAccess t s
  | .sluiceCtrlWrite w => Sys2Proof.Machine.execSluiceCtrlWrite w s
  | .endpointWakeDoorbell r => Sys2Proof.Machine.execEndpointWakeDoorbell r s
  | .orderedModeEnter => Sys2Proof.Machine.execOrderedModeEnter s
  | .mrcSqDoorbell w => Sys2Proof.Machine.execMrcSqDoorbell w s
  | .sqTailPoll q => Sys2Proof.Machine.execSqTailPoll q s
  | .sqEnable w => Sys2Proof.Machine.execSqEnable w s
  | .sqDisable w => Sys2Proof.Machine.execSqDisable w s
  | .mrcPut q => Sys2Proof.Machine.execMrcPut q s
  | .mrcGet q => Sys2Proof.Machine.execMrcGet q s
  | .mrcAtomic q => Sys2Proof.Machine.execMrcAtomic q s
  | .mrcRput q => Sys2Proof.Machine.execMrcRput q s
  | .coll q => Sys2Proof.Machine.execColl q s
  | .waitin q => Sys2Proof.Machine.execWaitin q s
  | .mrcOpComplete opid => Sys2Proof.Machine.execMrcOpComplete opid s
  | .putData p => Sys2Proof.Machine.execPutData p s
  | .getReq p => Sys2Proof.Machine.execGetReq p s
  | .getData p => Sys2Proof.Machine.execGetData p s
  | .atomic p => Sys2Proof.Machine.execAtomic p s
  | .atomicRsp p => Sys2Proof.Machine.execAtomicRsp p s
  | .rputData p => Sys2Proof.Machine.execRputData p s
  | .mrcAck p => Sys2Proof.Machine.execMrcAck p s
  | .live p => Sys2Proof.Machine.execLive p s
  | .slack p => Sys2Proof.Machine.execSlack p s
  | .mgmt p => Sys2Proof.Machine.execMgmt p s
  | .unitCommitted src opid unit => Sys2Proof.Machine.execUnitCommitted src opid unit s
  | .liveSend station => Sys2Proof.Machine.execLiveSend station s
  | .peerLost station => Sys2Proof.Machine.execPeerLost station s
  | .snapSave w => Sys2Proof.Machine.execSnapSave w s
  | .snapRestore w => Sys2Proof.Machine.execSnapRestore w s
  | .snapDrop w => Sys2Proof.Machine.execSnapDrop w s
  | .mctpMessage transport typ data => Sys2Proof.Machine.execMctpMessage transport typ data s
  | .slackReport => Sys2Proof.Machine.execSlackReport s
  | .targetWrite w => Sys2Proof.Machine.execTargetWrite w s
  | .limitSample => Sys2Proof.Machine.execLimitSample s
  | .limitRampStep => Sys2Proof.Machine.execLimitRampStep s
  | .powerSample draws shares => Sys2Proof.Machine.execPowerSample draws shares s
  | .droop d => Sys2Proof.Machine.execDroop d s
  | .droopRelease d => Sys2Proof.Machine.execDroopRelease d s
  | .packageOvercurrent => Sys2Proof.Machine.execPackageOvercurrent s
  | .excursionLimit => Sys2Proof.Machine.execExcursionLimit s
  | .thermalSample d tj => Sys2Proof.Machine.execThermalSample d tj s
  | .thermalTrip d tj => Sys2Proof.Machine.execThermalTrip d tj s
  | .pwrSnapTake w => Sys2Proof.Machine.execPwrSnapTake w s
  | .requestN3 w => Sys2Proof.Machine.execRequestN3 w s
  | .requestN4 w => Sys2Proof.Machine.execRequestN4 w s
  | .lattolWrite w => Sys2Proof.Machine.execLattolWrite w s
  | .idleholdExpire => Sys2Proof.Machine.execIdleholdExpire s
  | .handshakeAnswer die block good us => Sys2Proof.Machine.execHandshakeAnswer die block good us s
  | .handshakeDeferExpire => Sys2Proof.Machine.execHandshakeDeferExpire s
  | .handshakeTimeout => Sys2Proof.Machine.execHandshakeTimeout s
  | .powerStateEntered => Sys2Proof.Machine.execPowerStateEntered s
  | .wake => Sys2Proof.Machine.execWake s
  | .powerStateExited => Sys2Proof.Machine.execPowerStateExited s
  | .rtcTick => Sys2Proof.Machine.execRtcTick s
  | .railPgTimeout rail => Sys2Proof.Machine.execRailPgTimeout rail s
  | .pllLockTimeout d => Sys2Proof.Machine.execPllLockTimeout d s
  | .railPg rail => Sys2Proof.Machine.execRailPg rail s
  | .railPgFall rail => Sys2Proof.Machine.execRailPgFall rail s
  | .pllLock d => Sys2Proof.Machine.execPllLock d s
  | .refLoss => Sys2Proof.Machine.execRefLoss s
  | .faultReport d n => Sys2Proof.Machine.execFaultReport d n s
  | .faultForward n => Sys2Proof.Machine.execFaultForward n s
  | .faultClear w => Sys2Proof.Machine.execFaultClear w s
  | .pkgclear w => Sys2Proof.Machine.execPkgclear w s
  | .faultForce w => Sys2Proof.Machine.execFaultForce w s
  | .ondieUncorrectable x => Sys2Proof.Machine.execOndieUncorrectable x s
  | .aliveToggle => Sys2Proof.Machine.execAliveToggle s
  | .aliveRestart w => Sys2Proof.Machine.execAliveRestart w s
  | .wdtEnable w => Sys2Proof.Machine.execWdtEnable w s
  | .wdtKick w => Sys2Proof.Machine.execWdtKick w s
  | .wdtExpire => Sys2Proof.Machine.execWdtExpire s
  | .linkCrcError k m lane => Sys2Proof.Machine.execLinkCrcError k m lane s
  | .linkRetrain k m bad good => Sys2Proof.Machine.execLinkRetrain k m bad good s
  | .linkTraining k a b => Sys2Proof.Machine.execLinkTraining k a b s
  | .linkFence k => Sys2Proof.Machine.execLinkFence k s
  | .mrcPortRetrain q bad => Sys2Proof.Machine.execMrcPortRetrain q bad s
  | .tileRetire w => Sys2Proof.Machine.execTileRetire w s
  | .resetRequest w => Sys2Proof.Machine.execResetRequest w s
  | .weirDrainDone agent => Sys2Proof.Machine.execWeirDrainDone agent s
  | .weirDrainTimeout agent => Sys2Proof.Machine.execWeirDrainTimeout agent s
  | .scopeResetDone agent bad => Sys2Proof.Machine.execScopeResetDone agent bad s
  | .dieLost d => Sys2Proof.Machine.execDieLost d s
  | .poisonFillDone d => Sys2Proof.Machine.execPoisonFillDone d s
  | .dieRejoin d => Sys2Proof.Machine.execDieRejoin d s
  | .aonPowerOn => Sys2Proof.Machine.execAonPowerOn s
  | .hubEn => Sys2Proof.Machine.execHubEn s
  | .resetN low => Sys2Proof.Machine.execResetN low s
  | .pwrGoodFall => Sys2Proof.Machine.execPwrGoodFall s
  | .packageReset => Sys2Proof.Machine.execPackageReset s
  | .firmwareLoad a b => Sys2Proof.Machine.execFirmwareLoad a b s
  | .licenceVerify pcie mrc => Sys2Proof.Machine.execLicenceVerify pcie mrc s
  | .mcPowerUp => Sys2Proof.Machine.execMcPowerUp s
  | .stackInit k bad => Sys2Proof.Machine.execStackInit k bad s
  | .hostRelease k => Sys2Proof.Machine.execHostRelease k s
  | .tilePowerUp bad => Sys2Proof.Machine.execTilePowerUp bad s
  | .topologyCheck ids heights => Sys2Proof.Machine.execTopologyCheck ids heights s
  | .fwConfirm w => Sys2Proof.Machine.execFwConfirm w s
  | .trialTimeout => Sys2Proof.Machine.execTrialTimeout s
  | .liveConfirmTimeout => Sys2Proof.Machine.execLiveConfirmTimeout s
  | .rootOfTrustKick => Sys2Proof.Machine.execRootOfTrustKick s
  | .getVersion => Sys2Proof.Machine.execGetVersion s
  | .setLimit v => Sys2Proof.Machine.execSetLimit v s
  | .getTelemetry age => Sys2Proof.Machine.execGetTelemetry age s
  | .getFaults => Sys2Proof.Machine.execGetFaults s
  | .licenceInstall flips => Sys2Proof.Machine.execLicenceInstall flips s
  | .fwWrite off len => Sys2Proof.Machine.execFwWrite off len s
  | .fwVerify h => Sys2Proof.Machine.execFwVerify h s
  | .fwActivate live => Sys2Proof.Machine.execFwActivate live s
  | .settingsRead => Sys2Proof.Machine.execSettingsRead s
  | .settingsWrite modes good => Sys2Proof.Machine.execSettingsWrite modes good s
  | .settingsReset => Sys2Proof.Machine.execSettingsReset s
  | .pinMuxWrite w => Sys2Proof.Machine.execPinMuxWrite w s
  | .pinSwitchDone k => Sys2Proof.Machine.execPinSwitchDone k s
  | .jtagTapReset => Sys2Proof.Machine.execJtagTapReset s
  | .bypass tdi => Sys2Proof.Machine.execBypass tdi s
  | .samplePreload tdi => Sys2Proof.Machine.execSamplePreload tdi s
  | .extest tdi => Sys2Proof.Machine.execExtest tdi s
  | .idcode => Sys2Proof.Machine.execIdcode s
  | .clamp tdi => Sys2Proof.Machine.execClamp tdi s
  | .highz tdi => Sys2Proof.Machine.execHighz tdi s
  | .pllLockAcquired d => Sys2Proof.Machine.execPllLockAcquired d s
  | .pwrGoodAssert => Sys2Proof.Machine.execPwrGoodAssert s
  | .controllerReadComplete d => Sys2Proof.Machine.execControllerReadComplete d s
  | .inDieCorrectionReport p n => Sys2Proof.Machine.execInDieCorrectionReport p n s
  | .millraceBadCrc q lane n => Sys2Proof.Machine.execMillraceBadCrc q lane n s
  | .pcieLinkDown p aer => Sys2Proof.Machine.execPcieLinkDown p aer s
  | .gpioInput k level => Sys2Proof.Machine.execGpioInput k level s

end Sys2Proof.Machine
end

