-- ==== Sys2Proof/Laws/State.lean ====
section
/-!
SUPPORT. What each update of the state leaves alone, one lemma for each field; and what a command's end leaves of its effect.
-/

namespace Sys2Proof.Machine

variable (s s' : State)

section
variable (d : Die) (n : RegName) (i : Nat) (v : W64)
@[simp] theorem State.setReg_fuse : (s.setReg d n i v).fuse = s.fuse := rfl
@[simp] theorem State.setReg_pending : (s.setReg d n i v).pending = s.pending := rfl
@[simp] theorem State.setReg_journal : (s.setReg d n i v).journal = s.journal := rfl
@[simp] theorem State.setReg_mem : (s.setReg d n i v).mem = s.mem := rfl
@[simp] theorem State.setReg_poison : (s.setReg d n i v).poison = s.poison := rfl
@[simp] theorem State.setReg_last : (s.setReg d n i v).last = s.last := rfl
@[simp] theorem State.setReg_out : (s.setReg d n i v).out = s.out := rfl
@[simp] theorem State.setReg_free : (s.setReg d n i v).free = s.free := rfl
@[simp] theorem State.setReg_now : (s.setReg d n i v).now = s.now := rfl
@[simp] theorem State.setReg_tiles : (s.setReg d n i v).tiles = s.tiles := rfl
@[simp] theorem State.setReg_cycles : (s.setReg d n i v).cycles = s.cycles := rfl
@[simp] theorem State.setReg_launches : (s.setReg d n i v).launches = s.launches := rfl
@[simp] theorem State.setReg_nextLaunch : (s.setReg d n i v).nextLaunch = s.nextLaunch := rfl
@[simp] theorem State.setReg_heldEv : (s.setReg d n i v).heldEv = s.heldEv := rfl
@[simp] theorem State.setReg_cmds : (s.setReg d n i v).cmds = s.cmds := rfl
@[simp] theorem State.setReg_nextCmd : (s.setReg d n i v).nextCmd = s.nextCmd := rfl
@[simp] theorem State.setReg_cqTurn : (s.setReg d n i v).cqTurn = s.cqTurn := rfl
@[simp] theorem State.setReg_calls : (s.setReg d n i v).calls = s.calls := rfl
@[simp] theorem State.setReg_burrs : (s.setReg d n i v).burrs = s.burrs := rfl
@[simp] theorem State.setReg_blaunches : (s.setReg d n i v).blaunches = s.blaunches := rfl
@[simp] theorem State.setReg_feeds : (s.setReg d n i v).feeds = s.feeds := rfl
@[simp] theorem State.setReg_samplers : (s.setReg d n i v).samplers = s.samplers := rfl
@[simp] theorem State.setReg_dmas : (s.setReg d n i v).dmas = s.dmas := rfl
@[simp] theorem State.setReg_preempted : (s.setReg d n i v).preempted = s.preempted := rfl
@[simp] theorem State.setReg_preOps : (s.setReg d n i v).preOps = s.preOps := rfl
@[simp] theorem State.setReg_preImgs : (s.setReg d n i v).preImgs = s.preImgs := rfl
@[simp] theorem State.setReg_preSides : (s.setReg d n i v).preSides = s.preSides := rfl
@[simp] theorem State.setReg_burrImgs : (s.setReg d n i v).burrImgs = s.burrImgs := rfl
@[simp] theorem State.setReg_tlb : (s.setReg d n i v).tlb = s.tlb := rfl
@[simp] theorem State.setReg_walks : (s.setReg d n i v).walks = s.walks := rfl
@[simp] theorem State.setReg_cpt : (s.setReg d n i v).cpt = s.cpt := rfl
@[simp] theorem State.setReg_fdt : (s.setReg d n i v).fdt = s.fdt := rfl
@[simp] theorem State.setReg_cptRep : (s.setReg d n i v).cptRep = s.cptRep := rfl
@[simp] theorem State.setReg_fdtRep : (s.setReg d n i v).fdtRep = s.fdtRep := rfl
@[simp] theorem State.setReg_cdt : (s.setReg d n i v).cdt = s.cdt := rfl
@[simp] theorem State.setReg_cdtRep : (s.setReg d n i v).cdtRep = s.cdtRep := rfl
@[simp] theorem State.setReg_cxlDown : (s.setReg d n i v).cxlDown = s.cxlDown := rfl
@[simp] theorem State.setReg_wcache : (s.setReg d n i v).wcache = s.wcache := rfl
@[simp] theorem State.setReg_hubCmd : (s.setReg d n i v).hubCmd = s.hubCmd := rfl
@[simp] theorem State.setReg_dieTiles : (s.setReg d n i v).dieTiles = s.dieTiles := rfl
@[simp] theorem State.setReg_raised : (s.setReg d n i v).raised = s.raised := rfl
@[simp] theorem State.setReg_forwards : (s.setReg d n i v).forwards = s.forwards := rfl
@[simp] theorem State.setReg_rereads : (s.setReg d n i v).rereads = s.rereads := rfl
@[simp] theorem State.setReg_ctlRead : (s.setReg d n i v).ctlRead = s.ctlRead := rfl
@[simp] theorem State.setReg_answers : (s.setReg d n i v).answers = s.answers := rfl
@[simp] theorem State.setReg_scrubPos : (s.setReg d n i v).scrubPos = s.scrubPos := rfl
@[simp] theorem State.setReg_thuRows : (s.setReg d n i v).thuRows = s.thuRows := rfl
@[simp] theorem State.setReg_thcCnt : (s.setReg d n i v).thcCnt = s.thcCnt := rfl
@[simp] theorem State.setReg_trcCnt : (s.setReg d n i v).trcCnt = s.trcCnt := rfl
@[simp] theorem State.setReg_refreshed : (s.setReg d n i v).refreshed = s.refreshed := rfl
@[simp] theorem State.setReg_tgRuns : (s.setReg d n i v).tgRuns = s.tgRuns := rfl
@[simp] theorem State.setReg_reqs : (s.setReg d n i v).reqs = s.reqs := rfl
@[simp] theorem State.setReg_net : (s.setReg d n i v).net = s.net := rfl
@[simp] theorem State.setReg_sentNo : (s.setReg d n i v).sentNo = s.sentNo := rfl
@[simp] theorem State.setReg_txns : (s.setReg d n i v).txns = s.txns := rfl
@[simp] theorem State.setReg_dir : (s.setReg d n i v).dir = s.dir := rfl
@[simp] theorem State.setReg_cl : (s.setReg d n i v).cl = s.cl := rfl
@[simp] theorem State.setReg_wbuf : (s.setReg d n i v).wbuf = s.wbuf := rfl
@[simp] theorem State.setReg_tokens : (s.setReg d n i v).tokens = s.tokens := rfl
@[simp] theorem State.setReg_ncLast : (s.setReg d n i v).ncLast = s.ncLast := rfl
@[simp] theorem State.setReg_ncBuf : (s.setReg d n i v).ncBuf = s.ncBuf := rfl
@[simp] theorem State.setReg_io : (s.setReg d n i v).io = s.io := rfl
@[simp] theorem State.setReg_mops : (s.setReg d n i v).mops = s.mops := rfl
@[simp] theorem State.setReg_mrcNext : (s.setReg d n i v).mrcNext = s.mrcNext := rfl
@[simp] theorem State.setReg_rxUnits : (s.setReg d n i v).rxUnits = s.rxUnits := rfl
@[simp] theorem State.setReg_rxOps : (s.setReg d n i v).rxOps = s.rxOps := rfl
@[simp] theorem State.setReg_peers : (s.setReg d n i v).peers = s.peers := rfl
@[simp] theorem State.setReg_vl7 : (s.setReg d n i v).vl7 = s.vl7 := rfl
@[simp] theorem State.setReg_mrcDrops : (s.setReg d n i v).mrcDrops = s.mrcDrops := rfl
@[simp] theorem State.setReg_tables : (s.setReg d n i v).tables = s.tables := rfl
@[simp] theorem State.setReg_snapH : (s.setReg d n i v).snapH = s.snapH := rfl
@[simp] theorem State.setReg_pups : (s.setReg d n i v).pups = s.pups := rfl
@[simp] theorem State.setReg_rails : (s.setReg d n i v).rails = s.rails := rfl
@[simp] theorem State.setReg_rdown : (s.setReg d n i v).rdown = s.rdown := rfl
@[simp] theorem State.setReg_mgmtWork : (s.setReg d n i v).mgmtWork = s.mgmtWork := rfl
@[simp] theorem State.setReg_telem : (s.setReg d n i v).telem = s.telem := rfl
@[simp] theorem State.setReg_deadStacks : (s.setReg d n i v).deadStacks = s.deadStacks := rfl
@[simp] theorem State.setReg_limSample : (s.setReg d n i v).limSample = s.limSample := rfl
@[simp] theorem State.setReg_loopD : (s.setReg d n i v).loopD = s.loopD := rfl
@[simp] theorem State.setReg_clkPhase : (s.setReg d n i v).clkPhase = s.clkPhase := rfl
@[simp] theorem State.setReg_hotHold : (s.setReg d n i v).hotHold = s.hotHold := rfl
@[simp] theorem State.setReg_excurCut : (s.setReg d n i v).excurCut = s.excurCut := rfl
@[simp] theorem State.setReg_enFrac : (s.setReg d n i v).enFrac = s.enFrac := rfl
@[simp] theorem State.setReg_pwrSnaps : (s.setReg d n i v).pwrSnaps = s.pwrSnaps := rfl
@[simp] theorem State.setReg_fan : (s.setReg d n i v).fan = s.fan := rfl
@[simp] theorem State.setReg_pwrTry : (s.setReg d n i v).pwrTry = s.pwrTry := rfl
@[simp] theorem State.setReg_wakeDue : (s.setReg d n i v).wakeDue = s.wakeDue := rfl
@[simp] theorem State.setReg_held : (s.setReg d n i v).held = s.held := rfl
@[simp] theorem State.setReg_pchKeep : (s.setReg d n i v).pchKeep = s.pchKeep := rfl
@[simp] theorem State.setReg_resets : (s.setReg d n i v).resets = s.resets := rfl
@[simp] theorem State.setReg_linkMods : (s.setReg d n i v).linkMods = s.linkMods := rfl
@[simp] theorem State.setReg_linkVer : (s.setReg d n i v).linkVer = s.linkVer := rfl
@[simp] theorem State.setReg_aligned : (s.setReg d n i v).aligned = s.aligned := rfl
@[simp] theorem State.setReg_mrcLanes : (s.setReg d n i v).mrcLanes = s.mrcLanes := rfl
@[simp] theorem State.setReg_dmaDead : (s.setReg d n i v).dmaDead = s.dmaDead := rfl
@[simp] theorem State.setReg_upsets : (s.setReg d n i v).upsets = s.upsets := rfl
@[simp] theorem State.setReg_tileMap : (s.setReg d n i v).tileMap = s.tileMap := rfl
@[simp] theorem State.setReg_builtBad : (s.setReg d n i v).builtBad = s.builtBad := rfl
@[simp] theorem State.setReg_unlocked : (s.setReg d n i v).unlocked = s.unlocked := rfl
@[simp] theorem State.setReg_lostMem : (s.setReg d n i v).lostMem = s.lostMem := rfl
@[simp] theorem State.setReg_poisonBase : (s.setReg d n i v).poisonBase = s.poisonBase := rfl
@[simp] theorem State.setReg_resetDue : (s.setReg d n i v).resetDue = s.resetDue := rfl
@[simp] theorem State.setReg_heldTraps : (s.setReg d n i v).heldTraps = s.heldTraps := rfl
@[simp] theorem State.setReg_boot : (s.setReg d n i v).boot = s.boot := rfl
@[simp] theorem State.setReg_hubEn : (s.setReg d n i v).hubEn = s.hubEn := rfl
@[simp] theorem State.setReg_pwrGood : (s.setReg d n i v).pwrGood = s.pwrGood := rfl
@[simp] theorem State.setReg_rstIn : (s.setReg d n i v).rstIn = s.rstIn := rfl
@[simp] theorem State.setReg_resetBusy : (s.setReg d n i v).resetBusy = s.resetBusy := rfl
@[simp] theorem State.setReg_aonUp : (s.setReg d n i v).aonUp = s.aonUp := rfl
@[simp] theorem State.setReg_recovery : (s.setReg d n i v).recovery = s.recovery := rfl
@[simp] theorem State.setReg_bootLog : (s.setReg d n i v).bootLog = s.bootLog := rfl
@[simp] theorem State.setReg_hdrs : (s.setReg d n i v).hdrs = s.hdrs := rfl
@[simp] theorem State.setReg_settings : (s.setReg d n i v).settings = s.settings := rfl
@[simp] theorem State.setReg_flash : (s.setReg d n i v).flash = s.flash := rfl
@[simp] theorem State.setReg_pldm : (s.setReg d n i v).pldm = s.pldm := rfl
@[simp] theorem State.setReg_licWait : (s.setReg d n i v).licWait = s.licWait := rfl
@[simp] theorem State.setReg_liveNext : (s.setReg d n i v).liveNext = s.liveNext := rfl
@[simp] theorem State.setReg_liveWait : (s.setReg d n i v).liveWait = s.liveWait := rfl
@[simp] theorem State.setReg_trialWait : (s.setReg d n i v).trialWait = s.trialWait := rfl
@[simp] theorem State.setReg_kicked : (s.setReg d n i v).kicked = s.kicked := rfl
@[simp] theorem State.setReg_wdtRuns : (s.setReg d n i v).wdtRuns = s.wdtRuns := rfl
@[simp] theorem State.setReg_mbox : (s.setReg d n i v).mbox = s.mbox := rfl
@[simp] theorem State.setReg_hostImg : (s.setReg d n i v).hostImg = s.hostImg := rfl
@[simp] theorem State.setReg_hostFrame : (s.setReg d n i v).hostFrame = s.hostFrame := rfl
@[simp] theorem State.setReg_modesSet : (s.setReg d n i v).modesSet = s.modesSet := rfl
@[simp] theorem State.setReg_released : (s.setReg d n i v).released = s.released := rfl
@[simp] theorem State.setReg_selfBad : (s.setReg d n i v).selfBad = s.selfBad := rfl
@[simp] theorem State.setReg_topoDue : (s.setReg d n i v).topoDue = s.topoDue := rfl
@[simp] theorem State.setReg_pins : (s.setReg d n i v).pins = s.pins := rfl
@[simp] theorem State.setReg_pinHold : (s.setReg d n i v).pinHold = s.pinHold := rfl
@[simp] theorem State.setReg_xtal : (s.setReg d n i v).xtal = s.xtal := rfl
@[simp] theorem State.setReg_jtag : (s.setReg d n i v).jtag = s.jtag := rfl
@[simp] theorem State.setReg_msix : (s.setReg d n i v).msix = s.msix := rfl
end

section
variable (d : Die) (n : RegName) (i hi lo v : Nat)
@[simp] theorem State.setRf_fuse : (s.setRf d n i hi lo v).fuse = s.fuse := rfl
@[simp] theorem State.setRf_pending : (s.setRf d n i hi lo v).pending = s.pending := rfl
@[simp] theorem State.setRf_journal : (s.setRf d n i hi lo v).journal = s.journal := rfl
@[simp] theorem State.setRf_mem : (s.setRf d n i hi lo v).mem = s.mem := rfl
@[simp] theorem State.setRf_poison : (s.setRf d n i hi lo v).poison = s.poison := rfl
@[simp] theorem State.setRf_last : (s.setRf d n i hi lo v).last = s.last := rfl
@[simp] theorem State.setRf_out : (s.setRf d n i hi lo v).out = s.out := rfl
@[simp] theorem State.setRf_free : (s.setRf d n i hi lo v).free = s.free := rfl
@[simp] theorem State.setRf_now : (s.setRf d n i hi lo v).now = s.now := rfl
@[simp] theorem State.setRf_tiles : (s.setRf d n i hi lo v).tiles = s.tiles := rfl
@[simp] theorem State.setRf_cycles : (s.setRf d n i hi lo v).cycles = s.cycles := rfl
@[simp] theorem State.setRf_launches : (s.setRf d n i hi lo v).launches = s.launches := rfl
@[simp] theorem State.setRf_nextLaunch : (s.setRf d n i hi lo v).nextLaunch = s.nextLaunch := rfl
@[simp] theorem State.setRf_heldEv : (s.setRf d n i hi lo v).heldEv = s.heldEv := rfl
@[simp] theorem State.setRf_cmds : (s.setRf d n i hi lo v).cmds = s.cmds := rfl
@[simp] theorem State.setRf_nextCmd : (s.setRf d n i hi lo v).nextCmd = s.nextCmd := rfl
@[simp] theorem State.setRf_cqTurn : (s.setRf d n i hi lo v).cqTurn = s.cqTurn := rfl
@[simp] theorem State.setRf_calls : (s.setRf d n i hi lo v).calls = s.calls := rfl
@[simp] theorem State.setRf_burrs : (s.setRf d n i hi lo v).burrs = s.burrs := rfl
@[simp] theorem State.setRf_blaunches : (s.setRf d n i hi lo v).blaunches = s.blaunches := rfl
@[simp] theorem State.setRf_feeds : (s.setRf d n i hi lo v).feeds = s.feeds := rfl
@[simp] theorem State.setRf_samplers : (s.setRf d n i hi lo v).samplers = s.samplers := rfl
@[simp] theorem State.setRf_dmas : (s.setRf d n i hi lo v).dmas = s.dmas := rfl
@[simp] theorem State.setRf_preempted : (s.setRf d n i hi lo v).preempted = s.preempted := rfl
@[simp] theorem State.setRf_preOps : (s.setRf d n i hi lo v).preOps = s.preOps := rfl
@[simp] theorem State.setRf_preImgs : (s.setRf d n i hi lo v).preImgs = s.preImgs := rfl
@[simp] theorem State.setRf_preSides : (s.setRf d n i hi lo v).preSides = s.preSides := rfl
@[simp] theorem State.setRf_burrImgs : (s.setRf d n i hi lo v).burrImgs = s.burrImgs := rfl
@[simp] theorem State.setRf_tlb : (s.setRf d n i hi lo v).tlb = s.tlb := rfl
@[simp] theorem State.setRf_walks : (s.setRf d n i hi lo v).walks = s.walks := rfl
@[simp] theorem State.setRf_cpt : (s.setRf d n i hi lo v).cpt = s.cpt := rfl
@[simp] theorem State.setRf_fdt : (s.setRf d n i hi lo v).fdt = s.fdt := rfl
@[simp] theorem State.setRf_cptRep : (s.setRf d n i hi lo v).cptRep = s.cptRep := rfl
@[simp] theorem State.setRf_fdtRep : (s.setRf d n i hi lo v).fdtRep = s.fdtRep := rfl
@[simp] theorem State.setRf_cdt : (s.setRf d n i hi lo v).cdt = s.cdt := rfl
@[simp] theorem State.setRf_cdtRep : (s.setRf d n i hi lo v).cdtRep = s.cdtRep := rfl
@[simp] theorem State.setRf_cxlDown : (s.setRf d n i hi lo v).cxlDown = s.cxlDown := rfl
@[simp] theorem State.setRf_wcache : (s.setRf d n i hi lo v).wcache = s.wcache := rfl
@[simp] theorem State.setRf_hubCmd : (s.setRf d n i hi lo v).hubCmd = s.hubCmd := rfl
@[simp] theorem State.setRf_dieTiles : (s.setRf d n i hi lo v).dieTiles = s.dieTiles := rfl
@[simp] theorem State.setRf_raised : (s.setRf d n i hi lo v).raised = s.raised := rfl
@[simp] theorem State.setRf_forwards : (s.setRf d n i hi lo v).forwards = s.forwards := rfl
@[simp] theorem State.setRf_rereads : (s.setRf d n i hi lo v).rereads = s.rereads := rfl
@[simp] theorem State.setRf_ctlRead : (s.setRf d n i hi lo v).ctlRead = s.ctlRead := rfl
@[simp] theorem State.setRf_answers : (s.setRf d n i hi lo v).answers = s.answers := rfl
@[simp] theorem State.setRf_scrubPos : (s.setRf d n i hi lo v).scrubPos = s.scrubPos := rfl
@[simp] theorem State.setRf_thuRows : (s.setRf d n i hi lo v).thuRows = s.thuRows := rfl
@[simp] theorem State.setRf_thcCnt : (s.setRf d n i hi lo v).thcCnt = s.thcCnt := rfl
@[simp] theorem State.setRf_trcCnt : (s.setRf d n i hi lo v).trcCnt = s.trcCnt := rfl
@[simp] theorem State.setRf_refreshed : (s.setRf d n i hi lo v).refreshed = s.refreshed := rfl
@[simp] theorem State.setRf_tgRuns : (s.setRf d n i hi lo v).tgRuns = s.tgRuns := rfl
@[simp] theorem State.setRf_reqs : (s.setRf d n i hi lo v).reqs = s.reqs := rfl
@[simp] theorem State.setRf_net : (s.setRf d n i hi lo v).net = s.net := rfl
@[simp] theorem State.setRf_sentNo : (s.setRf d n i hi lo v).sentNo = s.sentNo := rfl
@[simp] theorem State.setRf_txns : (s.setRf d n i hi lo v).txns = s.txns := rfl
@[simp] theorem State.setRf_dir : (s.setRf d n i hi lo v).dir = s.dir := rfl
@[simp] theorem State.setRf_cl : (s.setRf d n i hi lo v).cl = s.cl := rfl
@[simp] theorem State.setRf_wbuf : (s.setRf d n i hi lo v).wbuf = s.wbuf := rfl
@[simp] theorem State.setRf_tokens : (s.setRf d n i hi lo v).tokens = s.tokens := rfl
@[simp] theorem State.setRf_ncLast : (s.setRf d n i hi lo v).ncLast = s.ncLast := rfl
@[simp] theorem State.setRf_ncBuf : (s.setRf d n i hi lo v).ncBuf = s.ncBuf := rfl
@[simp] theorem State.setRf_io : (s.setRf d n i hi lo v).io = s.io := rfl
@[simp] theorem State.setRf_mops : (s.setRf d n i hi lo v).mops = s.mops := rfl
@[simp] theorem State.setRf_mrcNext : (s.setRf d n i hi lo v).mrcNext = s.mrcNext := rfl
@[simp] theorem State.setRf_rxUnits : (s.setRf d n i hi lo v).rxUnits = s.rxUnits := rfl
@[simp] theorem State.setRf_rxOps : (s.setRf d n i hi lo v).rxOps = s.rxOps := rfl
@[simp] theorem State.setRf_peers : (s.setRf d n i hi lo v).peers = s.peers := rfl
@[simp] theorem State.setRf_vl7 : (s.setRf d n i hi lo v).vl7 = s.vl7 := rfl
@[simp] theorem State.setRf_mrcDrops : (s.setRf d n i hi lo v).mrcDrops = s.mrcDrops := rfl
@[simp] theorem State.setRf_tables : (s.setRf d n i hi lo v).tables = s.tables := rfl
@[simp] theorem State.setRf_snapH : (s.setRf d n i hi lo v).snapH = s.snapH := rfl
@[simp] theorem State.setRf_pups : (s.setRf d n i hi lo v).pups = s.pups := rfl
@[simp] theorem State.setRf_rails : (s.setRf d n i hi lo v).rails = s.rails := rfl
@[simp] theorem State.setRf_rdown : (s.setRf d n i hi lo v).rdown = s.rdown := rfl
@[simp] theorem State.setRf_mgmtWork : (s.setRf d n i hi lo v).mgmtWork = s.mgmtWork := rfl
@[simp] theorem State.setRf_telem : (s.setRf d n i hi lo v).telem = s.telem := rfl
@[simp] theorem State.setRf_deadStacks : (s.setRf d n i hi lo v).deadStacks = s.deadStacks := rfl
@[simp] theorem State.setRf_limSample : (s.setRf d n i hi lo v).limSample = s.limSample := rfl
@[simp] theorem State.setRf_loopD : (s.setRf d n i hi lo v).loopD = s.loopD := rfl
@[simp] theorem State.setRf_clkPhase : (s.setRf d n i hi lo v).clkPhase = s.clkPhase := rfl
@[simp] theorem State.setRf_hotHold : (s.setRf d n i hi lo v).hotHold = s.hotHold := rfl
@[simp] theorem State.setRf_excurCut : (s.setRf d n i hi lo v).excurCut = s.excurCut := rfl
@[simp] theorem State.setRf_enFrac : (s.setRf d n i hi lo v).enFrac = s.enFrac := rfl
@[simp] theorem State.setRf_pwrSnaps : (s.setRf d n i hi lo v).pwrSnaps = s.pwrSnaps := rfl
@[simp] theorem State.setRf_fan : (s.setRf d n i hi lo v).fan = s.fan := rfl
@[simp] theorem State.setRf_pwrTry : (s.setRf d n i hi lo v).pwrTry = s.pwrTry := rfl
@[simp] theorem State.setRf_wakeDue : (s.setRf d n i hi lo v).wakeDue = s.wakeDue := rfl
@[simp] theorem State.setRf_held : (s.setRf d n i hi lo v).held = s.held := rfl
@[simp] theorem State.setRf_pchKeep : (s.setRf d n i hi lo v).pchKeep = s.pchKeep := rfl
@[simp] theorem State.setRf_resets : (s.setRf d n i hi lo v).resets = s.resets := rfl
@[simp] theorem State.setRf_linkMods : (s.setRf d n i hi lo v).linkMods = s.linkMods := rfl
@[simp] theorem State.setRf_linkVer : (s.setRf d n i hi lo v).linkVer = s.linkVer := rfl
@[simp] theorem State.setRf_aligned : (s.setRf d n i hi lo v).aligned = s.aligned := rfl
@[simp] theorem State.setRf_mrcLanes : (s.setRf d n i hi lo v).mrcLanes = s.mrcLanes := rfl
@[simp] theorem State.setRf_dmaDead : (s.setRf d n i hi lo v).dmaDead = s.dmaDead := rfl
@[simp] theorem State.setRf_upsets : (s.setRf d n i hi lo v).upsets = s.upsets := rfl
@[simp] theorem State.setRf_tileMap : (s.setRf d n i hi lo v).tileMap = s.tileMap := rfl
@[simp] theorem State.setRf_builtBad : (s.setRf d n i hi lo v).builtBad = s.builtBad := rfl
@[simp] theorem State.setRf_unlocked : (s.setRf d n i hi lo v).unlocked = s.unlocked := rfl
@[simp] theorem State.setRf_lostMem : (s.setRf d n i hi lo v).lostMem = s.lostMem := rfl
@[simp] theorem State.setRf_poisonBase : (s.setRf d n i hi lo v).poisonBase = s.poisonBase := rfl
@[simp] theorem State.setRf_resetDue : (s.setRf d n i hi lo v).resetDue = s.resetDue := rfl
@[simp] theorem State.setRf_heldTraps : (s.setRf d n i hi lo v).heldTraps = s.heldTraps := rfl
@[simp] theorem State.setRf_boot : (s.setRf d n i hi lo v).boot = s.boot := rfl
@[simp] theorem State.setRf_hubEn : (s.setRf d n i hi lo v).hubEn = s.hubEn := rfl
@[simp] theorem State.setRf_pwrGood : (s.setRf d n i hi lo v).pwrGood = s.pwrGood := rfl
@[simp] theorem State.setRf_rstIn : (s.setRf d n i hi lo v).rstIn = s.rstIn := rfl
@[simp] theorem State.setRf_resetBusy : (s.setRf d n i hi lo v).resetBusy = s.resetBusy := rfl
@[simp] theorem State.setRf_aonUp : (s.setRf d n i hi lo v).aonUp = s.aonUp := rfl
@[simp] theorem State.setRf_recovery : (s.setRf d n i hi lo v).recovery = s.recovery := rfl
@[simp] theorem State.setRf_bootLog : (s.setRf d n i hi lo v).bootLog = s.bootLog := rfl
@[simp] theorem State.setRf_hdrs : (s.setRf d n i hi lo v).hdrs = s.hdrs := rfl
@[simp] theorem State.setRf_settings : (s.setRf d n i hi lo v).settings = s.settings := rfl
@[simp] theorem State.setRf_flash : (s.setRf d n i hi lo v).flash = s.flash := rfl
@[simp] theorem State.setRf_pldm : (s.setRf d n i hi lo v).pldm = s.pldm := rfl
@[simp] theorem State.setRf_licWait : (s.setRf d n i hi lo v).licWait = s.licWait := rfl
@[simp] theorem State.setRf_liveNext : (s.setRf d n i hi lo v).liveNext = s.liveNext := rfl
@[simp] theorem State.setRf_liveWait : (s.setRf d n i hi lo v).liveWait = s.liveWait := rfl
@[simp] theorem State.setRf_trialWait : (s.setRf d n i hi lo v).trialWait = s.trialWait := rfl
@[simp] theorem State.setRf_kicked : (s.setRf d n i hi lo v).kicked = s.kicked := rfl
@[simp] theorem State.setRf_wdtRuns : (s.setRf d n i hi lo v).wdtRuns = s.wdtRuns := rfl
@[simp] theorem State.setRf_mbox : (s.setRf d n i hi lo v).mbox = s.mbox := rfl
@[simp] theorem State.setRf_hostImg : (s.setRf d n i hi lo v).hostImg = s.hostImg := rfl
@[simp] theorem State.setRf_hostFrame : (s.setRf d n i hi lo v).hostFrame = s.hostFrame := rfl
@[simp] theorem State.setRf_modesSet : (s.setRf d n i hi lo v).modesSet = s.modesSet := rfl
@[simp] theorem State.setRf_released : (s.setRf d n i hi lo v).released = s.released := rfl
@[simp] theorem State.setRf_selfBad : (s.setRf d n i hi lo v).selfBad = s.selfBad := rfl
@[simp] theorem State.setRf_topoDue : (s.setRf d n i hi lo v).topoDue = s.topoDue := rfl
@[simp] theorem State.setRf_pins : (s.setRf d n i hi lo v).pins = s.pins := rfl
@[simp] theorem State.setRf_pinHold : (s.setRf d n i hi lo v).pinHold = s.pinHold := rfl
@[simp] theorem State.setRf_xtal : (s.setRf d n i hi lo v).xtal = s.xtal := rfl
@[simp] theorem State.setRf_jtag : (s.setRf d n i hi lo v).jtag = s.jtag := rfl
@[simp] theorem State.setRf_msix : (s.setRf d n i hi lo v).msix = s.msix := rfl
end

section
variable (d : Die) (n : RegName) (i k : Nat)
@[simp] theorem State.count_fuse : (s.count d n i k).fuse = s.fuse := rfl
@[simp] theorem State.count_pending : (s.count d n i k).pending = s.pending := rfl
@[simp] theorem State.count_journal : (s.count d n i k).journal = s.journal := rfl
@[simp] theorem State.count_mem : (s.count d n i k).mem = s.mem := rfl
@[simp] theorem State.count_poison : (s.count d n i k).poison = s.poison := rfl
@[simp] theorem State.count_last : (s.count d n i k).last = s.last := rfl
@[simp] theorem State.count_out : (s.count d n i k).out = s.out := rfl
@[simp] theorem State.count_free : (s.count d n i k).free = s.free := rfl
@[simp] theorem State.count_now : (s.count d n i k).now = s.now := rfl
@[simp] theorem State.count_tiles : (s.count d n i k).tiles = s.tiles := rfl
@[simp] theorem State.count_cycles : (s.count d n i k).cycles = s.cycles := rfl
@[simp] theorem State.count_launches : (s.count d n i k).launches = s.launches := rfl
@[simp] theorem State.count_nextLaunch : (s.count d n i k).nextLaunch = s.nextLaunch := rfl
@[simp] theorem State.count_heldEv : (s.count d n i k).heldEv = s.heldEv := rfl
@[simp] theorem State.count_cmds : (s.count d n i k).cmds = s.cmds := rfl
@[simp] theorem State.count_nextCmd : (s.count d n i k).nextCmd = s.nextCmd := rfl
@[simp] theorem State.count_cqTurn : (s.count d n i k).cqTurn = s.cqTurn := rfl
@[simp] theorem State.count_calls : (s.count d n i k).calls = s.calls := rfl
@[simp] theorem State.count_burrs : (s.count d n i k).burrs = s.burrs := rfl
@[simp] theorem State.count_blaunches : (s.count d n i k).blaunches = s.blaunches := rfl
@[simp] theorem State.count_feeds : (s.count d n i k).feeds = s.feeds := rfl
@[simp] theorem State.count_samplers : (s.count d n i k).samplers = s.samplers := rfl
@[simp] theorem State.count_dmas : (s.count d n i k).dmas = s.dmas := rfl
@[simp] theorem State.count_preempted : (s.count d n i k).preempted = s.preempted := rfl
@[simp] theorem State.count_preOps : (s.count d n i k).preOps = s.preOps := rfl
@[simp] theorem State.count_preImgs : (s.count d n i k).preImgs = s.preImgs := rfl
@[simp] theorem State.count_preSides : (s.count d n i k).preSides = s.preSides := rfl
@[simp] theorem State.count_burrImgs : (s.count d n i k).burrImgs = s.burrImgs := rfl
@[simp] theorem State.count_tlb : (s.count d n i k).tlb = s.tlb := rfl
@[simp] theorem State.count_walks : (s.count d n i k).walks = s.walks := rfl
@[simp] theorem State.count_cpt : (s.count d n i k).cpt = s.cpt := rfl
@[simp] theorem State.count_fdt : (s.count d n i k).fdt = s.fdt := rfl
@[simp] theorem State.count_cptRep : (s.count d n i k).cptRep = s.cptRep := rfl
@[simp] theorem State.count_fdtRep : (s.count d n i k).fdtRep = s.fdtRep := rfl
@[simp] theorem State.count_cdt : (s.count d n i k).cdt = s.cdt := rfl
@[simp] theorem State.count_cdtRep : (s.count d n i k).cdtRep = s.cdtRep := rfl
@[simp] theorem State.count_cxlDown : (s.count d n i k).cxlDown = s.cxlDown := rfl
@[simp] theorem State.count_wcache : (s.count d n i k).wcache = s.wcache := rfl
@[simp] theorem State.count_hubCmd : (s.count d n i k).hubCmd = s.hubCmd := rfl
@[simp] theorem State.count_dieTiles : (s.count d n i k).dieTiles = s.dieTiles := rfl
@[simp] theorem State.count_raised : (s.count d n i k).raised = s.raised := rfl
@[simp] theorem State.count_forwards : (s.count d n i k).forwards = s.forwards := rfl
@[simp] theorem State.count_rereads : (s.count d n i k).rereads = s.rereads := rfl
@[simp] theorem State.count_ctlRead : (s.count d n i k).ctlRead = s.ctlRead := rfl
@[simp] theorem State.count_answers : (s.count d n i k).answers = s.answers := rfl
@[simp] theorem State.count_scrubPos : (s.count d n i k).scrubPos = s.scrubPos := rfl
@[simp] theorem State.count_thuRows : (s.count d n i k).thuRows = s.thuRows := rfl
@[simp] theorem State.count_thcCnt : (s.count d n i k).thcCnt = s.thcCnt := rfl
@[simp] theorem State.count_trcCnt : (s.count d n i k).trcCnt = s.trcCnt := rfl
@[simp] theorem State.count_refreshed : (s.count d n i k).refreshed = s.refreshed := rfl
@[simp] theorem State.count_tgRuns : (s.count d n i k).tgRuns = s.tgRuns := rfl
@[simp] theorem State.count_reqs : (s.count d n i k).reqs = s.reqs := rfl
@[simp] theorem State.count_net : (s.count d n i k).net = s.net := rfl
@[simp] theorem State.count_sentNo : (s.count d n i k).sentNo = s.sentNo := rfl
@[simp] theorem State.count_txns : (s.count d n i k).txns = s.txns := rfl
@[simp] theorem State.count_dir : (s.count d n i k).dir = s.dir := rfl
@[simp] theorem State.count_cl : (s.count d n i k).cl = s.cl := rfl
@[simp] theorem State.count_wbuf : (s.count d n i k).wbuf = s.wbuf := rfl
@[simp] theorem State.count_tokens : (s.count d n i k).tokens = s.tokens := rfl
@[simp] theorem State.count_ncLast : (s.count d n i k).ncLast = s.ncLast := rfl
@[simp] theorem State.count_ncBuf : (s.count d n i k).ncBuf = s.ncBuf := rfl
@[simp] theorem State.count_io : (s.count d n i k).io = s.io := rfl
@[simp] theorem State.count_mops : (s.count d n i k).mops = s.mops := rfl
@[simp] theorem State.count_mrcNext : (s.count d n i k).mrcNext = s.mrcNext := rfl
@[simp] theorem State.count_rxUnits : (s.count d n i k).rxUnits = s.rxUnits := rfl
@[simp] theorem State.count_rxOps : (s.count d n i k).rxOps = s.rxOps := rfl
@[simp] theorem State.count_peers : (s.count d n i k).peers = s.peers := rfl
@[simp] theorem State.count_vl7 : (s.count d n i k).vl7 = s.vl7 := rfl
@[simp] theorem State.count_mrcDrops : (s.count d n i k).mrcDrops = s.mrcDrops := rfl
@[simp] theorem State.count_tables : (s.count d n i k).tables = s.tables := rfl
@[simp] theorem State.count_snapH : (s.count d n i k).snapH = s.snapH := rfl
@[simp] theorem State.count_pups : (s.count d n i k).pups = s.pups := rfl
@[simp] theorem State.count_rails : (s.count d n i k).rails = s.rails := rfl
@[simp] theorem State.count_rdown : (s.count d n i k).rdown = s.rdown := rfl
@[simp] theorem State.count_mgmtWork : (s.count d n i k).mgmtWork = s.mgmtWork := rfl
@[simp] theorem State.count_telem : (s.count d n i k).telem = s.telem := rfl
@[simp] theorem State.count_deadStacks : (s.count d n i k).deadStacks = s.deadStacks := rfl
@[simp] theorem State.count_limSample : (s.count d n i k).limSample = s.limSample := rfl
@[simp] theorem State.count_loopD : (s.count d n i k).loopD = s.loopD := rfl
@[simp] theorem State.count_clkPhase : (s.count d n i k).clkPhase = s.clkPhase := rfl
@[simp] theorem State.count_hotHold : (s.count d n i k).hotHold = s.hotHold := rfl
@[simp] theorem State.count_excurCut : (s.count d n i k).excurCut = s.excurCut := rfl
@[simp] theorem State.count_enFrac : (s.count d n i k).enFrac = s.enFrac := rfl
@[simp] theorem State.count_pwrSnaps : (s.count d n i k).pwrSnaps = s.pwrSnaps := rfl
@[simp] theorem State.count_fan : (s.count d n i k).fan = s.fan := rfl
@[simp] theorem State.count_pwrTry : (s.count d n i k).pwrTry = s.pwrTry := rfl
@[simp] theorem State.count_wakeDue : (s.count d n i k).wakeDue = s.wakeDue := rfl
@[simp] theorem State.count_held : (s.count d n i k).held = s.held := rfl
@[simp] theorem State.count_pchKeep : (s.count d n i k).pchKeep = s.pchKeep := rfl
@[simp] theorem State.count_resets : (s.count d n i k).resets = s.resets := rfl
@[simp] theorem State.count_linkMods : (s.count d n i k).linkMods = s.linkMods := rfl
@[simp] theorem State.count_linkVer : (s.count d n i k).linkVer = s.linkVer := rfl
@[simp] theorem State.count_aligned : (s.count d n i k).aligned = s.aligned := rfl
@[simp] theorem State.count_mrcLanes : (s.count d n i k).mrcLanes = s.mrcLanes := rfl
@[simp] theorem State.count_dmaDead : (s.count d n i k).dmaDead = s.dmaDead := rfl
@[simp] theorem State.count_upsets : (s.count d n i k).upsets = s.upsets := rfl
@[simp] theorem State.count_tileMap : (s.count d n i k).tileMap = s.tileMap := rfl
@[simp] theorem State.count_builtBad : (s.count d n i k).builtBad = s.builtBad := rfl
@[simp] theorem State.count_unlocked : (s.count d n i k).unlocked = s.unlocked := rfl
@[simp] theorem State.count_lostMem : (s.count d n i k).lostMem = s.lostMem := rfl
@[simp] theorem State.count_poisonBase : (s.count d n i k).poisonBase = s.poisonBase := rfl
@[simp] theorem State.count_resetDue : (s.count d n i k).resetDue = s.resetDue := rfl
@[simp] theorem State.count_heldTraps : (s.count d n i k).heldTraps = s.heldTraps := rfl
@[simp] theorem State.count_boot : (s.count d n i k).boot = s.boot := rfl
@[simp] theorem State.count_hubEn : (s.count d n i k).hubEn = s.hubEn := rfl
@[simp] theorem State.count_pwrGood : (s.count d n i k).pwrGood = s.pwrGood := rfl
@[simp] theorem State.count_rstIn : (s.count d n i k).rstIn = s.rstIn := rfl
@[simp] theorem State.count_resetBusy : (s.count d n i k).resetBusy = s.resetBusy := rfl
@[simp] theorem State.count_aonUp : (s.count d n i k).aonUp = s.aonUp := rfl
@[simp] theorem State.count_recovery : (s.count d n i k).recovery = s.recovery := rfl
@[simp] theorem State.count_bootLog : (s.count d n i k).bootLog = s.bootLog := rfl
@[simp] theorem State.count_hdrs : (s.count d n i k).hdrs = s.hdrs := rfl
@[simp] theorem State.count_settings : (s.count d n i k).settings = s.settings := rfl
@[simp] theorem State.count_flash : (s.count d n i k).flash = s.flash := rfl
@[simp] theorem State.count_pldm : (s.count d n i k).pldm = s.pldm := rfl
@[simp] theorem State.count_licWait : (s.count d n i k).licWait = s.licWait := rfl
@[simp] theorem State.count_liveNext : (s.count d n i k).liveNext = s.liveNext := rfl
@[simp] theorem State.count_liveWait : (s.count d n i k).liveWait = s.liveWait := rfl
@[simp] theorem State.count_trialWait : (s.count d n i k).trialWait = s.trialWait := rfl
@[simp] theorem State.count_kicked : (s.count d n i k).kicked = s.kicked := rfl
@[simp] theorem State.count_wdtRuns : (s.count d n i k).wdtRuns = s.wdtRuns := rfl
@[simp] theorem State.count_mbox : (s.count d n i k).mbox = s.mbox := rfl
@[simp] theorem State.count_hostImg : (s.count d n i k).hostImg = s.hostImg := rfl
@[simp] theorem State.count_hostFrame : (s.count d n i k).hostFrame = s.hostFrame := rfl
@[simp] theorem State.count_modesSet : (s.count d n i k).modesSet = s.modesSet := rfl
@[simp] theorem State.count_released : (s.count d n i k).released = s.released := rfl
@[simp] theorem State.count_selfBad : (s.count d n i k).selfBad = s.selfBad := rfl
@[simp] theorem State.count_topoDue : (s.count d n i k).topoDue = s.topoDue := rfl
@[simp] theorem State.count_pins : (s.count d n i k).pins = s.pins := rfl
@[simp] theorem State.count_pinHold : (s.count d n i k).pinHold = s.pinHold := rfl
@[simp] theorem State.count_xtal : (s.count d n i k).xtal = s.xtal := rfl
@[simp] theorem State.count_jtag : (s.count d n i k).jtag = s.jtag := rfl
@[simp] theorem State.count_msix : (s.count d n i k).msix = s.msix := rfl
end

section
variable (d : Die) (tile : Bool) (v : Nat)
@[simp] theorem State.setDom_fuse : (s.setDom d tile v).fuse = s.fuse := rfl
@[simp] theorem State.setDom_pending : (s.setDom d tile v).pending = s.pending := rfl
@[simp] theorem State.setDom_journal : (s.setDom d tile v).journal = s.journal := rfl
@[simp] theorem State.setDom_mem : (s.setDom d tile v).mem = s.mem := rfl
@[simp] theorem State.setDom_poison : (s.setDom d tile v).poison = s.poison := rfl
@[simp] theorem State.setDom_last : (s.setDom d tile v).last = s.last := rfl
@[simp] theorem State.setDom_out : (s.setDom d tile v).out = s.out := rfl
@[simp] theorem State.setDom_free : (s.setDom d tile v).free = s.free := rfl
@[simp] theorem State.setDom_now : (s.setDom d tile v).now = s.now := rfl
@[simp] theorem State.setDom_tiles : (s.setDom d tile v).tiles = s.tiles := rfl
@[simp] theorem State.setDom_cycles : (s.setDom d tile v).cycles = s.cycles := rfl
@[simp] theorem State.setDom_launches : (s.setDom d tile v).launches = s.launches := rfl
@[simp] theorem State.setDom_nextLaunch : (s.setDom d tile v).nextLaunch = s.nextLaunch := rfl
@[simp] theorem State.setDom_heldEv : (s.setDom d tile v).heldEv = s.heldEv := rfl
@[simp] theorem State.setDom_cmds : (s.setDom d tile v).cmds = s.cmds := rfl
@[simp] theorem State.setDom_nextCmd : (s.setDom d tile v).nextCmd = s.nextCmd := rfl
@[simp] theorem State.setDom_cqTurn : (s.setDom d tile v).cqTurn = s.cqTurn := rfl
@[simp] theorem State.setDom_calls : (s.setDom d tile v).calls = s.calls := rfl
@[simp] theorem State.setDom_burrs : (s.setDom d tile v).burrs = s.burrs := rfl
@[simp] theorem State.setDom_blaunches : (s.setDom d tile v).blaunches = s.blaunches := rfl
@[simp] theorem State.setDom_feeds : (s.setDom d tile v).feeds = s.feeds := rfl
@[simp] theorem State.setDom_samplers : (s.setDom d tile v).samplers = s.samplers := rfl
@[simp] theorem State.setDom_dmas : (s.setDom d tile v).dmas = s.dmas := rfl
@[simp] theorem State.setDom_preempted : (s.setDom d tile v).preempted = s.preempted := rfl
@[simp] theorem State.setDom_preOps : (s.setDom d tile v).preOps = s.preOps := rfl
@[simp] theorem State.setDom_preImgs : (s.setDom d tile v).preImgs = s.preImgs := rfl
@[simp] theorem State.setDom_preSides : (s.setDom d tile v).preSides = s.preSides := rfl
@[simp] theorem State.setDom_burrImgs : (s.setDom d tile v).burrImgs = s.burrImgs := rfl
@[simp] theorem State.setDom_tlb : (s.setDom d tile v).tlb = s.tlb := rfl
@[simp] theorem State.setDom_walks : (s.setDom d tile v).walks = s.walks := rfl
@[simp] theorem State.setDom_cpt : (s.setDom d tile v).cpt = s.cpt := rfl
@[simp] theorem State.setDom_fdt : (s.setDom d tile v).fdt = s.fdt := rfl
@[simp] theorem State.setDom_cptRep : (s.setDom d tile v).cptRep = s.cptRep := rfl
@[simp] theorem State.setDom_fdtRep : (s.setDom d tile v).fdtRep = s.fdtRep := rfl
@[simp] theorem State.setDom_cdt : (s.setDom d tile v).cdt = s.cdt := rfl
@[simp] theorem State.setDom_cdtRep : (s.setDom d tile v).cdtRep = s.cdtRep := rfl
@[simp] theorem State.setDom_cxlDown : (s.setDom d tile v).cxlDown = s.cxlDown := rfl
@[simp] theorem State.setDom_wcache : (s.setDom d tile v).wcache = s.wcache := rfl
@[simp] theorem State.setDom_hubCmd : (s.setDom d tile v).hubCmd = s.hubCmd := rfl
@[simp] theorem State.setDom_dieTiles : (s.setDom d tile v).dieTiles = s.dieTiles := rfl
@[simp] theorem State.setDom_raised : (s.setDom d tile v).raised = s.raised := rfl
@[simp] theorem State.setDom_forwards : (s.setDom d tile v).forwards = s.forwards := rfl
@[simp] theorem State.setDom_rereads : (s.setDom d tile v).rereads = s.rereads := rfl
@[simp] theorem State.setDom_ctlRead : (s.setDom d tile v).ctlRead = s.ctlRead := rfl
@[simp] theorem State.setDom_answers : (s.setDom d tile v).answers = s.answers := rfl
@[simp] theorem State.setDom_scrubPos : (s.setDom d tile v).scrubPos = s.scrubPos := rfl
@[simp] theorem State.setDom_thuRows : (s.setDom d tile v).thuRows = s.thuRows := rfl
@[simp] theorem State.setDom_thcCnt : (s.setDom d tile v).thcCnt = s.thcCnt := rfl
@[simp] theorem State.setDom_trcCnt : (s.setDom d tile v).trcCnt = s.trcCnt := rfl
@[simp] theorem State.setDom_refreshed : (s.setDom d tile v).refreshed = s.refreshed := rfl
@[simp] theorem State.setDom_tgRuns : (s.setDom d tile v).tgRuns = s.tgRuns := rfl
@[simp] theorem State.setDom_reqs : (s.setDom d tile v).reqs = s.reqs := rfl
@[simp] theorem State.setDom_net : (s.setDom d tile v).net = s.net := rfl
@[simp] theorem State.setDom_sentNo : (s.setDom d tile v).sentNo = s.sentNo := rfl
@[simp] theorem State.setDom_txns : (s.setDom d tile v).txns = s.txns := rfl
@[simp] theorem State.setDom_dir : (s.setDom d tile v).dir = s.dir := rfl
@[simp] theorem State.setDom_cl : (s.setDom d tile v).cl = s.cl := rfl
@[simp] theorem State.setDom_wbuf : (s.setDom d tile v).wbuf = s.wbuf := rfl
@[simp] theorem State.setDom_tokens : (s.setDom d tile v).tokens = s.tokens := rfl
@[simp] theorem State.setDom_ncLast : (s.setDom d tile v).ncLast = s.ncLast := rfl
@[simp] theorem State.setDom_ncBuf : (s.setDom d tile v).ncBuf = s.ncBuf := rfl
@[simp] theorem State.setDom_io : (s.setDom d tile v).io = s.io := rfl
@[simp] theorem State.setDom_mops : (s.setDom d tile v).mops = s.mops := rfl
@[simp] theorem State.setDom_mrcNext : (s.setDom d tile v).mrcNext = s.mrcNext := rfl
@[simp] theorem State.setDom_rxUnits : (s.setDom d tile v).rxUnits = s.rxUnits := rfl
@[simp] theorem State.setDom_rxOps : (s.setDom d tile v).rxOps = s.rxOps := rfl
@[simp] theorem State.setDom_peers : (s.setDom d tile v).peers = s.peers := rfl
@[simp] theorem State.setDom_vl7 : (s.setDom d tile v).vl7 = s.vl7 := rfl
@[simp] theorem State.setDom_mrcDrops : (s.setDom d tile v).mrcDrops = s.mrcDrops := rfl
@[simp] theorem State.setDom_tables : (s.setDom d tile v).tables = s.tables := rfl
@[simp] theorem State.setDom_snapH : (s.setDom d tile v).snapH = s.snapH := rfl
@[simp] theorem State.setDom_pups : (s.setDom d tile v).pups = s.pups := rfl
@[simp] theorem State.setDom_rails : (s.setDom d tile v).rails = s.rails := rfl
@[simp] theorem State.setDom_rdown : (s.setDom d tile v).rdown = s.rdown := rfl
@[simp] theorem State.setDom_mgmtWork : (s.setDom d tile v).mgmtWork = s.mgmtWork := rfl
@[simp] theorem State.setDom_telem : (s.setDom d tile v).telem = s.telem := rfl
@[simp] theorem State.setDom_deadStacks : (s.setDom d tile v).deadStacks = s.deadStacks := rfl
@[simp] theorem State.setDom_limSample : (s.setDom d tile v).limSample = s.limSample := rfl
@[simp] theorem State.setDom_loopD : (s.setDom d tile v).loopD = s.loopD := rfl
@[simp] theorem State.setDom_clkPhase : (s.setDom d tile v).clkPhase = s.clkPhase := rfl
@[simp] theorem State.setDom_hotHold : (s.setDom d tile v).hotHold = s.hotHold := rfl
@[simp] theorem State.setDom_excurCut : (s.setDom d tile v).excurCut = s.excurCut := rfl
@[simp] theorem State.setDom_enFrac : (s.setDom d tile v).enFrac = s.enFrac := rfl
@[simp] theorem State.setDom_pwrSnaps : (s.setDom d tile v).pwrSnaps = s.pwrSnaps := rfl
@[simp] theorem State.setDom_fan : (s.setDom d tile v).fan = s.fan := rfl
@[simp] theorem State.setDom_pwrTry : (s.setDom d tile v).pwrTry = s.pwrTry := rfl
@[simp] theorem State.setDom_wakeDue : (s.setDom d tile v).wakeDue = s.wakeDue := rfl
@[simp] theorem State.setDom_held : (s.setDom d tile v).held = s.held := rfl
@[simp] theorem State.setDom_pchKeep : (s.setDom d tile v).pchKeep = s.pchKeep := rfl
@[simp] theorem State.setDom_resets : (s.setDom d tile v).resets = s.resets := rfl
@[simp] theorem State.setDom_linkMods : (s.setDom d tile v).linkMods = s.linkMods := rfl
@[simp] theorem State.setDom_linkVer : (s.setDom d tile v).linkVer = s.linkVer := rfl
@[simp] theorem State.setDom_aligned : (s.setDom d tile v).aligned = s.aligned := rfl
@[simp] theorem State.setDom_mrcLanes : (s.setDom d tile v).mrcLanes = s.mrcLanes := rfl
@[simp] theorem State.setDom_dmaDead : (s.setDom d tile v).dmaDead = s.dmaDead := rfl
@[simp] theorem State.setDom_upsets : (s.setDom d tile v).upsets = s.upsets := rfl
@[simp] theorem State.setDom_tileMap : (s.setDom d tile v).tileMap = s.tileMap := rfl
@[simp] theorem State.setDom_builtBad : (s.setDom d tile v).builtBad = s.builtBad := rfl
@[simp] theorem State.setDom_unlocked : (s.setDom d tile v).unlocked = s.unlocked := rfl
@[simp] theorem State.setDom_lostMem : (s.setDom d tile v).lostMem = s.lostMem := rfl
@[simp] theorem State.setDom_poisonBase : (s.setDom d tile v).poisonBase = s.poisonBase := rfl
@[simp] theorem State.setDom_resetDue : (s.setDom d tile v).resetDue = s.resetDue := rfl
@[simp] theorem State.setDom_heldTraps : (s.setDom d tile v).heldTraps = s.heldTraps := rfl
@[simp] theorem State.setDom_boot : (s.setDom d tile v).boot = s.boot := rfl
@[simp] theorem State.setDom_hubEn : (s.setDom d tile v).hubEn = s.hubEn := rfl
@[simp] theorem State.setDom_pwrGood : (s.setDom d tile v).pwrGood = s.pwrGood := rfl
@[simp] theorem State.setDom_rstIn : (s.setDom d tile v).rstIn = s.rstIn := rfl
@[simp] theorem State.setDom_resetBusy : (s.setDom d tile v).resetBusy = s.resetBusy := rfl
@[simp] theorem State.setDom_aonUp : (s.setDom d tile v).aonUp = s.aonUp := rfl
@[simp] theorem State.setDom_recovery : (s.setDom d tile v).recovery = s.recovery := rfl
@[simp] theorem State.setDom_bootLog : (s.setDom d tile v).bootLog = s.bootLog := rfl
@[simp] theorem State.setDom_hdrs : (s.setDom d tile v).hdrs = s.hdrs := rfl
@[simp] theorem State.setDom_settings : (s.setDom d tile v).settings = s.settings := rfl
@[simp] theorem State.setDom_flash : (s.setDom d tile v).flash = s.flash := rfl
@[simp] theorem State.setDom_pldm : (s.setDom d tile v).pldm = s.pldm := rfl
@[simp] theorem State.setDom_licWait : (s.setDom d tile v).licWait = s.licWait := rfl
@[simp] theorem State.setDom_liveNext : (s.setDom d tile v).liveNext = s.liveNext := rfl
@[simp] theorem State.setDom_liveWait : (s.setDom d tile v).liveWait = s.liveWait := rfl
@[simp] theorem State.setDom_trialWait : (s.setDom d tile v).trialWait = s.trialWait := rfl
@[simp] theorem State.setDom_kicked : (s.setDom d tile v).kicked = s.kicked := rfl
@[simp] theorem State.setDom_wdtRuns : (s.setDom d tile v).wdtRuns = s.wdtRuns := rfl
@[simp] theorem State.setDom_mbox : (s.setDom d tile v).mbox = s.mbox := rfl
@[simp] theorem State.setDom_hostImg : (s.setDom d tile v).hostImg = s.hostImg := rfl
@[simp] theorem State.setDom_hostFrame : (s.setDom d tile v).hostFrame = s.hostFrame := rfl
@[simp] theorem State.setDom_modesSet : (s.setDom d tile v).modesSet = s.modesSet := rfl
@[simp] theorem State.setDom_released : (s.setDom d tile v).released = s.released := rfl
@[simp] theorem State.setDom_selfBad : (s.setDom d tile v).selfBad = s.selfBad := rfl
@[simp] theorem State.setDom_topoDue : (s.setDom d tile v).topoDue = s.topoDue := rfl
@[simp] theorem State.setDom_pins : (s.setDom d tile v).pins = s.pins := rfl
@[simp] theorem State.setDom_pinHold : (s.setDom d tile v).pinHold = s.pinHold := rfl
@[simp] theorem State.setDom_xtal : (s.setDom d tile v).xtal = s.xtal := rfl
@[simp] theorem State.setDom_jtag : (s.setDom d tile v).jtag = s.jtag := rfl
@[simp] theorem State.setDom_msix : (s.setDom d tile v).msix = s.msix := rfl
end

section
variable (d : Die) (src info : Nat)
@[simp] theorem State.raise_fuse : (s.raise d src info).fuse = s.fuse := rfl
@[simp] theorem State.raise_pending : (s.raise d src info).pending = s.pending := rfl
@[simp] theorem State.raise_journal : (s.raise d src info).journal = s.journal := rfl
@[simp] theorem State.raise_mem : (s.raise d src info).mem = s.mem := rfl
@[simp] theorem State.raise_poison : (s.raise d src info).poison = s.poison := rfl
@[simp] theorem State.raise_regs : (s.raise d src info).regs = s.regs := rfl
@[simp] theorem State.raise_last : (s.raise d src info).last = s.last := rfl
@[simp] theorem State.raise_out : (s.raise d src info).out = s.out := rfl
@[simp] theorem State.raise_free : (s.raise d src info).free = s.free := rfl
@[simp] theorem State.raise_now : (s.raise d src info).now = s.now := rfl
@[simp] theorem State.raise_tiles : (s.raise d src info).tiles = s.tiles := rfl
@[simp] theorem State.raise_cycles : (s.raise d src info).cycles = s.cycles := rfl
@[simp] theorem State.raise_launches : (s.raise d src info).launches = s.launches := rfl
@[simp] theorem State.raise_nextLaunch : (s.raise d src info).nextLaunch = s.nextLaunch := rfl
@[simp] theorem State.raise_heldEv : (s.raise d src info).heldEv = s.heldEv := rfl
@[simp] theorem State.raise_cmds : (s.raise d src info).cmds = s.cmds := rfl
@[simp] theorem State.raise_nextCmd : (s.raise d src info).nextCmd = s.nextCmd := rfl
@[simp] theorem State.raise_cqTurn : (s.raise d src info).cqTurn = s.cqTurn := rfl
@[simp] theorem State.raise_calls : (s.raise d src info).calls = s.calls := rfl
@[simp] theorem State.raise_burrs : (s.raise d src info).burrs = s.burrs := rfl
@[simp] theorem State.raise_blaunches : (s.raise d src info).blaunches = s.blaunches := rfl
@[simp] theorem State.raise_feeds : (s.raise d src info).feeds = s.feeds := rfl
@[simp] theorem State.raise_samplers : (s.raise d src info).samplers = s.samplers := rfl
@[simp] theorem State.raise_dmas : (s.raise d src info).dmas = s.dmas := rfl
@[simp] theorem State.raise_preempted : (s.raise d src info).preempted = s.preempted := rfl
@[simp] theorem State.raise_preOps : (s.raise d src info).preOps = s.preOps := rfl
@[simp] theorem State.raise_preImgs : (s.raise d src info).preImgs = s.preImgs := rfl
@[simp] theorem State.raise_preSides : (s.raise d src info).preSides = s.preSides := rfl
@[simp] theorem State.raise_burrImgs : (s.raise d src info).burrImgs = s.burrImgs := rfl
@[simp] theorem State.raise_tlb : (s.raise d src info).tlb = s.tlb := rfl
@[simp] theorem State.raise_walks : (s.raise d src info).walks = s.walks := rfl
@[simp] theorem State.raise_cpt : (s.raise d src info).cpt = s.cpt := rfl
@[simp] theorem State.raise_fdt : (s.raise d src info).fdt = s.fdt := rfl
@[simp] theorem State.raise_cptRep : (s.raise d src info).cptRep = s.cptRep := rfl
@[simp] theorem State.raise_fdtRep : (s.raise d src info).fdtRep = s.fdtRep := rfl
@[simp] theorem State.raise_cdt : (s.raise d src info).cdt = s.cdt := rfl
@[simp] theorem State.raise_cdtRep : (s.raise d src info).cdtRep = s.cdtRep := rfl
@[simp] theorem State.raise_cxlDown : (s.raise d src info).cxlDown = s.cxlDown := rfl
@[simp] theorem State.raise_wcache : (s.raise d src info).wcache = s.wcache := rfl
@[simp] theorem State.raise_hubCmd : (s.raise d src info).hubCmd = s.hubCmd := rfl
@[simp] theorem State.raise_dieTiles : (s.raise d src info).dieTiles = s.dieTiles := rfl
@[simp] theorem State.raise_forwards : (s.raise d src info).forwards = s.forwards := rfl
@[simp] theorem State.raise_rereads : (s.raise d src info).rereads = s.rereads := rfl
@[simp] theorem State.raise_ctlRead : (s.raise d src info).ctlRead = s.ctlRead := rfl
@[simp] theorem State.raise_answers : (s.raise d src info).answers = s.answers := rfl
@[simp] theorem State.raise_scrubPos : (s.raise d src info).scrubPos = s.scrubPos := rfl
@[simp] theorem State.raise_thuRows : (s.raise d src info).thuRows = s.thuRows := rfl
@[simp] theorem State.raise_thcCnt : (s.raise d src info).thcCnt = s.thcCnt := rfl
@[simp] theorem State.raise_trcCnt : (s.raise d src info).trcCnt = s.trcCnt := rfl
@[simp] theorem State.raise_refreshed : (s.raise d src info).refreshed = s.refreshed := rfl
@[simp] theorem State.raise_tgRuns : (s.raise d src info).tgRuns = s.tgRuns := rfl
@[simp] theorem State.raise_reqs : (s.raise d src info).reqs = s.reqs := rfl
@[simp] theorem State.raise_net : (s.raise d src info).net = s.net := rfl
@[simp] theorem State.raise_sentNo : (s.raise d src info).sentNo = s.sentNo := rfl
@[simp] theorem State.raise_txns : (s.raise d src info).txns = s.txns := rfl
@[simp] theorem State.raise_dir : (s.raise d src info).dir = s.dir := rfl
@[simp] theorem State.raise_cl : (s.raise d src info).cl = s.cl := rfl
@[simp] theorem State.raise_wbuf : (s.raise d src info).wbuf = s.wbuf := rfl
@[simp] theorem State.raise_tokens : (s.raise d src info).tokens = s.tokens := rfl
@[simp] theorem State.raise_ncLast : (s.raise d src info).ncLast = s.ncLast := rfl
@[simp] theorem State.raise_ncBuf : (s.raise d src info).ncBuf = s.ncBuf := rfl
@[simp] theorem State.raise_io : (s.raise d src info).io = s.io := rfl
@[simp] theorem State.raise_mops : (s.raise d src info).mops = s.mops := rfl
@[simp] theorem State.raise_mrcNext : (s.raise d src info).mrcNext = s.mrcNext := rfl
@[simp] theorem State.raise_rxUnits : (s.raise d src info).rxUnits = s.rxUnits := rfl
@[simp] theorem State.raise_rxOps : (s.raise d src info).rxOps = s.rxOps := rfl
@[simp] theorem State.raise_peers : (s.raise d src info).peers = s.peers := rfl
@[simp] theorem State.raise_vl7 : (s.raise d src info).vl7 = s.vl7 := rfl
@[simp] theorem State.raise_mrcDrops : (s.raise d src info).mrcDrops = s.mrcDrops := rfl
@[simp] theorem State.raise_tables : (s.raise d src info).tables = s.tables := rfl
@[simp] theorem State.raise_snapH : (s.raise d src info).snapH = s.snapH := rfl
@[simp] theorem State.raise_pups : (s.raise d src info).pups = s.pups := rfl
@[simp] theorem State.raise_rails : (s.raise d src info).rails = s.rails := rfl
@[simp] theorem State.raise_rdown : (s.raise d src info).rdown = s.rdown := rfl
@[simp] theorem State.raise_mgmtWork : (s.raise d src info).mgmtWork = s.mgmtWork := rfl
@[simp] theorem State.raise_telem : (s.raise d src info).telem = s.telem := rfl
@[simp] theorem State.raise_deadStacks : (s.raise d src info).deadStacks = s.deadStacks := rfl
@[simp] theorem State.raise_limSample : (s.raise d src info).limSample = s.limSample := rfl
@[simp] theorem State.raise_loopD : (s.raise d src info).loopD = s.loopD := rfl
@[simp] theorem State.raise_clkPhase : (s.raise d src info).clkPhase = s.clkPhase := rfl
@[simp] theorem State.raise_hotHold : (s.raise d src info).hotHold = s.hotHold := rfl
@[simp] theorem State.raise_excurCut : (s.raise d src info).excurCut = s.excurCut := rfl
@[simp] theorem State.raise_enFrac : (s.raise d src info).enFrac = s.enFrac := rfl
@[simp] theorem State.raise_pwrSnaps : (s.raise d src info).pwrSnaps = s.pwrSnaps := rfl
@[simp] theorem State.raise_fan : (s.raise d src info).fan = s.fan := rfl
@[simp] theorem State.raise_pwrTry : (s.raise d src info).pwrTry = s.pwrTry := rfl
@[simp] theorem State.raise_wakeDue : (s.raise d src info).wakeDue = s.wakeDue := rfl
@[simp] theorem State.raise_held : (s.raise d src info).held = s.held := rfl
@[simp] theorem State.raise_pchKeep : (s.raise d src info).pchKeep = s.pchKeep := rfl
@[simp] theorem State.raise_resets : (s.raise d src info).resets = s.resets := rfl
@[simp] theorem State.raise_linkMods : (s.raise d src info).linkMods = s.linkMods := rfl
@[simp] theorem State.raise_linkVer : (s.raise d src info).linkVer = s.linkVer := rfl
@[simp] theorem State.raise_aligned : (s.raise d src info).aligned = s.aligned := rfl
@[simp] theorem State.raise_mrcLanes : (s.raise d src info).mrcLanes = s.mrcLanes := rfl
@[simp] theorem State.raise_dmaDead : (s.raise d src info).dmaDead = s.dmaDead := rfl
@[simp] theorem State.raise_upsets : (s.raise d src info).upsets = s.upsets := rfl
@[simp] theorem State.raise_tileMap : (s.raise d src info).tileMap = s.tileMap := rfl
@[simp] theorem State.raise_builtBad : (s.raise d src info).builtBad = s.builtBad := rfl
@[simp] theorem State.raise_unlocked : (s.raise d src info).unlocked = s.unlocked := rfl
@[simp] theorem State.raise_lostMem : (s.raise d src info).lostMem = s.lostMem := rfl
@[simp] theorem State.raise_poisonBase : (s.raise d src info).poisonBase = s.poisonBase := rfl
@[simp] theorem State.raise_resetDue : (s.raise d src info).resetDue = s.resetDue := rfl
@[simp] theorem State.raise_heldTraps : (s.raise d src info).heldTraps = s.heldTraps := rfl
@[simp] theorem State.raise_boot : (s.raise d src info).boot = s.boot := rfl
@[simp] theorem State.raise_hubEn : (s.raise d src info).hubEn = s.hubEn := rfl
@[simp] theorem State.raise_pwrGood : (s.raise d src info).pwrGood = s.pwrGood := rfl
@[simp] theorem State.raise_rstIn : (s.raise d src info).rstIn = s.rstIn := rfl
@[simp] theorem State.raise_resetBusy : (s.raise d src info).resetBusy = s.resetBusy := rfl
@[simp] theorem State.raise_aonUp : (s.raise d src info).aonUp = s.aonUp := rfl
@[simp] theorem State.raise_recovery : (s.raise d src info).recovery = s.recovery := rfl
@[simp] theorem State.raise_bootLog : (s.raise d src info).bootLog = s.bootLog := rfl
@[simp] theorem State.raise_hdrs : (s.raise d src info).hdrs = s.hdrs := rfl
@[simp] theorem State.raise_settings : (s.raise d src info).settings = s.settings := rfl
@[simp] theorem State.raise_flash : (s.raise d src info).flash = s.flash := rfl
@[simp] theorem State.raise_pldm : (s.raise d src info).pldm = s.pldm := rfl
@[simp] theorem State.raise_licWait : (s.raise d src info).licWait = s.licWait := rfl
@[simp] theorem State.raise_liveNext : (s.raise d src info).liveNext = s.liveNext := rfl
@[simp] theorem State.raise_liveWait : (s.raise d src info).liveWait = s.liveWait := rfl
@[simp] theorem State.raise_trialWait : (s.raise d src info).trialWait = s.trialWait := rfl
@[simp] theorem State.raise_kicked : (s.raise d src info).kicked = s.kicked := rfl
@[simp] theorem State.raise_wdtRuns : (s.raise d src info).wdtRuns = s.wdtRuns := rfl
@[simp] theorem State.raise_mbox : (s.raise d src info).mbox = s.mbox := rfl
@[simp] theorem State.raise_hostImg : (s.raise d src info).hostImg = s.hostImg := rfl
@[simp] theorem State.raise_hostFrame : (s.raise d src info).hostFrame = s.hostFrame := rfl
@[simp] theorem State.raise_modesSet : (s.raise d src info).modesSet = s.modesSet := rfl
@[simp] theorem State.raise_released : (s.raise d src info).released = s.released := rfl
@[simp] theorem State.raise_selfBad : (s.raise d src info).selfBad = s.selfBad := rfl
@[simp] theorem State.raise_topoDue : (s.raise d src info).topoDue = s.topoDue := rfl
@[simp] theorem State.raise_pins : (s.raise d src info).pins = s.pins := rfl
@[simp] theorem State.raise_pinHold : (s.raise d src info).pinHold = s.pinHold := rfl
@[simp] theorem State.raise_xtal : (s.raise d src info).xtal = s.xtal := rfl
@[simp] theorem State.raise_jtag : (s.raise d src info).jtag = s.jtag := rfl
@[simp] theorem State.raise_msix : (s.raise d src info).msix = s.msix := rfl
end

section
variable (k : OutKind) (args : List Nat)
@[simp] theorem State.emit_fuse : (s.emit k args).fuse = s.fuse := rfl
@[simp] theorem State.emit_pending : (s.emit k args).pending = s.pending := rfl
@[simp] theorem State.emit_journal : (s.emit k args).journal = s.journal := rfl
@[simp] theorem State.emit_mem : (s.emit k args).mem = s.mem := rfl
@[simp] theorem State.emit_poison : (s.emit k args).poison = s.poison := rfl
@[simp] theorem State.emit_regs : (s.emit k args).regs = s.regs := rfl
@[simp] theorem State.emit_last : (s.emit k args).last = s.last := rfl
@[simp] theorem State.emit_free : (s.emit k args).free = s.free := rfl
@[simp] theorem State.emit_now : (s.emit k args).now = s.now := rfl
@[simp] theorem State.emit_tiles : (s.emit k args).tiles = s.tiles := rfl
@[simp] theorem State.emit_cycles : (s.emit k args).cycles = s.cycles := rfl
@[simp] theorem State.emit_launches : (s.emit k args).launches = s.launches := rfl
@[simp] theorem State.emit_nextLaunch : (s.emit k args).nextLaunch = s.nextLaunch := rfl
@[simp] theorem State.emit_heldEv : (s.emit k args).heldEv = s.heldEv := rfl
@[simp] theorem State.emit_cmds : (s.emit k args).cmds = s.cmds := rfl
@[simp] theorem State.emit_nextCmd : (s.emit k args).nextCmd = s.nextCmd := rfl
@[simp] theorem State.emit_cqTurn : (s.emit k args).cqTurn = s.cqTurn := rfl
@[simp] theorem State.emit_calls : (s.emit k args).calls = s.calls := rfl
@[simp] theorem State.emit_burrs : (s.emit k args).burrs = s.burrs := rfl
@[simp] theorem State.emit_blaunches : (s.emit k args).blaunches = s.blaunches := rfl
@[simp] theorem State.emit_feeds : (s.emit k args).feeds = s.feeds := rfl
@[simp] theorem State.emit_samplers : (s.emit k args).samplers = s.samplers := rfl
@[simp] theorem State.emit_dmas : (s.emit k args).dmas = s.dmas := rfl
@[simp] theorem State.emit_preempted : (s.emit k args).preempted = s.preempted := rfl
@[simp] theorem State.emit_preOps : (s.emit k args).preOps = s.preOps := rfl
@[simp] theorem State.emit_preImgs : (s.emit k args).preImgs = s.preImgs := rfl
@[simp] theorem State.emit_preSides : (s.emit k args).preSides = s.preSides := rfl
@[simp] theorem State.emit_burrImgs : (s.emit k args).burrImgs = s.burrImgs := rfl
@[simp] theorem State.emit_tlb : (s.emit k args).tlb = s.tlb := rfl
@[simp] theorem State.emit_walks : (s.emit k args).walks = s.walks := rfl
@[simp] theorem State.emit_cpt : (s.emit k args).cpt = s.cpt := rfl
@[simp] theorem State.emit_fdt : (s.emit k args).fdt = s.fdt := rfl
@[simp] theorem State.emit_cptRep : (s.emit k args).cptRep = s.cptRep := rfl
@[simp] theorem State.emit_fdtRep : (s.emit k args).fdtRep = s.fdtRep := rfl
@[simp] theorem State.emit_cdt : (s.emit k args).cdt = s.cdt := rfl
@[simp] theorem State.emit_cdtRep : (s.emit k args).cdtRep = s.cdtRep := rfl
@[simp] theorem State.emit_cxlDown : (s.emit k args).cxlDown = s.cxlDown := rfl
@[simp] theorem State.emit_wcache : (s.emit k args).wcache = s.wcache := rfl
@[simp] theorem State.emit_hubCmd : (s.emit k args).hubCmd = s.hubCmd := rfl
@[simp] theorem State.emit_dieTiles : (s.emit k args).dieTiles = s.dieTiles := rfl
@[simp] theorem State.emit_raised : (s.emit k args).raised = s.raised := rfl
@[simp] theorem State.emit_forwards : (s.emit k args).forwards = s.forwards := rfl
@[simp] theorem State.emit_rereads : (s.emit k args).rereads = s.rereads := rfl
@[simp] theorem State.emit_ctlRead : (s.emit k args).ctlRead = s.ctlRead := rfl
@[simp] theorem State.emit_answers : (s.emit k args).answers = s.answers := rfl
@[simp] theorem State.emit_scrubPos : (s.emit k args).scrubPos = s.scrubPos := rfl
@[simp] theorem State.emit_thuRows : (s.emit k args).thuRows = s.thuRows := rfl
@[simp] theorem State.emit_thcCnt : (s.emit k args).thcCnt = s.thcCnt := rfl
@[simp] theorem State.emit_trcCnt : (s.emit k args).trcCnt = s.trcCnt := rfl
@[simp] theorem State.emit_refreshed : (s.emit k args).refreshed = s.refreshed := rfl
@[simp] theorem State.emit_tgRuns : (s.emit k args).tgRuns = s.tgRuns := rfl
@[simp] theorem State.emit_reqs : (s.emit k args).reqs = s.reqs := rfl
@[simp] theorem State.emit_net : (s.emit k args).net = s.net := rfl
@[simp] theorem State.emit_sentNo : (s.emit k args).sentNo = s.sentNo := rfl
@[simp] theorem State.emit_txns : (s.emit k args).txns = s.txns := rfl
@[simp] theorem State.emit_dir : (s.emit k args).dir = s.dir := rfl
@[simp] theorem State.emit_cl : (s.emit k args).cl = s.cl := rfl
@[simp] theorem State.emit_wbuf : (s.emit k args).wbuf = s.wbuf := rfl
@[simp] theorem State.emit_tokens : (s.emit k args).tokens = s.tokens := rfl
@[simp] theorem State.emit_ncLast : (s.emit k args).ncLast = s.ncLast := rfl
@[simp] theorem State.emit_ncBuf : (s.emit k args).ncBuf = s.ncBuf := rfl
@[simp] theorem State.emit_io : (s.emit k args).io = s.io := rfl
@[simp] theorem State.emit_mops : (s.emit k args).mops = s.mops := rfl
@[simp] theorem State.emit_mrcNext : (s.emit k args).mrcNext = s.mrcNext := rfl
@[simp] theorem State.emit_rxUnits : (s.emit k args).rxUnits = s.rxUnits := rfl
@[simp] theorem State.emit_rxOps : (s.emit k args).rxOps = s.rxOps := rfl
@[simp] theorem State.emit_peers : (s.emit k args).peers = s.peers := rfl
@[simp] theorem State.emit_vl7 : (s.emit k args).vl7 = s.vl7 := rfl
@[simp] theorem State.emit_mrcDrops : (s.emit k args).mrcDrops = s.mrcDrops := rfl
@[simp] theorem State.emit_tables : (s.emit k args).tables = s.tables := rfl
@[simp] theorem State.emit_snapH : (s.emit k args).snapH = s.snapH := rfl
@[simp] theorem State.emit_pups : (s.emit k args).pups = s.pups := rfl
@[simp] theorem State.emit_rails : (s.emit k args).rails = s.rails := rfl
@[simp] theorem State.emit_rdown : (s.emit k args).rdown = s.rdown := rfl
@[simp] theorem State.emit_mgmtWork : (s.emit k args).mgmtWork = s.mgmtWork := rfl
@[simp] theorem State.emit_telem : (s.emit k args).telem = s.telem := rfl
@[simp] theorem State.emit_deadStacks : (s.emit k args).deadStacks = s.deadStacks := rfl
@[simp] theorem State.emit_limSample : (s.emit k args).limSample = s.limSample := rfl
@[simp] theorem State.emit_loopD : (s.emit k args).loopD = s.loopD := rfl
@[simp] theorem State.emit_clkPhase : (s.emit k args).clkPhase = s.clkPhase := rfl
@[simp] theorem State.emit_hotHold : (s.emit k args).hotHold = s.hotHold := rfl
@[simp] theorem State.emit_excurCut : (s.emit k args).excurCut = s.excurCut := rfl
@[simp] theorem State.emit_enFrac : (s.emit k args).enFrac = s.enFrac := rfl
@[simp] theorem State.emit_pwrSnaps : (s.emit k args).pwrSnaps = s.pwrSnaps := rfl
@[simp] theorem State.emit_fan : (s.emit k args).fan = s.fan := rfl
@[simp] theorem State.emit_pwrTry : (s.emit k args).pwrTry = s.pwrTry := rfl
@[simp] theorem State.emit_wakeDue : (s.emit k args).wakeDue = s.wakeDue := rfl
@[simp] theorem State.emit_held : (s.emit k args).held = s.held := rfl
@[simp] theorem State.emit_pchKeep : (s.emit k args).pchKeep = s.pchKeep := rfl
@[simp] theorem State.emit_resets : (s.emit k args).resets = s.resets := rfl
@[simp] theorem State.emit_linkMods : (s.emit k args).linkMods = s.linkMods := rfl
@[simp] theorem State.emit_linkVer : (s.emit k args).linkVer = s.linkVer := rfl
@[simp] theorem State.emit_aligned : (s.emit k args).aligned = s.aligned := rfl
@[simp] theorem State.emit_mrcLanes : (s.emit k args).mrcLanes = s.mrcLanes := rfl
@[simp] theorem State.emit_dmaDead : (s.emit k args).dmaDead = s.dmaDead := rfl
@[simp] theorem State.emit_upsets : (s.emit k args).upsets = s.upsets := rfl
@[simp] theorem State.emit_tileMap : (s.emit k args).tileMap = s.tileMap := rfl
@[simp] theorem State.emit_builtBad : (s.emit k args).builtBad = s.builtBad := rfl
@[simp] theorem State.emit_unlocked : (s.emit k args).unlocked = s.unlocked := rfl
@[simp] theorem State.emit_lostMem : (s.emit k args).lostMem = s.lostMem := rfl
@[simp] theorem State.emit_poisonBase : (s.emit k args).poisonBase = s.poisonBase := rfl
@[simp] theorem State.emit_resetDue : (s.emit k args).resetDue = s.resetDue := rfl
@[simp] theorem State.emit_heldTraps : (s.emit k args).heldTraps = s.heldTraps := rfl
@[simp] theorem State.emit_boot : (s.emit k args).boot = s.boot := rfl
@[simp] theorem State.emit_hubEn : (s.emit k args).hubEn = s.hubEn := rfl
@[simp] theorem State.emit_pwrGood : (s.emit k args).pwrGood = s.pwrGood := rfl
@[simp] theorem State.emit_rstIn : (s.emit k args).rstIn = s.rstIn := rfl
@[simp] theorem State.emit_resetBusy : (s.emit k args).resetBusy = s.resetBusy := rfl
@[simp] theorem State.emit_aonUp : (s.emit k args).aonUp = s.aonUp := rfl
@[simp] theorem State.emit_recovery : (s.emit k args).recovery = s.recovery := rfl
@[simp] theorem State.emit_bootLog : (s.emit k args).bootLog = s.bootLog := rfl
@[simp] theorem State.emit_hdrs : (s.emit k args).hdrs = s.hdrs := rfl
@[simp] theorem State.emit_settings : (s.emit k args).settings = s.settings := rfl
@[simp] theorem State.emit_flash : (s.emit k args).flash = s.flash := rfl
@[simp] theorem State.emit_pldm : (s.emit k args).pldm = s.pldm := rfl
@[simp] theorem State.emit_licWait : (s.emit k args).licWait = s.licWait := rfl
@[simp] theorem State.emit_liveNext : (s.emit k args).liveNext = s.liveNext := rfl
@[simp] theorem State.emit_liveWait : (s.emit k args).liveWait = s.liveWait := rfl
@[simp] theorem State.emit_trialWait : (s.emit k args).trialWait = s.trialWait := rfl
@[simp] theorem State.emit_kicked : (s.emit k args).kicked = s.kicked := rfl
@[simp] theorem State.emit_wdtRuns : (s.emit k args).wdtRuns = s.wdtRuns := rfl
@[simp] theorem State.emit_mbox : (s.emit k args).mbox = s.mbox := rfl
@[simp] theorem State.emit_hostImg : (s.emit k args).hostImg = s.hostImg := rfl
@[simp] theorem State.emit_hostFrame : (s.emit k args).hostFrame = s.hostFrame := rfl
@[simp] theorem State.emit_modesSet : (s.emit k args).modesSet = s.modesSet := rfl
@[simp] theorem State.emit_released : (s.emit k args).released = s.released := rfl
@[simp] theorem State.emit_selfBad : (s.emit k args).selfBad = s.selfBad := rfl
@[simp] theorem State.emit_topoDue : (s.emit k args).topoDue = s.topoDue := rfl
@[simp] theorem State.emit_pins : (s.emit k args).pins = s.pins := rfl
@[simp] theorem State.emit_pinHold : (s.emit k args).pinHold = s.pinHold := rfl
@[simp] theorem State.emit_xtal : (s.emit k args).xtal = s.xtal := rfl
@[simp] theorem State.emit_jtag : (s.emit k args).jtag = s.jtag := rfl
@[simp] theorem State.emit_msix : (s.emit k args).msix = s.msix := rfl
end

section
variable (k : Nat) (b : Byte)
@[simp] theorem State.wrKey_fuse : (s.wrKey k b).fuse = s.fuse := rfl
@[simp] theorem State.wrKey_pending : (s.wrKey k b).pending = s.pending := rfl
@[simp] theorem State.wrKey_mem : (s.wrKey k b).mem = s.mem := rfl
@[simp] theorem State.wrKey_poison : (s.wrKey k b).poison = s.poison := rfl
@[simp] theorem State.wrKey_regs : (s.wrKey k b).regs = s.regs := rfl
@[simp] theorem State.wrKey_last : (s.wrKey k b).last = s.last := rfl
@[simp] theorem State.wrKey_out : (s.wrKey k b).out = s.out := rfl
@[simp] theorem State.wrKey_free : (s.wrKey k b).free = s.free := rfl
@[simp] theorem State.wrKey_now : (s.wrKey k b).now = s.now := rfl
@[simp] theorem State.wrKey_tiles : (s.wrKey k b).tiles = s.tiles := rfl
@[simp] theorem State.wrKey_cycles : (s.wrKey k b).cycles = s.cycles := rfl
@[simp] theorem State.wrKey_launches : (s.wrKey k b).launches = s.launches := rfl
@[simp] theorem State.wrKey_nextLaunch : (s.wrKey k b).nextLaunch = s.nextLaunch := rfl
@[simp] theorem State.wrKey_heldEv : (s.wrKey k b).heldEv = s.heldEv := rfl
@[simp] theorem State.wrKey_cmds : (s.wrKey k b).cmds = s.cmds := rfl
@[simp] theorem State.wrKey_nextCmd : (s.wrKey k b).nextCmd = s.nextCmd := rfl
@[simp] theorem State.wrKey_cqTurn : (s.wrKey k b).cqTurn = s.cqTurn := rfl
@[simp] theorem State.wrKey_calls : (s.wrKey k b).calls = s.calls := rfl
@[simp] theorem State.wrKey_burrs : (s.wrKey k b).burrs = s.burrs := rfl
@[simp] theorem State.wrKey_blaunches : (s.wrKey k b).blaunches = s.blaunches := rfl
@[simp] theorem State.wrKey_feeds : (s.wrKey k b).feeds = s.feeds := rfl
@[simp] theorem State.wrKey_samplers : (s.wrKey k b).samplers = s.samplers := rfl
@[simp] theorem State.wrKey_dmas : (s.wrKey k b).dmas = s.dmas := rfl
@[simp] theorem State.wrKey_preempted : (s.wrKey k b).preempted = s.preempted := rfl
@[simp] theorem State.wrKey_preOps : (s.wrKey k b).preOps = s.preOps := rfl
@[simp] theorem State.wrKey_preImgs : (s.wrKey k b).preImgs = s.preImgs := rfl
@[simp] theorem State.wrKey_preSides : (s.wrKey k b).preSides = s.preSides := rfl
@[simp] theorem State.wrKey_burrImgs : (s.wrKey k b).burrImgs = s.burrImgs := rfl
@[simp] theorem State.wrKey_tlb : (s.wrKey k b).tlb = s.tlb := rfl
@[simp] theorem State.wrKey_walks : (s.wrKey k b).walks = s.walks := rfl
@[simp] theorem State.wrKey_cpt : (s.wrKey k b).cpt = s.cpt := rfl
@[simp] theorem State.wrKey_fdt : (s.wrKey k b).fdt = s.fdt := rfl
@[simp] theorem State.wrKey_cptRep : (s.wrKey k b).cptRep = s.cptRep := rfl
@[simp] theorem State.wrKey_fdtRep : (s.wrKey k b).fdtRep = s.fdtRep := rfl
@[simp] theorem State.wrKey_cdt : (s.wrKey k b).cdt = s.cdt := rfl
@[simp] theorem State.wrKey_cdtRep : (s.wrKey k b).cdtRep = s.cdtRep := rfl
@[simp] theorem State.wrKey_cxlDown : (s.wrKey k b).cxlDown = s.cxlDown := rfl
@[simp] theorem State.wrKey_wcache : (s.wrKey k b).wcache = s.wcache := rfl
@[simp] theorem State.wrKey_hubCmd : (s.wrKey k b).hubCmd = s.hubCmd := rfl
@[simp] theorem State.wrKey_dieTiles : (s.wrKey k b).dieTiles = s.dieTiles := rfl
@[simp] theorem State.wrKey_raised : (s.wrKey k b).raised = s.raised := rfl
@[simp] theorem State.wrKey_forwards : (s.wrKey k b).forwards = s.forwards := rfl
@[simp] theorem State.wrKey_rereads : (s.wrKey k b).rereads = s.rereads := rfl
@[simp] theorem State.wrKey_ctlRead : (s.wrKey k b).ctlRead = s.ctlRead := rfl
@[simp] theorem State.wrKey_answers : (s.wrKey k b).answers = s.answers := rfl
@[simp] theorem State.wrKey_scrubPos : (s.wrKey k b).scrubPos = s.scrubPos := rfl
@[simp] theorem State.wrKey_thuRows : (s.wrKey k b).thuRows = s.thuRows := rfl
@[simp] theorem State.wrKey_thcCnt : (s.wrKey k b).thcCnt = s.thcCnt := rfl
@[simp] theorem State.wrKey_trcCnt : (s.wrKey k b).trcCnt = s.trcCnt := rfl
@[simp] theorem State.wrKey_refreshed : (s.wrKey k b).refreshed = s.refreshed := rfl
@[simp] theorem State.wrKey_tgRuns : (s.wrKey k b).tgRuns = s.tgRuns := rfl
@[simp] theorem State.wrKey_reqs : (s.wrKey k b).reqs = s.reqs := rfl
@[simp] theorem State.wrKey_net : (s.wrKey k b).net = s.net := rfl
@[simp] theorem State.wrKey_sentNo : (s.wrKey k b).sentNo = s.sentNo := rfl
@[simp] theorem State.wrKey_txns : (s.wrKey k b).txns = s.txns := rfl
@[simp] theorem State.wrKey_dir : (s.wrKey k b).dir = s.dir := rfl
@[simp] theorem State.wrKey_cl : (s.wrKey k b).cl = s.cl := rfl
@[simp] theorem State.wrKey_wbuf : (s.wrKey k b).wbuf = s.wbuf := rfl
@[simp] theorem State.wrKey_tokens : (s.wrKey k b).tokens = s.tokens := rfl
@[simp] theorem State.wrKey_ncLast : (s.wrKey k b).ncLast = s.ncLast := rfl
@[simp] theorem State.wrKey_ncBuf : (s.wrKey k b).ncBuf = s.ncBuf := rfl
@[simp] theorem State.wrKey_io : (s.wrKey k b).io = s.io := rfl
@[simp] theorem State.wrKey_mops : (s.wrKey k b).mops = s.mops := rfl
@[simp] theorem State.wrKey_mrcNext : (s.wrKey k b).mrcNext = s.mrcNext := rfl
@[simp] theorem State.wrKey_rxUnits : (s.wrKey k b).rxUnits = s.rxUnits := rfl
@[simp] theorem State.wrKey_rxOps : (s.wrKey k b).rxOps = s.rxOps := rfl
@[simp] theorem State.wrKey_peers : (s.wrKey k b).peers = s.peers := rfl
@[simp] theorem State.wrKey_vl7 : (s.wrKey k b).vl7 = s.vl7 := rfl
@[simp] theorem State.wrKey_mrcDrops : (s.wrKey k b).mrcDrops = s.mrcDrops := rfl
@[simp] theorem State.wrKey_tables : (s.wrKey k b).tables = s.tables := rfl
@[simp] theorem State.wrKey_snapH : (s.wrKey k b).snapH = s.snapH := rfl
@[simp] theorem State.wrKey_pups : (s.wrKey k b).pups = s.pups := rfl
@[simp] theorem State.wrKey_rails : (s.wrKey k b).rails = s.rails := rfl
@[simp] theorem State.wrKey_rdown : (s.wrKey k b).rdown = s.rdown := rfl
@[simp] theorem State.wrKey_mgmtWork : (s.wrKey k b).mgmtWork = s.mgmtWork := rfl
@[simp] theorem State.wrKey_telem : (s.wrKey k b).telem = s.telem := rfl
@[simp] theorem State.wrKey_deadStacks : (s.wrKey k b).deadStacks = s.deadStacks := rfl
@[simp] theorem State.wrKey_limSample : (s.wrKey k b).limSample = s.limSample := rfl
@[simp] theorem State.wrKey_loopD : (s.wrKey k b).loopD = s.loopD := rfl
@[simp] theorem State.wrKey_clkPhase : (s.wrKey k b).clkPhase = s.clkPhase := rfl
@[simp] theorem State.wrKey_hotHold : (s.wrKey k b).hotHold = s.hotHold := rfl
@[simp] theorem State.wrKey_excurCut : (s.wrKey k b).excurCut = s.excurCut := rfl
@[simp] theorem State.wrKey_enFrac : (s.wrKey k b).enFrac = s.enFrac := rfl
@[simp] theorem State.wrKey_pwrSnaps : (s.wrKey k b).pwrSnaps = s.pwrSnaps := rfl
@[simp] theorem State.wrKey_fan : (s.wrKey k b).fan = s.fan := rfl
@[simp] theorem State.wrKey_pwrTry : (s.wrKey k b).pwrTry = s.pwrTry := rfl
@[simp] theorem State.wrKey_wakeDue : (s.wrKey k b).wakeDue = s.wakeDue := rfl
@[simp] theorem State.wrKey_held : (s.wrKey k b).held = s.held := rfl
@[simp] theorem State.wrKey_pchKeep : (s.wrKey k b).pchKeep = s.pchKeep := rfl
@[simp] theorem State.wrKey_resets : (s.wrKey k b).resets = s.resets := rfl
@[simp] theorem State.wrKey_linkMods : (s.wrKey k b).linkMods = s.linkMods := rfl
@[simp] theorem State.wrKey_linkVer : (s.wrKey k b).linkVer = s.linkVer := rfl
@[simp] theorem State.wrKey_aligned : (s.wrKey k b).aligned = s.aligned := rfl
@[simp] theorem State.wrKey_mrcLanes : (s.wrKey k b).mrcLanes = s.mrcLanes := rfl
@[simp] theorem State.wrKey_dmaDead : (s.wrKey k b).dmaDead = s.dmaDead := rfl
@[simp] theorem State.wrKey_upsets : (s.wrKey k b).upsets = s.upsets := rfl
@[simp] theorem State.wrKey_tileMap : (s.wrKey k b).tileMap = s.tileMap := rfl
@[simp] theorem State.wrKey_builtBad : (s.wrKey k b).builtBad = s.builtBad := rfl
@[simp] theorem State.wrKey_unlocked : (s.wrKey k b).unlocked = s.unlocked := rfl
@[simp] theorem State.wrKey_lostMem : (s.wrKey k b).lostMem = s.lostMem := rfl
@[simp] theorem State.wrKey_poisonBase : (s.wrKey k b).poisonBase = s.poisonBase := rfl
@[simp] theorem State.wrKey_resetDue : (s.wrKey k b).resetDue = s.resetDue := rfl
@[simp] theorem State.wrKey_heldTraps : (s.wrKey k b).heldTraps = s.heldTraps := rfl
@[simp] theorem State.wrKey_boot : (s.wrKey k b).boot = s.boot := rfl
@[simp] theorem State.wrKey_hubEn : (s.wrKey k b).hubEn = s.hubEn := rfl
@[simp] theorem State.wrKey_pwrGood : (s.wrKey k b).pwrGood = s.pwrGood := rfl
@[simp] theorem State.wrKey_rstIn : (s.wrKey k b).rstIn = s.rstIn := rfl
@[simp] theorem State.wrKey_resetBusy : (s.wrKey k b).resetBusy = s.resetBusy := rfl
@[simp] theorem State.wrKey_aonUp : (s.wrKey k b).aonUp = s.aonUp := rfl
@[simp] theorem State.wrKey_recovery : (s.wrKey k b).recovery = s.recovery := rfl
@[simp] theorem State.wrKey_bootLog : (s.wrKey k b).bootLog = s.bootLog := rfl
@[simp] theorem State.wrKey_hdrs : (s.wrKey k b).hdrs = s.hdrs := rfl
@[simp] theorem State.wrKey_settings : (s.wrKey k b).settings = s.settings := rfl
@[simp] theorem State.wrKey_flash : (s.wrKey k b).flash = s.flash := rfl
@[simp] theorem State.wrKey_pldm : (s.wrKey k b).pldm = s.pldm := rfl
@[simp] theorem State.wrKey_licWait : (s.wrKey k b).licWait = s.licWait := rfl
@[simp] theorem State.wrKey_liveNext : (s.wrKey k b).liveNext = s.liveNext := rfl
@[simp] theorem State.wrKey_liveWait : (s.wrKey k b).liveWait = s.liveWait := rfl
@[simp] theorem State.wrKey_trialWait : (s.wrKey k b).trialWait = s.trialWait := rfl
@[simp] theorem State.wrKey_kicked : (s.wrKey k b).kicked = s.kicked := rfl
@[simp] theorem State.wrKey_wdtRuns : (s.wrKey k b).wdtRuns = s.wdtRuns := rfl
@[simp] theorem State.wrKey_mbox : (s.wrKey k b).mbox = s.mbox := rfl
@[simp] theorem State.wrKey_hostImg : (s.wrKey k b).hostImg = s.hostImg := rfl
@[simp] theorem State.wrKey_hostFrame : (s.wrKey k b).hostFrame = s.hostFrame := rfl
@[simp] theorem State.wrKey_modesSet : (s.wrKey k b).modesSet = s.modesSet := rfl
@[simp] theorem State.wrKey_released : (s.wrKey k b).released = s.released := rfl
@[simp] theorem State.wrKey_selfBad : (s.wrKey k b).selfBad = s.selfBad := rfl
@[simp] theorem State.wrKey_topoDue : (s.wrKey k b).topoDue = s.topoDue := rfl
@[simp] theorem State.wrKey_pins : (s.wrKey k b).pins = s.pins := rfl
@[simp] theorem State.wrKey_pinHold : (s.wrKey k b).pinHold = s.pinHold := rfl
@[simp] theorem State.wrKey_xtal : (s.wrKey k b).xtal = s.xtal := rfl
@[simp] theorem State.wrKey_jtag : (s.wrKey k b).jtag = s.jtag := rfl
@[simp] theorem State.wrKey_msix : (s.wrKey k b).msix = s.msix := rfl
end

section
variable (t : TileRef) (x : Tile)
@[simp] theorem State.setTile_fuse : (s.setTile t x).fuse = s.fuse := rfl
@[simp] theorem State.setTile_pending : (s.setTile t x).pending = s.pending := rfl
@[simp] theorem State.setTile_journal : (s.setTile t x).journal = s.journal := rfl
@[simp] theorem State.setTile_mem : (s.setTile t x).mem = s.mem := rfl
@[simp] theorem State.setTile_poison : (s.setTile t x).poison = s.poison := rfl
@[simp] theorem State.setTile_regs : (s.setTile t x).regs = s.regs := rfl
@[simp] theorem State.setTile_last : (s.setTile t x).last = s.last := rfl
@[simp] theorem State.setTile_out : (s.setTile t x).out = s.out := rfl
@[simp] theorem State.setTile_free : (s.setTile t x).free = s.free := rfl
@[simp] theorem State.setTile_now : (s.setTile t x).now = s.now := rfl
@[simp] theorem State.setTile_cycles : (s.setTile t x).cycles = s.cycles := rfl
@[simp] theorem State.setTile_launches : (s.setTile t x).launches = s.launches := rfl
@[simp] theorem State.setTile_nextLaunch : (s.setTile t x).nextLaunch = s.nextLaunch := rfl
@[simp] theorem State.setTile_heldEv : (s.setTile t x).heldEv = s.heldEv := rfl
@[simp] theorem State.setTile_cmds : (s.setTile t x).cmds = s.cmds := rfl
@[simp] theorem State.setTile_nextCmd : (s.setTile t x).nextCmd = s.nextCmd := rfl
@[simp] theorem State.setTile_cqTurn : (s.setTile t x).cqTurn = s.cqTurn := rfl
@[simp] theorem State.setTile_calls : (s.setTile t x).calls = s.calls := rfl
@[simp] theorem State.setTile_burrs : (s.setTile t x).burrs = s.burrs := rfl
@[simp] theorem State.setTile_blaunches : (s.setTile t x).blaunches = s.blaunches := rfl
@[simp] theorem State.setTile_feeds : (s.setTile t x).feeds = s.feeds := rfl
@[simp] theorem State.setTile_samplers : (s.setTile t x).samplers = s.samplers := rfl
@[simp] theorem State.setTile_dmas : (s.setTile t x).dmas = s.dmas := rfl
@[simp] theorem State.setTile_preempted : (s.setTile t x).preempted = s.preempted := rfl
@[simp] theorem State.setTile_preOps : (s.setTile t x).preOps = s.preOps := rfl
@[simp] theorem State.setTile_preImgs : (s.setTile t x).preImgs = s.preImgs := rfl
@[simp] theorem State.setTile_preSides : (s.setTile t x).preSides = s.preSides := rfl
@[simp] theorem State.setTile_burrImgs : (s.setTile t x).burrImgs = s.burrImgs := rfl
@[simp] theorem State.setTile_tlb : (s.setTile t x).tlb = s.tlb := rfl
@[simp] theorem State.setTile_walks : (s.setTile t x).walks = s.walks := rfl
@[simp] theorem State.setTile_cpt : (s.setTile t x).cpt = s.cpt := rfl
@[simp] theorem State.setTile_fdt : (s.setTile t x).fdt = s.fdt := rfl
@[simp] theorem State.setTile_cptRep : (s.setTile t x).cptRep = s.cptRep := rfl
@[simp] theorem State.setTile_fdtRep : (s.setTile t x).fdtRep = s.fdtRep := rfl
@[simp] theorem State.setTile_cdt : (s.setTile t x).cdt = s.cdt := rfl
@[simp] theorem State.setTile_cdtRep : (s.setTile t x).cdtRep = s.cdtRep := rfl
@[simp] theorem State.setTile_cxlDown : (s.setTile t x).cxlDown = s.cxlDown := rfl
@[simp] theorem State.setTile_wcache : (s.setTile t x).wcache = s.wcache := rfl
@[simp] theorem State.setTile_hubCmd : (s.setTile t x).hubCmd = s.hubCmd := rfl
@[simp] theorem State.setTile_dieTiles : (s.setTile t x).dieTiles = s.dieTiles := rfl
@[simp] theorem State.setTile_raised : (s.setTile t x).raised = s.raised := rfl
@[simp] theorem State.setTile_forwards : (s.setTile t x).forwards = s.forwards := rfl
@[simp] theorem State.setTile_rereads : (s.setTile t x).rereads = s.rereads := rfl
@[simp] theorem State.setTile_ctlRead : (s.setTile t x).ctlRead = s.ctlRead := rfl
@[simp] theorem State.setTile_answers : (s.setTile t x).answers = s.answers := rfl
@[simp] theorem State.setTile_scrubPos : (s.setTile t x).scrubPos = s.scrubPos := rfl
@[simp] theorem State.setTile_thuRows : (s.setTile t x).thuRows = s.thuRows := rfl
@[simp] theorem State.setTile_thcCnt : (s.setTile t x).thcCnt = s.thcCnt := rfl
@[simp] theorem State.setTile_trcCnt : (s.setTile t x).trcCnt = s.trcCnt := rfl
@[simp] theorem State.setTile_refreshed : (s.setTile t x).refreshed = s.refreshed := rfl
@[simp] theorem State.setTile_tgRuns : (s.setTile t x).tgRuns = s.tgRuns := rfl
@[simp] theorem State.setTile_reqs : (s.setTile t x).reqs = s.reqs := rfl
@[simp] theorem State.setTile_net : (s.setTile t x).net = s.net := rfl
@[simp] theorem State.setTile_sentNo : (s.setTile t x).sentNo = s.sentNo := rfl
@[simp] theorem State.setTile_txns : (s.setTile t x).txns = s.txns := rfl
@[simp] theorem State.setTile_dir : (s.setTile t x).dir = s.dir := rfl
@[simp] theorem State.setTile_cl : (s.setTile t x).cl = s.cl := rfl
@[simp] theorem State.setTile_wbuf : (s.setTile t x).wbuf = s.wbuf := rfl
@[simp] theorem State.setTile_tokens : (s.setTile t x).tokens = s.tokens := rfl
@[simp] theorem State.setTile_ncLast : (s.setTile t x).ncLast = s.ncLast := rfl
@[simp] theorem State.setTile_ncBuf : (s.setTile t x).ncBuf = s.ncBuf := rfl
@[simp] theorem State.setTile_io : (s.setTile t x).io = s.io := rfl
@[simp] theorem State.setTile_mops : (s.setTile t x).mops = s.mops := rfl
@[simp] theorem State.setTile_mrcNext : (s.setTile t x).mrcNext = s.mrcNext := rfl
@[simp] theorem State.setTile_rxUnits : (s.setTile t x).rxUnits = s.rxUnits := rfl
@[simp] theorem State.setTile_rxOps : (s.setTile t x).rxOps = s.rxOps := rfl
@[simp] theorem State.setTile_peers : (s.setTile t x).peers = s.peers := rfl
@[simp] theorem State.setTile_vl7 : (s.setTile t x).vl7 = s.vl7 := rfl
@[simp] theorem State.setTile_mrcDrops : (s.setTile t x).mrcDrops = s.mrcDrops := rfl
@[simp] theorem State.setTile_tables : (s.setTile t x).tables = s.tables := rfl
@[simp] theorem State.setTile_snapH : (s.setTile t x).snapH = s.snapH := rfl
@[simp] theorem State.setTile_pups : (s.setTile t x).pups = s.pups := rfl
@[simp] theorem State.setTile_rails : (s.setTile t x).rails = s.rails := rfl
@[simp] theorem State.setTile_rdown : (s.setTile t x).rdown = s.rdown := rfl
@[simp] theorem State.setTile_mgmtWork : (s.setTile t x).mgmtWork = s.mgmtWork := rfl
@[simp] theorem State.setTile_telem : (s.setTile t x).telem = s.telem := rfl
@[simp] theorem State.setTile_deadStacks : (s.setTile t x).deadStacks = s.deadStacks := rfl
@[simp] theorem State.setTile_limSample : (s.setTile t x).limSample = s.limSample := rfl
@[simp] theorem State.setTile_loopD : (s.setTile t x).loopD = s.loopD := rfl
@[simp] theorem State.setTile_clkPhase : (s.setTile t x).clkPhase = s.clkPhase := rfl
@[simp] theorem State.setTile_hotHold : (s.setTile t x).hotHold = s.hotHold := rfl
@[simp] theorem State.setTile_excurCut : (s.setTile t x).excurCut = s.excurCut := rfl
@[simp] theorem State.setTile_enFrac : (s.setTile t x).enFrac = s.enFrac := rfl
@[simp] theorem State.setTile_pwrSnaps : (s.setTile t x).pwrSnaps = s.pwrSnaps := rfl
@[simp] theorem State.setTile_fan : (s.setTile t x).fan = s.fan := rfl
@[simp] theorem State.setTile_pwrTry : (s.setTile t x).pwrTry = s.pwrTry := rfl
@[simp] theorem State.setTile_wakeDue : (s.setTile t x).wakeDue = s.wakeDue := rfl
@[simp] theorem State.setTile_held : (s.setTile t x).held = s.held := rfl
@[simp] theorem State.setTile_pchKeep : (s.setTile t x).pchKeep = s.pchKeep := rfl
@[simp] theorem State.setTile_resets : (s.setTile t x).resets = s.resets := rfl
@[simp] theorem State.setTile_linkMods : (s.setTile t x).linkMods = s.linkMods := rfl
@[simp] theorem State.setTile_linkVer : (s.setTile t x).linkVer = s.linkVer := rfl
@[simp] theorem State.setTile_aligned : (s.setTile t x).aligned = s.aligned := rfl
@[simp] theorem State.setTile_mrcLanes : (s.setTile t x).mrcLanes = s.mrcLanes := rfl
@[simp] theorem State.setTile_dmaDead : (s.setTile t x).dmaDead = s.dmaDead := rfl
@[simp] theorem State.setTile_upsets : (s.setTile t x).upsets = s.upsets := rfl
@[simp] theorem State.setTile_tileMap : (s.setTile t x).tileMap = s.tileMap := rfl
@[simp] theorem State.setTile_builtBad : (s.setTile t x).builtBad = s.builtBad := rfl
@[simp] theorem State.setTile_unlocked : (s.setTile t x).unlocked = s.unlocked := rfl
@[simp] theorem State.setTile_lostMem : (s.setTile t x).lostMem = s.lostMem := rfl
@[simp] theorem State.setTile_poisonBase : (s.setTile t x).poisonBase = s.poisonBase := rfl
@[simp] theorem State.setTile_resetDue : (s.setTile t x).resetDue = s.resetDue := rfl
@[simp] theorem State.setTile_heldTraps : (s.setTile t x).heldTraps = s.heldTraps := rfl
@[simp] theorem State.setTile_boot : (s.setTile t x).boot = s.boot := rfl
@[simp] theorem State.setTile_hubEn : (s.setTile t x).hubEn = s.hubEn := rfl
@[simp] theorem State.setTile_pwrGood : (s.setTile t x).pwrGood = s.pwrGood := rfl
@[simp] theorem State.setTile_rstIn : (s.setTile t x).rstIn = s.rstIn := rfl
@[simp] theorem State.setTile_resetBusy : (s.setTile t x).resetBusy = s.resetBusy := rfl
@[simp] theorem State.setTile_aonUp : (s.setTile t x).aonUp = s.aonUp := rfl
@[simp] theorem State.setTile_recovery : (s.setTile t x).recovery = s.recovery := rfl
@[simp] theorem State.setTile_bootLog : (s.setTile t x).bootLog = s.bootLog := rfl
@[simp] theorem State.setTile_hdrs : (s.setTile t x).hdrs = s.hdrs := rfl
@[simp] theorem State.setTile_settings : (s.setTile t x).settings = s.settings := rfl
@[simp] theorem State.setTile_flash : (s.setTile t x).flash = s.flash := rfl
@[simp] theorem State.setTile_pldm : (s.setTile t x).pldm = s.pldm := rfl
@[simp] theorem State.setTile_licWait : (s.setTile t x).licWait = s.licWait := rfl
@[simp] theorem State.setTile_liveNext : (s.setTile t x).liveNext = s.liveNext := rfl
@[simp] theorem State.setTile_liveWait : (s.setTile t x).liveWait = s.liveWait := rfl
@[simp] theorem State.setTile_trialWait : (s.setTile t x).trialWait = s.trialWait := rfl
@[simp] theorem State.setTile_kicked : (s.setTile t x).kicked = s.kicked := rfl
@[simp] theorem State.setTile_wdtRuns : (s.setTile t x).wdtRuns = s.wdtRuns := rfl
@[simp] theorem State.setTile_mbox : (s.setTile t x).mbox = s.mbox := rfl
@[simp] theorem State.setTile_hostImg : (s.setTile t x).hostImg = s.hostImg := rfl
@[simp] theorem State.setTile_hostFrame : (s.setTile t x).hostFrame = s.hostFrame := rfl
@[simp] theorem State.setTile_modesSet : (s.setTile t x).modesSet = s.modesSet := rfl
@[simp] theorem State.setTile_released : (s.setTile t x).released = s.released := rfl
@[simp] theorem State.setTile_selfBad : (s.setTile t x).selfBad = s.selfBad := rfl
@[simp] theorem State.setTile_topoDue : (s.setTile t x).topoDue = s.topoDue := rfl
@[simp] theorem State.setTile_pins : (s.setTile t x).pins = s.pins := rfl
@[simp] theorem State.setTile_pinHold : (s.setTile t x).pinHold = s.pinHold := rfl
@[simp] theorem State.setTile_xtal : (s.setTile t x).xtal = s.xtal := rfl
@[simp] theorem State.setTile_jtag : (s.setTile t x).jtag = s.jtag := rfl
@[simp] theorem State.setTile_msix : (s.setTile t x).msix = s.msix := rfl
end

section
variable (t : TileRef) (b : Block)
@[simp] theorem State.setBlock_fuse : (s.setBlock t b).fuse = s.fuse := rfl
@[simp] theorem State.setBlock_pending : (s.setBlock t b).pending = s.pending := rfl
@[simp] theorem State.setBlock_journal : (s.setBlock t b).journal = s.journal := rfl
@[simp] theorem State.setBlock_mem : (s.setBlock t b).mem = s.mem := rfl
@[simp] theorem State.setBlock_poison : (s.setBlock t b).poison = s.poison := rfl
@[simp] theorem State.setBlock_regs : (s.setBlock t b).regs = s.regs := rfl
@[simp] theorem State.setBlock_last : (s.setBlock t b).last = s.last := rfl
@[simp] theorem State.setBlock_out : (s.setBlock t b).out = s.out := rfl
@[simp] theorem State.setBlock_free : (s.setBlock t b).free = s.free := rfl
@[simp] theorem State.setBlock_now : (s.setBlock t b).now = s.now := rfl
@[simp] theorem State.setBlock_cycles : (s.setBlock t b).cycles = s.cycles := rfl
@[simp] theorem State.setBlock_launches : (s.setBlock t b).launches = s.launches := rfl
@[simp] theorem State.setBlock_nextLaunch : (s.setBlock t b).nextLaunch = s.nextLaunch := rfl
@[simp] theorem State.setBlock_heldEv : (s.setBlock t b).heldEv = s.heldEv := rfl
@[simp] theorem State.setBlock_cmds : (s.setBlock t b).cmds = s.cmds := rfl
@[simp] theorem State.setBlock_nextCmd : (s.setBlock t b).nextCmd = s.nextCmd := rfl
@[simp] theorem State.setBlock_cqTurn : (s.setBlock t b).cqTurn = s.cqTurn := rfl
@[simp] theorem State.setBlock_calls : (s.setBlock t b).calls = s.calls := rfl
@[simp] theorem State.setBlock_burrs : (s.setBlock t b).burrs = s.burrs := rfl
@[simp] theorem State.setBlock_blaunches : (s.setBlock t b).blaunches = s.blaunches := rfl
@[simp] theorem State.setBlock_feeds : (s.setBlock t b).feeds = s.feeds := rfl
@[simp] theorem State.setBlock_samplers : (s.setBlock t b).samplers = s.samplers := rfl
@[simp] theorem State.setBlock_dmas : (s.setBlock t b).dmas = s.dmas := rfl
@[simp] theorem State.setBlock_preempted : (s.setBlock t b).preempted = s.preempted := rfl
@[simp] theorem State.setBlock_preOps : (s.setBlock t b).preOps = s.preOps := rfl
@[simp] theorem State.setBlock_preImgs : (s.setBlock t b).preImgs = s.preImgs := rfl
@[simp] theorem State.setBlock_preSides : (s.setBlock t b).preSides = s.preSides := rfl
@[simp] theorem State.setBlock_burrImgs : (s.setBlock t b).burrImgs = s.burrImgs := rfl
@[simp] theorem State.setBlock_tlb : (s.setBlock t b).tlb = s.tlb := rfl
@[simp] theorem State.setBlock_walks : (s.setBlock t b).walks = s.walks := rfl
@[simp] theorem State.setBlock_cpt : (s.setBlock t b).cpt = s.cpt := rfl
@[simp] theorem State.setBlock_fdt : (s.setBlock t b).fdt = s.fdt := rfl
@[simp] theorem State.setBlock_cptRep : (s.setBlock t b).cptRep = s.cptRep := rfl
@[simp] theorem State.setBlock_fdtRep : (s.setBlock t b).fdtRep = s.fdtRep := rfl
@[simp] theorem State.setBlock_cdt : (s.setBlock t b).cdt = s.cdt := rfl
@[simp] theorem State.setBlock_cdtRep : (s.setBlock t b).cdtRep = s.cdtRep := rfl
@[simp] theorem State.setBlock_cxlDown : (s.setBlock t b).cxlDown = s.cxlDown := rfl
@[simp] theorem State.setBlock_wcache : (s.setBlock t b).wcache = s.wcache := rfl
@[simp] theorem State.setBlock_hubCmd : (s.setBlock t b).hubCmd = s.hubCmd := rfl
@[simp] theorem State.setBlock_dieTiles : (s.setBlock t b).dieTiles = s.dieTiles := rfl
@[simp] theorem State.setBlock_raised : (s.setBlock t b).raised = s.raised := rfl
@[simp] theorem State.setBlock_forwards : (s.setBlock t b).forwards = s.forwards := rfl
@[simp] theorem State.setBlock_rereads : (s.setBlock t b).rereads = s.rereads := rfl
@[simp] theorem State.setBlock_ctlRead : (s.setBlock t b).ctlRead = s.ctlRead := rfl
@[simp] theorem State.setBlock_answers : (s.setBlock t b).answers = s.answers := rfl
@[simp] theorem State.setBlock_scrubPos : (s.setBlock t b).scrubPos = s.scrubPos := rfl
@[simp] theorem State.setBlock_thuRows : (s.setBlock t b).thuRows = s.thuRows := rfl
@[simp] theorem State.setBlock_thcCnt : (s.setBlock t b).thcCnt = s.thcCnt := rfl
@[simp] theorem State.setBlock_trcCnt : (s.setBlock t b).trcCnt = s.trcCnt := rfl
@[simp] theorem State.setBlock_refreshed : (s.setBlock t b).refreshed = s.refreshed := rfl
@[simp] theorem State.setBlock_tgRuns : (s.setBlock t b).tgRuns = s.tgRuns := rfl
@[simp] theorem State.setBlock_reqs : (s.setBlock t b).reqs = s.reqs := rfl
@[simp] theorem State.setBlock_net : (s.setBlock t b).net = s.net := rfl
@[simp] theorem State.setBlock_sentNo : (s.setBlock t b).sentNo = s.sentNo := rfl
@[simp] theorem State.setBlock_txns : (s.setBlock t b).txns = s.txns := rfl
@[simp] theorem State.setBlock_dir : (s.setBlock t b).dir = s.dir := rfl
@[simp] theorem State.setBlock_cl : (s.setBlock t b).cl = s.cl := rfl
@[simp] theorem State.setBlock_wbuf : (s.setBlock t b).wbuf = s.wbuf := rfl
@[simp] theorem State.setBlock_tokens : (s.setBlock t b).tokens = s.tokens := rfl
@[simp] theorem State.setBlock_ncLast : (s.setBlock t b).ncLast = s.ncLast := rfl
@[simp] theorem State.setBlock_ncBuf : (s.setBlock t b).ncBuf = s.ncBuf := rfl
@[simp] theorem State.setBlock_io : (s.setBlock t b).io = s.io := rfl
@[simp] theorem State.setBlock_mops : (s.setBlock t b).mops = s.mops := rfl
@[simp] theorem State.setBlock_mrcNext : (s.setBlock t b).mrcNext = s.mrcNext := rfl
@[simp] theorem State.setBlock_rxUnits : (s.setBlock t b).rxUnits = s.rxUnits := rfl
@[simp] theorem State.setBlock_rxOps : (s.setBlock t b).rxOps = s.rxOps := rfl
@[simp] theorem State.setBlock_peers : (s.setBlock t b).peers = s.peers := rfl
@[simp] theorem State.setBlock_vl7 : (s.setBlock t b).vl7 = s.vl7 := rfl
@[simp] theorem State.setBlock_mrcDrops : (s.setBlock t b).mrcDrops = s.mrcDrops := rfl
@[simp] theorem State.setBlock_tables : (s.setBlock t b).tables = s.tables := rfl
@[simp] theorem State.setBlock_snapH : (s.setBlock t b).snapH = s.snapH := rfl
@[simp] theorem State.setBlock_pups : (s.setBlock t b).pups = s.pups := rfl
@[simp] theorem State.setBlock_rails : (s.setBlock t b).rails = s.rails := rfl
@[simp] theorem State.setBlock_rdown : (s.setBlock t b).rdown = s.rdown := rfl
@[simp] theorem State.setBlock_mgmtWork : (s.setBlock t b).mgmtWork = s.mgmtWork := rfl
@[simp] theorem State.setBlock_telem : (s.setBlock t b).telem = s.telem := rfl
@[simp] theorem State.setBlock_deadStacks : (s.setBlock t b).deadStacks = s.deadStacks := rfl
@[simp] theorem State.setBlock_limSample : (s.setBlock t b).limSample = s.limSample := rfl
@[simp] theorem State.setBlock_loopD : (s.setBlock t b).loopD = s.loopD := rfl
@[simp] theorem State.setBlock_clkPhase : (s.setBlock t b).clkPhase = s.clkPhase := rfl
@[simp] theorem State.setBlock_hotHold : (s.setBlock t b).hotHold = s.hotHold := rfl
@[simp] theorem State.setBlock_excurCut : (s.setBlock t b).excurCut = s.excurCut := rfl
@[simp] theorem State.setBlock_enFrac : (s.setBlock t b).enFrac = s.enFrac := rfl
@[simp] theorem State.setBlock_pwrSnaps : (s.setBlock t b).pwrSnaps = s.pwrSnaps := rfl
@[simp] theorem State.setBlock_fan : (s.setBlock t b).fan = s.fan := rfl
@[simp] theorem State.setBlock_pwrTry : (s.setBlock t b).pwrTry = s.pwrTry := rfl
@[simp] theorem State.setBlock_wakeDue : (s.setBlock t b).wakeDue = s.wakeDue := rfl
@[simp] theorem State.setBlock_held : (s.setBlock t b).held = s.held := rfl
@[simp] theorem State.setBlock_pchKeep : (s.setBlock t b).pchKeep = s.pchKeep := rfl
@[simp] theorem State.setBlock_resets : (s.setBlock t b).resets = s.resets := rfl
@[simp] theorem State.setBlock_linkMods : (s.setBlock t b).linkMods = s.linkMods := rfl
@[simp] theorem State.setBlock_linkVer : (s.setBlock t b).linkVer = s.linkVer := rfl
@[simp] theorem State.setBlock_aligned : (s.setBlock t b).aligned = s.aligned := rfl
@[simp] theorem State.setBlock_mrcLanes : (s.setBlock t b).mrcLanes = s.mrcLanes := rfl
@[simp] theorem State.setBlock_dmaDead : (s.setBlock t b).dmaDead = s.dmaDead := rfl
@[simp] theorem State.setBlock_upsets : (s.setBlock t b).upsets = s.upsets := rfl
@[simp] theorem State.setBlock_tileMap : (s.setBlock t b).tileMap = s.tileMap := rfl
@[simp] theorem State.setBlock_builtBad : (s.setBlock t b).builtBad = s.builtBad := rfl
@[simp] theorem State.setBlock_unlocked : (s.setBlock t b).unlocked = s.unlocked := rfl
@[simp] theorem State.setBlock_lostMem : (s.setBlock t b).lostMem = s.lostMem := rfl
@[simp] theorem State.setBlock_poisonBase : (s.setBlock t b).poisonBase = s.poisonBase := rfl
@[simp] theorem State.setBlock_resetDue : (s.setBlock t b).resetDue = s.resetDue := rfl
@[simp] theorem State.setBlock_heldTraps : (s.setBlock t b).heldTraps = s.heldTraps := rfl
@[simp] theorem State.setBlock_boot : (s.setBlock t b).boot = s.boot := rfl
@[simp] theorem State.setBlock_hubEn : (s.setBlock t b).hubEn = s.hubEn := rfl
@[simp] theorem State.setBlock_pwrGood : (s.setBlock t b).pwrGood = s.pwrGood := rfl
@[simp] theorem State.setBlock_rstIn : (s.setBlock t b).rstIn = s.rstIn := rfl
@[simp] theorem State.setBlock_resetBusy : (s.setBlock t b).resetBusy = s.resetBusy := rfl
@[simp] theorem State.setBlock_aonUp : (s.setBlock t b).aonUp = s.aonUp := rfl
@[simp] theorem State.setBlock_recovery : (s.setBlock t b).recovery = s.recovery := rfl
@[simp] theorem State.setBlock_bootLog : (s.setBlock t b).bootLog = s.bootLog := rfl
@[simp] theorem State.setBlock_hdrs : (s.setBlock t b).hdrs = s.hdrs := rfl
@[simp] theorem State.setBlock_settings : (s.setBlock t b).settings = s.settings := rfl
@[simp] theorem State.setBlock_flash : (s.setBlock t b).flash = s.flash := rfl
@[simp] theorem State.setBlock_pldm : (s.setBlock t b).pldm = s.pldm := rfl
@[simp] theorem State.setBlock_licWait : (s.setBlock t b).licWait = s.licWait := rfl
@[simp] theorem State.setBlock_liveNext : (s.setBlock t b).liveNext = s.liveNext := rfl
@[simp] theorem State.setBlock_liveWait : (s.setBlock t b).liveWait = s.liveWait := rfl
@[simp] theorem State.setBlock_trialWait : (s.setBlock t b).trialWait = s.trialWait := rfl
@[simp] theorem State.setBlock_kicked : (s.setBlock t b).kicked = s.kicked := rfl
@[simp] theorem State.setBlock_wdtRuns : (s.setBlock t b).wdtRuns = s.wdtRuns := rfl
@[simp] theorem State.setBlock_mbox : (s.setBlock t b).mbox = s.mbox := rfl
@[simp] theorem State.setBlock_hostImg : (s.setBlock t b).hostImg = s.hostImg := rfl
@[simp] theorem State.setBlock_hostFrame : (s.setBlock t b).hostFrame = s.hostFrame := rfl
@[simp] theorem State.setBlock_modesSet : (s.setBlock t b).modesSet = s.modesSet := rfl
@[simp] theorem State.setBlock_released : (s.setBlock t b).released = s.released := rfl
@[simp] theorem State.setBlock_selfBad : (s.setBlock t b).selfBad = s.selfBad := rfl
@[simp] theorem State.setBlock_topoDue : (s.setBlock t b).topoDue = s.topoDue := rfl
@[simp] theorem State.setBlock_pins : (s.setBlock t b).pins = s.pins := rfl
@[simp] theorem State.setBlock_pinHold : (s.setBlock t b).pinHold = s.pinHold := rfl
@[simp] theorem State.setBlock_xtal : (s.setBlock t b).xtal = s.xtal := rfl
@[simp] theorem State.setBlock_jtag : (s.setBlock t b).jtag = s.jtag := rfl
@[simp] theorem State.setBlock_msix : (s.setBlock t b).msix = s.msix := rfl
end

section
@[simp] theorem State.commit_fuse : (s.commit s').fuse = s'.fuse := rfl
@[simp] theorem State.commit_poison : (s.commit s').poison = s'.poison := rfl
@[simp] theorem State.commit_regs : (s.commit s').regs = s'.regs := rfl
@[simp] theorem State.commit_last : (s.commit s').last = s'.last := rfl
@[simp] theorem State.commit_out : (s.commit s').out = s'.out := rfl
@[simp] theorem State.commit_free : (s.commit s').free = s'.free := rfl
@[simp] theorem State.commit_now : (s.commit s').now = s'.now := rfl
@[simp] theorem State.commit_tiles : (s.commit s').tiles = s'.tiles := rfl
@[simp] theorem State.commit_cycles : (s.commit s').cycles = s'.cycles := rfl
@[simp] theorem State.commit_launches : (s.commit s').launches = s'.launches := rfl
@[simp] theorem State.commit_nextLaunch : (s.commit s').nextLaunch = s'.nextLaunch := rfl
@[simp] theorem State.commit_heldEv : (s.commit s').heldEv = s'.heldEv := rfl
@[simp] theorem State.commit_cmds : (s.commit s').cmds = s'.cmds := rfl
@[simp] theorem State.commit_nextCmd : (s.commit s').nextCmd = s'.nextCmd := rfl
@[simp] theorem State.commit_cqTurn : (s.commit s').cqTurn = s'.cqTurn := rfl
@[simp] theorem State.commit_calls : (s.commit s').calls = s'.calls := rfl
@[simp] theorem State.commit_burrs : (s.commit s').burrs = s'.burrs := rfl
@[simp] theorem State.commit_blaunches : (s.commit s').blaunches = s'.blaunches := rfl
@[simp] theorem State.commit_feeds : (s.commit s').feeds = s'.feeds := rfl
@[simp] theorem State.commit_samplers : (s.commit s').samplers = s'.samplers := rfl
@[simp] theorem State.commit_dmas : (s.commit s').dmas = s'.dmas := rfl
@[simp] theorem State.commit_preempted : (s.commit s').preempted = s'.preempted := rfl
@[simp] theorem State.commit_preOps : (s.commit s').preOps = s'.preOps := rfl
@[simp] theorem State.commit_preImgs : (s.commit s').preImgs = s'.preImgs := rfl
@[simp] theorem State.commit_preSides : (s.commit s').preSides = s'.preSides := rfl
@[simp] theorem State.commit_burrImgs : (s.commit s').burrImgs = s'.burrImgs := rfl
@[simp] theorem State.commit_tlb : (s.commit s').tlb = s'.tlb := rfl
@[simp] theorem State.commit_walks : (s.commit s').walks = s'.walks := rfl
@[simp] theorem State.commit_cpt : (s.commit s').cpt = s'.cpt := rfl
@[simp] theorem State.commit_fdt : (s.commit s').fdt = s'.fdt := rfl
@[simp] theorem State.commit_cptRep : (s.commit s').cptRep = s'.cptRep := rfl
@[simp] theorem State.commit_fdtRep : (s.commit s').fdtRep = s'.fdtRep := rfl
@[simp] theorem State.commit_cdt : (s.commit s').cdt = s'.cdt := rfl
@[simp] theorem State.commit_cdtRep : (s.commit s').cdtRep = s'.cdtRep := rfl
@[simp] theorem State.commit_cxlDown : (s.commit s').cxlDown = s'.cxlDown := rfl
@[simp] theorem State.commit_wcache : (s.commit s').wcache = s'.wcache := rfl
@[simp] theorem State.commit_hubCmd : (s.commit s').hubCmd = s'.hubCmd := rfl
@[simp] theorem State.commit_dieTiles : (s.commit s').dieTiles = s'.dieTiles := rfl
@[simp] theorem State.commit_raised : (s.commit s').raised = s'.raised := rfl
@[simp] theorem State.commit_forwards : (s.commit s').forwards = s'.forwards := rfl
@[simp] theorem State.commit_rereads : (s.commit s').rereads = s'.rereads := rfl
@[simp] theorem State.commit_ctlRead : (s.commit s').ctlRead = s'.ctlRead := rfl
@[simp] theorem State.commit_answers : (s.commit s').answers = s'.answers := rfl
@[simp] theorem State.commit_scrubPos : (s.commit s').scrubPos = s'.scrubPos := rfl
@[simp] theorem State.commit_thuRows : (s.commit s').thuRows = s'.thuRows := rfl
@[simp] theorem State.commit_thcCnt : (s.commit s').thcCnt = s'.thcCnt := rfl
@[simp] theorem State.commit_trcCnt : (s.commit s').trcCnt = s'.trcCnt := rfl
@[simp] theorem State.commit_refreshed : (s.commit s').refreshed = s'.refreshed := rfl
@[simp] theorem State.commit_tgRuns : (s.commit s').tgRuns = s'.tgRuns := rfl
@[simp] theorem State.commit_reqs : (s.commit s').reqs = s'.reqs := rfl
@[simp] theorem State.commit_net : (s.commit s').net = s'.net := rfl
@[simp] theorem State.commit_sentNo : (s.commit s').sentNo = s'.sentNo := rfl
@[simp] theorem State.commit_txns : (s.commit s').txns = s'.txns := rfl
@[simp] theorem State.commit_dir : (s.commit s').dir = s'.dir := rfl
@[simp] theorem State.commit_cl : (s.commit s').cl = s'.cl := rfl
@[simp] theorem State.commit_wbuf : (s.commit s').wbuf = s'.wbuf := rfl
@[simp] theorem State.commit_tokens : (s.commit s').tokens = s'.tokens := rfl
@[simp] theorem State.commit_ncLast : (s.commit s').ncLast = s'.ncLast := rfl
@[simp] theorem State.commit_ncBuf : (s.commit s').ncBuf = s'.ncBuf := rfl
@[simp] theorem State.commit_io : (s.commit s').io = s'.io := rfl
@[simp] theorem State.commit_mops : (s.commit s').mops = s'.mops := rfl
@[simp] theorem State.commit_mrcNext : (s.commit s').mrcNext = s'.mrcNext := rfl
@[simp] theorem State.commit_rxUnits : (s.commit s').rxUnits = s'.rxUnits := rfl
@[simp] theorem State.commit_rxOps : (s.commit s').rxOps = s'.rxOps := rfl
@[simp] theorem State.commit_peers : (s.commit s').peers = s'.peers := rfl
@[simp] theorem State.commit_vl7 : (s.commit s').vl7 = s'.vl7 := rfl
@[simp] theorem State.commit_mrcDrops : (s.commit s').mrcDrops = s'.mrcDrops := rfl
@[simp] theorem State.commit_tables : (s.commit s').tables = s'.tables := rfl
@[simp] theorem State.commit_snapH : (s.commit s').snapH = s'.snapH := rfl
@[simp] theorem State.commit_pups : (s.commit s').pups = s'.pups := rfl
@[simp] theorem State.commit_rails : (s.commit s').rails = s'.rails := rfl
@[simp] theorem State.commit_rdown : (s.commit s').rdown = s'.rdown := rfl
@[simp] theorem State.commit_mgmtWork : (s.commit s').mgmtWork = s'.mgmtWork := rfl
@[simp] theorem State.commit_telem : (s.commit s').telem = s'.telem := rfl
@[simp] theorem State.commit_deadStacks : (s.commit s').deadStacks = s'.deadStacks := rfl
@[simp] theorem State.commit_limSample : (s.commit s').limSample = s'.limSample := rfl
@[simp] theorem State.commit_loopD : (s.commit s').loopD = s'.loopD := rfl
@[simp] theorem State.commit_clkPhase : (s.commit s').clkPhase = s'.clkPhase := rfl
@[simp] theorem State.commit_hotHold : (s.commit s').hotHold = s'.hotHold := rfl
@[simp] theorem State.commit_excurCut : (s.commit s').excurCut = s'.excurCut := rfl
@[simp] theorem State.commit_enFrac : (s.commit s').enFrac = s'.enFrac := rfl
@[simp] theorem State.commit_pwrSnaps : (s.commit s').pwrSnaps = s'.pwrSnaps := rfl
@[simp] theorem State.commit_fan : (s.commit s').fan = s'.fan := rfl
@[simp] theorem State.commit_pwrTry : (s.commit s').pwrTry = s'.pwrTry := rfl
@[simp] theorem State.commit_wakeDue : (s.commit s').wakeDue = s'.wakeDue := rfl
@[simp] theorem State.commit_held : (s.commit s').held = s'.held := rfl
@[simp] theorem State.commit_pchKeep : (s.commit s').pchKeep = s'.pchKeep := rfl
@[simp] theorem State.commit_resets : (s.commit s').resets = s'.resets := rfl
@[simp] theorem State.commit_linkMods : (s.commit s').linkMods = s'.linkMods := rfl
@[simp] theorem State.commit_linkVer : (s.commit s').linkVer = s'.linkVer := rfl
@[simp] theorem State.commit_aligned : (s.commit s').aligned = s'.aligned := rfl
@[simp] theorem State.commit_mrcLanes : (s.commit s').mrcLanes = s'.mrcLanes := rfl
@[simp] theorem State.commit_dmaDead : (s.commit s').dmaDead = s'.dmaDead := rfl
@[simp] theorem State.commit_upsets : (s.commit s').upsets = s'.upsets := rfl
@[simp] theorem State.commit_tileMap : (s.commit s').tileMap = s'.tileMap := rfl
@[simp] theorem State.commit_builtBad : (s.commit s').builtBad = s'.builtBad := rfl
@[simp] theorem State.commit_unlocked : (s.commit s').unlocked = s'.unlocked := rfl
@[simp] theorem State.commit_lostMem : (s.commit s').lostMem = s'.lostMem := rfl
@[simp] theorem State.commit_poisonBase : (s.commit s').poisonBase = s'.poisonBase := rfl
@[simp] theorem State.commit_resetDue : (s.commit s').resetDue = s'.resetDue := rfl
@[simp] theorem State.commit_heldTraps : (s.commit s').heldTraps = s'.heldTraps := rfl
@[simp] theorem State.commit_boot : (s.commit s').boot = s'.boot := rfl
@[simp] theorem State.commit_hubEn : (s.commit s').hubEn = s'.hubEn := rfl
@[simp] theorem State.commit_pwrGood : (s.commit s').pwrGood = s'.pwrGood := rfl
@[simp] theorem State.commit_rstIn : (s.commit s').rstIn = s'.rstIn := rfl
@[simp] theorem State.commit_resetBusy : (s.commit s').resetBusy = s'.resetBusy := rfl
@[simp] theorem State.commit_aonUp : (s.commit s').aonUp = s'.aonUp := rfl
@[simp] theorem State.commit_recovery : (s.commit s').recovery = s'.recovery := rfl
@[simp] theorem State.commit_bootLog : (s.commit s').bootLog = s'.bootLog := rfl
@[simp] theorem State.commit_hdrs : (s.commit s').hdrs = s'.hdrs := rfl
@[simp] theorem State.commit_settings : (s.commit s').settings = s'.settings := rfl
@[simp] theorem State.commit_flash : (s.commit s').flash = s'.flash := rfl
@[simp] theorem State.commit_pldm : (s.commit s').pldm = s'.pldm := rfl
@[simp] theorem State.commit_licWait : (s.commit s').licWait = s'.licWait := rfl
@[simp] theorem State.commit_liveNext : (s.commit s').liveNext = s'.liveNext := rfl
@[simp] theorem State.commit_liveWait : (s.commit s').liveWait = s'.liveWait := rfl
@[simp] theorem State.commit_trialWait : (s.commit s').trialWait = s'.trialWait := rfl
@[simp] theorem State.commit_kicked : (s.commit s').kicked = s'.kicked := rfl
@[simp] theorem State.commit_wdtRuns : (s.commit s').wdtRuns = s'.wdtRuns := rfl
@[simp] theorem State.commit_mbox : (s.commit s').mbox = s'.mbox := rfl
@[simp] theorem State.commit_hostImg : (s.commit s').hostImg = s'.hostImg := rfl
@[simp] theorem State.commit_hostFrame : (s.commit s').hostFrame = s'.hostFrame := rfl
@[simp] theorem State.commit_modesSet : (s.commit s').modesSet = s'.modesSet := rfl
@[simp] theorem State.commit_released : (s.commit s').released = s'.released := rfl
@[simp] theorem State.commit_selfBad : (s.commit s').selfBad = s'.selfBad := rfl
@[simp] theorem State.commit_topoDue : (s.commit s').topoDue = s'.topoDue := rfl
@[simp] theorem State.commit_pins : (s.commit s').pins = s'.pins := rfl
@[simp] theorem State.commit_pinHold : (s.commit s').pinHold = s'.pinHold := rfl
@[simp] theorem State.commit_xtal : (s.commit s').xtal = s'.xtal := rfl
@[simp] theorem State.commit_jtag : (s.commit s').jtag = s'.jtag := rfl
@[simp] theorem State.commit_msix : (s.commit s').msix = s'.msix := rfl
@[simp] theorem State.commit_pending : (s.commit s').pending = s.pending := rfl
@[simp] theorem State.commit_journal : (s.commit s').journal = [] := rfl
@[simp] theorem State.commit_mem : (s.commit s').mem = Memory.applyAll s.mem s'.journal := rfl
end

end Sys2Proof.Machine
end

