-- ==== Sys2Proof/Laws/Memory.lean ====
section
/-!
SUPPORT. The canonical form of memory: every operation keeps it, and what a byte reads as afterwards.
-/

namespace Sys2Proof.Machine

theorem Memory.wfFrom_mono {a b : Nat} (h : a ≤ b) : ∀ {m : List Host.Cell}, Memory.wfFrom b m = true → Memory.wfFrom a m = true
  | [], _ => rfl
  | (k, v) :: r, hm => by
    simp only [Memory.wfFrom, Bool.and_eq_true, decide_eq_true_eq] at hm ⊢
    exact ⟨⟨by omega, hm.1.2⟩, hm.2⟩

/-- Below the bound of a canonical memory everything reads 0. -/
theorem Memory.rd_below {a b : Nat} (h : a < b) : ∀ {m : List Host.Cell}, Memory.wfFrom b m = true → Memory.rd m a = 0
  | [], _ => rfl
  | (k, v) :: r, hm => by
    simp only [Memory.wfFrom, Bool.and_eq_true, decide_eq_true_eq, BitVec.ofNat_eq_ofNat] at hm
    have hk : k ≠ a := by omega
    simp only [Memory.rd, if_neg hk]
    exact Memory.rd_below (by omega) hm.2

theorem Memory.wr_wfFrom (a : Nat) (v : Byte) :
    ∀ {m : List Host.Cell} {b : Nat}, b ≤ a → Memory.wfFrom b m = true → Memory.wfFrom b (Memory.wr m a v) = true
  | [], b, hb, _ => by
    by_cases hv : v = 0#8 <;> simp [Memory.wr, Memory.wfFrom, hv, hb]
  | (k, w) :: r, b, hb, hm => by
    simp only [Memory.wfFrom, Bool.and_eq_true, decide_eq_true_eq, BitVec.ofNat_eq_ofNat] at hm
    unfold Memory.wr
    split
    · next hk =>
      subst hk
      by_cases hv : v = 0#8
      · simp only [hv, BitVec.ofNat_eq_ofNat, if_true]; exact Memory.wfFrom_mono (by omega) hm.2
      · simp [hv, Memory.wfFrom, hb, hm.2]
    · next hk =>
      split
      · next hlt =>
        by_cases hv : v = 0#8
        · simp [hv, Memory.wfFrom, hm.1.1, hm.1.2, hm.2]
        · simp only [hv, BitVec.ofNat_eq_ofNat, if_false, Memory.wfFrom, Bool.and_eq_true, decide_eq_true_eq]
          exact ⟨⟨hb, hv⟩, ⟨by omega, hm.1.2⟩, hm.2⟩
      · simp only [Memory.wfFrom, Bool.and_eq_true, decide_eq_true_eq]
        exact ⟨⟨hm.1.1, hm.1.2⟩, Memory.wr_wfFrom a v (by omega) hm.2⟩

/-- A read after a write: the value written, and every other byte as before. -/
theorem Memory.rd_wr (a x : Nat) (v : Byte) :
    ∀ {m : List Host.Cell} {b : Nat}, Memory.wfFrom b m = true →
      Memory.rd (Memory.wr m a v) x = if x = a then v else Memory.rd m x
  | [], _, _ => by
    by_cases hv : v = 0#8
    · simp [Memory.wr, hv, Memory.rd]
    · by_cases hx : x = a
      · simp [Memory.wr, hv, Memory.rd, hx]
      · simp [Memory.wr, hv, Memory.rd, hx, Ne.symm hx]
  | (k, w) :: r, b, hm => by
    simp only [Memory.wfFrom, Bool.and_eq_true, decide_eq_true_eq, BitVec.ofNat_eq_ofNat] at hm
    unfold Memory.wr
    split
    · next hk =>
      subst hk
      by_cases hv : v = 0#8
      · simp only [hv, BitVec.ofNat_eq_ofNat, if_true]
        by_cases hx : x = k
        · subst hx; simp [Memory.rd_below (Nat.lt_succ_self x) hm.2]
        · simp [hx, Memory.rd, Ne.symm hx]
      · by_cases hx : x = k
        · simp [hv, Memory.rd, hx]
        · simp [hv, Memory.rd, hx, Ne.symm hx]
    · next hk =>
      split
      · next hlt =>
        by_cases hv : v = 0#8
        · simp only [hv, BitVec.ofNat_eq_ofNat, if_true]
          by_cases hx : x = a
          · subst hx
            have h : Memory.rd ((k, w) :: r) x = 0 :=
              Memory.rd_below (b := k) hlt (by simp [Memory.wfFrom, hm.1.2, hm.2])
            simp [h]
          · simp [hx]
        · by_cases hx : x = a
          · simp [hv, Memory.rd, hx]
          · simp [hv, Memory.rd, hx, Ne.symm hx]
      · by_cases hx : k = x
        · have : x ≠ a := by omega
          simp [Memory.rd, hx, this]
        · simp only [Memory.rd, if_neg hx]
          exact Memory.rd_wr a x v hm.2

theorem Memory.filter_wfFrom (p : Host.Cell → Bool) :
    ∀ {m : List Host.Cell} {b : Nat}, Memory.wfFrom b m = true → Memory.wfFrom b (m.filter p) = true
  | [], _, _ => rfl
  | (k, w) :: r, b, hm => by
    simp only [Memory.wfFrom, Bool.and_eq_true, decide_eq_true_eq, BitVec.ofNat_eq_ofNat] at hm
    have ih := Memory.filter_wfFrom p hm.2
    by_cases hp : p (k, w) = true
    · simp only [List.filter_cons, hp, if_true, Memory.wfFrom, Bool.and_eq_true, decide_eq_true_eq]
      exact ⟨hm.1, ih⟩
    · simp only [List.filter_cons, hp]
      exact Memory.wfFrom_mono (by omega) ih

/-- A wiped pseudo-channel reads 0, every other byte as before. -/
theorem Memory.rd_wipe (p x : Nat) : ∀ (m : List Host.Cell),
    Memory.rd (m.filter fun c => decide (c.1 / 2 ^ 30 ≠ p)) x = if x / 2 ^ 30 = p then 0 else Memory.rd m x
  | [] => by simp [Memory.rd]
  | (k, w) :: r => by
    have ih := Memory.rd_wipe p x r
    by_cases hk : k / 2 ^ 30 = p
    · rw [List.filter_cons_of_neg (by simpa using hk), ih]
      by_cases hx : x / 2 ^ 30 = p
      · rw [if_pos hx, if_pos hx]
      · have : k ≠ x := fun h => hx (h ▸ hk)
        rw [if_neg hx, if_neg hx, Memory.rd, if_neg this]
    · rw [List.filter_cons_of_pos (by simpa using hk)]
      by_cases hkx : k = x
      · subst hkx; rw [if_neg hk, Memory.rd, if_pos rfl, Memory.rd, if_pos rfl]
      · simp only [Memory.rd, if_neg hkx, ih]

theorem JEnt.apply_wf (e : JEnt) {m : List Host.Cell} (h : Memory.wf m = true) : Memory.wf (e.apply m) = true := by
  cases e with
  | byte k b => exact Memory.wr_wfFrom k b (Nat.zero_le _) h
  | wipe p => exact Memory.filter_wfFrom _ h
  | wipeAll => rfl

/-- A journal keeps the canonical form. -/
theorem Memory.applyAll_wf {m : List Host.Cell} (h : Memory.wf m = true) :
    ∀ j : List JEnt, Memory.wf (Memory.applyAll m j) = true
  | [] => h
  | e :: r => JEnt.apply_wf e (Memory.applyAll_wf h r)

/-- A byte after a journal: the newest change, or what it was. -/
theorem Memory.rd_applyAll {m : List Host.Cell} (h : Memory.wf m = true) (x : Nat) :
    ∀ j : List JEnt, Memory.rd (Memory.applyAll m j) x = (Memory.look j x).getD (Memory.rd m x)
  | [] => rfl
  | e :: r => by
    have ih := Memory.rd_applyAll h x r
    have hw := Memory.applyAll_wf h r
    change Memory.rd (e.apply (Memory.applyAll m r)) x = _
    cases e with
    | byte k b =>
      rw [JEnt.apply, Memory.rd_wr k x b hw]
      by_cases hx : x = k
      · simp [Memory.look, hx]
      · simp [Memory.look, hx, Ne.symm hx, ih]
    | wipe p =>
      rw [JEnt.apply, Memory.rd_wipe, Memory.look]
      by_cases hx : x / 2 ^ 30 = p
      · rw [if_pos hx, if_pos hx]; rfl
      · rw [if_neg hx, if_neg hx, ih]
    | wipeAll => simp [JEnt.apply, Memory.look, Memory.rd]

/-- After a command its bytes read as they did while it was in progress. -/
theorem State.commit_rdKey {s s' : State} (h : Memory.wf s.mem = true) (hm : s'.mem = s.mem) (k : Nat) :
    (s.commit s').rdKey k = s'.rdKey k := by
  simp only [State.rdKey, State.commit_journal, Memory.look, State.commit_mem, Memory.rd_applyAll h, hm]
  cases Memory.look s'.journal k <;> rfl

end Sys2Proof.Machine
end

