-- ==== Sys2Proof/Laws/Exec.lean ====
section
/-!
SUPPORT. What every command does to the queue, to memory and to the journal: it ends by `State.commit`.
-/

namespace Sys2Proof.Machine

/-- Every command ends by committing its effect. -/
theorem exec_done (i : Instr) (s : State) : ∃ e, exec i s = done s e := by cases i <;> exact ⟨_, rfl⟩

end Sys2Proof.Machine
end

