-- ==== Sys2Proof/Certificates/Slice0/Obligations.lean ====
section
/-!
DEFINITION. The statements about this model, for the provers. A command row's statement says, for every state and operands that
meet its hypotheses, which state the command answers; `s.journal = []` is what every step leaves (`StepKeepsMemoryCanonical`).
-/

namespace Sys2Proof.Machine
open Sys2Proof

/-- The command answers the state whose effect on `s` is `e`: `e` with the queue and memory settled. -/
def Gives (i : Instr) (s e : State) : Prop := exec i s = .next (s.commit e)
/-- The command answers a next state of which `P` holds. -/
def Acts (i : Instr) (s : State) (P : State → Prop) : Prop := ∃ t, exec i s = .next t ∧ P t

end Sys2Proof.Machine

open Sys2Proof Sys2Proof.Machine

/-! ### Every command, every step -/

/-- The block takes its commands first in, first out: a step with `c` at the front of the queue is `c` on the rest of it. -/
def Obligations.StepRunsTheFrontCommand : Prop :=
  ∀ (c : Instr) (rest : List Instr) (s : State), s.pending = c :: rest → step s = exec c { s with pending := rest }

/-- No command stops the part, and none touches the queue. -/
def Obligations.EveryCommandAnswersANextState : Prop :=
  ∀ (i : Instr) (s : State), Acts i s fun t => t.pending = s.pending ∧ t.journal = []

/-- What every step keeps: memory stays in canonical form with no change outstanding, so that equal contents are equal data. -/
def Obligations.StepKeepsMemoryCanonical : Prop :=
  ∀ s t : State, Memory.wf s.mem = true → s.journal = [] → step s = .next t →
    Memory.wf t.mem = true ∧ t.journal = [] ∧ t.pending = s.pending.tail

namespace Sys2Proof.Machine

/-- No operation, transaction or reason to hold ordered mode is in progress that a tick would carry on. -/
def Quiet (s : State) : Prop :=
  s.io.tlps = [] ∧ s.preOps = [] ∧ s.rdown = [] ∧ s.rf .hub .hubOrderStatus 0 2 2 = 0
/-- A context's wait as the slack measurement counts it (R398). -/
def fanWaits (s : State) : Prop :=
  s.ctxRuns (s.rf .hub .pwrFanCfg 0 59 48) = false ∧ s.ctxWaits (s.rf .hub .pwrFanCfg 0 59 48) = true

end Sys2Proof.Machine

/-- With an empty queue a step is one tick of the package timestamp (the model's choice, log 3): the hub counts a clk_time, the time in the
power state in effect and a context's wait (R38, R398, R400), a running tile domain 16 clk_tile, in N1 none (R141, R403), the management cores
take the next piece of their own work (R461), nothing else changes while nothing is under way, and a generator makes one access (R276, log 92). -/
def Obligations.EmptyQueueIsATick : Prop :=
  (∀ s : State, s.pending = [] → step s = .next (s.commit s.tick))
  ∧ (∀ s : State, Quiet s →
    let t := s.tick
    let up := s.running .hub false = true
    (up → t.now = s.now + 1) ∧ (¬ up → t.now = s.now) ∧
    (∀ n : Fin 4, aGet t.cycles 0 n.val =
      if s.running (.cd n) true = true ∧ s.pwrState ≠ 1 then aGet s.cycles 0 n.val + 16 else aGet s.cycles 0 n.val) ∧
    (s.tgRuns = [] → ∀ (d : Die) (n : RegName) (i : Nat), t.reg d n i =
      if s.running .hub false = true ∧ d = .hub ∧ n = .pwrResid ∧ i = s.pwrState then cntAdd (s.reg d n i) 1 else s.reg d n i) ∧
    (up → s.fanOn = true → (fanWaits s → t.fan = { s.fan with wait := s.fan.wait + 1 }) ∧ (¬ fanWaits s → t.fan = s.fan)) ∧
    (up → s.fanOn = false → t.fan = ⟨s.now + 1, 0, 0, 0, 0, 0, s.fan.seq⟩) ∧
    (up → s.fwRuns = true → t.mgmtWork = if 0 ∈ s.mgmtWork then s.mgmtWork.erase 0 else s.mgmtWork.drop 1) ∧
    (s.tgRuns = [] → t.mem = s.mem ∧ t.journal = s.journal ∧ t.tiles = s.tiles ∧ t.dmas = s.dmas ∧ t.burrs = s.burrs ∧ t.cmds = s.cmds ∧
      t.reqs = s.reqs ∧ t.net = s.net ∧ t.raised = s.raised ∧ t.out = s.out))
  ∧ (∀ (s : State) (r : TgRun), s.tgRuns = [r] →
    let x := s.tgAccess r []
    (s.running (.cd r.die) false = true → (r.passes = 0 ∨ r.pos + 1 < r.total) → s.tgTick = x.1.setRun x.2.1) ∧
    (¬ (s.running (.cd r.die) false = true ∧ (r.passes = 0 ∨ r.pos + 1 < r.total)) → s.tgTick = s))

/-! ### Thread instructions (Chapter 04) -/

namespace Sys2Proof.Machine

/-- The state once group `g` has issued: its lanes and uniform registers replaced, and both issue counts advanced. -/
def afterIssue (s : State) (g : GroupRef) (c : TCtx) (gr : Group) : State :=
  s.setBlock g.tileRef { c.b.setGroup g.grp { gr with issued := c.g.issued + 1 } with issued := c.b.issued + 1 }

/-- One lane of an issue: a lane that is not active stays, an active one moves to the next instruction, and `eff` relates an
executing lane to itself afterwards, its program counter apart. -/
def LanePost (c : TCtx) (eff : Nat → Lane → Lane → Prop) (i : Nat) (l l' : Lane) : Prop :=
  (i ∉ c.act → l' = l) ∧
    (i ∈ c.act → l'.pc = l.pc + 8 ∧ if i ∈ c.exe then eff i l { l' with pc := l.pc } else { l' with pc := l.pc } = l)

/-- A lane instruction: whenever `g` issues it, the answer is the state in which the group's lanes have moved on and `eff` has
happened in those that execute, and nothing else has changed. -/
def LaneRow (mk : GroupRef → Instr) (op : TOp) (eff : TCtx → Nat → Lane → Lane → Prop) : Prop :=
  ∀ (g : GroupRef) (s : State) (c : TCtx), s.issueAt g op = some c →
    ∃ ls : List Lane, Gives (mk g) s (afterIssue s g c { c.g with lanes := ls }) ∧ ls.length = c.g.lanes.length ∧
      ∀ i l, c.g.lanes[i]? = some l → ∃ l', ls[i]? = some l' ∧ LanePost c (eff c) i l l'

/-- A register of a lane after a result of `w` bits for register D: the result's parts in D, D + 1 and on, a register beyond the
declared `n` left as it was (R86, R118). -/
def regAfter (n D w x k old : Nat) : Nat :=
  if D ≤ k ∧ k < D + max 1 (w / 32) ∧ k < n then x / 2 ^ (32 * (k - D)) % 2 ^ 32 else old
/-- An executing lane writes `val` to its destination of `w` bits, and nothing else. -/
def Writes (c : TCtx) (D w : Nat) (val : Nat) (l l' : Lane) : Prop :=
  l' = { l with v := l'.v } ∧ ∀ k, l'.rv c.b.nregs k = regAfter c.b.nregs D w val k (l.rv c.b.nregs k)
/-- The destination of the R and I forms. -/
def dstOf (c : TCtx) : Nat := if wIform c.w then wID c.w else wD c.w
/-- A row whose executing lanes write a value of the instruction's type. -/
def ValueRow (r : (GroupRef → Instr) × TOp × (TCtx → Nat → Lane → Nat)) : Prop :=
  LaneRow r.1 r.2.1 fun c i l l' => Writes c (dstOf c) c.tw (r.2.2 c i l) l l'

/-- Integer rows (Table 4-8) with their results: exact on the operands' values, then wrapped or saturated to the type. -/
def integerRows : List ((GroupRef → Instr) × TOp × (TCtx → Nat → Lane → Nat)) :=
  [(Instr.mov, .mov, fun c _ l => if wIform c.w then immOf c.w else c.a l),
   (Instr.add, .add, fun c _ l => c.ity.fit c.sat (c.ity.val (c.a l) + c.ity.val (c.bOp l))),
   (Instr.sub, .sub, fun c _ l => c.ity.fit c.sat (c.ity.val (c.a l) - c.ity.val (c.bOp l))),
   (Instr.mul, .mul, fun c _ l => c.ity.fit c.sat (c.ity.val (c.a l) * c.ity.val (c.bOp l))),
   (Instr.mulhi, .mulhi, fun c _ l => unsignedBits c.ity.width (c.ity.val (c.a l) * c.ity.val (c.bOp l) / (2 ^ c.ity.width : Nat))),
   (Instr.mad, .mad, fun c _ l => c.ity.fit false (c.ity.val (c.a l) * c.ity.val (c.bOp l) + c.ity.val (c.cOp l))),
   (Instr.div, .div, fun c _ l => if c.ity.val (c.bOp l) = 0 then 2 ^ c.ity.width - 1
      else c.ity.fit c.sat (Int.tdiv (c.ity.val (c.a l)) (c.ity.val (c.bOp l)))),
   (Instr.rem, .rem, fun c _ l => if c.ity.val (c.bOp l) = 0 then c.a l % 2 ^ c.ity.width
      else c.ity.fit false (Int.tmod (c.ity.val (c.a l)) (c.ity.val (c.bOp l)))),
   (Instr.and, .and, fun c _ l => (c.a l &&& c.bOp l) % 2 ^ c.ity.width),
   (Instr.or, .or, fun c _ l => (c.a l ||| c.bOp l) % 2 ^ c.ity.width),
   (Instr.xor, .xor, fun c _ l => (c.a l ^^^ c.bOp l) % 2 ^ c.ity.width),
   (Instr.shl, .shl, fun c _ l => c.a l * 2 ^ (c.bOp l % 2 ^ 32) % 2 ^ c.ity.width),
   (Instr.shr, .shr, fun c _ l => unsignedBits c.ity.width (c.ity.val (c.a l) / (2 ^ (c.bOp l % 2 ^ 32) : Nat))),
   (Instr.minmax, .minmax, fun c _ l => unsignedBits c.ity.width
      (if c.sub = 0 then min (c.ity.val (c.a l)) (c.ity.val (c.bOp l)) else max (c.ity.val (c.a l)) (c.ity.val (c.bOp l)))),
   (Instr.bitop, .bitop, fun c _ l =>
      match c.sub with
      | 0 => iClz c.ity (c.a l)
      | 1 => popCount c.tw (c.a l)
      | 2 => bitRev c.tw (c.a l)
      | _ => c.ity.fit c.sat ((c.ity.val (c.a l)).natAbs : Nat))]

end Sys2Proof.Machine

/-- The integer instructions of Table 4-8 in every lane that executes, in every form. -/
def Obligations.IntegerInstructionResults : Prop := ∀ r ∈ integerRows, ValueRow r

namespace Sys2Proof.Machine

/-- Floating-point, logarithmic, selection and shuffle rows (Tables 4-10, 4-11, 4-16) with their results. -/
def formatRows : List ((GroupRef → Instr) × TOp × (TCtx → Nat → Lane → Nat)) :=
  [(Instr.fadd, .fadd, fun c _ l => if wType c.w = 6 then pfAdd (c.fa l) (c.fb l) else f32add (c.fa l) (c.fb l)),
   (Instr.fsub, .fsub, fun c _ l => if wType c.w = 6 then pfSub (c.fa l) (c.fb l) else f32sub (c.fa l) (c.fb l)),
   (Instr.fmul, .fmul, fun c _ l => if wType c.w = 6 then pfMul (c.fa l) (c.fb l) else f32mul (c.fa l) (c.fb l)),
   (Instr.ffma, .ffma, fun c _ l => f32fma (c.fa l) (c.fb l) (c.fc l)),
   (Instr.fminmax, .fminmax, fun c _ l => if c.sub = 0 then f32min (c.fa l) (c.fb l) else f32max2 (c.fa l) (c.fb l)),
   (Instr.fdiv, .fdiv, fun c _ l => f32div (c.fa l) (c.fb l)),
   (Instr.fun1, .fun1, fun c _ l => f32fun c.sub (c.fa l)),
   (Instr.fun2, .fun2, fun c _ l =>
      match c.sub with
      | 0 => f32exp2 (c.fa l)
      | 1 => f32log2 (c.fa l)
      | _ => f32abs (c.fa l)),
   (Instr.lmul, .lmul, fun c _ l => ln16mul (c.fa l) (c.fb l)),
   (Instr.ldiv, .ldiv, fun c _ l => ln16div (c.fa l) (c.fb l)),
   (Instr.lpow, .lpow, fun c _ l => ln16pow (c.fa l) (signed 32 (c.bOp l))),
   (Instr.lroot, .lroot, fun c _ l => ln16root (decide (c.sub = 1)) (c.fa l)),
   (Instr.ladd, .ladd, fun c _ l => if c.sub = 0 then ln16add (c.fa l) (c.fb l) else ln16sub (c.fa l) (c.fb l)),
   (Instr.lminmax, .lminmax, fun c _ l => if c.sub = 0 then ln16min (c.fa l) (c.fb l) else ln16max (c.fa l) (c.fb l)),
   (Instr.sel, .sel, fun c _ l => if l.rp (wC c.w) then c.a l else c.bOp l),
   (Instr.shfl, .shfl, fun c i _ =>
      match c.g.lanes[shflFrom (wSub c.w) c.b.width i
        (match c.g.lanes[i]? with | some l => c.opnd l (wUB c.w) (wB c.w) 32 | none => 0)]? with
      | some q => q.rvw c.b.nregs (wA c.w) c.tw
      | none => 0)]

/-- An executing lane sets predicate `d` to `v` and changes nothing else. -/
def SetsPred (d : Nat) (v : Bool) (l l' : Lane) : Prop :=
  l' = { l with p := l'.p } ∧ ∀ k, l'.rp k = if k = d then v else l.rp k

/-- Comparisons and predicate operations: destination predicate and its value (R124, R141). -/
def predicateRows : List ((GroupRef → Instr) × TOp × (TCtx → Lane → Nat × Bool)) :=
  [(Instr.setp, .setp, fun c l =>
      let t := wType c.w
      let m := if t = 5 then 2 ^ 16 else 2 ^ c.tw
      if wb c.w 56 then (wf c.w 42 40, setpCond t (wf c.w 47 44) (l.rvw c.b.nregs (wIA c.w) c.tw % m) (immOf c.w % m))
      else (wD c.w, setpComb (wf c.w 43 42)
        (setpCond t (wf c.w 47 44) (c.opnd l (wUA c.w) (wA c.w) c.tw % m) (c.opnd l (wUB c.w) (wB c.w) c.tw % m)) (l.rp (wC c.w)))),
   (Instr.plop, .plop, fun c l => (wD c.w, plopVal (wSub c.w) (l.rp (wA c.w) != wNA c.w) (l.rp (wB c.w) != wNB c.w)))]

/-- An executing lane's generator becomes `gen`, and a value of `w` bits goes to register D. -/
def Draws (c : TCtx) (D w : Nat) (val : Nat) (gen : W64) (l l' : Lane) : Prop :=
  l' = { l with v := l'.v, gen := gen } ∧ ∀ k, l'.rv c.b.nregs k = regAfter c.b.nregs D w val k (l.rv c.b.nregs k)

/-- RND by kind (R141): the draws it makes and what it writes; kind 6 loads the generator, kind 7 reads it. -/
def RndPost (c : TCtx) (l l' : Lane) : Prop :=
  let D := wD c.w
  let d16 := genDraw 16 l.gen
  let d32 := genDraw 32 l.gen
  let e32 := genDraw 32 d32.2
  match wf c.w 50 48 with
  | 0 => Draws c D 32 d32.1 d32.2 l l'
  | 1 => Draws c D 64 (genDraw 64 l.gen).1 (genDraw 64 l.gen).2 l l'
  | 2 => Draws c D 32 (rndUniform d32.1) d32.2 l l'
  | 3 => Draws c D 64 ((rndNormalBM d32.1 e32.1).1 + (rndNormalBM d32.1 e32.1).2 * 2 ^ 32) e32.2 l l'
  | 4 => Draws c D 32 (rndNormalIcdf d32.1) d32.2 l l'
  | 5 => SetsPred D (decide (d16.1 < c.opnd l (wUB c.w) (wB c.w) 32 % 2 ^ 16)) { l with gen := d16.2 } l'
  | 6 => l' = { l with gen := genLoad (BitVec.ofNat 64 (l.rvw c.b.nregs (wA c.w) 64)) }
  | _ => Writes c D 64 l.gen.toNat l l'

/-- CVT (R130): the conversion from the source format to the destination format under the rounding mode, which draws 16 bits
where it rounds stochastically and the conversion needs a draw (R73). -/
def CvtPost (c : TCtx) (l l' : Lane) : Prop :=
  let sf := Format.ofId (wf c.w 46 43)
  let df := Format.ofId (wf c.w 50 47)
  let x := c.opnd l (wUA c.w) (wA c.w) (cvtBits (wf c.w 46 43)) % 2 ^ sf.bits
  let w := cvtBits (wf c.w 50 47)
  if wf c.w 42 41 = 2 then
    if cvtDrawsLog sf df x 0 0 then
      Draws c (wD c.w) w (convert sf df (.sr (genDraw 16 l.gen).1) x 0 0) (genDraw 16 l.gen).2 l l'
    else Writes c (wD c.w) w (convert sf df (.sr 0) x 0 0) l l'
  else Writes c (wD c.w) w (convert sf df (if wf c.w 42 41 = 1 then .rtz else .rne) x 0 0) l l'

/-- The group's lanes once every active one has moved to the next instruction. -/
def movedOn (c : TCtx) : Group := { c.g with lanes := c.lanes fun _ l => l }
/-- An instruction that the group executes once: uniform register D takes a value. -/
def UniformRow (mk : GroupRef → Instr) (op : TOp) (D : TCtx → Nat) (val : TCtx → Nat) : Prop :=
  ∀ (g : GroupRef) (s : State) (c : TCtx), s.issueAt g op = some c →
    Gives (mk g) s (afterIssue s g c ((movedOn c).wu (D c) (val c)))

/-- Uniform rows (R144). -/
def uniformRows : List ((GroupRef → Instr) × TOp × (TCtx → Nat)) :=
  [(Instr.umov, .umov, fun c => if wb c.w 56 then immOf c.w else c.uaOp),
   (Instr.uadd, .uadd, fun c => c.ity.fit false (c.ity.val c.uaOp + c.ity.val c.ubOp)),
   (Instr.usub, .usub, fun c => c.ity.fit false (c.ity.val c.uaOp - c.ity.val c.ubOp)),
   (Instr.umul, .umul, fun c => c.ity.fit false (c.ity.val c.uaOp * c.ity.val c.ubOp)),
   (Instr.uand, .uand, fun c => (c.uaOp &&& c.ubOp) % 2 ^ c.ity.width),
   (Instr.uor, .uor, fun c => (c.uaOp ||| c.ubOp) % 2 ^ c.ity.width),
   (Instr.ushl, .ushl, fun c => c.uaOp * 2 ^ (c.ubOp % 2 ^ 32) % 2 ^ c.ity.width),
   (Instr.ushr, .ushr, fun c => unsignedBits c.ity.width (c.ity.val c.uaOp / (2 ^ (c.ubOp % 2 ^ 32) : Nat)))]

/-- A control-flow instruction that issues: executing lanes go where `f` says, other active lanes to the next instruction. -/
def FlowRow (mk : GroupRef → Instr) (op : TOp) (f : TCtx → Lane → Lane → Prop) (last : GroupRef → State → State) : Prop :=
  ∀ (g : GroupRef) (s : State) (c : TCtx), s.issueAt g op = some c →
    ∃ ls : List Lane, Gives (mk g) s (last g (afterIssue s g c { c.g with lanes := ls })) ∧ ls.length = c.g.lanes.length ∧
      ∀ i l, c.g.lanes[i]? = some l → ∃ l', ls[i]? = some l' ∧
        (i ∈ c.exe → f c l l') ∧ (i ∉ c.exe → i ∈ c.act → l' = { l with pc := l.pc + 8 }) ∧ (i ∉ c.exe → i ∉ c.act → l' = l)

/-- Tile memory as a lane sees it of a memory instruction that has just issued. -/
def newOp (s : State) (g : GroupRef) (c : TCtx) (op : TOp) (lanes : List MLane) : MOp :=
  ⟨(s.tile g.tileRef).nextOp, g.bid, g.grp, c.b.issued, c.g.issued, op, c.w, c.pc, maskOf c.act, lanes⟩
/-- The state once a memory instruction has issued with its lanes `ls`: the group has moved on, and the tile holds the
instruction with its lanes. -/
def memIssued (s : State) (g : GroupRef) (c : TCtx) (op : TOp) (ls : List MLane) : State :=
  let s1 := afterIssue s g c (movedOn c)
  let x := s1.tile g.tileRef
  s1.setTile g.tileRef { x with ops := x.ops ++ [newOp s1 g c op ls], nextOp := x.nextOp + 1 }

/-- A memory instruction: its lanes go out in ascending order to translation and memory (`pump`), each with its own address and data,
but for a misaligned one, which is answered PERM (R95, R99, R133); a misaligned address that is not canonical is logged besides. -/
def GlobalRow (mk : GroupRef → Instr) (op : TOp) : Prop :=
  ∀ (g : GroupRef) (s : State) (c : TCtx), s.issueAt g op = some c → isLoc op c.w = false → opLanes c op ≠ [] →
    (∀ l ∈ opLanes c op, l.addr % opBytes op c.w = 0 ∨ canonical l.addr = true) →
    Gives (mk g) s ((memIssued s g c op ((opLanes c op).map fun l =>
      if l.addr % opBytes op c.w = 0 then l else { l with st := .done .perm 0 })).pump g.tileRef)

/-- A local instruction: its lanes are performed at once in ascending order on the block's local memory, and a lane that is
misaligned or reaches beyond the block's SIZE is answered PERM (R94-R96, R107). -/
def LocalRow (mk : GroupRef → Instr) (op : TOp) : Prop :=
  ∀ (g : GroupRef) (s : State) (c : TCtx), s.issueAt g op = some c → isLoc op c.w = true → opLanes c op ≠ [] →
    Gives (mk g) s
      (let s1 := afterIssue s g c (movedOn c)
       let b1 := { c.b.setGroup g.grp { movedOn c with issued := c.g.issued + 1 } with issued := c.b.issued + 1 }
       let r := localLanes op c.w (opLanes c op) b1
       let x := (s1.tile g.tileRef).setBlock r.2
       s1.setTile g.tileRef { x with ops := x.ops ++ [newOp s1 g c op r.1], nextOp := x.nextOp + 1 })

/-- The atomics of Table 4-13. -/
def atomicRows : List ((GroupRef → Instr) × TOp) :=
  [(Instr.aadd, .aadd), (Instr.aadds, .aadds), (Instr.amin, .amin), (Instr.amax, .amax), (Instr.aand, .aand), (Instr.aor, .aor),
   (Instr.axor, .axor), (Instr.axchg, .axchg), (Instr.acas, .acas)]

/-- Every lane of an operation has its answer. -/
def MOp.answered (o : MOp) : Prop := ∀ l ∈ o.lanes, ∃ st v, l.st = .done st v
/-- The rows of this chapter that compute on registers, lane by lane or once for the group. -/
def registerOnlyRows : List (GroupRef → Instr) :=
  integerRows.map (fun r => r.1) ++ formatRows.map (fun r => r.1) ++ predicateRows.map (fun r => r.1) ++ uniformRows.map (fun r => r.1)
    ++ [Instr.cvt, Instr.rnd, Instr.time, Instr.vote, Instr.rdlane, Instr.rdk, Instr.nop, Instr.bra, Instr.jmp, Instr.call, Instr.exit,
        Instr.bar, Instr.waitk]

end Sys2Proof.Machine

/-- Floating-point (Table 4-10), logarithmic (Table 4-11), SEL and SHFL in every lane that executes. -/
def Obligations.FormatInstructionResults : Prop := ∀ r ∈ formatRows, ValueRow r

/-- SETP, PLOP, CVT, RND, RDK and NOP in every lane that executes. -/
def Obligations.PredicateConvertAndRandomResults : Prop :=
  (∀ r ∈ predicateRows, LaneRow r.1 r.2.1 fun c _ l l' => SetsPred (r.2.2 c l).1 (r.2.2 c l).2 l l')
  ∧ LaneRow Instr.cvt .cvt (fun c _ l l' => CvtPost c l l')
  ∧ LaneRow Instr.rnd .rnd (fun c _ l l' => RndPost c l l')
  ∧ LaneRow Instr.rdk .rdk (fun c _ l l' => Writes c (wD c.w) 32 (c.b.k[wf c.w 50 48]?.getD 0).toNat l l')
  ∧ LaneRow Instr.nop .nop (fun _ _ l l' => l' = l)

/-- The uniform instructions, RDLANE, VOTE, TIME and WAITK. -/
def Obligations.GroupInstructionResults : Prop :=
  (∀ r ∈ uniformRows, UniformRow r.1 r.2.1 (fun c => wf c.w 47 42) (fun c => r.2.2 c % 2 ^ c.tw))
  ∧ (∀ (g : GroupRef) (s : State) (c : TCtx), s.issueAt g .rdlane = some c → c.exe ≠ [] →
      Gives (.rdlane g) s (afterIssue s g c ((movedOn c).wu (wD c.w)
        (match c.g.lanes[wC c.w % c.b.width]? with | some q => q.rvw c.b.nregs (wA c.w) c.tw | none => 0))))
  ∧ (∀ (g : GroupRef) (s : State) (c : TCtx), s.issueAt g .vote = some c → c.exe ≠ [] → wSub c.w = 0 →
      ∃ m : Nat, Gives (.vote g) s (afterIssue s g c ((movedOn c).wu (wD c.w) m)) ∧
        ∀ i, m.testBit i = true ↔ i ∈ c.exe ∧ ∃ l, c.g.lanes[i]? = some l ∧ l.rp (wA c.w) = true)
  ∧ (∀ (g : GroupRef) (s : State) (c : TCtx), s.issueAt g .vote = some c → wSub c.w ≠ 0 →
      ∃ ls : List Lane, Gives (.vote g) s (afterIssue s g c { c.g with lanes := ls }) ∧
        ∀ i l, c.g.lanes[i]? = some l → ∃ l' r, ls[i]? = some l' ∧ LanePost c (fun _ l l' => SetsPred (wD c.w) r l l') i l l' ∧
          (r = true ↔ if wSub c.w = 1 then ∃ j ∈ c.exe, ∃ q, c.g.lanes[j]? = some q ∧ q.rp (wA c.w) = true
            else ∀ j ∈ c.exe, ∃ q, c.g.lanes[j]? = some q ∧ q.rp (wA c.w) = true))
  ∧ (∀ (g : GroupRef) (s : State) (c : TCtx), s.issueAt g .time = some c →
      let v := if wf c.w 50 48 = 0 then s.now.toNat else (aGet s.cycles 0 g.die.val).toNat
      if wb c.w 47 then Gives (.time g) s (afterIssue s g c ((movedOn c).wu (wD c.w) v))
      else ∃ ls : List Lane, Gives (.time g) s (afterIssue s g c { c.g with lanes := ls }) ∧
        ∀ i l, c.g.lanes[i]? = some l → ∃ l', ls[i]? = some l' ∧ LanePost c (fun _ l l' => Writes c (wD c.w) 64 v l l') i l l')
  ∧ (∀ (g : GroupRef) (s : State) (c : TCtx), s.issueAt g .waitk = some c →
      let v : Nat := if wb c.w 47 then (c.g.ru (wA c.w)).toNat else wf c.w 23 8
      Gives (.waitk g) s
        (if 0 ≤ ((c.b.k[wf c.w 50 48]?.getD 0) - BitVec.ofNat 32 v).toInt then afterIssue s g c (movedOn c) else s))

/-- BRA, JMP, CALL, EXIT and BAR (R91, R92, R136). -/
def Obligations.ControlFlowResults : Prop :=
  FlowRow Instr.bra .bra (fun c l l' => l' = { l with pc := c.pc + wBoff c.w }) (fun _ s => s)
  ∧ FlowRow Instr.jmp .jmp (fun c l l' => l' = { l with pc := BitVec.ofNat 64 (c.opnd l (wb c.w 48) (wD c.w) 64) }) (fun _ s => s)
  ∧ FlowRow Instr.call .call (fun c l l' => l'.pc = c.pc + wBoff c.w
      ∧ Writes c (wD c.w) 64 (c.pc + 8).toNat l { l' with pc := l.pc }) (fun _ s => s)
  ∧ FlowRow Instr.exit .exit (fun _ l l' => l' = { l with exited := true }) (fun g s => s.openBarrier g.tileRef g.bid)
  ∧ (∀ (g : GroupRef) (s : State) (c : TCtx), s.issueAt g .bar = some c →
      ∃ ls : List Lane,
        Gives (.bar g) s ((afterIssue s g c { c.g with arrived := c.g.arrived + 1, lanes := ls }).openBarrier g.tileRef g.bid) ∧
        ∀ i l, c.g.lanes[i]? = some l →
          ls[i]? = some (if i ∈ c.act then { l with pc := l.pc + 8, atBar := c.g.arrived + 1 } else l))

/-- The block barrier opens exactly when every group that has not ended has arrived, and an opening takes one arrival from each
such group and from its lanes; while an access of the block is not performed at block scope it does not open (R92). -/
def Obligations.BarrierOpensWhenAllHaveArrived : Prop :=
  (∀ (t : TileRef) (bid : Nat) (s : State), (∃ m ∈ (s.tile t).opsOf bid, m.settled = false) → s.openBarrier t bid = s) ∧
  ∀ b : Block, ((b.openOnce).isSome = true ↔
      (∃ g ∈ b.groups, g.ended = false) ∧ ∀ g ∈ b.groups, g.ended = false → 0 < g.arrived) ∧
    ∀ b', b.openOnce = some b' → b'.groups.length = b.groups.length ∧
      ∀ (i : Nat) (g : Group), b.groups[i]? = some g → ∃ g' : Group, b'.groups[i]? = some g' ∧
        if g.ended = true then g' = g
        else g'.arrived + 1 = g.arrived ∧ g'.u = g.u ∧ ∀ (j : Nat) (l : Lane), g.lanes[j]? = some l → g'.lanes[j]? = some { l with atBar := l.atBar - 1 }

/-- A register-only instruction changes its own block of its own tile and nothing else: no other tile, no register of the
part, no byte of memory. -/
def Obligations.RegisterInstructionsFrame : Prop :=
  ∀ mk ∈ registerOnlyRows, ∀ (g : GroupRef) (s : State), s.journal = [] →
    Acts (mk g) s fun t => t = { s with tiles := t.tiles } ∧
      (∀ u, u ≠ g.tileRef → t.tile u = s.tile u) ∧
      ∀ b, b ≠ g.bid → (t.tile g.tileRef).block? b = (s.tile g.tileRef).block? b

/-! ### Fetch, tile memory and blocks (Chapters 03 and 04) -/

namespace Sys2Proof.Machine

/-- A lane's answer from a line that has arrived: the bytes of its access, or POIS where they touch a poisoned half. -/
def lineAnswer (l : CLine) (o : MOp) (m : MLane) : LState :=
  let n := opBytes o.op o.word
  if touchesPois l.pois (m.pa % 128) n then .done .pois 0 else .done .ok (lineNat l.data (m.pa % 128) n)
/-- Whether a lane waits for a line of the L1 miss. -/
def waitsFor (line : Nat) (o : MOp) (m : MLane) : Bool :=
  decide (m.st = .wait) && decide (m.pa / 128 = line) && !isStore o.op && !isAtomic o.op
/-- A tile's operations in progress with some lanes answered. -/
def answerLanes (x : Tile) (p : MOp → MLane → Bool) (a : MOp → MLane → LState) : List MOp :=
  x.ops.map fun o => { o with lanes := o.lanes.map fun m => if p o m then { m with st := a o m } else m }

end Sys2Proof.Machine

/-- INSTRUCTION_FETCH: the line of the group's next instruction, or a line ahead of it, is taken from the cluster L2 into the
instruction cache; a fetch that fails halts the block only where a lane has reached the instruction (R113, R115, R137). An undefined encoding at
the front of a group of a running block halts the block with PERM and the word as address, ACCESS 7 (R116), and the halt is told
once the block's issued work has completed (R111). -/
def Obligations.FetchAndUndefinedEncoding : Prop :=
  (∀ (g : GroupRef) (s : State) (c : TCtx), s.frontOf g = some c → tdecode c.w = none → c.b.halt = none →
    Gives (.undefinedEncoding g) s ((s.setBlock g.tileRef { c.b with
      st := .halted, halt := some ⟨c.b.issued, .perm, 7, g.grp, maskOf c.act, c.pc, c.w, 0, false⟩ }).haltTell g.tileRef g.bid))
  ∧   (∀ (g : GroupRef) (ahead : Nat) (s s1 : State) (b : Block) (gr : Group) (pc : W64) (pa il : Nat) (l : CLine),
    s.fetchAt g = some (b, gr, pc) → pc.toNat % 8 = 0 → (ahead = 0 → (s.tile g.tileRef).iline b.ctx pc = none) →
    s.xlate (.tile g.tileRef) b.ctx b.pl 3 ((pc.toNat / 128 * 128 + 128 * ahead) % 2 ^ 64) = .ok (.ok pa il, s1) →
    s1.region pa ≠ .control → s1.region pa ≠ .pcie → s1.line (tileAgent g.tileRef) (pa / 128) = some l →
    Gives (.instructionFetch g ahead .ok) s ((s1.touchLine (tileAgent g.tileRef) (pa / 128) false).setTile g.tileRef
      ((s1.tile g.tileRef).icPut ⟨b.ctx, (pc.toNat / 128 * 128 + 128 * ahead) % 2 ^ 64 / 128, l.data, l.pois⟩)))
  ∧ (∀ (g : GroupRef) (ahead : Nat) (st : Status) (s : State) (b : Block) (gr : Group) (pc : W64),
    s.fetchAt g = some (b, gr, pc) → pc.toNat % 8 = 0 → (s.tile g.tileRef).iline b.ctx pc = none → st ≠ .ok → st ≠ .xlat →
    Gives (.instructionFetch g ahead st) s (if ahead = 0 then s.haltFront g b gr pc st 6 pc else s))
  ∧ (∀ (g : GroupRef) (st : Status) (s : State) (b : Block) (gr : Group) (pc : W64),
    s.fetchAt g = some (b, gr, pc) → pc.toNat % 8 ≠ 0 → Gives (.instructionFetch g 0 st) s (s.haltFront g b gr pc .perm 6 pc))

/-- Memory instructions of threads: the global ones go out lane by lane, the local ones are performed at once. FENCE stands among its group's outstanding instructions and keeps back the younger accesses that its form orders; it ends once
the older accesses are performed as its form and scope ask (R104), and an acquire at device or system scope that ends empties the L1
(R286). -/
def Obligations.ThreadMemoryInstructions : Prop :=
  (GlobalRow Instr.ldg .ldg ∧ GlobalRow Instr.stg .stg ∧ GlobalRow Instr.ldu .ldu ∧ GlobalRow Instr.prf .prf
  ∧ LocalRow Instr.ldl .ldl ∧ LocalRow Instr.stl .stl
  ∧ ∀ r ∈ atomicRows, GlobalRow r.1 r.2 ∧ LocalRow r.1 r.2)
  ∧ ((∀ (g : GroupRef) (s : State) (c : TCtx), s.issueAt g .fence = some c →
    Gives (.fence g) s ((memIssued s g c .fence []).pump g.tileRef))
  ∧ (∀ (g : GroupRef) (op : TOp) (s : State) (c : TCtx), s.issueAt g op = some c →
    ∀ m ∈ (s.tile g.tileRef).groupOps g.bid g.grp, m.op = .fence → fenceBars m.word op = false)
  ∧ (∀ (x : Tile) (f : MOp),
    let acq := wf f.word 50 49 ≠ 1
    let rel := wf f.word 50 49 ≠ 0
    let wide := 2 ≤ wf f.word 48 47
    let old (m : MOp) : Prop := m ∈ x.groupOps f.bid f.grp ∧ m.seq < f.seq
    x.fenceMet f = true ↔ (∀ m, old m → isStore m.op = true ∨ m.answered) ∧ (rel → ∀ m, old m → m.settled = true)
      ∧ (wide → rel → x.wb = [])
      ∧ (wide → acq → (∀ m ∈ x.fills, f.oid < m.oid) ∧ ∀ m ∈ x.ops, f.oid ≤ m.oid ∨ ∀ l ∈ m.lanes, l.st ≠ .stall))
  ∧ (∀ x : Tile,
    let ends (o : MOp) : Prop := o ∈ x.ops ∧ o.op = .fence ∧ x.fenceMet o = true
    let empties := ∃ o, ends o ∧ wf o.word 50 49 ≠ 1 ∧ 2 ≤ wf o.word 48 47
    (∀ o, o ∈ x.endFences.ops ↔ o ∈ x.ops ∧ ¬ ends o) ∧ (empties → x.endFences.l1 = []) ∧
      (¬ empties → x.endFences = { x with ops := x.endFences.ops })))

/-- A load or atomic that completes writes the destination of each lane that received OK, extended for its size, and of no other
lane (R109, R110, R132). -/
def Obligations.LoadsWriteOnlyLanesThatReceivedOk : Prop :=
  ∀ (b : Block) (o : MOp) (g : Group), b.group? o.grp = some g → (o.lanes.map fun l => l.lane).Nodup →
    o.op = .ldg ∨ o.op = .ldl ∨ isAtomic o.op = true →
    let W := if isAtomic o.op then atBits (wSZ o.word) else szBits (wSZ o.word)
    let val (v : Nat) : Nat := if isAtomic o.op then v else extend (wSZ o.word) v
    ∃ g' : Group, (loadBack b o).group? o.grp = some g' ∧ g'.lanes.length = g.lanes.length ∧ g'.u = g.u ∧
      ∀ (i : Nat) (ln : Lane), g.lanes[i]? = some ln → ∃ ln', g'.lanes[i]? = some ln' ∧
        ((∃ l v, l ∈ o.lanes ∧ l.lane = i ∧ l.st = .done .ok v ∧ ln' = { ln with v := ln'.v } ∧
            ∀ k, ln'.rv b.nregs k = regAfter b.nregs (wMD o.word) W (val v) k (ln.rv b.nregs k)) ∨
         ((∀ l ∈ o.lanes, l.lane = i → ∀ v, l.st ≠ .done .ok v) ∧ ln' = ln))

/-- An instruction whose lanes are all answered completes at MEMORY_RESPONSE (R109). L1_FILL: every lane that waits for the line is answered from it, and the line is installed where the miss asked for it and no half is
poisoned; a fill that fails answers the lanes with its status. The lanes that a miss had stalled look up again first (R99, R100, R291). The write buffer sends at most 4 unacknowledged entries, oldest first, and an acknowledged entry's bytes are in its line at
the cluster L2, which owns it modified; a store of part of a poisoned half is answered POIS and not made (R287, R290, R291). WALK_READ_RETURN: a walk that goes on remembers its next table; one that ends with a translation leaves the list of walks, and
the die's tiles try their waiting lanes again (R318, R320). -/
def Obligations.TileMemoryCompletions : Prop :=
  (∀ (t : TileRef) (oid : Nat) (st : Status) (s : State) (o : MOp),
    let s1 := if st = .xlat then s else (s.pump t).atomicsGo t oid st
    s1.op? t oid = some o → o.op ≠ .fence → o.answered → Gives (.memoryResponse t oid st) s ((s1.completeOp t o).pump t))
  ∧ ((∀ (t : TileRef) (s : State) (f : Fill) (r : List Fill) (l : CLine),
    (s.tile t).fills = f :: r → s.line (tileAgent t) f.line = some l →
    ∃ l1 trees, Gives (.l1Fill t .ok) s ((((s.touchLine (tileAgent t) f.line f.strm).setTile t
        { s.tile t with fills := r, ops := answerLanes (s.tile t) (waitsFor f.line) (lineAnswer l), l1 := l1, trees := trees }).unstall t).pump t) ∧
      (f.install = true → l.pois = 0 → ∃ e ∈ l1, e.line = f.line ∧ e.data = (s.tile t).withStores f.line l.data) ∧
      (f.install = false ∨ l.pois ≠ 0 → l1 = (s.tile t).l1))
  ∧ (∀ (t : TileRef) (s : State) (f : Fill) (r : List Fill) (st : Status),
    (s.tile t).fills = f :: r → st ≠ .ok → st ≠ .xlat →
    Gives (.l1Fill t st) s (((s.setTile t
      { s.tile t with fills := r, ops := answerLanes (s.tile t) (waitsFor f.line) fun _ _ => .done st 0 }).unstall t).pump t)))
  ∧ ((∀ (t : TileRef) (s : State) (a b : List WbEnt) (e : WbEnt), (s.tile t).wb = a ++ e :: b → (∀ x ∈ a, x.sent = true) →
    e.sent = false → a.length + (b.filter fun x => x.sent).length < 4 →
    Gives (.writeBufferDrain t) s (s.setTile t { s.tile t with wb := a ++ { e with sent := true } :: b }))
  ∧ (∀ (t : TileRef) (s : State), 4 ≤ ((s.tile t).wb.filter fun e => e.sent).length → Gives (.writeBufferDrain t) s s)
  ∧ (∀ (t : TileRef) (s : State) (e : WbEnt) (r : List WbEnt) (l : CLine), (s.tile t).wb = e :: r → e.sent = true → e.il ≠ 3 →
    s.line (tileAgent t) e.line = some l → 2 ≤ l.st →
    Gives (.writeBufferAck t .ok) s
      (let ops := answerLanes (s.tile t) (fun o m => e.who.contains (o.oid, m.lane))
        fun _ m => .done (if halfRefused l e (m.pa % 128 / 64) then .pois else .ok) 0
       (((s.setLine (tileAgent t) e.line { (l.put e.mask e.data).1 with st := 3 }).touchLine (tileAgent t) e.line e.strm).setTile t
        { s.tile t with wb := r, ops := ops }).pump t)))
  ∧ ((∀ (t : TileRef) (va : Nat) (s s1 : State) (w : Walk) (lv tb : Nat),
    let mine (w : Walk) : Bool := decide (w.who = .tile t) && decide (w.va / 2 ^ 16 = va / 2 ^ 16)
    s.walks.find? mine = some w → s.walkStep (.tile t) w.ctx w.pl w.typ w.va w.level w.table = .ok (.down lv tb, s1) →
    Gives (.walkReadReturn t va .ok) s { s1 with walks := lUpd mine (fun v => { v with level := lv, table := tb }) s1.walks })
  ∧ (∀ (t : TileRef) (va : Nat) (s s1 : State) (w : Walk) (pa il : Nat),
    let mine (w : Walk) : Bool := decide (w.who = .tile t) && decide (w.va / 2 ^ 16 = va / 2 ^ 16)
    s.walks.find? mine = some w → s.walkStep (.tile t) w.ctx w.pl w.typ w.va w.level w.table = .ok (.isOver (.ok pa il), s1) →
    Gives (.walkReadReturn t va .ok) s
      ((s1.tiles.filter fun e => decide (e.1.die = t.die)).foldl (fun s e => s.pump e.1) { s1 with walks := lDrop mine s1.walks })))

/-- BLOCK_PLACE puts the launch's block on a tile where it fits, beside the blocks already there, and empties the instruction
cache (R82, R88, R94, R114); a tile whose reset has closed its Weir refuses it with UNAV (R428; the status is the model's choice, log 127); the block starts as Table 3-3 says. BLOCK_END frees a block whose groups have all ended and
whose stores have drained (R91). -/
def Obligations.BlockPlaceAndBlockEnd : Prop :=
  (∀ (t : TileRef) (seq : Nat) (s : State) (l : Launch),
    s.launches.find? (fun l => decide (l.die = t.die) && decide (l.seq = seq) && l.todo.contains (s.localIndex t)) = some l →
    s.running (.cd t.die) true = true → s.inN0 = true → s.tileShut t = false → fitsWith (s.tile t).blocks l.word = true →
    s.rf (.cd t.die) .cqCfg l.queue 23 21 ≠ 3 → s.preempted.contains (t.die.val, l.ctx) = false → (l.todo.filter fun k => decide (k ≠ s.localIndex t)) ≠ [] →
    Acts (.blockPlace t seq) s fun u =>
      u.tile t = { s.tile t with blocks := (s.tile t).blocks ++ [newBlock l (s.tileIndex t) (s.tile t).slots], icache := [] }
      ∧ (∀ v, v ≠ t → u.tile v = s.tile v)
      ∧ u.launches = s.launches.map (fun y => if y.die = l.die ∧ y.seq = l.seq then
          { y with todo := l.todo.filter fun k => decide (k ≠ s.localIndex t), live := y.live ++ [(t.die.val, t.tile)] } else y))
  ∧ (∀ (t : TileRef) (seq : Nat) (s : State) (l : Launch),
    s.launches.find? (fun l => decide (l.die = t.die) && decide (l.seq = seq) && l.todo.contains (s.localIndex t)) = some l →
    s.running (.cd t.die) true = true → s.inN0 = true → s.tileShut t = true →
    s.rf (.cd t.die) .cqCfg l.queue 23 21 ≠ 3 → s.preempted.contains (t.die.val, l.ctx) = false → (l.todo.filter fun k => decide (k ≠ s.localIndex t)) ≠ [] →
    Gives (.blockPlace t seq) s { s with launches := s.launches.map fun y => if y.die = l.die ∧ y.seq = l.seq then
      { y with todo := l.todo.filter fun k => decide (k ≠ s.localIndex t), st := Status.first y.st .unav } else y })
  ∧ (∀ (b : BlockRef) (s : State) (k : Block), (s.tile b.tileRef).block? b.bid = some k → k.st = .running →
    (∀ g ∈ k.groups, g.ended = true) → (s.tile b.tileRef).opsOf b.bid = [] → (s.tile b.tileRef).wb = [] →
    (∀ d ∈ (s.tile b.tileRef).mx ++ (s.tile b.tileRef).vx, d.bid ≠ b.bid) →
    Gives (.blockEnd b) s ((s.setTile b.tileRef ((s.tile b.tileRef).dropBlock b.bid)).launchEnd b.tileRef b.bid .ok))

/-- A new block's groups, lanes and registers (R88, Table 3-3): u0 the argument, u2 the local-memory size, v0 the thread's number
in the block and every program counter the entry point. -/
def Obligations.NewBlockRegisters : Prop :=
  ∀ (l : Launch) (tile : Nat) (slots : List (Nat × Nat)) (j i : Nat) (gr : Group) (ln : Lane),
    let b := newBlock l tile slots
    b.groups.length = lwGroups l.word ∧ b.st = .running ∧ b.k = List.replicate 8 0 ∧
    (b.groups[j]? = some gr → gr.lanes.length = lwWidth l.word ∧ gr.ru 0 = l.ops[1]?.getD 0
      ∧ gr.ru 2 = BitVec.ofNat 64 (fld l.word 31 25 * 16384)
      ∧ (gr.lanes[i]? = some ln → ln.pc = l.ops[0]?.getD 0 ∧ ln.exited = false ∧ ln.p = 0
        ∧ (0 < lwRegs l.word → ln.rv (lwRegs l.word) 0 = (j * lwWidth l.word + i) % 2 ^ 32)
        ∧ ∀ k, 0 < k → ln.rv (lwRegs l.word) k = 0))

/-! ### Millstone and vector engine (Chapters 05 and 06) -/

namespace Sys2Proof.Machine

/-- A descriptor that the Millstone may work on: the oldest unfinished one, of a block of the tile, of an operation code, that begins
under Table 5-4 and passes the checks of R154. -/
def MxReady (s : State) (t : TileRef) (opc : Nat) (d : Desc) (b : Block) : Prop :=
  mxFront (s.tile t) (s.tile t).mx = some d ∧ (s.tile t).block? d.bid = some b ∧ s.running (.cd t.die) true = true ∧
    mxOpc d.words = opc ∧ (s.tile t).mxReady d = true ∧ (d.checked = true ∨ s.mxCheck t.die b d.words = true)
/-- The Millstone's tile with the block `b'` and the front descriptor as `d'`. -/
def mxAfter (s : State) (t : TileRef) (b' : Block) (d' : Desc) : State :=
  s.setTile t { (s.tile t).setBlock b' with mx := putDesc (s.tile t).mx d' }
/-- A descriptor that the vector engine may work on (R180). -/
def VxReady (s : State) (t : TileRef) (opc : Nat) (d : Desc) (b : Block) : Prop :=
  mxFront (s.tile t) (s.tile t).vx = some d ∧ (s.tile t).block? d.bid = some b ∧ s.running (.cd t.die) true = true ∧
    vxOpc d.words = opc ∧ (d.checked = true ∨ s.vxCheck t.die b d.words = true)
/-- The vector engine's tile with the block `b'` and the front descriptor as `d'`. -/
def vxAfter (s : State) (t : TileRef) (b' : Block) (d' : Desc) : State :=
  s.setTile t { (s.tile t).setBlock b' with vx := putDesc (s.tile t).vx d' }

/-- The broadcast vector of a descriptor: read before the first row pair, and kept from then on (R182). -/
def vxVecOf (b : Block) (d : Desc) : List Nat := if d.prog = 0 then vxVector b d.words else d.vec
/-- Row pairs of a region, and a descriptor that has done `n` more of them. -/
def vxTotal (d : Nat) : Nat := (vxM d + 1) / 2
def vxDone (b : Block) (d : Desc) (n : Nat) : Desc :=
  { d with checked := true, vec := vxVecOf b d, prog := d.prog + min n (vxTotal d.words - d.prog), fin :=
      if d.prog + min n (vxTotal d.words - d.prog) = vxTotal d.words then some .ok else none }
/-- Whether row `m` is one of the next `n` row pairs. -/
def vxNow (d : Desc) (n m : Nat) : Bool :=
  decide (m < vxM d.words) && decide (2 * d.prog ≤ m) && decide (m < 2 * (d.prog + min n (vxTotal d.words - d.prog)))

/-- An element-wise row: each written element of the rows that the step covers takes `f` of its operands as they were before the
step, in the result type, and no other element of any buffer changes (R178, R182, R183). -/
def VxMapRow (mk : TileRef → Nat → Instr) (opc : Nat) (f : Nat → Nat → Nat → Nat → Nat) : Prop :=
  ∀ (t : TileRef) (n : Nat) (s : State) (d : Desc) (b : Block), VxReady s t opc d b → (opc = 0x07 → vxSub d.words = 0) →
    ∃ b' : Block, Gives (mk t n) s (vxAfter s t b' (vxDone b d n)) ∧ b' = { b with bufs := b'.bufs } ∧
      ∀ x m j, j < 64 →
        let w := d.words
        let ty := vxT w
        let rt := if opc = 0x18 then .u32 else ty
        let v := f w (b.vrd ty (vxXa w) m j) (vxB b w (vxVecOf b d) m j) (if opc = 0x19 then b.bufAt (vxXc w) m j else b.vrd ty (vxXc w) m j)
        b'.bufAt x m j =
          if (vxNow d n m && decide (j < vxN w) && vxWritten b w m j) = false then b.bufAt x m j
          else if rt = .pf64 then
            (if x = vxXd w + 1 then pfLo v % 2 ^ 32 else if x = vxXd w then pfHi v % 2 ^ 32 else b.bufAt x m j)
          else if x = vxXd w then (if rt = .ln16 then v % 2 ^ 16 else v % 2 ^ 32)
          else b.bufAt x m j

/-- The element-wise operations of Table 6-3. -/
def vxMapRows : List ((TileRef → Nat → Instr) × Nat × (Nat → Nat → Nat → Nat → Nat)) :=
  [(Instr.vxFill, 0x06, fun _ _ b _ => b), (Instr.vxCopy, 0x07, fun _ a _ _ => a),
   (Instr.vxAdd, 0x10, fun d a b _ => vxAdd d a b), (Instr.vxSub, 0x11, fun d a b _ => vxSubOp d a b),
   (Instr.vxMul, 0x12, fun d a b _ => vxMul d a b), (Instr.vxDiv, 0x13, fun d a b _ => vxDiv d a b),
   (Instr.vxFma, 0x14, fun _ a b c => f32fma a b c), (Instr.vxMin, 0x15, fun d a b _ => vxMin d a b),
   (Instr.vxMax, 0x16, fun d a b _ => vxMax d a b), (Instr.vxSign, 0x17, fun d a _ _ => vxSign d a),
   (Instr.vxCmp, 0x18, fun d a b _ =>
     let m := if vxT d = .ln16 then 2 ^ 16 else 2 ^ 32
     b2n (setpCond (vxTypeCode (vxT d)) (vxSub d) (a % m) (b % m))),
   (Instr.vxSel, 0x19, fun _ a b c => if c ≠ 0 then a else b), (Instr.vxBit, 0x1A, fun d a b _ => vxBit d a b),
   (Instr.vxFun, 0x20, fun d a _ _ => vxFun d a)]

/-- A row that goes pair by pair through its region with a function of its own for one row of elements. -/
def VxPairsRow (mk : TileRef → Nat → Instr) (opc : Nat) (ok : Nat → Prop) (row : Block → Nat → Nat → Block → Block) : Prop :=
  ∀ (t : TileRef) (n : Nat) (s : State) (d : Desc) (b : Block), VxReady s t opc d b → ok d.words →
    Gives (mk t n) s (vxAfter s t
      ((pairRows (vxM d.words) d.prog (min n (vxTotal d.words - d.prog))).foldl (fun a m => row b d.words m a) b) (vxDone b d n))

/-- The counter of a descriptor's block with 1 added. -/
def countUp (b : Block) (d : Desc) : Block := { b with k := b.k.set d.ctr (b.k[d.ctr]?.getD 0 + 1) }

end Sys2Proof.Machine

/-- One K-chunk of an MMA: every element of the region takes its 32 products in the fixed order from the value before the chunk,
from +0.0 in the first chunk with INIT, and no other accumulator element changes (R160, R161, R164). -/
def Obligations.MmaChunkChangesOnlyItsRegion : Prop :=
  ∀ (b : Block) (d chunk : Nat), mxChunk b d chunk = { b with acc := (mxChunk b d chunk).acc } ∧
    ∀ j m n, n < 64 →
      let c := if mxInit d = true ∧ chunk = 0 then 0 else b.accGet d m n
      let r := mxChunkElem b d m n (32 * chunk) c
      (mxChunk b d chunk).accAt j m n =
        if m < mxM d ∧ n < mxN d then
          (if mxFa d = .pf64 then
            (if j = mxAcc d + 1 then pfLo r % 2 ^ 32 else if j = mxAcc d then pfHi r % 2 ^ 32 else b.accAt j m n)
          else if j = mxAcc d then r % 2 ^ 32 else b.accAt j m n)
        else b.accAt j m n

/-- The element-wise operations of the vector engine (Table 6-3). -/
def Obligations.VectorElementResults : Prop := ∀ r ∈ vxMapRows, VxMapRow r.1 r.2.1 r.2.2

/-- GEN_GET writes the 128 lane states to local memory, GEN_SET reads them, a zero as 1 (R195). -/
def Obligations.GeneratorStateMoves : Prop :=
  (∀ (t : TileRef) (s : State) (d : Desc) (b : Block), VxReady s t 0x41 d b → vxSub d.words = 0 →
    ∃ b' : Block, Gives (.genGet t) s (vxAfter s t b' { d with checked := true, fin := some .ok }) ∧ b' = { b with lmem := b'.lmem } ∧
      (∀ l, l < 128 → b'.lrd (vxAddr d.words + 8 * l) 8 = (b.lanegen[l]?.getD 1).toNat) ∧
      ∀ a, a < vxAddr d.words ∨ vxAddr d.words + 1024 ≤ a → b'.lrd a 1 = b.lrd a 1)
  ∧ (∀ (t : TileRef) (s : State) (d : Desc) (b : Block), VxReady s t 0x41 d b → vxSub d.words ≠ 0 →
    ∃ b' : Block, Gives (.genSet t) s (vxAfter s t b' { d with checked := true, fin := some .ok })
      ∧ b' = { b with lanegen := b'.lanegen } ∧ b'.lanegen.length = 128 ∧
      ∀ l, l < 128 → b'.lanegen[l]? = some (let x := BitVec.ofNat 64 (b.lrd (vxAddr d.words + 8 * l) 8); if x = 0 then 1 else x))

/-- The operations of the matrix unit's and vector engine's descriptors, and the checks that refuse one (Chapters 05 and 06). -/
def Obligations.EngineOperations : Prop :=
  ((∀ (t : TileRef) (n : Nat) (s : State) (d : Desc) (b : Block), MxReady s t 1 d b →
    let k := mxK d.words / 32
    let m := min n (k - d.prog)
    Gives (.mma t n) s (mxAfter s t ((upFrom d.prog m).foldl (fun b c => mxChunk b d.words c) b)
      { d with checked := true, prog := d.prog + m, fin := if d.prog + m = k then some .ok else none }))
  ∧ (∀ (t : TileRef) (s : State) (d : Desc) (b : Block), MxReady s t 2 d b →
    let w := if mxFa d.words = .pf64 then 8 else 4
    Gives (.accLoad t) s (mxAfter s t ((region (mxM d.words) (mxN d.words)).foldl (fun a p =>
      a.accPut d.words p.1 p.2 (b.lrd (mxAAddr d.words + p.1 * mxAStride d.words + w * p.2) w)) b)
      { d with checked := true, fin := some .ok }))
  ∧ (∀ (t : TileRef) (s : State) (d : Desc) (b : Block), MxReady s t 3 d b →
    let w := if mxFa d.words = .pf64 then 8 else 4
    Gives (.accStore t) s (mxAfter s t ((region (mxM d.words) (mxN d.words)).foldl (fun a p =>
      a.lwr (mxAAddr d.words + p.1 * mxAStride d.words + w * p.2) w (b.accGet d.words p.1 p.2)) b)
      { d with checked := true, fin := some .ok }))
  ∧ (∀ (t : TileRef) (s : State) (d : Desc) (b : Block), MxReady s t 4 d b →
    ∃ b' : Block, Gives (.accZero t) s (mxAfter s t b' { d with checked := true, fin := some .ok })
      ∧ b' = { b with acc := b'.acc } ∧ ∀ j m n, b'.accAt j m n = if j = mxAcc d.words then 0 else b.accAt j m n))
  ∧ (VxPairsRow Instr.vxLoad 0x01 (fun _ => True) (vxLoadRow false)
  ∧ VxPairsRow Instr.vxStore 0x02 (fun _ => True) (vxStoreRow false)
  ∧ VxPairsRow Instr.cvtl 0x03 (fun _ => True) (vxLoadRow true)
  ∧ VxPairsRow Instr.cvts 0x04 (fun _ => True) (vxStoreRow true)
  ∧ VxPairsRow Instr.cvtx 0x05 (fun _ => True) (fun b d m a => vxCols b d m a fun j a =>
      let r := a.vconv (vxT d) (vxF d) (vxRnd d) (b.vrd (vxT d) (vxXa d) m j) (vxLane m j) 0 0
      r.2.vwr (vxF d) (vxXd d) m j r.1)
  ∧ VxPairsRow Instr.vxReduce 0x30 (fun d => vxBmode d = 0) (fun b d m a => redWrite b d m 0 (redRow b d m id) a)
  ∧ (∀ (t : TileRef) (n : Nat) (s : State) (d : Desc) (b : Block), VxReady s t 0x40 d b →
      let r := (pairRows (vxM d.words) d.prog (min n (vxTotal d.words - d.prog))).foldl
        (fun a m => vxRandRow b d.words (vxVecOf b d) m a) (b, d.odd)
      Gives (.vxRand t n) s (vxAfter s t r.1 { vxDone b d n with odd := r.2 }))
  ∧ (∀ (t : TileRef) (n : Nat) (s : State) (d : Desc) (b : Block), VxReady s t 0x07 d b → vxSub d.words = 1 →
      Gives (.vxCopy t n) s (vxAfter s t ((region (vxM d.words) (vxN d.words)).foldl (fun a p =>
        if vxWritten b d.words p.2 p.1 then a.vwr (vxT d.words) (vxXd d.words) p.2 p.1 (b.vrd (vxT d.words) (vxXa d.words) p.1 p.2)
        else a) b) { d with checked := true, fin := some .ok }))
  ∧ (∀ (t : TileRef) (n : Nat) (s : State) (d : Desc) (b : Block), VxReady s t 0x30 d b → vxBmode d.words = 1 →
      let w := d.words
      Gives (.vxReduce t n) s (vxAfter s t ((List.range (vxN w)).foldl (fun a n =>
        redWrite b w 0 n (reduceAll (vxT w) (vxSub w) ((List.range (vxM w)).map fun m =>
          redLeaf (vxT w) (vxSub w) (b.vrd (vxT w) (vxXa w) m n) m)) a) b) { d with checked := true, fin := some .ok }))
  ∧ (∀ (t : TileRef) (n : Nat) (s : State) (d : Desc) (b : Block), VxReady s t 0x30 d b → 2 ≤ vxBmode d.words →
      let w := d.words
      Gives (.vxReduce t n) s (vxAfter s t (redWrite b w 0 0 (reduceAll (vxT w) (vxSub w) ((List.range (vxM w)).map fun m =>
        redRow b w m fun n => 64 * m + n)) b) { d with checked := true, fin := some .ok })))
  ∧ ((∀ (t : TileRef) (n : Nat) (s : State) (d : Desc) (b : Block), mxFront (s.tile t) (s.tile t).mx = some d →
    (s.tile t).block? d.bid = some b → s.running (.cd t.die) true = true → d.checked = false → s.mxCheck t.die b d.words = false →
    (s.tile t).mxReady d = true →
    let u := s.setTile t { (s.tile t).setBlock { b with mxBad := true } with mx := failFrom (s.tile t).mx d }
    (mxOpc d.words = 1 → Gives (.mma t n) s u) ∧ (mxOpc d.words = 2 → Gives (.accLoad t) s u)
      ∧ (mxOpc d.words = 3 → Gives (.accStore t) s u) ∧ (mxOpc d.words = 4 → Gives (.accZero t) s u))
  ∧ (∀ r ∈ vxMapRows, ∀ (t : TileRef) (n : Nat) (s : State) (d : Desc) (b : Block), mxFront (s.tile t) (s.tile t).vx = some d →
    (s.tile t).block? d.bid = some b → s.running (.cd t.die) true = true → d.checked = false → s.vxCheck t.die b d.words = false →
    vxOpc d.words = r.2.1 →
    Gives (r.1 t n) s (s.setTile t { (s.tile t).setBlock { b with vxBad := true } with vx := failFrom (s.tile t).vx d })))

/-- Descriptors issued to the engines, and the block counters that their completions advance (R138, R142, R143, R165-R167, R197, R198). -/
def Obligations.EngineIssueAndCounters : Prop :=
  ((∀ (g : GroupRef) (s : State) (c : TCtx), s.issueAt g .mxi = some c →
    Gives (.mxi g) s (if (s.tile g.tileRef).settled g.bid g.grp = true ∧ ((s.tile g.tileRef).queued (s.tile g.tileRef).mx).length < 8 then
      (let u := afterIssue s g c (movedOn c)
       u.setTile g.tileRef { u.tile g.tileRef with mx := (u.tile g.tileRef).mx ++ [descOf c c.b.mxBad] })
      else s))
  ∧ (∀ (g : GroupRef) (s : State) (c : TCtx), s.issueAt g .vxi = some c →
    Gives (.vxi g) s (if (s.tile g.tileRef).settled g.bid g.grp = true ∧ ((s.tile g.tileRef).queued (s.tile g.tileRef).vx).length < 8 then
      (let u := afterIssue s g c (movedOn c)
       let b1 := { c.b.setGroup g.grp { movedOn c with issued := c.g.issued + 1 } with issued := c.b.issued + 1, vxUsed := true }
       u.setTile g.tileRef { (u.tile g.tileRef).setBlock b1 with vx := (u.tile g.tileRef).vx ++ [descOf c c.b.vxBad] })
      else s)))
  ∧ ((∀ (t : TileRef) (s : State) (d : Desc) (r : List Desc) (b : Block) (st : Status),
    (s.tile t).queued (s.tile t).mx = d :: r → (s.tile t).block? d.bid = some b → d.fin = some st →
    let u := (s.setTile t { s.tile t with mx := takeDesc (s.tile t).mx d }).setBlock t (countUp b d)
    Gives (.mxCounterIncrement t) s (if st = .ok ∨ st = .abrt then u.haltTell t d.bid
      else u.haltBlock t d.bid ⟨d.seq, st, 8, d.grp, 0, d.pc, BitVec.ofNat 64 (mxTag d.words), b.younger d.grp d.gseq, false⟩))
  ∧ (∀ (t : TileRef) (s : State) (d : Desc) (r : List Desc) (b : Block) (st : Status),
    (s.tile t).queued (s.tile t).vx = d :: r → (s.tile t).block? d.bid = some b → d.fin = some st →
    let u := (s.setTile t { s.tile t with vx := takeDesc (s.tile t).vx d }).setBlock t (countUp b d)
    Gives (.vxCounterIncrement t) s (if st = .ok ∨ st = .abrt then u.haltTell t d.bid
      else u.haltBlock t d.bid ⟨d.seq, st, 9, d.grp, 0, d.pc, BitVec.ofNat 64 (vxTag d.words), b.younger d.grp d.gseq, false⟩)))

/-! ### Burrs (Chapter 07) -/

namespace Sys2Proof.Machine

/-- A Burr runs a program whose operation in turn has a code (R211, R219). -/
def BurrRuns (s : State) (b : BurrRef) (opc : Nat) (p : BProg) (o : Nat) : Prop :=
  (s.burr b).run = some p ∧ p.ops[s.burIdx b]? = some o ∧ s.running b.cdie false = true ∧ (s.burSt b = 1 ∨ s.burSt b = 2) ∧
    boOpc o = opc ∧ b.idx < 64
/-- Besides, the operation passes its checks (R212). -/
def BurrReady (s : State) (b : BurrRef) (opc : Nat) (p : BProg) (o : Nat) : Prop :=
  BurrRuns s b opc p o ∧ burrCheck p.hdr o b.idx = true
/-- One unit of an operation, its row advanced; after the last the read-ahead is dropped and the program goes on (R221). -/
def unitAfter (s t : State) (b : BurrRef) (p : BProg) (o row : Nat) : State :=
  let u := t.setBurRow b (row + 1)
  if boUnits o ≤ row + 1 then (u.setBurr b { u.burr b with ra := [] }).burrGoTo b p (s.burIdx b + 1) else u
/-- An operation's row: each unit of work stands by itself, and a unit that fails stops the Burr with its status and channel
address (R220, R221); a unit that waits for an answer leaves its request and is tried again; an operation with no unit left is over;
one that fails its checks stops the Burr with PERM (R212). -/
def BurrUnitRow (mk : BurrRef → List Disturb → Instr) (opc : Nat) (unit : BurrRef → BProg → List Disturb → Nat → Nat → State → UnitRes) :
    Prop :=
  (∀ (b : BurrRef) (reads : List Disturb) (s : State) (p : BProg) (o : Nat), BurrRuns s b opc p o →
    (burrCheck p.hdr o b.idx = false → Gives (mk b reads) s (s.burrFail b .perm 0)) ∧
    (burrCheck p.hdr o b.idx = true → boUnits o ≤ s.burRow b →
      Gives (mk b reads) s ((s.setBurr b { s.burr b with ra := [] }).burrGoTo b p (s.burIdx b + 1)))) ∧
  ∀ (b : BurrRef) (reads : List Disturb) (s : State) (p : BProg) (o : Nat), BurrReady s b opc p o → s.burRow b < boUnits o →
    match unit b p reads o (s.burRow b) s with
    | .ok t => Gives (mk b reads) s (unitAfter s t b p o (s.burRow b))
    | .wait w => Gives (mk b reads) s (s.await w)
    | .fail st ca t => Gives (mk b reads) s (t.burrFail b st ca)

/-- The launch of a set of Burrs with its programs handed to those that can take them (R218, R219). -/
def delivered (s : State) (l : BLaunch) (die : Fin 4) : State :=
  (burrsOf die l.todo).foldl (fun x b => if x.burGone b then x.burrCount die l.id b .abrt else x.burrPend l b)
    ((s.setBlaunch { l with todo := 0 }).newWork (.cd die) 4)

end Sys2Proof.Machine

/-- MV's unit: the destination element of its row is the dot product of the row with the scratch vector, added to the old
element with ACC, and every other byte of scratch and the rest of the state stay (R213). -/
def Obligations.BurrMvWritesOneElement : Prop :=
  ∀ (b : BurrRef) (p : BProg) (reads : List Disturb) (o r a : Nat) (s t : State) (row : List (Nat × Int)),
    s.burrRow b p reads o r = .ok (.ok, a, row, t) →
    ∃ t', unitMv b p reads o r s = .ok t' ∧ t' = { t with burrs := t'.burrs } ∧
      (∀ c : BurrRef, c.key ≠ b.key → t'.burr c = t.burr c) ∧
      let y := boSy o + 4 * r
      (t'.burr b).rd y 4 = burrDot (if boAcc o then (t.burr b).rd y 4 else 0)
          (rowProds o row ((t.burr b).halves (boSx o) (boK o))) % 2 ^ 32 ∧
      ∀ off, off < y ∨ y + 4 ≤ off → (t'.burr b).rd off 1 = (t.burr b).rd off 1

/-- A failing operation halts its Burr: state HALTED with the program's status, no program running or pending, and the fault
record written only where it was not VALID (R220, Table 7-8). -/
def Obligations.BurrFailureHalts : Prop :=
  ∀ (s : State) (b : BurrRef) (st : Status) (ca : Nat) (p : BProg), (s.burr b).run = some p → ca < 2 ^ 32 →
    let t := s.burrFail b st ca
    t.burSt b = 4 ∧ t.rf b.cdie .burState b.idx 11 8 = st.code ∧ (t.burr b).run = none ∧ (t.burr b).pend = none ∧
      (s.rf b.cdie .burFault b.idx 0 0 = 1 → t.reg b.cdie .burFault b.idx = s.reg b.cdie .burFault b.idx) ∧
      (s.rf b.cdie .burFault b.idx 0 0 = 0 → t.rf b.cdie .burFault b.idx 0 0 = 1 ∧ t.rf b.cdie .burFault b.idx 63 32 = ca
        ∧ t.rf b.cdie .burFault b.idx 31 28 = st.code ∧ t.rf b.cdie .burFault b.idx 27 20 = s.burIdx b)

/-- The operations of a Burr, one unit of work at a time (Table 7-4, R211-R217, R221). Launches, starts, completions and feeds of Burrs, and the two writes of BUR_STATE (R218-R222, R230, R232). -/
def Obligations.BurrOperations : Prop :=
  (BurrUnitRow (fun b r => .burrMv b 1 r) 1 unitMv ∧ BurrUnitRow (fun b r => .burrMvt b 1 r) 2 unitMvt
  ∧ BurrUnitRow (fun b r => .score b 1 r) 3 unitScore ∧ BurrUnitRow (fun b r => .wsum b 1 r) 4 unitWsum
  ∧ BurrUnitRow (fun b _ => .append b 1) 5 (fun b p _ o r => unitAppend b p o r)
  ∧ BurrUnitRow (fun b _ => .axpy b) 6 (fun b _ _ o _ => unitAxpy b o)
  ∧ BurrUnitRow (fun b _ => .burrReduce b) 7 (fun b _ _ o _ => unitReduce b o)
  ∧ BurrUnitRow (fun b r => .burrCopy b 1 r) 8 unitCopy
  ∧ BurrUnitRow (fun b _ => .burrFill b 1) 9 (fun b p _ o k => unitFill b p o k)
  ∧ (∀ (b : BurrRef) (n : Nat) (reads : List Disturb) (s : State) (p : BProg) (o : Nat), BurrReady s b 10 p o →
      (0 ≤ (BitVec.ofNat 16 (s.burGate b) - BitVec.ofNat 16 (boImm o)).toInt →
        Gives (.gate b n reads) s (s.burrGoTo b p (s.burIdx b + 1))) ∧
      ((BitVec.ofNat 16 (s.burGate b) - BitVec.ofNat 16 (boImm o)).toInt < 0 →
        (p.draining = true → Gives (.gate b n reads) s (s.burrEnd b .abrt 0)) ∧
        (p.draining = false → Gives (.gate b 0 reads) s (s.setBurSt b 2)))))
  ∧ ((∀ (die : Fin 4) (id : Nat) (s : State) (l : BLaunch) (c : Cmd), s.blaunch? die id = some l → s.cmd? die id = some c →
    l.todo ≠ 0 → s.running (.cd die) true = true → s.rf (.cd die) .cqCfg c.queue 23 21 ≠ 3 →
    s.preempted.contains (die.val, l.ctx) = false → s.blaunchBefore die id c.queue = false →
    (c.started = false → (∃ b ∈ burrsOf die l.todo, s.burGone b = true) →
      Gives (.burrLaunchDeliver die id) s
        (({ s with blaunches := s.blaunches.filter fun x => decide (¬ (x.die = die ∧ x.id = id)) }.cmdStart c).cmdFin die id
          .unav 0 (BitVec.ofNat 64 (bhTag l.hdr)))) ∧
    ((c.started = true ∨ ∀ b ∈ burrsOf die l.todo, s.burGone b = false) →
      (∀ b ∈ burrsOf die l.todo, (s.burr b).pend = none) →
      Gives (.burrLaunchDeliver die id) s (if c.started then delivered s l die else (delivered s l die).cmdStart c)) ∧
    ((c.started = true ∨ ∀ b ∈ burrsOf die l.todo, s.burGone b = false) →
      (∃ b ∈ burrsOf die l.todo, (s.burr b).pend ≠ none) → Gives (.burrLaunchDeliver die id) s s))
  ∧ (∀ (b : BurrRef) (s : State) (p : BProg), (s.burr b).run = none → (s.burr b).pend = some p →
    s.running b.cdie false = true → (s.burSt b = 0 ∨ s.burSt b = 4) → b.idx < 64 → s.burrAbsent b = false →
    Gives (.burrProgramStart b) s
      ((((s.setBurr b { s.burr b with run := some p, pend := none, ra := [] }).setRf b.cdie .burState b.idx 4 4 0).setRf
        b.cdie .burState b.idx 47 36 p.ctx).burrGoTo b p 0))
  ∧ (∀ (die : Fin 4) (id : Nat) (s : State) (l : BLaunch) (c : Cmd), s.blaunch? die id = some l → l.left = 0 → l.todo = 0 →
    l.quiet = false → s.prodHeld (.cd die) 0 = false → s.running (.cd die) true = true → s.cmd? die id = some c →
    Gives (.burrLaunchComplete die id) s
      ({ s with blaunches := s.blaunches.filter fun x => decide (¬ (x.die = die ∧ x.id = id)) }.completeCmd
        { c with info := l.bad, tag := BitVec.ofNat 64 (bhTag l.hdr) } l.st))
  ∧ (∀ (b : BurrRef) (id : Nat) (s t : State) (f : Feed) (l : List Byte),
    s.feeds.find? (fun f => decide (f.die = b.die) && decide (f.id = id)) = some f → nbit f.todo b.idx = true → b.idx < 64 →
    s.running b.cdie false = true → f.todo ≠ 2 ^ b.idx →
    s.vaSpan (.cp b.die) f.ctx f.pl ((f.src.toNat + b.idx * f.stride.toNat) % 2 ^ 64) f.len = .ok (.ok, l, t) →
    let r := feedWords (t.burrBusyOp b) f.off (fours f.len l) (t.burr b) t.free
    let f1 := { f with todo := f.todo - 2 ^ b.idx, st := Status.first f.st .ok }
    let u := ({ t.setBurr b r.1 with free := r.2 } : State).setRf b.cdie .burState b.idx 63 48 ((t.burGate b + 1) % 65536)
    Gives (.burrFeedArrive b id) s
      (({ u with feeds := u.feeds.map fun x => if x.die = f.die ∧ x.id = id then f1 else x } : State).burrHold b))
  ∧ (∀ (w : Wr) (n : Fin 4) (s t : State), w.die = .cd n → s.ctlStore w.die .burState w.idx w.pl w.ctx w.val = (.ok, t) →
    (w.val.getLsbD 0 = false → Gives (.burrDisable w) s
      ((if t.burSt ⟨n, w.idx % 64⟩ = 6 then t else t.burrStop ⟨n, w.idx % 64⟩ 5).answer .ok 0)) ∧
    (w.val.getLsbD 0 = true → Gives (.burrEnable w) s
      ((if t.burSt ⟨n, w.idx % 64⟩ = 5 then t.setBurSt ⟨n, w.idx % 64⟩ 0 else t).answer .ok 0))))

/-! ### Token samplers (Chapter 08) -/

namespace Sys2Proof.Machine

/-- A command whose descriptor may be delivered to a sampler now (R238). -/
def SmpDeliverable (s : State) (die : Fin 4) (id : Nat) (c : Cmd) : Prop :=
  s.cmd? die id = some c ∧ cwOp c.word = 6 ∧ c.fin = none ∧ s.smpHas die id = false ∧ s.running (.cd die) true = true ∧
    s.preempted.contains (die.val, c.ctx) = false ∧ s.rf (.cd die) .cqCfg c.queue 23 21 ≠ 3
/-- The job of a descriptor: of one that came back, a request that was presented before is presented again (R253). -/
def smpJob (c : Cmd) (id desc : Nat) : SmpJob := ⟨id, c.queue, c.ctx, c.pl, desc, (c.back.map Prod.snd).getD false, [], 0⟩
/-- The job with `k` more logits scanned: those that are numbers join it with their indices (R243). -/
def smpScanned (j : SmpJob) (k : Nat) (l : List Byte) : SmpJob :=
  { j with x := j.x ++ (withIdx (elemsOf (sdElem j.desc) k l)).filterMap (fun e => (smpLogit (sdFmt j.desc) e.2).map fun x => (j.pos + e.1, x)), pos := j.pos + k }

end Sys2Proof.Machine

/-- Delivery, start and the two operations of a sampler, and the enable and disable writes (R238, R241-R254). With INVT +0 the
sample is the greatest valid entry, equal values going to the lowest index (R244); that −0 lies below +0 here too is the model's
reading (log entry 20). -/
def Obligations.SamplerOperations : Prop :=
  (∀ (die : Fin 4) (id desc : Nat) (s t : State) (c : Cmd) (u : SmpRef) (st : Status), SmpDeliverable s die id c →
    s.smpPick c = some u → s.smpDesc die c = .ok (st, desc, t) →
    let t1 := if c.started then t else t.cmdStart c
    let gone := s.smpSt u = 4 ∨ s.smpEn u = false
    (gone → Gives (.samplerDeliver die id) s (t1.smpTell u (smpJob c id desc) .unav (smpFail .unav))) ∧
    (¬ gone → s.smpFree u = true →
      (st = .ok → t1.smpCheck die desc = true →
        Gives (.samplerDeliver die id) s (let t2 := (t1.newWork (.cd die) 5).smpBegin u
          (t2.setSmp u { t2.smp u with pend := some (smpJob c id desc) }).setSmpPend u 1)) ∧
      (st = .ok → t1.smpCheck die desc = false →
        Gives (.samplerDeliver die id) s (t1.smpTell u (smpJob c id desc) .perm (smpFail .perm))) ∧
      (st ≠ .ok → Gives (.samplerDeliver die id) s (t1.smpTell u { smpJob c id desc with desc := 0 } st (smpFail st)))) ∧
    (¬ gone → s.smpFree u = false → Gives (.samplerDeliver die id) s s))
  ∧ (∀ (u : SmpRef) (s : State) (j : SmpJob), (s.smp u).run = none → (s.smp u).pend = some j → s.running (.cd u.die) true = true →
    s.smpSt u = 0 → u.unit < 4 →
    Acts (.samplerStart u) s fun t => (t.smp u).run = some j ∧ (t.smp u).pend = none ∧ t.smpSt u = 1
      ∧ t.rf (.cd u.die) .smpState u.unit 48 37 = j.ctx % 4096 ∧ t.rf (.cd u.die) .smpState u.unit 36 16 = 0)
  ∧ (∀ (u : SmpRef) (n : Nat) (s t : State) (j : SmpJob) (l : List Byte), s.smpFront u 1 [1] = some j →
    let k := min n (sdN j.desc - j.pos)
    s.vaSpan (.sampler u.key) j.ctx j.pl (sdLaddr j.desc + sdElem j.desc * j.pos) (sdElem j.desc * k) = .ok (.ok, l, t) →
    let j1 := smpScanned j k l
    let t1 := (t.setSmp u { t.smp u with run := some j1 }).setRf (.cd u.die) .smpState u.unit 36 16 j1.pos
    Gives (.smpSample u n) s (if j1.pos = sdN j.desc then t1.setSmpSt u 2 else t1))
  ∧ (∀ (u : SmpRef) (n : Nat) (s t : State) (j : SmpJob), s.smpFront u 1 [2] = some j →
    s.smpEnd u j (smpResult j.desc j.x) = .ok t → Gives (.smpSample u n) s t)
  ∧ (∀ (u : SmpRef) (n : Nat) (s t t1 : State) (j : SmpJob) (l : List Byte), s.smpFront u 2 [1] = some j → sdCopy j.desc = true →
    j.pos < sdN j.desc →
    let k := min n (sdN j.desc - j.pos)
    s.vaSpan (.sampler u.key) j.ctx j.pl (sdLaddr j.desc + sdElem j.desc * j.pos) (sdElem j.desc * k) = .ok (.ok, l, t) →
    t.vaPut (.sampler u.key) j.ctx j.pl (sdHbuf j.desc + 64 + sdElem j.desc * j.pos) l = .ok (.ok, t1) →
    Gives (.smpHost u n) s ((t1.setSmp u { t1.smp u with run := some { j with pos := j.pos + k } }).setRf (.cd u.die) .smpState
      u.unit 36 16 (j.pos + k)))
  ∧ (∀ (u : SmpRef) (n : Nat) (s t : State) (j : SmpJob), s.smpFront u 2 [1] = some j → (sdCopy j.desc = false ∨ sdN j.desc ≤ j.pos) →
    s.hostPresent u j = .ok (.ok, t) →
    let t1 := if sdNotify j.desc = true then t.post (.cd u.die) (64 + u.unit) (t.cqEq u.die j.queue)
        (eventBytes 4 .ok j.ctx (t.reqId (.sampler u.key)) j.queue (BitVec.ofNat 64 (sdTag j.desc)) t.now
          (natBytes 4 (sdHseq j.desc) ++ natBytes 4 (sdN j.desc) ++ natBytes 8 (sdHbuf j.desc))) else t
    (t1.preempted.contains (u.die.val, j.ctx) = false → Gives (.smpHost u n) s (t1.setSmpSt u 3)) ∧
    (t1.preempted.contains (u.die.val, j.ctx) = true →
      Gives (.smpHost u n) s (((t1.setSmp u { t1.smp u with run := none }).setSmpSt u 0).smpReturn u j true)))
  ∧ (∀ (u : SmpRef) (s t : State) (j : SmpJob), s.smpFront u 2 [3] = some j → s.hostAnswer u j = .ok (none, t) →
    Gives (.hostPoll u) s t ∧
    (sdHtimeout j.desc ≠ 0 → ∀ v, t.smpEnd u j (smpFail .tout) = .ok v → Gives (.hostTimeout u) s v))
  ∧ (∀ (u : SmpRef) (s t v : State) (j : SmpJob) (r : SmpRec), s.smpFront u 2 [3] = some j → s.hostAnswer u j = .ok (some r, t) →
    t.smpEnd u j r = .ok v → Gives (.hostPoll u) s v ∧ (sdHtimeout j.desc ≠ 0 → Gives (.hostTimeout u) s v))
  ∧ (∀ (w : Wr) (n : Fin 4) (s t : State), w.die = .cd n → (s.touch w.die .smpState).ctlStore w.die .smpState w.idx w.pl w.ctx w.val = (.ok, t) →
    (w.val.getLsbD 0 = false → ∀ v, t.smpStop ⟨n, w.idx % 4⟩ = .ok v → Gives (.samplerDisable w) s
      ((if (v.smp ⟨n, w.idx % 4⟩).run.isNone then v.setSmpSt ⟨n, w.idx % 4⟩ 4 else v).answer .ok 0)) ∧
    (w.val.getLsbD 0 = true → Gives (.samplerEnable w) s
      ((if t.smpSt ⟨n, w.idx % 4⟩ = 4 then t.setSmpSt ⟨n, w.idx % 4⟩ 0 else t).answer .ok 0)))
  ∧ (∀ (d : Nat) (x : List (Nat × Nat)), sdInvt d = 0 → x ≠ [] → x.Pairwise (fun e f => e.1 < f.1) →
    ∃ e ∈ x, smpResult d x = ⟨e.1, 0x3F800000, 0x3F800000, e.2, 0x3F800000, 1, 1, 0, .ok⟩ ∧
      ∀ f ∈ x, ordKey f.2 < ordKey e.2 ∨ (ordKey f.2 = ordKey e.2 ∧ e.1 ≤ f.1))

/-- R245: the sample of a list without a valid entry. The end of SMP_SAMPLE takes this record, whatever the descriptor asks. -/
def Obligations.SampleWithoutEntries : Prop :=
  ∀ (u : SmpRef) (n : Nat) (s t : State) (j : SmpJob), s.smpFront u 1 [2] = some j → j.x = [] →
    s.smpEnd u j ⟨0xFFFFFFFF, 0x7FC00000, 0x7FC00000, 0x7FC00000, 0x7FC00000, 0, 0, 0, .ok⟩ = .ok t →
    Gives (.smpSample u n) s t

/-! ### Memory controllers, traffic generators, retirement (Chapter 09) -/

namespace Sys2Proof.Machine

/-- What a controller's read gives for a block with the bits `flips` disturbed: the decoder of the die's ECCMODE (R266, R267). -/
def decodeOf (s : State) (d : Disturb) : EccOut := eccDecode (s.eccMode d.p) (s.blockErr d.p d.blk d.flips)
/-- The data that a read delivers after the corrections `f`. -/
def readOf (s : State) (d : Disturb) (f : ErrPat) : BitVec 512 := readData (s.blockData d.p d.blk) (s.blockErr d.p d.blk d.flips) f
/-- A block with one re-read less waiting. -/
def rereadTaken (s : State) (d : Disturb) : State :=
  { s with rereads := lDrop (fun x => decide (x.p = d.p) && decide (x.blk = d.blk)) s.rereads }

/-- The generator unit of a write of TG_CTRL, and the run it describes (R275). -/
def tgOf (s : State) (w : Wr) (n : Fin 4) : TgRun := ⟨n, s.tgUnit w, s.reg w.die .tgCfg (s.tgUnit w), s.reg w.die .tgRange (s.tgUnit w), 0, 0⟩

end Sys2Proof.Machine

/-- Reads of the controllers decode what is stored, disturbed as the command says; an uncorrectable block waits for its one
re-read, and one that is lost again is poisoned and reported, unless a write of the whole block has come since (R266-R271). Band modes, counts, refresh, retraining, threshold clears, generator runs and retirement (R260, R264, R272, R275-R281). -/
def Obligations.MemoryControllerCommands : Prop :=
  ((∀ (d : Disturb) (s : State), s.ctlWorks d.p = true → d.blk < s.blocks →
    match decodeOf s d with
    | .clean => Gives (.controllerReadComplete d) s (s.ctlAnswer d.p d.blk .ok (readOf s d []))
    | .fix f => Gives (.controllerReadComplete d) s ((s.noteCorrected d.p).ctlAnswer d.p d.blk .ok (readOf s d f))
    | .poisoned => Gives (.controllerReadComplete d) s (s.ctlAnswer d.p d.blk .pois 0)
    | .uncor => Gives (.controllerReadComplete d) s (s.addReread d.p d.blk 1))
  ∧ (∀ (d : Disturb) (s : State) (r : Reread), s.rereads.find? (fun r => decide (r.p = d.p) && decide (r.blk = d.blk)) = some r →
    match decodeOf s d with
    | .clean => Gives (.uncorrectableReread d) s (((rereadTaken s d).noteCorrected d.p).rereadAnswer r .ok (readOf s d []))
    | .fix f => Gives (.uncorrectableReread d) s (((rereadTaken s d).noteCorrected d.p).rereadAnswer r .ok (readOf s d f))
    | .poisoned => Gives (.uncorrectableReread d) s ((rereadTaken s d).rereadAnswer r .pois 0)
    | .uncor => Gives (.uncorrectableReread d) s ((if r.late = true then (rereadTaken s d).noteUncor d.p d.blk r.kind
        else (rereadTaken s d).notePoisoned d.p d.blk r.kind).rereadAnswer r .pois 0))
  ∧ (∀ (d : Disturb) (crossed : Bool) (s : State), s.running (.cd (pchDie d.p)) false = true → (s.pch d.p = 3 ∨ s.pch d.p = 4) →
    aGet s.scrubPos 0 d.p = d.blk →
    match decodeOf s d with
    | .clean => Gives (.scrubRead d crossed) s (s.scrubNext d.p)
    | .poisoned => Gives (.scrubRead d crossed) s (s.scrubNext d.p)
    | .fix f => Gives (.scrubRead d crossed) s ((if crossed then s.noteCorrected d.p
        else (s.noteCorrected d.p).writeBlock d.p d.blk (readOf s d f)).scrubNext d.p)
    | .uncor => Gives (.scrubRead d crossed) s ((s.addReread d.p d.blk 2).scrubNext d.p)))
  ∧ ((∀ (w : Wr) (s : State), s.gate .hub .memBandMode w.pl w.ctx = .ok → w.idx < s.fuse.bands / 32 →
    Gives (.bandModeWrite w) s ((s.setReg .hub .memBandMode w.idx
      (bandWord s.usable w.idx (s.reg .hub .memBandMode w.idx) w.val)).answer .ok 0))
  ∧ (∀ (p n : Nat) (s : State), s.running (.cd (pchDie p)) false = true →
    Gives (.inDieCorrectionReport p n) s (s.setReg (.cd (pchDie p)) .memIdieCnt (pchIdx p)
      (cntAdd (s.reg (.cd (pchDie p)) .memIdieCnt (pchIdx p)) n)))
  ∧ (∀ (p bank : Nat) (s : State), s.running (.cd (pchDie p)) false = true → bank < (if s.fuse.high16 then 64 else 48) →
    Gives (.refresh p bank) s { s with refreshed := aSet s.refreshed (p, bank) s.now })
  ∧ (∀ (die : Fin 4) (ch : Nat) (s : State), ch < 64 → s.running (.cd die) false = true →
    let p := 128 * die.val + 2 * ch
    Gives (.channelRetrain die ch true) s { s with trcCnt := aSet (aSet s.trcCnt p 0) (p + 1) 0 } ∧
    Gives (.channelRetrain die ch false) s
      (((s.retrainFail p).retrainFail (p + 1)).raise (.cd die) (if ch < 32 then 0x26 else 0x27) ch))
  ∧ (∀ (w : Wr) (n : Fin 4) (s t : State), w.die = .cd n → s.ctlStore w.die .memPchState w.idx w.pl w.ctx w.val = (.ok, t) →
    let p := 128 * n.val + w.idx % 128
    let old := s.rf w.die .memPchState w.idx 7 5
    let new := t.rf w.die .memPchState w.idx 7 5
    let u := t.restartCounts p ((old - new) * 32)
    Gives (.pchThresholdClear w) s ((if old ≠ 0 ∧ new = 0 ∧ s.pch p = 4 then u.enterOnline p else u).answer .ok 0))
  ∧ (∀ (w : Wr) (n : Fin 4) (s : State), w.die = .cd n → s.gate w.die .tgCtrl w.pl w.ctx = .ok →
    (fld w.val 0 0 = 1 → fld w.val 1 1 = 0 → s.tgRunOf n (s.tgUnit w) = none →
      (s.tgRefused (tgOf s w n) = true → Gives (.tgStart w) s ((s.setRf w.die .tgStatus (s.tgUnit w) 18 16 4).answer .ok 0)) ∧
      (s.tgRefused (tgOf s w n) = false → Gives (.tgStart w) s
        (let t := (s.setRf w.die .tgStatus (s.tgUnit w) 15 0 0).setRf w.die .tgStatus (s.tgUnit w) 18 16 1
         ({ t with tgRuns := t.tgRuns ++ [tgOf s w n] } : State).orderSettle.answer .ok 0))) ∧
    (∀ (k : Nat) (reads : List Disturb) (r : TgRun), fld w.val 1 1 = 1 → s.tgRunOf n (s.tgUnit w) = some r →
      Gives (.tgAbort w k reads) s (((State.tgDo (if r.passes = 0 then k else min k (r.total - 1 - r.pos)) r reads s).tgEnd r 3).answer
        .ok 0)))
  ∧ (∀ (die : Fin 4) (ch : Nat) (reads : List Disturb) (s : State) (r : TgRun), s.tgRunOf die ch = some r → r.passes ≠ 0 →
    s.running (.cd die) false = true →
    Gives (.tgRunDone die ch reads) s ((State.tgDo (r.total - r.pos) r reads s).tgEnd r 2))
  ∧ (∀ (w : Wr) (s : State), s.gate .hub .memRetireCtrl w.pl w.ctx = .ok → w.val.getLsbD 25 = true → s.relayout = false →
    let t := s.setRf .hub .memRetireCtrl 0 24 16 (fld w.val 24 16)
    Gives (.retireGo w) s ((t.retireGo (fld w.val 24 16)).answer .ok 0))
  ∧ (∀ (reads : List Disturb) (s : State) (e : RetEnt), s.relayout = true → s.retEnts.getLast? = some e →
    (∀ n : Fin 4, s.running (.cd n) false = true ∧ s.lostMem.contains n.val = false) →
    let j := s.cursor
    let b := e.band j
    let locs := (upFrom (b * 256) 256).map fun i => e.p * 2 ^ 23 + i
    ((∃ l ∈ locs, s.ent l ≠ none) → Gives (.relayoutCopy reads) s (s.recallFor locs)) ∧
    ((∀ l ∈ locs, s.ent l = none ∧ s.busyLine l = false) → (∀ r ∈ s.rereads, r.p = e.p → r.blk / 512 ≠ b) →
      let d := e.donor (s.retEnts.map fun x => x.p) j
      let t := (List.range 512).foldl (fun x i => x.copyBlock e.p d.2 (512 * b) (512 * d.1) reads i) s
      let t : State := { t with dir := t.dir.filter fun x => decide (¬ (locP x.1 = d.2 ∧ x.1 % 2 ^ 23 / 256 = d.1)) }
      let u := t.setRf .hub .memRetireCtrl 0 47 32 (j + 1)
      Gives (.relayoutCopy reads) s (if s.fuse.bands - e.m ≤ j + 1 then u.relayoutDone e else u))))

/-- A retirement that begins (R279, R280): the entry of the next number names the pseudo-channel and its donor bands, USABLE falls
to their base, RESULT says that the relayout runs from cursor 0, the pseudo-channel is in RELAYOUT and its Burr RETIRED. -/
def Obligations.RetirementBegins : Prop :=
  ∀ (s : State) (p : Nat), p < 512 →
    let k := s.retCount + 1
    let m := donorBands s.fuse.bands k
    let base := s.usable - m
    (∀ b, base ≤ b → b < base + m → s.bandMode b = 0) → k ≤ 16 → (s.pch p = 3 ∨ s.pch p = 4) → s.running (.cd (pchDie p)) false = true →
    s.pwrTarget = 0 →
    let t := s.retireGo p
    t.rf .hub .memRetireEntry (k - 1) 63 63 = 1 ∧ t.rf .hub .memRetireEntry (k - 1) 40 32 = p ∧
      t.rf .hub .memRetireEntry (k - 1) 30 16 = base % 2 ^ 15 ∧ t.rf .hub .memRetireEntry (k - 1) 7 0 = m ∧
      t.usable = base ∧ t.rf .hub .memRetireCtrl 0 28 26 = 1 ∧ t.cursor = 0 ∧ t.pch p = 5 ∧ t.burSt (burrOfPch p) = 6

/-! ### Coherence (Chapter 10) -/

namespace Sys2Proof.Machine

/-- A request that is made now, none of its requester for the line being outstanding: it is sent over its route (R28), and reaches its home. -/
def requested (s : State) (r : Req) : State :=
  { s with reqs := s.reqs ++ [s.sendReq r], sentNo := s.sentNo + 1 }.homeRequest (s.sendReq r)
/-- An agent may ask for a line that it holds in state `st`. -/
def Asks (s : State) (a : AgentReq) (st : Nat → Prop) : Prop :=
  s.findReq a.agent (a.pa / 128) = none ∧ s.mayAsk a.agent (a.pa / 128) = true ∧ st (s.lineSt a.agent (a.pa / 128))
/-- A message of a kind waits for `who`. -/
def Waits (s : State) (k : MsgKind) (who pa : Nat) (m : Msg) : Prop := s.findMsg k who pa = some m
/-- An owner's answer to a forward, over the forward's route, for the requester and the CTXID that the forward carries (R28, R297, R298). -/
def fwdAckTo (a : Nat) (m : Msg) (x : State) (y : Msg) : State := x.respond (agentDie a) m.src m.route { y with dest := m.dest, ctx := m.ctx }
/-- The line that an owner sends to the requester of a forward (R298). -/
def fwdLineTo (a pa : Nat) (m : Msg) (grant : MsgKind) (x : State) (d : Line) (pois : Nat) : State :=
  x.carry (agentDie a) (x.whoDie m.dest)
    { Msg.plain grant m.dest pa with ctx := m.ctx, data := d, pois := pois, st := if pois = 0 then .ok else .pois }
/-- A forward at an owner that still holds the line in E or M, or in its writeback buffer (R298): the line to the requester, FWD_ACK
to the home, and the owner's copy as `keep` says. One that has it no longer, or is down, answers without data. -/
def ForwardRow (mk : Nat → Nat → Bool → Line → Instr) (k grant : MsgKind) (keep : State → Nat → Nat → CLine → State) : Prop :=
  ∀ (a pa : Nat) (wrote : Bool) (d : Line) (s : State) (m : Msg), Waits s k a pa m →
    (s.agentUp a = false → Gives (mk a pa wrote d) s (fwdAckTo a m (s.takeMsg k a pa) (Msg.plain .fwdAck a pa))) ∧
    (s.agentUp a = true →
      let h := (s.takeMsg k a pa).stillHeld a pa wrote
      (∀ l0, h.1 = some l0 → 2 ≤ (heldLine a l0 wrote d).st →
        let l := heldLine a l0 wrote d
        Gives (mk a pa wrote d) s (keep (fwdAckTo a m (fwdLineTo a pa m grant h.2 l.data l.pois)
          { Msg.plain .fwdAck a pa with held := true, dirty := decide (l.st = 3) && decide (k = .fwdS), data := l.data, pois := l.pois })
          a pa l)) ∧
      (h.1 = none → ∀ x, aFind s.wbuf (a, pa) = some x →
        Gives (mk a pa wrote d) s (fwdAckTo a m (fwdLineTo a pa m grant h.2 x.1 x.2)
          { Msg.plain .fwdAck a pa with dirty := true, data := x.1, pois := x.2 })) ∧
      ((h.1 = none ∧ aFind s.wbuf (a, pa) = none) ∨ (∃ l0, h.1 = some l0 ∧ (heldLine a l0 wrote d).st ≤ 1) →
        Gives (mk a pa wrote d) s (fwdAckTo a m h.2 (Msg.plain .fwdAck a pa))))
/-- A grant at the agent that asked for it: the line is installed in the grant's state and COMP goes home (R301). -/
def GrantRow (mk : Nat → Nat → Instr) (k : MsgKind) (st : Nat) : Prop :=
  ∀ (a pa : Nat) (s v : State) (m : Msg) (r : Req), Waits s k a pa m → s.findReq a pa = some r → r.phase = .home →
    m.st ≠ .perm → m.st ≠ .unav → s.agentUp a = true →
    (s.takeMsg k a pa).install a pa st m.data m.pois r.strm = some v →
    Gives (mk a pa) s ((v.dropReq a pa).compFor m)
/-- A final response at a non-caching requester (R297, R300). -/
def NcAnswerRow (mk : Nat → Nat → Instr) (k : MsgKind) : Prop :=
  ∀ (req pa : Nat) (s : State) (m : Msg) (r : Req), Waits s k (64 + req) pa m → s.findReq (64 + req) pa = some r → r.phase = .home →
    Gives (mk req pa) s ({ (s.takeMsg k (64 + req) pa).dropReq (64 + req) pa with
      ncLast := some ⟨64 + req, pa, m.st, m.data, m.pois⟩ }.bufResp r m.st m.data m.pois)
/-- An answer that a home awaits: the transaction notes it, and goes on when it was the last (R298, R299). -/
def AnswerRow (mk : Nat → Nat → Instr) (k : MsgKind) : Prop :=
  ∀ (a pa : Nat) (s : State) (m : Msg) (t : Txn), Waits s k a pa m → s.awaiting a pa = some t →
    let t1 := { t with
      left := t.left.filter (fun x => x ≠ a)
      got := if m.dirty && decide (t.req.kind ≠ ReqKind.itom) then some (m.data, m.pois) else t.got
      heldFlag := t.heldFlag || m.held }
    let u := (s.takeMsg k a pa).putTxn t1
    Gives (mk a pa) s (if t1.left = [] then State.answered homeFuel u t1 else u)

end Sys2Proof.Machine

/-- The home grants the first reader of a line that no directory entry names the line in E, with the data of memory, and its
entry names the reader as owner (R294, R299, Table 10-5); the grant goes over the request's route reversed (R28), which is up. -/
def Obligations.FirstReaderIsGrantedExclusive : Prop :=
  ∀ (a : AgentReq) (s : State) (l : Loc), Asks s a (fun st => st = 0) → s.line a.agent (a.pa / 128) = none →
    s.homeAt (128 * (a.pa / 128)) = .at l →
    s.reach (agentDie a.agent) (homeDie l.p) = true → s.ahead (agentDie a.agent) (homeDie l.p) s.sentNo = false →
    ((s.sendReq (s.askReq a .rdS 0 0)).route.all s.linkUp) = true →
    s.isDown l.p a.agent = false → s.txns = [] → s.tokens = [] →
    s.dirSet l.line = [] → s.ent l.line = none → s.isBurr (128 * (a.pa / 128)) = false →
    s.homeCheck l a.req a.ctx a.pl (s.askTyp a .rdS) a.il (128 * (a.pa / 128)) (a.pa % 128) = none → locOfLine l.line = l → s.linePoison l = 0 →
    s.answers = [] → s.rereads = [] → s.journal = [] →
    Acts (.rdS a) s fun t =>
      t.net = s.net ++ [{ Msg.plain .dataE a.agent (a.pa / 128) with
        data := s.memLine l, ctx := a.ctx, src := homeDie l.p, dst := agentDie a.agent, stamp := s.sentNo + 1,
        route := if homeDie l.p = agentDie a.agent then [] else (s.sendReq (s.askReq a .rdS 0 0)).route.reverse }] ∧
      t.ent l.line = some ⟨0, 0, 2, a.agent, 0, a.pa / 128⟩ ∧ t.cl = s.cl ∧ t.mem = s.mem

/-- The requests of caching agents and of non-caching requesters go to their home (R297, R299, R300); a host die that held the
line clean asks for it after its copy has left (R301). Forwards, invalidations, recalls, stashes and grants at the caching agents; responses and refusals at their requesters
(R298, R300-R303). -/
def Obligations.CoherenceAtRequesters : Prop :=
  ((∀ (a : AgentReq) (s : State), Asks s a (fun st => st = 0 ∨ (isHost a.agent = true ∧ st ≤ 2)) →
    let t := s.hostLeft a.agent (a.pa / 128)
    Gives (.rdS a) s (requested t (t.askReq a .rdS 0 0)) ∧ Gives (.rdX a) s (requested t (t.askReq a .rdX 0 0)))
  ∧ (∀ (a : AgentReq) (s : State), Asks s a (fun st => st = 1) →
    Gives (.upg a) s (requested s (s.askReq a ReqKind.upg 0 0)))
  ∧ (∀ (a : AgentReq) (d : Line) (s : State), Asks s a (fun st => st ≤ 1) →
    (32 ≤ a.agent → Gives (.itom a d) s (requested s (s.askReq a .itom fullMask d))) ∧
    (a.agent < 32 → ∀ l, s.fullEntry a.agent (a.pa / 128) = some l → Gives (.itom a d) s (requested s (s.askReq a .itom fullMask l))))
  ∧ (∀ (a : AgentReq) (d : Line) (s : State), Asks s a (fun st => st = 2) → isHost a.agent = true →
    let t := s.dropLine a.agent (a.pa / 128)
    Gives (.itom a d) s (requested t (t.askReq a .itom fullMask d)))
  ∧ (∀ (a : NcReq) (mask : Nat) (d : Line) (stash : Option Nat) (op : AtOp) (s : State), s.findReq (64 + a.req) (a.pa / 128) = none →
    mask < 2 ^ 128 → (∀ x, stash = some x → x < 35) →
    Gives (.rdNc a) s (requested s (ncReq a .rdNc 0 0 none none)) ∧
    Gives (.wrNc a mask d stash) s (requested s (ncReq a .wrNc mask d stash none)) ∧
    Gives (.atNc a op) s (requested s (ncReq a .atNc 0 0 none (some op)))))
  ∧ (ForwardRow Instr.fwdS .fwdS .dataS (fun u a pa l => u.setLine a pa { l with st := 1 })
  ∧ ForwardRow Instr.fwdX .fwdX .dataX (fun u a pa _ => u.dropLine a pa)
  ∧ ForwardRow Instr.fwdNc .fwdNc .dataNc (fun u a pa l => u.setLine a pa l)
  ∧ (∀ (a pa : Nat) (s : State) (m : Msg), Waits s .inv a pa m →
    Gives (.inv a pa) s (((s.takeMsg .inv a pa).dropLine a pa).ackTo m (Msg.plain .ack a pa)))
  ∧ (∀ (a pa : Nat) (wrote : Bool) (d : Line) (s : State) (m : Msg), Waits s .recall a pa m →
    let u := (s.takeMsg .recall a pa).dropLine a pa
    (s.agentUp a = false → Gives (.recall a pa wrote d) s (u.ackTo m (Msg.plain .ack a pa))) ∧
    (s.agentUp a = true → (∀ l0, s.line a pa = some l0 →
      let l := if 2 ≤ l0.st then heldLine a l0 wrote d else l0
      Gives (.recall a pa wrote d) s (u.ackTo m (if l.st = 3 then
        { Msg.plain .ack a pa with dirty := true, data := l.data, pois := l.pois } else Msg.plain .ack a pa))) ∧
      (s.line a pa = none → Gives (.recall a pa wrote d) s (u.ackTo m (match aFind s.wbuf (a, pa) with
        | some x => { Msg.plain .ack a pa with dirty := true, data := x.1, pois := x.2 }
        | none => Msg.plain .ack a pa)))))
  ∧ (∀ (a pa : Nat) (s v : State) (m : Msg), Waits s .pushS a pa m → s.agentUp a = true →
    (s.takeMsg .pushS a pa).install a pa 1 m.data m.pois false = some v →
    Gives (.pushS a pa) s (v.ackTo m (Msg.plain .ack a pa)))
  ∧ GrantRow Instr.dataS .dataS 1 ∧ GrantRow Instr.dataE .dataE 2 ∧ GrantRow Instr.dataX .dataX 3
  ∧ (∀ (a pa : Nat) (s v : State) (m : Msg) (r : Req), Waits s .gntX a pa m → s.findReq a pa = some r → r.phase = .home →
    m.st ≠ .perm → m.st ≠ .unav → s.agentUp a = true →
    (let u := s.takeMsg .gntX a pa
     (r.kind = .itom → u.install a pa 3 r.data 0 r.strm = some v) ∧
     (r.kind ≠ .itom → ∀ l, s.line a pa = some l → u.install a pa 3 l.data l.pois r.strm = some v) ∧
     (r.kind ≠ .itom → s.line a pa = none → u.takeLine.2.install a pa 3 u.takeLine.1 0 r.strm = some v)) →
    Gives (.gntX a pa) s ((v.dropReq a pa).compFor m))
  ∧ NcAnswerRow Instr.dataNc .dataNc ∧ NcAnswerRow Instr.done .done
  ∧ (∀ (a pa : Nat) (s : State) (m : Msg), Waits s .wbAck a pa m →
    Gives (.wbAck a pa) s { s.takeMsg .wbAck a pa with wbuf := aErase s.wbuf (a, pa) })
  ∧ (∀ (who pa : Nat) (s : State) (m : Msg) (r : Req), Waits s .nack who pa m → s.findReq who pa = some r → r.phase = .nacked →
    Gives (.nack who pa) s ((s.takeMsg .nack who pa).setReq { r with phase := .backoff, nacks := r.nacks + 1 }))
  ∧ (∀ (who pa : Nat) (s : State) (r : Req), s.findReq who pa = some r → r.phase = .backoff →
    Gives (.nackRetry who pa) s ({ s with sentNo := s.sentNo + 1 }.setReq { s.sendReq r with
      phase := .sent, kind := if r.kind = ReqKind.upg ∧ s.lineSt who pa ≠ 1 then ReqKind.rdX else r.kind }))
  ∧ (∀ (who pa : Nat) (s : State) (r : Req), s.findReq who pa = some r →
    let u := (s.dropReq who pa).bufResp r .tout 0 0
    Gives (.requestTimeout who pa) s (if 64 ≤ who then { u with ncLast := some ⟨who, pa, .tout, 0, 0⟩ } else u)))

/-- Answers, completions, evictions, tokens, timeouts and down agents at the homes (R296, R298, R299, R304-R307). -/
def Obligations.CoherenceMessagesAtHomes : Prop :=
  AnswerRow Instr.ack .ack ∧ AnswerRow Instr.fwdAck .fwdAck
  ∧ (∀ (a pa : Nat) (s : State) (m : Msg) (t : Txn), Waits s .comp a pa m →
    s.txns.find? (fun t => decide (t.req.pa = pa) && decide (t.req.who = a) && t.compDue) = some t →
    let u := (s.takeMsg .comp a pa).putTxn { t with compDue := false }
    Gives (.comp a pa) s (if t.phase = .comp then State.endTxn homeFuel u t.loc else u))
  ∧ (∀ (a pa : Nat) (d : Line) (s : State) (m : Msg), Waits s .wb a pa m →
    Gives (.wb a pa d) s ((s.takeMsg .wb a pa).evictAt a pa m.route true m.data m.pois))
  ∧ (∀ (a pa : Nat) (d : Line) (s : State) (l : CLine), s.findMsg .wb a pa = none → isHost a = true → s.agentUp a = true →
    s.line a pa = some l → 2 ≤ l.st → s.wbufRoom a = true →
    Gives (.wb a pa d) s
      ({ s.dropLine a pa with wbuf := aSet s.wbuf (a, pa) (d, hostPois l d) }.evictAt a pa (s.homeRoute a pa) true d (hostPois l d)))
  ∧ (∀ (a pa : Nat) (s : State) (m : Msg), Waits s .cleanEvict a pa m →
    Gives (.cleanEvict a pa) s ((s.takeMsg .cleanEvict a pa).evictAt a pa m.route false 0 0))
  ∧ (∀ (a pa : Nat) (s : State), s.findMsg .cleanEvict a pa = none → isHost a = true → s.agentUp a = true →
    (s.lineSt a pa = 1 ∨ s.lineSt a pa = 2) → Gives (.cleanEvict a pa) s ((s.dropLine a pa).evictAt a pa (s.homeRoute a pa) false 0 0))
  ∧ (∀ (who pa : Nat) (s : State) (k : Token), s.tokens.find? (fun k => decide (k.who = who) && decide (s.msgLoc pa = k.loc)) = some k →
    s.busyLine k.loc = false →
    Gives (.tokenExpire who pa) s (({ s with tokens := s.tokens.filter (fun x => x ≠ k) } : State).dirCount (locP k.loc) .memDirTokenCnt))
  ∧ (∀ (pa : Nat) (s : State) (t : Txn) (d : Die), s.txns.find? (fun t => decide (t.req.pa = pa) && !t.left.isEmpty) = some t →
    homeDie (locP t.loc) = d →
    let first := t.left.foldl min 63
    let u := t.left.foldl (fun x a => (x.markDownOn d a).endComps d a)
      (s.poisonLine (locOfLine (if t.phase = .recall then t.vict else t.loc)))
    let t1 := { t with left := [], pois := t.pois || decide (t.phase ≠ .recall) }
    (d = .hub → Gives (.homeTimeout pa) s (State.answered homeFuel ((u.raise .hub 0x4B first).putTxn t1) t1)) ∧
    (∀ n, d = .cd n → (s.reg d .memDirToutRec 0).getLsbD 63 = false →
      let rec_ := 2 ^ 63 + first * 2 ^ 57 + s.snoopCode t * 2 ^ 54 + (if t.phase = .recall then t.vpa else pa) % 2 ^ 45
      let u := (((u.setReg d .memDirToutRec 0 (BitVec.ofNat 64 rec_)).dirCount (locP t.loc) .memDirToutCnt).raise d 0x30 first)
      Gives (.homeTimeout pa) s (State.answered homeFuel (u.putTxn t1) t1)))
  ∧ (∀ (a : Nat) (s : State), a < 35 →
    (s.agentDom a = false → Gives (.agentMarkDown a) s (s.markDown a)) ∧
    (s.agentUp a = true → s.agentLinked a = true → s.swept a = true → Gives (.agentMarkUp a) s (s.markUp a)))
  ∧ (∀ (die : Die) (s : State), s.running die false = true → Gives (.directorySweep die) s (s.sweep die))

/-- Agents are marked down in the homes of every die, and marked up in all of them (R307). -/
def Obligations.DownAgentsAreDownEverywhere : Prop :=
  (∀ (s : State) (a p : Nat), a < 35 → s.txns = [] → (s.markDown a).isDown p a = true ∧ ∀ b, b < 35 → b ≠ a → (s.markDown a).isDown p b = s.isDown p b)
  ∧ (∀ (s : State) (a p : Nat), a < 35 → (s.markUp a).isDown p a = false ∧ ∀ b, b < 35 → b ≠ a → (s.markUp a).isDown p b = s.isDown p b)

/-- A masked write of a line changes no other byte. A half covered whole takes the new bytes; a half covered in part takes those
that the mask names, and the rest as the decoder read them where a decoded read of it stands; where that read gave poison, or the
half is poisoned, it stays as it is (R267-R269). -/
def Obligations.LineWritesChangeOnlyTheirBytes : Prop :=
  ∀ (s : State) (l : Loc) (mask : Nat) (d : Line), mask < 2 ^ 128 →
    let t := (s.writeLine l mask d).1
    (∀ k, (k < l.key ∨ l.key + 128 ≤ k) → t.rdKey k = s.rdKey k) ∧
    ∀ i, i < 128 →
      let half := i / 64
      let m := mask / 2 ^ (64 * half) % 2 ^ 64
      t.rdKey (l.key + i) =
        if m = 2 ^ 64 - 1 then lineByte d i
        else if m = 0 then s.rdKey (l.key + i)
        else match aFind s.answers (l.blk + half) with
          | some (some x) => if mask.testBit i = true then lineByte d i else x.extractLsb' (8 * (i % 64)) 8
          | some none => s.rdKey (l.key + i)
          | none => if mask.testBit i = true ∧ s.poisoned (l.blk + half) = false then lineByte d i else s.rdKey (l.key + i)

/-! ### Protection tables and translation caches (Chapter 11) -/

namespace Sys2Proof.Machine

/-- A write of CPT_CMD that starts an operation: refused with PERM where the level may not do it or the staged entry may not be
supplied, with BUSY while the hub executes a command, and otherwise accepted: BUSY is set, the command is the hub's, and the effect
at acceptance follows (R312, R324, R332). -/
def CptRow (mk : Wr → Instr) (op : Nat) (f : State → Nat → Nat → Nat → State) : Prop :=
  ∀ (w : Wr) (s : State), s.gate .hub .cptCmd w.pl w.ctx = .ok → fld w.val 51 48 = op → w.die = .hub →
    let bank := bankOf w.pl
    let ctx := fld w.val 11 0
    let frame := fld w.val 47 30
    let right := s.cptRight op w.pl w.ctx ctx (if op ≤ 8 then s.fdtMaster frame else aGet s.cdt 0 (cdtOf frame))
      ((s.cptStage bank).extractLsb' 0 16) = true ∧ ¬ ((op = 1 ∨ op = 2) ∧ cptRefused ctx (s.cptStage bank) = true)
    (¬ right → Gives (mk w) s ((s.setRf .hub .cptCmd bank 59 56 1).answer .perm 0)) ∧
    (right → s.hubCmd ≠ none → Gives (mk w) s ((s.setRf .hub .cptCmd bank 59 56 8).answer .busy 0)) ∧
    (s.hubCmd = none → right →
      let t := ((s.setRf .hub .cptCmd bank 47 30 frame).setRf .hub .cptCmd bank 11 0 ctx).setRf .hub .cptCmd bank 63 63 1
      Gives (mk w) s ((f { t with hubCmd := some ⟨op, bank, ctx, frame, 0, 0, 0, 0, 0, false, []⟩ } bank ctx frame).answer .ok 0))

/-- The operations of CPT_CMD with their effects at acceptance (Table 11-9). -/
def cptRows : List ((Wr → Instr) × Nat × (State → Nat → Nat → Nat → State)) :=
  [(Instr.cptWrite, 1, fun t bank ctx _ => t.cptPut ctx (cptClean (t.cptStage bank))),
   (Instr.writeSync, 2, fun t bank ctx _ => (t.cptPut ctx (cptClean (t.cptStage bank))).invContext ctx),
   (Instr.cptSync, 3, fun t _ ctx _ => t.invContext ctx),
   (Instr.cptRead, 4, fun t bank ctx _ => t.setStage bank (t.cptMaster ctx)),
   (Instr.setRoot, 5, fun t bank ctx _ => t.cptPut ctx (setFld (t.cptMaster ctx) 127 88 (fld (t.cptStage bank) 127 88))),
   (Instr.fdtWrite, 6, fun t bank _ frame => { t with fdt := aSet t.fdt frame (fdtClean ((t.cptStage bank).extractLsb' 0 16)) }),
   (Instr.fdtSync, 7, fun t _ _ frame => t.invSpan (frame * 2 ^ 21) (2 ^ 21)),
   (Instr.fdtRead, 8, fun t bank _ frame => t.setReg .hub .cptStage0 bank (BitVec.ofNat 64 (t.fdtMaster frame).toNat)),
   (Instr.cdtWrite, 9, fun t bank _ frame =>
      { t with cdt := aSet t.cdt (cdtOf frame) (fdtClean ((t.cptStage bank).extractLsb' 0 16)) }),
   (Instr.cdtSync, 10, fun t _ _ frame => t.invSpan (cdtBase (cdtOf frame)) (2 ^ 30)),
   (Instr.cdtRead, 11, fun t bank _ frame =>
      t.setReg .hub .cptStage0 bank (BitVec.ofNat 64 ((aGet t.cdt 0 (cdtOf frame)).toNat)))]

/-- A synchronising command whose replicas all hold its value: it sweeps to `t`, and is over where no access judged before is under
way (R329). -/
def syncs (s : State) (h : HubCmd) (t : State) (l : List Drain) : Prop :=
  Gives .cptCommandComplete s (if l.any t.draining = true then { t with hubCmd := some { h with swept := true, drain := l } }
    else { (t.setRf .hub .cptCmd h.bank 63 63 0).setRf .hub .cptCmd h.bank 59 56 0 with hubCmd := none })

/-- The command in the hub is over. -/
def hubDone (s : State) (h : HubCmd) (n : RegName) : State :=
  { (s.setRf .hub n h.bank 63 63 0).setRf .hub n h.bank 59 56 0 with hubCmd := none }

end Sys2Proof.Machine

/-- CPT_CMD's operations, the replicas, XLT_INV, and their completions (R312, R313, R322-R329, R332, R366). -/
def Obligations.ProtectionTableCommands : Prop :=
  (∀ r ∈ cptRows, CptRow r.1 r.2.1 r.2.2)
  ∧ (∀ (rep i : Nat) (s : State), (if rep = 4 then s.running .hub false else s.running (.cd (cdOf rep)) false) = true → rep ≤ 4 →
    (i < 4096 → Gives (.replicaUpdate rep 0 i) s { s with cptRep := aSet s.cptRep (rep, i) (s.cptMaster i) }) ∧
    (i < 2 ^ 18 → Gives (.replicaUpdate rep 1 i) s { s with fdtRep := aSet s.fdtRep (rep, i) (s.fdtMaster i) }) ∧
    (rep = 4 → i < 2 ^ 14 → Gives (.replicaUpdate rep 2 i) s { s with cdtRep := aSet s.cdtRep i (aGet s.cdt 0 i) }))
  ∧ (∀ (s : State) (h : HubCmd), s.hubCmd = some h → s.running .hub false = true →
    ((h.op = 1 ∨ h.op = 4 ∨ h.op = 5 ∨ h.op = 6 ∨ h.op = 8 ∨ h.op = 9 ∨ h.op = 11) → h.swept = false →
      Gives .cptCommandComplete s (hubDone s h .cptCmd)) ∧
    ((h.op = 2 ∨ h.op = 3) → h.swept = false → s.cptInStep h.ctx = true →
      syncs s h (s.invContext h.ctx) (s.drains fun c => decide (c = h.ctx))) ∧
    (h.op = 7 → h.swept = false → s.fdtInStep h.frame = true →
      syncs s h (s.invSpan (h.frame * 2 ^ 21) (2 ^ 21)) (s.drains fun _ => true)) ∧
    (h.op = 10 → h.swept = false → s.cdtInStep (cdtOf h.frame) = true →
      syncs s h (s.invSpan (cdtBase (cdtOf h.frame)) (2 ^ 30)) (s.drains fun _ => true)) ∧
    (h.op ≤ 11 → h.swept = true → h.drain.any s.draining = false → Gives .cptCommandComplete s (hubDone s h .cptCmd)) ∧
    (h.op = 16 → h.drain.any s.draining = false →
      (h.bank ≠ 2 → Gives .xltInvComplete s (hubDone s h .xltInvCmd)) ∧
      (h.bank = 2 → Gives .xltInvComplete s ({ s with hubCmd := none }.cmdFin (cdOf h.die) h.cmd .ok 0 0))))
  ∧ (∀ (w : Wr) (s : State), s.gate .hub .xltInvCmd w.pl w.ctx = .ok → w.val.getLsbD 12 = true → w.die = .hub →
    let bank := bankOf w.pl
    let scope := fld w.val 49 48
    let gid := fld w.val 47 40
    let ctx := fld w.val 11 0
    let range := s.reg .hub .xltInvAddr bank
    (s.invRight w.pl w.ctx scope ctx gid = true → s.hubCmd ≠ none →
      Gives (.xltInv w) s ((s.setRf .hub .xltInvCmd bank 59 56 8).answer .busy 0)) ∧
    (s.invRight w.pl w.ctx scope ctx gid = false →
      Gives (.xltInv w) s ((s.setRf .hub .xltInvCmd bank 59 56 1).answer .perm 0)) ∧
    (s.hubCmd = none → s.invRight w.pl w.ctx scope ctx gid = true →
      let t := ((s.setRf .hub .xltInvCmd bank 49 40 (fld w.val 49 40)).setRf .hub .xltInvCmd bank 11 0 ctx).setRf .hub .xltInvCmd bank 63 63 1
      Gives (.xltInv w) s
        (({ t with hubCmd := some ⟨16, bank, ctx, 0, scope, gid, range, 0, 0, true, t.drains (s.invCtx scope ctx gid)⟩ }.invalidate
          scope ctx gid range).answer .ok 0)))

/-- No translation of the contexts that an invalidation covers is left, in range where its scope is a range; every other
translation stays, and walks of covered contexts start again at the top (R322, R323, R329). -/
def Obligations.InvalidationRemovesExactlyWhatItCovers : Prop :=
  ∀ (s : State) (scope ctx gid : Nat) (range : W64),
    let t := s.invalidate scope ctx gid range
    (∀ e, e ∈ t.tlb ↔ e ∈ s.tlb ∧ ¬ (s.invCtx scope ctx gid e.ctx = true ∧ (scope ≠ 0 ∨ tlbInRange e range = true))) ∧
    (∀ e, e ∈ t.wcache ↔ e ∈ s.wcache ∧ s.invCtx scope ctx gid e.ctx = false) ∧
    (∀ w ∈ t.walks, s.invCtx scope ctx gid w.ctx = true → w.level = 4) ∧
    t.tiles = s.tiles ∧ t.regs = s.regs ∧ t.cpt = s.cpt ∧ t.mem = s.mem

/-! ### DMA channels (Chapter 12) -/

namespace Sys2Proof.Machine

/-- A channel after a segment has gone out with the status and record of its access. -/
def segIssued (t : State) (d : Die) (ch : Nat) (r : DmaRun) (st : Status) (rec : List Nat) : State :=
  t.setDma d ch (({ r with segs := r.segs ++ [⟨r.row, r.byte, r.next.1, st, rec⟩], begun := false } : DmaRun).advance r.next.1)
/-- A channel whose segment waits for an answer: the request goes out, and the segment is under way. -/
def segWaits (s : State) (d : Die) (ch : Nat) (r : DmaRun) (w : Wait) : State := (s.setDma d ch { r with begun := true }).await w
/-- A write of DMA_CTRL whose action is `a` (R339): EN is stored, and `f` acts on the selected channel. -/
def DmaCtlRow (mk : Wr → Instr) (a : Nat) (f : Die → State → Nat → State) : Prop :=
  ∀ (w : Wr) (s : State),
    let v := s.touch w.die .dmaCtrl
    let ch := v.selUnit w.die w.pl .dma
    v.gate w.die .dmaCtrl w.pl w.ctx = .ok → dmaAction (v.reg w.die .dmaCtrl ch) w.val = a →
    Gives (mk w) s ((f w.die (v.setRf w.die .dmaCtrl ch 31 31 (b2n (w.val.getLsbD 31))) ch).answer .ok 0)
/-- What a segment that writes `l` does (FILL, WRITE). -/
def SegWrites (i : Instr) (d : Die) (ch opc : Nat) (s : State) (l : DmaRun → List Byte) : Prop :=
  ∀ r : DmaRun, s.dmaFront d ch opc = some r →
    (∀ st rec t, s.dmaPut d ch r.next.2.2.1 (l r) (ddStrm r.desc) = .ok (st, rec, t) → Gives i s (segIssued t d ch r st rec)) ∧
    (∀ w, s.dmaPut d ch r.next.2.2.1 (l r) (ddStrm r.desc) = .error w → Gives i s (segWaits s d ch r w))

end Sys2Proof.Machine

/-- The actions of DMA_CTRL (R339, R344, R346, R359, Tables 12-10, 12-11, 12-15). Descriptors, segments and their responses (R340-R345): what each operation of a channel does with its next segment. -/
def Obligations.DmaOperations : Prop :=
  (DmaCtlRow Instr.dmaGo 5 (fun d t ch =>
    if t.dmaSt d ch = 0 ∧ t.rf d .dmaCtx ch 12 12 = 1 then
      let r : DmaRun := ⟨va57 (t.reg d .dmaChain ch).toNat, 0, false, 0, 0, false, [], 0, none, 0xFF, []⟩
      ((((t.setDma d ch r).setCursor d ch 0 0).setRf d .dmaStatus ch 63 32 0).setDmaSt d ch 1).newWork d 3
    else t)
  ∧ DmaCtlRow Instr.dmaResume 4 (fun d t ch =>
    if t.dmaSt d ch = 2 ∨ t.dmaSt d ch = 3 ∨ t.dmaSt d ch = 4 then
      (if t.isPreempted d (t.dmaCtxId d ch) then t.setDmaSt d ch 4 else t.dmaGoOn d ch)
    else t)
  ∧ DmaCtlRow Instr.dmaAbort 2 (fun d t ch => if 1 ≤ t.dmaSt d ch ∧ t.dmaSt d ch ≤ 4 then t.dmaEnd d ch .abrt 0 else t)
  ∧ DmaCtlRow Instr.dmaPause 3 (fun d t ch => if t.dmaSt d ch = 1 then t.dmaAskStop d ch 1 else t)
  ∧ DmaCtlRow Instr.dmaDisable 1 (fun d t ch => t.dmaDisable d ch)
  ∧ DmaCtlRow Instr.dmaEnable 6 (fun d t ch => if t.dmaSt d ch = 5 then t.setDmaSt d ch 0 else t))
  ∧ ((∀ (d : Die) (ch : Nat) (s s1 t u : State) (r0 r : DmaRun) (l : List Byte) (rec rec' : List Nat) (st : Status),
    s.dmaFront d ch 1 = some r0 → s.dmaKeep d ch r0 = .ok (r, s1) →
    s1.dmaRead d ch r.next.2.1 r.next.1 = .ok (.ok, l, rec, t) →
    { t with free := t.free + 128 }.dmaPut d ch r.next.2.2.1 (overlapBytes r t.free r.next.2.1 r.next.2.2.1 l) (ddStrm r.desc) =
      .ok (st, rec', u) →
    Gives (.dmaCopy d ch) s (segIssued u d ch r st rec'))
  ∧ (∀ (d : Die) (ch : Nat) (s s1 t : State) (r0 r : DmaRun) (l : List Byte) (rec : List Nat) (st : Status),
    s.dmaFront d ch 1 = some r0 → s.dmaKeep d ch r0 = .ok (r, s1) →
    s1.dmaRead d ch r.next.2.1 r.next.1 = .ok (st, l, rec, t) → st ≠ .ok → Gives (.dmaCopy d ch) s (segIssued t d ch r st rec))
  ∧ (∀ (d : Die) (ch : Nat) (s s1 : State) (r0 r : DmaRun) (w : Wait), s.dmaFront d ch 1 = some r0 →
    s.dmaKeep d ch r0 = .ok (r, s1) → s1.dmaRead d ch r.next.2.1 r.next.1 = .error w → Gives (.dmaCopy d ch) s (segWaits s d ch r0 w))
  ∧ (∀ (d : Die) (ch : Nat) (s : State), SegWrites (.dmaFill d ch) d ch 2 s fun r =>
    (List.range r.next.1).map fun i => BitVec.ofNat 8 (ddImm r.desc / 256 ^ ((r.byte + i) % 8)))
  ∧ (∀ (d : Die) (ch : Nat) (s : State), SegWrites (.dmaWrite d ch) d ch 3 s fun r => leBytes 8 (ddImm r.desc))
  ∧ (∀ (d : Die) (ch : Nat) (s u : State) (r : DmaRun) (t : TileRef) (b : Block) (l : List Byte) (rec : List Nat),
    s.dmaFront d ch 4 = some r → s.localBlock d ch r.next.2.2.1 (ddLseq r.desc) r.next.1 = (.ok, some (t, b)) →
    s.dmaRead d ch r.next.2.1 r.next.1 = .ok (.ok, l, rec, u) →
    Gives (.tolocal d ch) s (segIssued (u.setBlock t (b.lwr (r.next.2.2.1 % 2 ^ 32) r.next.1 (leNat l))) d ch r .ok []))
  ∧ (∀ (d : Die) (ch : Nat) (s u : State) (r : DmaRun) (t : TileRef) (b : Block) (rec : List Nat) (st : Status),
    s.dmaFront d ch 5 = some r → s.localBlock d ch r.next.2.1 (ddLseq r.desc) r.next.1 = (.ok, some (t, b)) →
    s.dmaPut d ch r.next.2.2.1 (leBytes r.next.1 (b.lrd (r.next.2.1 % 2 ^ 32) r.next.1)) (ddStrm r.desc) = .ok (st, rec, u) →
    Gives (.fromlocal d ch) s (segIssued u d ch r st rec))
  ∧ (∀ (d : Die) (ch : Nat) (s : State) (r : DmaRun) (st : Status), st ≠ .ok →
    (s.dmaFront d ch 4 = some r → s.localBlock d ch r.next.2.2.1 (ddLseq r.desc) r.next.1 = (st, none) →
      Gives (.tolocal d ch) s (segIssued s d ch r st [])) ∧
    (s.dmaFront d ch 5 = some r → s.localBlock d ch r.next.2.1 (ddLseq r.desc) r.next.1 = (st, none) →
      Gives (.fromlocal d ch) s (segIssued s d ch r st [])))
  ∧ (∀ (d : Die) (ch : Nat) (s t : State) (r : DmaRun) (l : List Byte) (rec : List Nat) (st : Status), s.dma? d ch = some r →
    s.dmaWorks d ch = true → s.dmaSt d ch = 1 → r.got = false → (r.stop = 0 ∨ r.begun = true) →
    s.dmaRead d ch r.addr 64 = .ok (st, l, rec, t) →
    (st ≠ .ok → Gives (.dmaDescriptorRead d ch) s (t.dmaStop d ch r st 0 0 rec)) ∧
    (st = .ok → t.ddCheck d (leNat l) = false → Gives (.dmaDescriptorRead d ch) s (t.dmaStop d ch { r with desc := 0 } .perm 0 0 [])) ∧
    (st = .ok → t.ddCheck d (leNat l) = true →
      let r1 := { r with desc := leNat l, got := true, row := 0, byte := 0, begun := false }
      Gives (.dmaDescriptorRead d ch) s (((t.setDma d ch r1).setCursor d ch 0 0).dmaSettle d ch r1)))
  ∧ (∀ (d : Die) (ch : Nat) (s : State) (r : DmaRun) (g : DmaSeg) (rest : List DmaSeg), s.dma? d ch = some r → s.dmaWorks d ch = true →
    s.dmaSt d ch = 1 → r.segs = g :: rest →
    (g.st ≠ .ok → r.begun = false → Gives (.dmaSegmentResponse d ch) s (s.dmaStop d ch r g.st g.row g.byte g.report)) ∧
    (g.st ≠ .ok → r.begun = true → Gives (.dmaSegmentResponse d ch) s s) ∧
    (g.st = .ok →
      let r1 := { r with segs := rest }
      let pos := match rest with | h :: _ => (h.row, h.byte) | [] => (r.row, r.byte)
      Gives (.dmaSegmentResponse d ch) s (((s.setDma d ch r1).setCursor d ch pos.1 pos.2).dmaSettle d ch r1))))

/-- A segment never crosses a 128-byte line of its destination or the end of its row, and segments cover the row in order: the
next one begins where this one ends (R343). -/
def Obligations.DmaSegmentsCoverTheirRows : Prop :=
  ∀ r : DmaRun, r.byte < ddLen r.desc →
    0 < r.next.1 ∧ r.next.1 ≤ 128 ∧ r.byte + r.next.1 ≤ ddLen r.desc ∧ r.next.2.2.1 / 128 = (r.next.2.2.1 + r.next.1 - 1) / 128 ∧
    (r.byte + r.next.1 < ddLen r.desc → (r.advance r.next.1).byte = r.byte + r.next.1 ∧ (r.advance r.next.1).row = r.row ∧
      ((r.advance r.next.1).next.2.2.1 = (r.next.2.2.1 + r.next.1) % 2 ^ 64)) ∧
    (r.byte + r.next.1 = ddLen r.desc → (r.advance r.next.1).byte = 0 ∧ (r.advance r.next.1).row = r.row + 1)

/-! ### Command streams and event queues (Chapter 12) -/

namespace Sys2Proof.Machine

/-- A command at the front of its queue, well formed: what `f` makes of it (R349). -/
def StreamRow (mk : Fin 4 → Nat → Instr) (op : Nat) (P : Cmd → State → Prop) (f : State → Fin 4 → Nat → Cmd → State) : Prop :=
  ∀ (die : Fin 4) (q : Nat) (s t : State) (w : W64) (ops : List W64), s.cqFront die q = .word w ops t → cwOp w = op →
    cwFormatOk (s.call? die q).isSome w ops = true → P (t.cqCmd die q w ops) t →
    Gives (mk die q) s (f t die q (t.cqCmd die q w ops))
/-- The rows of Table 12-3 with their operation codes. -/
def streamRows : List ((Fin 4 → Nat → Instr) × Nat) :=
  [(Instr.cmdNop, 0), (Instr.launch, 1), (Instr.cmdDma, 3), (Instr.cmdBurr, 4), (Instr.feed, 5), (Instr.cmdSample, 6), (Instr.waitc, 7),
   (Instr.waitm, 8), (Instr.cmdWrite, 9), (Instr.cmdTime, 10), (Instr.cmdFence, 11), (Instr.event, 12), (Instr.cmdXltInv, 13),
   (Instr.cmdCall, 14)]
/-- A command that starts and has its final status at once. -/
def startedWith (t : State) (c : Cmd) (st : Status) (tag : Nat) : State := (t.cmdRun c).cmdFin c.die c.id st 0 (BitVec.ofNat 64 tag)
/-- A LAUNCH whose parameters the die can meet: the block fits an empty tile, and the mask names built tiles (R351). -/
def launchFits (c : Cmd) (t : State) : Prop :=
  fitsWith [] c.word = true ∧ 16 ≤ lwRegs c.word ∧ launchTiles c ≠ [] ∧ ∀ i ∈ launchTiles c, i < 8 * t.nTiles c.die.val
/-- A FEED's range and mask (R222). -/
def feedOk (c : Cmd) : Prop :=
  let off := fld c.word 47 32
  let len := fld c.word 31 16
  c.opnd 1 ≠ 0 ∧ 4 ≤ len ∧ len ≤ 49152 ∧ len % 4 = 0 ∧ off % 4 = 0 ∧ off + len ≤ 65536

end Sys2Proof.Machine

/-- The commands of a stream (R349-R352): a word that breaks its format, an operation that the table lacks and words that
cannot be read stop the queue in ERROR; each well-formed command has its effect. Waits on memory and completions (R350-R352, R355): a WAITM ends when its condition holds or its word cannot be read, or at
its limit with TOUT; a command that has its final status completes with it, and a LAUNCH once its blocks are over. A SAMPLE that ends so
is reported by the command processor, with a record of its status alone (the model's choice, log 130). -/
def Obligations.StreamCommands : Prop :=
  ((∀ r ∈ streamRows, ∀ (die : Fin 4) (q : Nat) (s t : State) (w : W64) (ops : List W64) (st : Status),
    (s.cqFront die q = .bad st w t → cwOp w = r.2 → Gives (r.1 die q) s (t.cqError die q st w)) ∧
    (s.cqFront die q = .word w ops t → cwOp w = r.2 → cwFormatOk (s.call? die q).isSome w ops = false →
      Gives (r.1 die q) s (t.cqError die q .perm w)) ∧
    (s.cqFront die q = .word w ops t → (∀ r ∈ streamRows, cwOp w ≠ r.2) → Gives (.cmdNop die q) s (t.cqError die q .perm w)))
  ∧ StreamRow Instr.cmdNop 0 (fun _ _ => True) (fun t _ _ c => t.cmdNow c .ok)
  ∧ StreamRow Instr.launch 1 (fun c t => ¬ launchFits c t ∧ ∀ i ∈ launchTiles c, t.tileRetired c.die i = false)
      (fun t die q c => t.cqError die q .perm c.word)
  ∧ StreamRow Instr.launch 1 (fun c t => ∃ i ∈ launchTiles c, t.tileRetired c.die i = true)
      (fun t die q c => t.cqError die q .unav c.word)
  ∧ StreamRow Instr.launch 1 (fun c t => launchFits c t ∧ ∀ i ∈ launchTiles c, t.tileRetired c.die i = false) (fun t die q c =>
      let seq := (aGet t.nextLaunch 0 die.val).toNat
      { t with
        launches := t.launches ++ [(⟨die, q, c.head, seq, c.ctx, c.pl, c.word, c.ops, launchTiles c, [], .ok⟩ : Launch)]
        nextLaunch := aSet t.nextLaunch die.val (BitVec.ofNat 32 (seq + 1)) }.cmdBegin { c with info := seq })
  ∧ StreamRow Instr.cmdDma 3 (fun c t => t.dmaSt (.cd c.die) (fld c.word 4 0) = 0 ∧
        t.rf (.cd c.die) .dmaCtx (fld c.word 4 0) 12 12 = 1 ∧ t.rf (.cd c.die) .dmaCtx (fld c.word 4 0) 11 0 = c.ctx) (fun t die q c =>
      let va := (c.opnd 0).toNat / 64 * 64
      ((t.cmdRun c).setReg (.cd die) .dmaChain (fld c.word 4 0) (BitVec.ofNat 64 (va % 2 ^ 57))).dmaStart
        (.cd die) (fld c.word 4 0) va (some c.id) q)
  ∧ StreamRow Instr.cmdDma 3 (fun c t => t.dmaSt (.cd c.die) (fld c.word 4 0) ≠ 6 ∧
        (t.rf (.cd c.die) .dmaCtx (fld c.word 4 0) 12 12 = 0 ∨ t.rf (.cd c.die) .dmaCtx (fld c.word 4 0) 11 0 ≠ c.ctx))
      (fun t _ _ c => startedWith t c .perm 0)
  ∧ StreamRow Instr.cmdDma 3 (fun c t => t.dmaSt (.cd c.die) (fld c.word 4 0) = 6) (fun t _ _ c => startedWith t c .unav 0)
  ∧ StreamRow Instr.cmdDma 3 (fun c t => t.dmaSt (.cd c.die) (fld c.word 4 0) ≠ 0 ∧ t.dmaSt (.cd c.die) (fld c.word 4 0) ≠ 6 ∧
        t.rf (.cd c.die) .dmaCtx (fld c.word 4 0) 12 12 = 1 ∧ t.rf (.cd c.die) .dmaCtx (fld c.word 4 0) 11 0 = c.ctx)
      (fun t die q _ => t.cqWait die q)
  ∧ StreamRow Instr.cmdBurr 4 (fun c t => (c.opnd 1 = 0 ∨ (c.opnd 0).toNat % 64 ≠ 0) ∧
        ∀ b ∈ burrsOf c.die (c.opnd 1).toNat, t.burGone b = false) (fun t _ _ c => startedWith t c .perm 0)
  ∧ StreamRow Instr.cmdBurr 4 (fun c t => (c.opnd 0).toNat % 64 ≠ 0 ∧ ∃ b ∈ burrsOf c.die (c.opnd 1).toNat, t.burGone b = true)
      (fun t _ _ c => startedWith t c .unav 0)
  ∧ (∀ (die : Fin 4) (q : Nat) (s t u v : State) (w : W64) (ops : List W64) (l m : List Byte), s.cqFront die q = .word w ops t →
      cwOp w = 4 → cwFormatOk (s.call? die q).isSome w ops = true →
      let c := t.cqCmd die q w ops
      let mask := (c.opnd 1).toNat
      c.opnd 1 ≠ 0 → (c.opnd 0).toNat % 64 = 0 → t.vaSpan (.cp die) c.ctx c.pl (c.opnd 0).toNat 64 = .ok (.ok, l, u) →
      (∀ b ∈ burrsOf die mask, t.burGone b = false) → u.burrHeaderOk die (leNat l) = true →
      u.vaSpan (.cp die) c.ctx c.pl ((c.opnd 0).toNat + 64) (32 * bhNops (leNat l)) = .ok (.ok, m, v) →
      burrOpsOk (leNat l) (opsList (bhNops (leNat l)) m) = true →
      Gives (.cmdBurr die q) s ({ v with blaunches := v.blaunches ++
        [(⟨c.id, die, c.ctx, c.pl, leNat l, opsList (bhNops (leNat l)) m, mask, mask, 0, .ok, false⟩ : BLaunch)] }.cmdBegin c))
  ∧ StreamRow Instr.feed 5 (fun c t => ¬ feedOk c ∧ ∀ b ∈ burrsOf c.die (c.opnd 1).toNat, t.burGone b = false)
      (fun t _ _ c => startedWith t c .perm 0)
  ∧ StreamRow Instr.feed 5 (fun c t => ∃ b ∈ burrsOf c.die (c.opnd 1).toNat, t.burGone b = true)
      (fun t _ _ c => startedWith t c .unav 0)
  ∧ StreamRow Instr.feed 5 (fun c t => feedOk c ∧ ∀ b ∈ burrsOf c.die (c.opnd 1).toNat, t.burGone b = false) (fun t die _ c =>
      { t with feeds := t.feeds ++
        [(⟨c.id, die, c.ctx, c.pl, c.opnd 0, fld c.word 47 32, fld c.word 31 16, c.opnd 2, (c.opnd 1).toNat, .ok⟩ : Feed)] }.cmdRun c)
  ∧ StreamRow Instr.cmdSample 6 (fun _ _ => True) (fun t _ _ c => t.cmdBegin c)
  ∧ StreamRow Instr.waitc 7 (fun c t => fld c.word 47 0 ≤ t.rf (.cd c.die) .cqCount c.queue 62 0) (fun t _ _ c => t.cmdNow c .ok)
  ∧ StreamRow Instr.waitc 7 (fun c t => t.rf (.cd c.die) .cqCount c.queue 62 0 < fld c.word 47 0) (fun t die q _ => t.cqWait die q)
  ∧ StreamRow Instr.waitm 8 (fun _ _ => True) (fun t _ _ c => t.cmdBegin c)
  ∧ (∀ (die : Fin 4) (q : Nat) (s t u : State) (w : W64) (ops : List W64) (st : Status), s.cqFront die q = .word w ops t →
      cwFormatOk (s.call? die q).isSome w ops = true →
      let c := t.cqCmd die q w ops
      (cwOp w = 9 → (w.getLsbD 1 = true → t.allEarlier die q = true) →
        t.vaPut (.cp die) c.ctx c.pl (c.opnd 0).toNat (leBytes 8 (c.opnd 1).toNat) = .ok (st, u) →
        Gives (.cmdWrite die q) s (u.cmdNow c st)) ∧
      (cwOp w = 9 → w.getLsbD 1 = true → t.allEarlier die q = false → Gives (.cmdWrite die q) s (t.cqWait die q)) ∧
      (cwOp w = 10 → t.vaPut (.cp die) c.ctx c.pl (c.opnd 0).toNat (leBytes 8 t.now.toNat) = .ok (st, u) →
        Gives (.cmdTime die q) s (u.cmdNow c st)))
  ∧ StreamRow Instr.cmdFence 11 (fun c t => t.allEarlier c.die c.queue = true) (fun t _ _ c => t.cmdNow c .ok)
  ∧ StreamRow Instr.cmdFence 11 (fun c t => t.allEarlier c.die c.queue = false) (fun t die q _ => t.cqWait die q)
  ∧ StreamRow Instr.event 12 (fun _ _ => True) (fun t die q c =>
      (t.post (.cd die) 0 (t.cqEq die q)
        (eventBytes 10 .ok c.ctx (0x4000 + die.val) q (BitVec.ofNat 64 (fld c.word 47 0)) t.now [])).cmdNow c .ok)
  ∧ StreamRow Instr.cmdXltInv 13 (fun c t => t.running .hub false = true ∧ t.hubCmd = none ∧
        t.invRight c.pl c.ctx (fld c.word 13 12) (fld c.word 11 0) (fld c.word 23 16) = true) (fun t die _ c =>
      ({ t with hubCmd := some ⟨16, 2, fld c.word 11 0, 0, fld c.word 13 12, fld c.word 23 16, c.opnd 0, die.val, c.id, true,
          t.drains (t.invCtx (fld c.word 13 12) (fld c.word 11 0) (fld c.word 23 16))⟩ }.invalidate
        (fld c.word 13 12) (fld c.word 11 0) (fld c.word 23 16) (c.opnd 0)).cmdRun c)
  ∧ StreamRow Instr.cmdXltInv 13 (fun c t => t.running .hub false = true ∧
        t.invRight c.pl c.ctx (fld c.word 13 12) (fld c.word 11 0) (fld c.word 23 16) = false) (fun t _ _ c => startedWith t c .perm 0)
  ∧ StreamRow Instr.cmdXltInv 13 (fun c t => t.running .hub false = true ∧ t.hubCmd ≠ none ∧
        t.invRight c.pl c.ctx (fld c.word 13 12) (fld c.word 11 0) (fld c.word 23 16) = true) (fun t die q _ => t.cqWait die q)
  ∧ StreamRow Instr.cmdXltInv 13 (fun _ t => t.running .hub false = false) (fun t _ _ c => startedWith t c .unav 0)
  ∧ StreamRow Instr.cmdCall 14 (fun _ _ => True) (fun t die q c => { t with
        nextCmd := t.nextCmd + 1
        calls := aSet t.calls (die.val, q) ⟨{ c with started := true }, (c.opnd 0).toNat, fld c.word 19 0, 0⟩
        cqTurn := aSet t.cqTurn die.val q }.cqSettle die q)
  ∧ (∀ r ∈ streamRows, ∀ (die : Fin 4) (q : Nat) (s t : State) (w : Wait) (x : W64),
    (s.cqFront die q = .wait w → Gives (r.1 die q) s (s.await w)) ∧
    (s.cqFront die q = .part x t → cwOp x = r.2 → Gives (r.1 die q) s (t.cqWait die q))))
  ∧ ((∀ (die : Fin 4) (q : Nat) (s t : State) (c : Cmd) (st : Status) (hit : Bool), s.waitm die q = some c → s.waitmRead c = .ok (st, hit, t) →
    Gives (.waitmPoll die q) s (if hit then t.cmdOver c st else t) ∧
    (fld c.word 31 16 ≠ 0 → Gives (.waitmTimeout die q) s (t.cmdOver c (if hit then st else .tout))) ∧
    (fld c.word 31 16 = 0 → Gives (.waitmTimeout die q) s s))
  ∧ (∀ (s t : State) (c : Cmd) (l : List Byte), s.vaSpan (.cp c.die) c.ctx c.pl (c.opnd 0).toNat 8 = .ok (.ok, l, t) →
    ∃ hit, s.waitmRead c = .ok (.ok, hit, t) ∧
      (hit = true ↔ if fld c.word 1 0 = 0 then leNat l = (c.opnd 1).toNat
        else if fld c.word 1 0 = 1 then leNat l ≠ (c.opnd 1).toNat else (c.opnd 1).toNat ≤ leNat l))
  ∧ (∀ (die : Fin 4) (id : Nat) (s : State) (c : Cmd), s.cmd? die id = some c → s.running (.cd die) true = true →
    s.prodHeld (.cd die) 0 = false → c.started = true →
    (∀ st, c.fin = some st → cwOp c.word ≠ 6 ∨ cwE c.word = false →
      Gives (.commandComplete die id) s ((s.completeCmd c st).cqSettle die c.queue)) ∧
    (∀ st, c.fin = some st → cwOp c.word = 6 → cwE c.word = true → ∃ tag,
      let t := s.completeCmd c st
      Gives (.commandComplete die id) s ((t.post (.cd die) 0 (t.cqEq die c.queue)
        (eventBytes 3 st c.ctx (0x4000 + die.val) c.queue tag t.now (smpFail st).bytes)).cqSettle die c.queue)) ∧
    (c.fin = none → cwOp c.word ≠ 1 → Gives (.commandComplete die id) s s) ∧
    (∀ l, c.fin = none → cwOp c.word = 1 →
      s.launches.find? (fun l => decide (l.die = die) && decide (l.seq = c.info)) = some l →
      (l.todo = [] ∧ l.live = [] → Gives (.commandComplete die id) s
        (({ s with launches := s.launches.filter fun x => decide (¬ (x.die = die ∧ x.seq = c.info)) }.completeCmd c l.st).cqSettle
          die c.queue)) ∧
      (¬ (l.todo = [] ∧ l.live = []) → Gives (.commandComplete die id) s s))))

namespace Sys2Proof.Machine

/-- A write of CQ_CFG or EQ_CFG that is stored on top of `v`, and what `f` makes of that; or its refusal. -/
def CfgRow (i : Instr) (w : Wr) (n : RegName) (s v : State) (f : State → State) : Prop :=
  (∀ t, v.ctlStore w.die n 0 w.pl w.ctx w.val = (.ok, t) → Gives i s (f t)) ∧
  (∀ st t, st ≠ .ok → v.ctlStore w.die n 0 w.pl w.ctx w.val = (st, t) → Gives i s (t.answer st 0))
/-- A software push into a queue that is not full: the entry goes to the ring, or waits for its write (R355). -/
def SoftPush (i : Instr) (w : Wr) (s v t : State) (q : Nat) : Prop :=
  let full := t.rf w.die .eqStatus q 34 32 = 0 ∨ (t.rf w.die .eqStatus q 34 32 = 1 ∧ 256 ≤ t.rf w.die .eqStatus q 8 0)
  (full → Gives i s ((t.setRf w.die .eqStatus q 40 40 1).answer .ok 0)) ∧
  (¬ full → ∀ x,
    t.eqTry w.die q (eventBytes 10 .ok w.ctx 0x6000 0xFF (BitVec.ofNat 64 (fld w.val 63 32)) t.now []) = x →
    (∀ r, x = .ok r → Gives i s (r.2.answer .ok 0)) ∧ (∀ e, x = .error e → Gives i s (v.await e)))

end Sys2Proof.Machine

/-- Registers of command queues and event queues as software writes them (R347, R348, R354, R355, R359). -/
def Obligations.QueueRegisters : Prop :=
  (∀ (w : Wr) (n : Fin 4) (s : State), w.die = .cd n → s.gate w.die .cqDoorbell w.pl w.ctx = .ok →
    let q := w.idx % 64
    let T := fld w.val 31 0
    let mayRing := s.cqSt n q ≠ 5 ∧ w.ctx = s.rf w.die .cqCfg q 11 0 ∧ w.pl ≤ s.rf w.die .cqCfg q 49 48 ∧
      (T + 2 ^ 32 - s.cqTail n q) % 2 ^ 32 < 2 ^ 31
    (¬ mayRing → Gives (.cqDoorbell w) s (s.answer .perm 0)) ∧
    (mayRing → s.cqWords n q < (T + 2 ^ 32 - s.cqHead n q) % 2 ^ 32 → Gives (.cqDoorbell w) s (s.answer .busy 0)) ∧
    (mayRing → (T + 2 ^ 32 - s.cqHead n q) % 2 ^ 32 ≤ s.cqWords n q →
      Gives (.cqDoorbell w) s ((((s.setRf w.die .cqPtr q 63 32 T).cqSettle n q).wakeIf 2 q).answer .ok 0)))
  ∧ (∀ (w : Wr) (n : Fin 4) (s : State), w.die = .cd n →
    let v := s.touch w.die .cqCfg
    let q := v.selUnit w.die w.pl .cq
    v.gate w.die .cqCfg w.pl w.ctx = .ok →
    (v.rf w.die .cqCfg q 12 12 = 0 → w.val.getLsbD 12 = true → CfgRow (.cqEnable w) w .cqCfg s v fun t =>
      if versionOk (v.reg w.die .cqIfVersion 0) (fld w.val 47 32) = true then
        (({ t with calls := aErase t.calls (n.val, q) }.setReg w.die .cqPtr q 0).setCqSt n q 0).answer .ok 0
      else v.answer .busy 0) ∧
    (v.rf w.die .cqCfg q 12 12 = 1 → w.val.getLsbD 12 = false → CfgRow (.cqDisable w) w .cqCfg s v fun t =>
      if v.cqSt n q = 1 ∨ v.cqSt n q = 2 ∨ v.cmds.any (fun c => decide (c.die = n) && decide (c.queue = q) && c.started) = true then
        v.answer .busy 0
      else ((t.cqDiscard n q).setCqSt n q 5).answer .ok 0))
  ∧ (∀ (w : Wr) (s : State),
    let v := s.touch w.die .eqCfg
    let q := v.selUnit w.die w.pl .eq
    v.gate w.die .eqCfg w.pl w.ctx = .ok →
    (v.rf w.die .eqCfg q 12 12 = 0 → w.val.getLsbD 12 = true → CfgRow (.eqEnable w) w .eqCfg s v fun t =>
      ((((t.setRf w.die .eqStatus q 63 48 0).setRf w.die .eqStatus q 34 32 1).setRf w.die .eqStatus q 23 16 0).setRf
        w.die .eqStatus q 8 0 0).answer .ok 0) ∧
    (v.rf w.die .eqCfg q 12 12 = 1 → w.val.getLsbD 12 = false →
      CfgRow (.eqDisable w) w .eqCfg s v fun t =>
        if v.rf w.die .eqStatus q 8 0 ≠ 0 ∨ v.heldEv.any (fun h => decide (h.die = w.die) && decide (h.queue = q)) = true then
          v.answer .busy 0
        else (t.setRf w.die .eqStatus q 34 32 0).answer .ok 0))
  ∧ (∀ (w : Wr) (s : State),
    let v := s.touch w.die .eqOp
    let q := v.selUnit w.die w.pl .eq
    let n := fld w.val 8 0
    let d := v.rf w.die .eqStatus q 8 0
    v.gate w.die .eqOp w.pl w.ctx = .ok →
    (n ≠ 0 → n ≤ d → w.val.getLsbD 9 = false →
      let t := (v.setRf w.die .eqStatus q 8 0 (d - n)).setRf w.die .eqStatus q 23 16 ((v.rf w.die .eqStatus q 23 16 + n) % 256)
      Gives (.eqPop w) s ((if d - n = 0 then t else t.eqInterrupt w.die q).answer .ok 0)) ∧
    (d < n → w.val.getLsbD 9 = false → Gives (.eqPop w) s ((v.setRf w.die .eqStatus q 40 40 1).answer .ok 0)) ∧
    (n = 0 → w.val.getLsbD 9 = false → Gives (.eqPop w) s (v.answer .ok 0)) ∧
    (n ≠ 0 → w.val.getLsbD 9 = true → SoftPush (.eqPop w) w s v ((v.eqPop w.die q n).retryQueue w.die q) q) ∧
    (n = 0 → w.val.getLsbD 9 = true → SoftPush (.eqPush w) w s v (v.retryQueue w.die q) q))
  ∧ (∀ (d : Die) (prod : Nat) (s : State) (h : HeldEv), s.ctlUp d true = true →
    s.heldEv.find? (fun h => decide (h.die = d) && decide (h.prod = prod)) = some h →
    let t := s.retryBelow d h.queue prod
    (s.pushTurn d h.queue prod = true →
      let r := s.eqPush d h.queue h.ev
      Gives (.eventPushRetry d prod) s (if r.1 = true then
        { r.2 with heldEv := lDrop (fun x => decide (x.die = d) && decide (x.prod = prod)) r.2.heldEv } else r.2)) ∧
    (t.pushTurn d h.queue prod = true → Gives (.eventPushRetry d prod) s (t.retryHeld d prod)) ∧
    (t.pushTurn d h.queue prod = false → Gives (.eventPushRetry d prod) s t))

/-! ### Control registers (Chapters 00, 01 and every register table) -/

namespace Sys2Proof.Machine

/-- The register whose group an access falls into. -/
def groupOf (d : Die) (off size : Nat) : Option RegName :=
  match ctlFind d off size with
  | .reg n _ => some n
  | _ => ctlGroup d off
/-- A write of the operation field OP of its register. -/
def opIs (hi lo k : Nat) (w : Wr) : Bool := decide (fld w.val hi lo = k)
def anyVal (_ : Wr) : Bool := true
/-- A command that is a write of a register, the register, and the values whose write it is. -/
abbrev WriteRow := (Wr → Instr) × RegName × (Wr → Bool)
/-- The commands that are writes of a register, with the register and the values whose write each is. -/
def IsWriteRow (r : WriteRow) : Prop :=
  r ∈ ([(Instr.burrDisable, .burState, opIs 0 0 0), (Instr.burrEnable, .burState, opIs 0 0 1), (Instr.samplerDisable, .smpState, opIs 0 0 0),
   (Instr.samplerEnable, .smpState, opIs 0 0 1), (Instr.bandModeWrite, .memBandMode, anyVal),
   (Instr.pchThresholdClear, .memPchState, anyVal), (Instr.tgStart, .tgCtrl, anyVal), (Instr.retireGo, .memRetireCtrl, anyVal)] : List WriteRow)
  ∨ r ∈ ([(Instr.cptWrite, .cptCmd, anyVal), (Instr.writeSync, .cptCmd, anyVal), (Instr.cptSync, .cptCmd, anyVal), (Instr.cptRead, .cptCmd, anyVal),
   (Instr.setRoot, .cptCmd, anyVal), (Instr.fdtWrite, .cptCmd, anyVal), (Instr.fdtSync, .cptCmd, anyVal), (Instr.fdtRead, .cptCmd, anyVal),
   (Instr.cdtWrite, .cptCmd, anyVal), (Instr.cdtSync, .cptCmd, anyVal), (Instr.cdtRead, .cptCmd, anyVal), (Instr.xltInv, .xltInvCmd, anyVal)] : List WriteRow)
  ∨ r ∈ ([(Instr.dmaGo, .dmaCtrl, anyVal), (Instr.dmaResume, .dmaCtrl, anyVal), (Instr.dmaAbort, .dmaCtrl, anyVal), (Instr.dmaPause, .dmaCtrl, anyVal),
   (Instr.dmaDisable, .dmaCtrl, anyVal), (Instr.dmaEnable, .dmaCtrl, anyVal), (Instr.cqDoorbell, .cqDoorbell, anyVal),
   (Instr.cqEnable, .cqCfg, anyVal), (Instr.cqDisable, .cqCfg, anyVal), (Instr.eqEnable, .eqCfg, anyVal), (Instr.eqDisable, .eqCfg, anyVal),
   (Instr.eqPop, .eqOp, fun w => !opIs 8 0 0 w), (Instr.eqPush, .eqOp, fun w => opIs 8 0 0 w && opIs 9 9 1 w)] : List WriteRow)
  ∨ r ∈ ([(Instr.preempt, .cqPreempt, opIs 55 52 1), (Instr.preemptResume, .cqPreempt, opIs 55 52 2), (Instr.restore, .cqPreempt, opIs 55 52 3),
   (Instr.bsave, .cqPreempt, opIs 55 52 4), (Instr.brestore, .cqPreempt, opIs 55 52 5), (Instr.release, .cqPreempt, opIs 55 52 6),
   (Instr.kill, .cqPreempt, opIs 55 52 7), (Instr.sluiceCtrlWrite, .hubSluiceCtrl, anyVal), (Instr.mrcSqDoorbell, .mrcSqDoorbell, anyVal),
   (Instr.sqEnable, .mrcSqCfg, anyVal), (Instr.sqDisable, .mrcSqCfg, anyVal), (Instr.snapSave, .mrcSnapCmd, opIs 55 52 1),
   (Instr.snapRestore, .mrcSnapCmd, opIs 55 52 2), (Instr.snapDrop, .mrcSnapCmd, opIs 55 52 3)] : List WriteRow)
  ∨ r ∈ ([(Instr.targetWrite, .pwrLimit, anyVal), (Instr.pwrSnapTake, .pwrSnap, anyVal), (Instr.requestN3, .pwrStateCtrl, anyVal),
   (Instr.requestN4, .pwrStateCtrl, anyVal), (Instr.lattolWrite, .pwrStateCtrl, anyVal), (Instr.faultClear, .fltCtrl, anyVal),
   (Instr.pkgclear, .fltCtrl, anyVal), (Instr.faultForce, .fltForce, anyVal), (Instr.aliveRestart, .fltAlive, anyVal),
   (Instr.wdtEnable, .fltWdt, anyVal), (Instr.wdtKick, .fltWdt, anyVal), (Instr.tileRetire, .fltTileRetire, anyVal),
   (Instr.resetRequest, .fltResetReq, anyVal), (Instr.fwConfirm, .fwStatus, anyVal), (Instr.pinMuxWrite, .pinMux, anyVal)] : List WriteRow)

end Sys2Proof.Machine

/-- R42: the registers of one group have one minimum privilege level; an access from a less privileged level to a group of a
domain that runs completes with PERM, a read of it returns zero, and a write has no effect: REGISTER_WRITE and every command that is a
write of a register change only the answer, with the package in N0 and no entry to a state tried, where an access is no wake. -/
def Obligations.LessPrivilegedAccessesArePermission : Prop :=
  (∀ (d : Die) (n m : RegName), (regInfo n).here d = true → (regInfo m).here d = true → (regInfo n).off / 4096 = (regInfo m).off / 4096 →
    (regInfo n).minPL = (regInfo m).minPL)
  ∧ (∀ (s : State) (st : Status), st ≠ .held → s.answer st 0 = { s with last := ⟨st, 0⟩ })
  ∧ (∀ (s : State) (d : Die) (off size pl ctx : Nat) (n : RegName), groupOf d off size = some n →
    s.asleep d (regInfo n).tileDom = false → s.ctlUp d (regInfo n).tileDom = true → (regInfo n).minPL < pl →
    s.ctlRead1 d off size pl ctx = (.perm, 0) ∧
    ∀ val : W64, s.pwrTry = none → s.pwrTarget = 0 →
      (∀ r idx, ctlFind d off size = .reg r idx → ownRow r (s.reg d r (s.regKey d r idx pl)) val = false) →
      Gives (.registerWrite ⟨d, off, size, pl, ctx, val⟩) s (s.answer .perm 0))
  ∧ (∀ r, IsWriteRow r → ∀ (w : Wr) (s : State), (regInfo r.2.1).here w.die = true → r.2.2 w = true → s.pwrTry = none → s.pwrTarget = 0 →
    s.asleep w.die (regInfo r.2.1).tileDom = false → s.ctlUp w.die (regInfo r.2.1).tileDom = true → (regInfo r.2.1).minPL < w.pl →
    Gives (r.1 w) s (s.answer .perm 0))
  ∧ (∀ (w : Wr) (n : Nat) (l : List Disturb) (s : State), (regInfo .tgCtrl).here w.die = true →
    s.asleep w.die (regInfo .tgCtrl).tileDom = false → s.ctlUp w.die (regInfo .tgCtrl).tileDom = true → (regInfo .tgCtrl).minPL < w.pl →
    Gives (.tgAbort w n l) s (s.answer .perm 0))

/-- REGISTER_WRITE (R41-R43): a register that takes the value holds what `ctlValue` makes of it, a counter with its sticky flag where
an increment met the write (R18), and nothing else changes but the wake that an access to a tile register group is (R403). A place that
holds no register, in a defined group or in none, ignores the write and reads as zero; a misplaced or wrong-sized access, one of CTXID 0
from above PL0 or of a level below its group's, a domain that does not run and a refused value change only the answer, and the wake. -/
def Obligations.RegisterWriteEffects : Prop :=
  ∀ (w : CtlWrite) (s : State),
    (∀ n idx, ctlFind w.die w.off w.size = .reg n idx →
      let v := s.touch w.die n
      let key := v.regKey w.die n idx w.pl
      let r := v.ctlValue w.die n key w.pl w.ctx w.val
      let t : State := { v.setReg w.die n key (v.counterWrite n r.2) with free := if isCounter n = true then v.free + 1 else v.free }
      ownRow n (s.reg w.die n (s.regKey w.die n idx w.pl)) w.val = false →
        (v.gate w.die n w.pl w.ctx = .ok → r.1 = .ok → n ≠ .pwrRtcAlarm → Gives (.registerWrite w) s (t.answer .ok 0)) ∧
        (v.gate w.die n w.pl w.ctx = .ok → r.1 = .ok → n = .pwrRtcAlarm → Gives (.registerWrite w) s (t.alarmCheck.answer .ok 0)) ∧
        (v.gate w.die n w.pl w.ctx = .ok → r.1 ≠ .ok → Gives (.registerWrite w) s (v.answer r.1 0)) ∧
        (v.gate w.die n w.pl w.ctx ≠ .ok → v.gate w.die n w.pl w.ctx ≠ .held →
          Gives (.registerWrite w) s (v.answer (v.gate w.die n w.pl w.ctx) 0)) ∧
        (v.gate w.die n w.pl w.ctx = .held →
          Gives (.registerWrite w) s ({ v with held := v.held ++ [Instr.registerWrite w] }.wakeIf 6 0))) ∧
    (∀ (bad : Bool), ctlFind w.die w.off w.size = (if bad then .bad else .free) →
      (ctlGroup w.die w.off = none →
        Gives (.registerWrite w) s (s.answer (if s.ctlUp w.die false = false then .unav
          else if bad = true ∨ (w.ctx = 0 ∧ w.pl ≠ 0) then .perm else .ok) 0)) ∧
      (∀ n, ctlGroup w.die w.off = some n →
        let st := if s.ctlUp w.die (regInfo n).tileDom = false then Status.unav
          else if (regInfo n).minPL < w.pl ∨ bad = true ∨ (w.ctx = 0 ∧ w.pl ≠ 0) then .perm else .ok
        (s.asleep w.die (regInfo n).tileDom = false → s.ctlRead1 w.die w.off w.size w.pl w.ctx = (st, 0) ∧
          Gives (.registerWrite w) s ((s.touch w.die n).answer st 0)) ∧
        (s.asleep w.die (regInfo n).tileDom = true → Gives (.registerWrite w) s
          ({ s.touch w.die n with held := (s.touch w.die n).held ++ [Instr.registerWrite w] }.wakeIf 6 0))))

/-- Access types (Table 0-5): in a write RW takes the value, W1C keeps what is not written with 1, W1S gains what is written with 1, and
RO, RC, WO and RSVD fields and the bits of no field keep what they hold; a read gives every field but WO and RSVD, which read as zero,
and clears the RC fields. -/
def Obligations.FieldsFollowTheirAccessTypes : Prop :=
  ∀ (n : RegName) (old val : W64),
    (∀ f ∈ (regInfo n).fields,
      fld (writeFields n old val) f.hi f.lo =
        (match f.acc with
          | .rw => fld val f.hi f.lo
          | .w1c => fld (old &&& ~~~val) f.hi f.lo
          | .w1s => fld (old ||| val) f.hi f.lo
          | _ => fld old f.hi f.lo) ∧
      fld (readFields n old) f.hi f.lo = (if f.acc = .wo ∨ f.acc = .rsvd then 0 else fld old f.hi f.lo) ∧
      fld (clearedByRead n old) f.hi f.lo = (if f.acc = .rc then 0 else fld old f.hi f.lo)) ∧
    ∀ i, i < 64 → (∀ f ∈ (regInfo n).fields, ¬ (f.lo ≤ i ∧ i ≤ f.hi)) → (writeFields n old val).getLsbD i = old.getLsbD i

/-- The state at the application of the always-on supply: memory is in the canonical form that every step keeps, with nothing listed,
no command waits, and every field of every register holds its table's reset value; HUB_DIE_ID, FLT_REACT and
MEM_RETIRE_CTRL, whose values the die or the source fixes, apart. -/
def Obligations.ResetState : Prop :=
  Memory.wf State.reset.mem = true ∧ State.reset.mem = [] ∧ State.reset.journal = [] ∧ State.reset.pending = [] ∧
  (∀ (d : Die) (n : RegName) (i : Nat), n ≠ .hubDieId → n ≠ .fltReact → n ≠ .memRetireCtrl → ∀ f ∈ (regInfo n).fields,
    State.reset.rf d n i f.hi f.lo = f.rst) ∧
  (∀ (d : Die) (i : Nat), State.reset.rf d .fltReact i 4 0 = defaultReact d i) ∧
  (∀ i : Nat, State.reset.rf .hub .memRetireCtrl i 63 48 = 32768)

/-! ### Pre-emption (Chapter 12) -/

namespace Sys2Proof.Machine

/-- A write of CQ_PREEMPT whose OP is `op`, taken by its register: BUSY where an operation is in progress; otherwise BUSY is set
and `f` follows on the state, the die and the operation; while an access of `f` waits, its request alone goes out (R356). -/
def PreRow (mk : Wr → Instr) (op : Nat) (f : State → Fin 4 → PreOp → Except Wait State) : Prop :=
  ∀ (w : Wr) (n : Fin 4) (s t : State), w.die = .cd n → fld w.val 55 52 = op →
    (s.touch w.die .cqPreempt).ctlStore w.die .cqPreempt 0 w.pl w.ctx w.val = (.ok, t) →
    (s.rf w.die .cqPreempt 0 63 63 = 1 → Gives (mk w) s (s.answer .busy 0)) ∧
    (s.rf w.die .cqPreempt 0 63 63 = 0 →
      match f (t.setRf w.die .cqPreempt 0 63 63 1) n ⟨op, fld w.val 11 0, fld w.val 23 12, [], 0, 0, .ok⟩ with
      | .ok u => Gives (mk w) s (u.answer .ok 0)
      | .error e => Gives (mk w) s (s.await e))
/-- What PREEMPT stops beside blocks: the context's queues, channels, samplers and Burrs. -/
def unitsStopped (t : State) (n : Fin 4) (ctx : Nat) : State :=
  let t1 := t.queuesPause n ctx
  let t2 := (t1.chansOf n ctx).foldl (fun x ch => if x.dmaSt (.cd n) ch = 1 then x.dmaAskStop (.cd n) ch 1 else x) t1
  let t3 := (smpsAll n).foldl (fun x u => x.smpPause ctx u) t2
  (burrsAll n).foldl (fun x b => x.burrPause ctx b) t3
/-- The context's blocks on the die that PREEMPT stops, in the order of their images (R356). -/
def stoppable (t : State) (n : Fin 4) (ctx : Nat) : List (Nat × Block) :=
  (t.blocksOn n ctx).filter fun e => decide (e.2.st ≠ .halted)
/-- The context leaves the die's lists of pre-empted contexts and of its images. -/
def forgetContext (t : State) (n : Fin 4) (ctx : Nat) : State :=
  { t with
    preempted := t.preempted.filter fun p => decide (p ≠ (n.val, ctx))
    preImgs := t.preImgs.filter fun p => decide (¬ (p.die = n ∧ p.ctx = ctx)) }
/-- Blocks removed from the die. -/
def blocksGone (t : State) (n : Fin 4) (l : List (Nat × Block)) : State := l.foldl (fun x e => x.blockGone ⟨n, e.1⟩ e.2) t

end Sys2Proof.Machine

/-- The operations of CQ_PREEMPT (R231, R356, R357) and the image of a stopped block. -/
def Obligations.PreemptionOperations : Prop :=
  PreRow Instr.preempt 1 (fun t n o =>
    let t1 := unitsStopped t n o.ctx
    let bs := stoppable t1 n o.ctx
    let t2 := bs.foldl (fun x e => x.setBlock ⟨n, e.1⟩ { e.2 with st := .stopping }) t1
    let t3 : State := { t2 with
      preempted := if t2.preempted.contains (n.val, o.ctx) then t2.preempted else t2.preempted ++ [(n.val, o.ctx)]
      preImgs := t2.preImgs.filter fun p => decide (¬ (p.die = n ∧ p.ctx = o.ctx)) }
    .ok ((t3.setPre n { o with todo := (withIdx bs).map fun e => (e.2.1, e.2.2.bid, e.1) }).preGo n))
  ∧ PreRow Instr.preemptResume 2 (fun t n o =>
    let t1 := { t with preempted := t.preempted.filter fun p => decide (p ≠ (n.val, o.ctx)) }
    let t2 := (t1.queuesOf n o.ctx [3]).foldl (fun x q => (x.setCqSt n q 0).cqSettle n q) t1
    let t3 := (t2.chansOf n o.ctx).foldl (fun x ch => if x.dmaSt (.cd n) ch = 4 then x.dmaGoOn (.cd n) ch else x) t2
    let t4 := (burrsAll n).foldl (fun x b => x.burrResume o.ctx b) t3
    let im := t4.preImgs.filter fun p => decide (p.die = n) && decide (p.ctx = o.ctx)
    .ok ((t4.setPre n { o with todo := im.map fun p => (p.tile, p.va, 0) }).preGo n))
  ∧ PreRow Instr.restore 3 (fun t n o =>
    let i := t.rf (.cd n) .cqPreemptArg 0 22 16
    let k := t.nTiles n.val
    .ok (if k = 0 ∨ 8 * k ≤ i then t.preEnd n { o with st := .perm }
      else if t.tileRetired n i = true then t.preEnd n { o with st := .unav }
      else (t.setPre n { o with todo :=
        [(16 * (i / k) + i % k, va57 (t.rf (.cd n) .cqPreemptArea 0 56 0) + 0x200000 * t.rf (.cd n) .cqPreemptArg 0 8 0, 1)] }).preGo n))
  ∧ PreRow Instr.bsave 4 (fun t n o =>
    let t0 : State := { t with burrImgs := t.burrImgs.filter fun x => decide (¬ (x.die = n ∧ x.ctx = o.ctx)) }
    (t0.burrSaves n o (va57 (t.rf (.cd n) .cqPreemptBarea 0 56 0)) (burrsAll n) .ok).map fun r => r.2.preEnd n { o with st := r.1 })
  ∧ PreRow Instr.brestore 5 (fun t n o =>
    let base := va57 (t.rf (.cd n) .cqPreemptBarea 0 56 0)
    let known := t.burrImgsFor n o.ctx base
    (if known.isEmpty = true then t.burrScan n o base (List.range 64) else .ok (known, t)).bind fun l =>
      (l.2.burrLoads n o base l.1 .ok).map fun r => r.2.preEnd n { o with st := r.1 })
  ∧ PreRow Instr.release 6 (fun t n o =>
    .ok ((blocksGone t n ((t.blocksOn n o.ctx).filter fun e => decide (e.2.st = .halted ∨ e.2.st = .retained))).preEnd n o))
  ∧ PreRow Instr.kill 7 (fun t n o => (t.smpKills o.ctx (smpsAll n)).map fun t0 =>
    let t1 := forgetContext (blocksGone t0 n (t0.blocksOn n o.ctx)) n o.ctx
    let t2 : State := { t1 with
      launches := t1.launches.map fun l =>
        if l.die = n ∧ l.ctx = o.ctx ∧ (l.todo ≠ [] ∨ l.live ≠ []) then
          { l with todo := [], live := l.live.filter (fun e => decide (e.1 ≠ n.val)), st := Status.first l.st .abrt } else l
      burrImgs := t1.burrImgs.filter fun p => decide (¬ (p.die = n ∧ p.ctx = o.ctx))
      feeds := t1.feeds.filter fun f => decide (¬ (f.die = n ∧ f.ctx = o.ctx)) }
    let early := (t2.cmds.filter fun c => decide (c.die = n) && !c.started).map fun c => c.id
    let t3 := (burrsAll n).foldl (fun x b => x.burrKill o.ctx b) t2
    let t4 : State := { t3 with blaunches := (t3.blaunches.filter fun l =>
        !(decide (l.die = n) && decide (l.ctx = o.ctx) && early.contains l.id)).map fun l =>
      if l.die = n ∧ l.ctx = o.ctx ∧ l.left ≠ 0 then
        { l with todo := 0, left := 0, bad := l.bad + l.left, st := Status.first l.st .abrt } else l }
    let qs := t4.queuesOf n o.ctx [0, 1, 2, 3, 4]
    let t5 := qs.foldl (fun x q => (x.setRf (.cd n) .cqCfg q 12 12 0).setCqSt n q 5) (t4.cmdsKill n qs)
    (((t5.chansOf n o.ctx).foldl (fun x ch => (x.setRf (.cd n) .dmaCtrl ch 31 31 0).dmaDisable (.cd n) ch) t5).setPre n o).preGo n)
  ∧ (∀ (b : BlockRef) (s : State) (o : PreOp) (k : Block) (e : Nat × Nat × Nat) (st : Status) (u : State),
    let t := b.tileRef
    let x := s.tile t
    let mx := x.mx.filter fun d => decide (d.bid = b.bid)
    let vx := x.vx.filter fun d => decide (d.bid = b.bid)
    let va := va57 (s.rf (.cd t.die) .cqPreemptArea 0 56 0) + 0x200000 * e.2.2
    s.pre? t.die = some o → o.op = 1 → x.block? b.bid = some k → k.st = .stopping → x.stopped b.bid = true →
    s.running (.cd t.die) true = true → o.todo.find? (fun e => decide (e.1 = t.tile) && decide (e.2.1 = b.bid)) = some e →
    s.putPieces (.tile t) o.sctx (s.imgLevel t.die o.sctx) va (imagePieces x k mx vx) = .ok (st, u) →
    (st ≠ .ok → Gives (.blockImageWritten b) s (((u.setBlock t { k with st := .retained }).setPre t.die
      { o with todo := o.todo.filter fun z => decide (z ≠ e), retained := o.retained + 1, st := Status.first o.st st }).preGo t.die)) ∧
    (st = .ok →
      let pa := match u.xlate (.tile t) o.sctx (s.imgLevel t.die o.sctx) 1 va with | .ok (.ok pa _, _) => pa | _ => 0
      let y := u.tile t
      let u1 := u.setTile t { y.dropBlock b.bid with
        mx := y.mx.filter fun d => decide (d.bid ≠ b.bid), vx := y.vx.filter fun d => decide (d.bid ≠ b.bid) }
      let side : PreSide := ⟨pa, o.ctx, b.bid, t, k.pl, k.lanegen, k.vxUsed, k.issued, k.groups.map fun g => g.issued, mx, vx⟩
      let u2 : State := { u1 with
        preImgs := u1.preImgs ++ [⟨t.die, o.ctx, t.tile, va⟩]
        preSides := (u1.preSides.filter fun p => decide (p.pa ≠ pa)) ++ [side] }
      Gives (.blockImageWritten b) s
        ((u2.setPre t.die { o with todo := o.todo.filter fun z => decide (z ≠ e), saved := o.saved + 1 }).preGo t.die)))

/-! ### Host ports and I/O (Chapter 13) -/

namespace Sys2Proof.Machine

/-- The reason for which the hub refuses a root-port request, 0 for none (R314, R363): the rule for traffic without a context, then
the port's window. -/
def rootPortReason (s : State) (r : Tlp) : Nat :=
  let w := s.reg .hub .hubRpWin r.port
  let inside := w.getLsbD 63 = true ∧ fld w 17 0 ≤ r.pa / 2 ^ 21 ∧ r.pa / 2 ^ 21 ≤ fld w 49 32
  if s.rpReason 4 (b2n r.wr) r.pa ≠ 0 then s.rpReason 4 (b2n r.wr) r.pa else if ¬ inside then 8 else 0
/-- A request that is refused: logged with WHERE 2; a read gets Completer Abort. -/
def tlpRefused (v : State) (x : HubTlp) (why : Nat) : State :=
  let t := v.violate .hub x.pa x.pl (b2n x.wr) why 2 x.rid x.ctx
  if x.wr then t else t.emit .tlp [2, x.port, 2]
/-- A TLP that its port takes (R371): behind earlier ones of the port it waits; else it is done as `f` says. -/
def TlpActs (i : Instr) (s : State) (x : HubTlp) (f : State → State) : Prop :=
  let v := s.newWork .hub 11
  ((∃ y ∈ v.io.tlps, y.port = x.port) → Gives i s { v with io := { v.io with tlps := v.io.tlps ++ [x] } }) ∧
  ((∀ y ∈ v.io.tlps, y.port ≠ x.port) → Gives i s (f v))
/-- A request that nothing refuses at the hub: behind earlier ones of its port it waits; else its line pieces are read or written in
order, and one that waits for an answer is kept (R371). -/
def TlpRuns (i : Instr) (s : State) (x : HubTlp) : Prop :=
  let v := s.newWork .hub 11
  let ps := linePieces x.pa (x.len / 128 + 2) x.len
  let kept : State := { v with io := { v.io with tlps := v.io.tlps ++ [x] } }
  ((∃ y ∈ v.io.tlps, y.port = x.port) → Gives i s kept) ∧
  ((∀ y ∈ v.io.tlps, y.port ≠ x.port) →
    (x.wr = true → match v.paWrites x.rid x.ctx x.pl ps x.data with
      | .ok (st, t) => Gives i s (if st = .ok then t else tlpRefused t x (v.tlpWhy x))
      | .error w => Gives i s (kept.await w)) ∧
    (x.wr = false → match v.paReads x.rid x.ctx x.pl ps with
      | .ok (st, l, t) => Gives i s (if st = .ok then t.emit .tlp [2, x.port, 0, leNat l] else tlpRefused t x (v.tlpWhy x))
      | .error w => Gives i s (kept.await w)))

end Sys2Proof.Machine

/-- PCIe ports, the interrupt window, the Sluice window, the wake doorbell and ordered mode (R362, R363, R367-R369, R373, R405). -/
def Obligations.IoOperations : Prop :=
  (∀ (who : PcieWho) (r : Tlp) (e : PcieEnd) (d : Nat) (s : State), s.region r.pa = .pcie → inIntWindow r.pa = true →
    s.running .hub false = true → Gives (.pcieOutbound who r e d) s (s.answer .perm 0))
  ∧ (∀ (who : PcieWho) (r : Tlp) (e : PcieEnd) (d : Nat) (s : State), s.region r.pa = .pcie → inIntWindow r.pa = false →
    s.running .hub false = true →
    let v := if r.wr = true ∨ e ≠ .ok then 0 else d % 2 ^ (8 * r.len)
    let sent := s.emit .tlp (if r.wr then [1, r.pa, r.len, r.data] else [0, r.pa, r.len])
    (s.outboundMay who = false → Gives (.pcieOutbound who r e d) s (s.answer .perm 0)) ∧
    (s.outboundMay who = true → s.rpUp r.pa = false → Gives (.pcieOutbound who r e d) s (s.answer .unav 0)) ∧
    (s.outboundMay who = true → s.rpUp r.pa = true → (∀ ch, who ≠ .dma ch) →
      Gives (.pcieOutbound who r e d) s (sent.answer e.status (BitVec.ofNat 64 (v % 2 ^ 64)))) ∧
    (∀ ch, who = .dma ch → s.outboundMay who = true → s.rpUp r.pa = true →
      let l := s.io.outb.map fun o => o.ending (s.reqId (.dma .hub ch)) r e.status v
      (l = s.io.outb → Gives (.pcieOutbound who r e d) s (sent.answer e.status (BitVec.ofNat 64 (v % 2 ^ 64)))) ∧
      (l ≠ s.io.outb → Gives (.pcieOutbound who r e d) s
        (({ s with io := { s.io with outb := l } } : State).answer e.status (BitVec.ofNat 64 (v % 2 ^ 64))))))
  ∧ (PcieEnd.ok.status = .ok ∧ PcieEnd.unsupported.status = .perm ∧ PcieEnd.aborted.status = .perm ∧ PcieEnd.timeout.status = .tout ∧
    PcieEnd.poisoned.status = .pois)
  ∧ (∀ (r : Tlp) (s : State), s.portIo r.port = true → inIntWindow r.pa = false →
    let x : HubTlp := ⟨.mem, r.port, r.wr, r.pa, r.len, r.data, 0x8000 + r.port, 0, 0⟩
    (rootPortReason s r ≠ 0 → Gives (.rootPortRequest r) s (tlpRefused (s.newWork .hub 11) x (rootPortReason s r))) ∧
    (rootPortReason s r = 0 → TlpRuns (.rootPortRequest r) s x))
  ∧ (∀ (r : Tlp) (s : State), s.portIo r.port = true → inIntWindow r.pa = true →
    let core := r.pa / 2 ^ 6 % 2 ^ 7
    let fits := r.wr = true ∧ r.len = 4 ∧ core < 96
    let x : HubTlp := ⟨.irq, r.port, r.wr, r.pa, r.len, r.data, 0x8000 + r.port, 0, 0⟩
    (fits → TlpActs (.interruptWindowWrite r) s x fun v => v.emit .interrupt [core, r.data % 256]) ∧
    (¬ fits → TlpActs (.interruptWindowWrite r) s x fun v => v.violate .hub r.pa 0 (if r.wr then 1 else 0) 8 2 (0x8000 + r.port) 0))
  ∧ (∀ (r : Tlp) (s : State), s.portMode r.port 1 = true → r.pa + r.len ≤ 2 ^ 28 →
    let c := s.reg .hub .hubSluiceCtrl 0
    let pa := fld c 51 28 * 2 ^ 28 + r.pa
    let x : HubTlp := ⟨.mem, r.port, r.wr, pa, r.len, r.data, 0x7000 + r.port, fld c 11 0, fld c 62 61⟩
    let why := if s.region pa = .cxl then 0 else s.protReason 4 (fld c 11 0) (fld c 62 61) (b2n r.wr) 0 pa
    (c.getLsbD 63 = false → r.wr = true → Gives (.sluiceAccess ⟨false, r⟩) s s) ∧
    (c.getLsbD 63 = false → r.wr = false → Gives (.sluiceAccess ⟨false, r⟩) s (s.emit .tlp [2, r.port, 1])) ∧
    (c.getLsbD 63 = true → why ≠ 0 → Gives (.sluiceAccess ⟨false, r⟩) s (tlpRefused (s.newWork .hub 11) x why)) ∧
    (c.getLsbD 63 = true → why = 0 → TlpRuns (.sluiceAccess ⟨false, r⟩) s x))
  ∧ (∀ (r : Tlp) (s : State), s.portMode r.port 1 = true → r.pa + r.len ≤ 2 ^ 16 →
    let x : HubTlp := ⟨.bar2, r.port, r.wr, r.pa, r.len, r.data, 0x7000 + r.port, 0, 0⟩
    (r.wr = false → TlpActs (.sluiceAccess ⟨true, r⟩) s x fun v =>
      v.emit .tlp [2, r.port, 0, leNat ((List.range r.len).map fun i => v.bar2Byte (r.pa + i))]) ∧
    (r.wr = true →
      let bytes := (withIdx (leBytes r.len r.data)).filter fun e => decide (r.pa + e.1 < 0x1000)
      TlpActs (.sluiceAccess ⟨true, r⟩) s x fun v => State.msixFlush
        { v with msix := { v.msix with table := bytes.foldl (fun m e => aSet m (r.pa + e.1) e.2) v.msix.table } } r.port))
  ∧ (∀ (w : Wr) (s t : State) (st : Status), s.ctlStore w.die .hubSluiceCtrl 0 w.pl w.ctx w.val = (st, t) →
    let r := t.reg .hub .hubSluiceCtrl 0
    let r1 := if fld r 62 61 = 0 then setFld r 62 61 1 else r
    let r2 := if fld r1 11 0 = 0 then setFld r1 11 0 1 else r1
    (st = .ok → Gives (.sluiceCtrlWrite w) s ((t.setReg .hub .hubSluiceCtrl 0 r2).answer .ok 0)) ∧
    (st ≠ .ok → Gives (.sluiceCtrlWrite w) s (t.answer st 0)))
  ∧ (∀ (s : State), s.running .hub false = true → s.rf .hub .hubOrderStatus 0 2 0 ≠ 0 → (s.reg .hub .hubOrderStatus 0).getLsbD 31 = false →
    Gives .orderedModeEnter s (s.setReg .hub .hubOrderStatus 0 (setFld (setFld (s.reg .hub .hubOrderStatus 0) 31 31 1) 30 30 0)))
  ∧ (∀ (r : Tlp) (s : State), s.portMode r.port 1 = true → s.pwrTarget = 3 →
    (r.wr = true ∧ r.pa = 0x3000 ∧ r.len = 4 → Gives (.endpointWakeDoorbell r) s (s.wakeIf 2 255)) ∧
    (¬ (r.wr = true ∧ r.pa = 0x3000 ∧ r.len = 4) → Gives (.endpointWakeDoorbell r) s s))

/-! ### The Millrace fabric (Chapter 13) -/

namespace Sys2Proof.Machine

/-- The read of a queue's next descriptor, with nothing in its way: the queue runs, has a descriptor left, and its producer holds no
event (R380). -/
def SqReads (s : State) (q : Nat) (r : Except Wait (Status × List Byte × State)) : Prop :=
  s.running .hub false = true ∧ q < 64 ∧ s.sqSt q = 1 ∧ s.sqHead q ≠ s.sqTail q ∧ s.prodHeld .hub (128 + q) = false ∧
    s.vaSpan (.millrace 0) (s.sqCtx q) (s.sqPl q) (va57 (s.rf .hub .mrcSqBase q 56 0) + 64 * (s.sqHead q % s.sqSize q)) 64 = r
/-- A descriptor of the row's operation starts once its FENCE lets it, and HEAD moves on; words that cannot be read stop the queue;
what has to wait leaves its request. -/
def SqRow (mk : Nat → Instr) (mine : Nat → Prop) : Prop :=
  ∀ (q : Nat) (s t : State) (l : List Byte) (st : Status),
    (∀ w, SqReads s q (.error w) → Gives (mk q) s (s.await w)) ∧
    (SqReads s q (.ok (st, l, t)) → st ≠ .ok → Gives (mk q) s (t.sqError q st)) ∧
    (SqReads s q (.ok (.ok, l, t)) → mine (mdOpc (leNat l)) → (mdFence (leNat l) = true → ∀ o ∈ s.mops, o.q ≠ q) →
      (∀ u, t.mrcBegin q (leNat l) (s.sqCtx q) (s.sqPl q) none = .ok u →
        Gives (mk q) s ((u.setRf .hub .mrcSqPtr q 31 0 ((u.sqHead q + 1) % 2 ^ 32)).sqSettle q)) ∧
      (∀ w, t.mrcBegin q (leNat l) (s.sqCtx q) (s.sqPl q) none = .error w → Gives (mk q) s (s.await w))) ∧
    (SqReads s q (.ok (.ok, l, t)) → mine (mdOpc (leNat l)) → mdFence (leNat l) = true → (∃ o ∈ s.mops, o.q = q) → Gives (mk q) s s)

/-- An operation as it begins: number, queue, descriptor and rights, with nothing open. -/
def opAt (s : State) (q d ctx pl : Nat) (parent : Option Nat) : MrcOp := ⟨s.mrcNext, q, d, ctx, pl, parent, 0, [], 0, false, .ok, []⟩
/-- The state with an operation begun. -/
def withOp (t : State) (id : Nat) (o : MrcOp) : State :=
  ({ t with mops := t.mops ++ [o], mrcNext := (id + 1) % 2 ^ 32 } : State).newWork .hub 9
/-- Packets sent by a port, in order. -/
def sendAll (t : State) (port : Nat) (l : List TxPkt) : State := l.foldl (fun x p => x.sendPkt port p) t

/-- A packet that its port takes: the port is up, the protocol major is the port's, and it comes on a lane of its kind. -/
def Arrives (s : State) (p : Pkt) (lane : Bool) : Prop :=
  s.mrcUp p.port = true ∧ p.vmaj = s.rf .hub .mrcPortStatus p.port 15 8 ∧ lane = true
/-- The state in which a packet has been heard of: its station is alive now. -/
def heard (s : State) (p : Pkt) : State := { s with peers := aSet s.peers p.src (s.now, (s.peer p.src).2) }
/-- A packet row: `f` of the state before and of the one that has heard it, then the wake it may be; a response or a VL6 packet with
CTXID 0 is refused and recorded; a packet of another major or lane is dropped and counted. -/
def PktRow (mk : Pkt → Instr) (lane : Pkt → Bool) (f : Pkt → State → State → State → Prop) : Prop :=
  ∀ (p : Pkt) (s : State),
    let refused := p.ctx = 0 ∧ p.vl ≠ 7 ∧ p.onReq = false
    (Arrives s p (lane p) → ¬ refused → ∀ t, f p s (heard s p) t → Gives (mk p) s (t.wakeIf 3 p.port)) ∧
    (Arrives s p (lane p) → refused → Gives (mk p) s (((heard s p).inLog p 1).wakeIf 3 p.port)) ∧
    (s.mrcUp p.port = true → ¬ Arrives s p (lane p) →
      Gives (mk p) s { s with mrcDrops := aSet s.mrcDrops p.port (aGet s.mrcDrops 0 p.port + 1) }) ∧
    (s.mrcUp p.port = false → Gives (mk p) s s)

end Sys2Proof.Machine

/-- Send queues (R348, R359, R380) and the start of operations by kind (R375, R381, R382). Completion (R381, R382): an operation that is over completes; a WAITIN once its word has reached its operand; a COLL starts its
entries one after another with its own offsets added, and ends after the last. -/
def Obligations.MillraceOperations : Prop :=
  ((∀ (w : Wr) (s : State), s.gate w.die .mrcSqDoorbell w.pl w.ctx = .ok →
    let q := w.idx % 64
    let T := fld w.val 31 0
    let may := s.sqSt q ≠ 4 ∧ w.ctx = s.sqCtx q ∧ w.pl ≤ s.sqPl q ∧ (T + 2 ^ 32 - s.sqTail q) % 2 ^ 32 < 2 ^ 31
    (¬ may → Gives (.mrcSqDoorbell w) s (s.answer .perm 0)) ∧
    (may → s.sqSize q < (T + 2 ^ 32 - s.sqHead q) % 2 ^ 32 → Gives (.mrcSqDoorbell w) s (s.answer .busy 0)) ∧
    (may → (T + 2 ^ 32 - s.sqHead q) % 2 ^ 32 ≤ s.sqSize q →
      Gives (.mrcSqDoorbell w) s ((((s.setRf .hub .mrcSqPtr q 63 32 T).sqSettle q).wakeIf 2 (0x80 + q)).answer .ok 0)))
  ∧ (∀ (q : Nat) (s t : State) (l : List Byte) (st : Status), s.running .hub false = true → q < 64 → s.sqSt q ≤ 1 →
    s.rf .hub .mrcSqCfg q 49 49 = 1 →
    s.vaSpan (.millrace 0) (s.sqCtx q) (s.sqPl q) (va57 (s.rf .hub .mrcSqTailaddr q 56 0)) 8 = .ok (st, l, t) →
    (st ≠ .ok → Gives (.sqTailPoll q) s (t.sqError q st)) ∧
    (st = .ok → t.sqTailCheck q (leNat l % 2 ^ 32) = .ok →
      Gives (.sqTailPoll q) s ((t.setRf .hub .mrcSqPtr q 63 32 (leNat l % 2 ^ 32)).sqSettle q)) ∧
    (st = .ok → t.sqTailCheck q (leNat l % 2 ^ 32) ≠ .ok → Gives (.sqTailPoll q) s t))
  ∧ (∀ (w : Wr) (s : State), s.gate w.die .mrcSqCfg w.pl w.ctx = .ok →
    let q := s.selUnit w.die w.pl .sq
    (s.rf .hub .mrcSqCfg q 12 12 = 0 → w.val.getLsbD 12 = true → CfgRow (.sqEnable w) w .mrcSqCfg s s fun t =>
      if versionOk (s.reg .hub .mrcIfVersion 0) (fld w.val 47 32) = true then ((t.setReg .hub .mrcSqPtr q 0).setSqSt q 0).answer .ok 0
      else s.answer .busy 0) ∧
    (s.rf .hub .mrcSqCfg q 12 12 = 1 → w.val.getLsbD 12 = false → CfgRow (.sqDisable w) w .mrcSqCfg s s fun t =>
      if s.sqSt q = 1 ∨ s.mops.any (fun o => decide (o.q = q)) = true then s.answer .busy 0 else (t.setSqSt q 4).answer .ok 0))
  ∧ SqRow Instr.mrcPut (fun c => c = 1 ∨ c = 0 ∨ 6 < c) ∧ SqRow Instr.mrcGet (fun c => c = 2) ∧ SqRow Instr.mrcAtomic (fun c => c = 3)
  ∧ SqRow Instr.mrcRput (fun c => c = 4) ∧ SqRow Instr.coll (fun c => c = 5) ∧ SqRow Instr.waitin (fun c => c = 6)
  ∧ (∀ (s : State) (q d ctx pl : Nat) (parent : Option Nat),
    let o := opAt s q d ctx pl parent
    let ends (st : Status) : Prop := s.mrcBegin q d ctx pl parent = .ok (withOp s o.id { o with isOver := true, st := st })
    let lens := unitLens (mdLen d)
    (s.fl = false → ends .unav) ∧
    (s.fl = true → s.mdOk d parent.isSome = false → ends .perm) ∧
    (s.fl = true → s.mdOk d parent.isSome = true →
      (mdOpc d = 6 → s.mrcBegin q d ctx pl parent = .ok (withOp s o.id o)) ∧
      (mdOpc d = 5 → s.mrcBegin q d ctx pl parent =
        .ok (withOp s o.id { o with entries := upFrom (mdOpnd d % 2 ^ 16) (mdOpnd d / 2 ^ 16 % 2 ^ 16) })) ∧
      (mdOpc d ≤ 4 → (s.station = 0xFFFF ∨ s.route (mdDst d) = none) → ends .unav) ∧
      (∀ port, s.station ≠ 0xFFFF → s.route (mdDst d) = some port →
        let o1 := { o with port := port, units := List.range lens.length, isOver := decide (lens = []) }
        ((mdOpc d = 1 ∨ mdOpc d = 4) → ∀ st l t, s.vaSpan (.millrace port) ctx pl (mdLaddr d) (mdLen d) = .ok (st, l, t) →
          (st = .ok → s.mrcBegin q d ctx pl parent = .ok (withOp (sendAll t port ((withIdx lens).flatMap fun e =>
            unitPkts (if mdOpc d = 1 then 1 else 6) d o.id ctx e.1 lens.length (mdRaddr d + unitSize * e.1)
              ((l.drop (unitSize * e.1)).take e.2))) o.id o1)) ∧
          (st ≠ .ok → s.mrcBegin q d ctx pl parent = .ok (withOp t o.id { o1 with isOver := true, st := st }))) ∧
        (mdOpc d = 2 → s.mrcBegin q d ctx pl parent = .ok (withOp (sendAll s port ((withIdx lens).map fun e =>
          { txPkt 2 (mdVl d) (mdDst d) ctx o.id e.1 with
            fence := mdFence d, addr := mdRaddr d + unitSize * e.1, len := 8, data := e.2, units := lens.length })) o.id o1)) ∧
        (mdOpc d = 3 → s.mrcBegin q d ctx pl parent = .ok (withOp (s.sendPkt port
          { txPkt 4 (mdVl d) (mdDst d) ctx o.id 0 with
            fence := mdFence d, arg := mdArg d, addr := mdRaddr d, len := 16, data := mdOpnd d + mdOpnd2 d * 2 ^ 64 }) o.id
          { o1 with units := [0] }))))))
  ∧ (∀ (s : State) (o : MrcOp), s.mop? o.id = some o → s.running .hub false = true → s.prodHeld .hub (128 + o.q) = false →
    let by_ (x : Except Wait State) : Prop :=
      match x with | .ok u => Gives (.mrcOpComplete o.id) s u | .error w => Gives (.mrcOpComplete o.id) s (s.await w)
    let fin (t : State) (o : MrcOp) : Prop := by_ (t.mrcFinish o)
    (o.isOver = true → fin s o) ∧
    (o.isOver = false → mdOpc o.desc = 6 → match s.vaSpan (.millrace o.port) o.ctx o.pl (mdLaddr o.desc) 8 with
      | .error w => Gives (.mrcOpComplete o.id) s (s.await w)
      | .ok (st, l, t) =>
        (st ≠ .ok → fin t { o with isOver := true, st := st }) ∧
        (st = .ok → mdOpnd o.desc ≤ leNat l → fin t { o with isOver := true }) ∧
        (st = .ok → leNat l < mdOpnd o.desc → Gives (.mrcOpComplete o.id) s t)) ∧
    (o.isOver = false → mdOpc o.desc = 5 → o.entries = [] → fin s { o with isOver := true }) ∧
    (∀ e r, o.isOver = false → mdOpc o.desc = 5 → o.entries = e :: r →
      ((∃ x ∈ s.mops, x.parent = some o.id) → Gives (.mrcOpComplete o.id) s s) ∧
      ((∀ x ∈ s.mops, x.parent ≠ some o.id) →
        let d := aGet s.tables.collTab 0 e
        let d1 := d - mdLaddr d * 2 ^ 128 - mdRaddr d * 2 ^ 192 + (mdLaddr d + mdLaddr o.desc) % 2 ^ 64 * 2 ^ 128
          + (mdRaddr d + mdRaddr o.desc) % 2 ^ 64 * 2 ^ 192
        by_ (s.mrcBegin o.q d1 o.ctx o.pl (some o.id)))) ∧
    (o.isOver = false → mdOpc o.desc < 5 → Gives (.mrcOpComplete o.id) s s))

/-- Packets as they arrive (R376-R379, R383): what each kind does at its target and at the operation that it answers. -/
def Obligations.PacketsAtTheirTargets : Prop :=
  (∀ r ∈ [(Instr.putData, 1), (Instr.rputData, 6)], PktRow r.1 (fun p => p.onReq) fun p _ u t =>
    t = if u.inRefused p then (u.inLog p 1).stage p r.2 p.ctx 3 p.addr .perm else u.stage p r.2 p.ctx 3 p.addr .ok)
  ∧ PktRow Instr.getReq (fun p => p.onReq) (fun p s u t =>
    let no (v : State) (st : Status) : State :=
      v.reply p.port { txPkt 3 (p.vl + 1) p.src p.ctx p.opid p.unit with st := st, addr := p.addr, units := p.units }
    let r := u.vaSpan (.millrace p.port) p.ctx 3 p.addr (min p.data unitSize)
    (u.inRefused p = true ∧ t = no (u.inLog p 0) .perm) ∨
    (u.inRefused p = false ∧ ((∃ w, r = .error w ∧ t = s.await w) ∨ ∃ st l v, r = .ok (st, l, v) ∧
      ((st ≠ .ok ∧ t = no v (if st = .xlat then .perm else st)) ∨
       (st = .ok ∧ t = (List.range (cdiv l.length 4096)).foldl (fun x k =>
          let c := (l.drop (4096 * k)).take 4096
          x.reply p.port { txPkt 3 (p.vl + 1) p.src p.ctx p.opid p.unit with
            seq := k, last := decide (k + 1 = cdiv l.length 4096), addr := p.addr + 4096 * k, len := c.length, data := leNat c,
            units := p.units }) v)))))
  ∧ PktRow Instr.atomic (fun p => p.onReq) (fun p s u t =>
    let ans (v : State) (st : Status) (x : Nat) : State :=
      v.reply p.port { txPkt 5 (p.vl + 1) p.src p.ctx p.opid p.unit with st := st, arg := p.arg, addr := p.addr, len := 8, data := x }
    let r := u.vaAtomic (.millrace p.port) p.ctx 3 p.addr (mrcAtOp p.arg p.data)
    (u.inRefused p = true ∧ t = ans (u.inLog p 2) .perm 0) ∨ (u.inRefused p = false ∧ 5 < p.arg ∧ t = ans u .perm 0) ∨
    (u.inRefused p = false ∧ p.arg ≤ 5 ∧ ((∃ w, r = .error w ∧ t = s.await w) ∨
      ∃ st x v, r = .ok (st, x, v) ∧ t = ans v (if st = .xlat then .perm else st) (if st = .ok then x else 0))))
  ∧ PktRow Instr.getData (fun p => p.onRsp) (fun p _ u t => (u.openOp p [2] = none ∧ t = u) ∨ ∃ o, u.openOp p [2] = some o ∧
      t = if p.st = .ok then u.stage p 3 o.ctx o.pl (mdLaddr o.desc + unitSize * p.unit) .ok else u.unitOver o p.unit p.st)
  ∧ PktRow Instr.mrcAck (fun p => p.onRsp) (fun p _ u t => (u.openOp p [1, 4] = none ∧ t = u) ∨ ∃ o, u.openOp p [1, 4] = some o ∧
      t = u.unitOver o p.unit p.st)
  ∧ PktRow Instr.atomicRsp (fun p => p.onRsp) (fun p s u t => (u.openOp p [3] = none ∧ t = u) ∨ ∃ o, u.openOp p [3] = some o ∧
      ((p.st ≠ .ok ∧ t = u.unitOver o p.unit p.st) ∨ (p.st = .ok ∧
        ((∃ w, u.vaPut (.millrace p.port) o.ctx o.pl (mdLaddr o.desc) (leBytes 8 p.data) = .error w ∧ t = s.await w) ∨
         ∃ st v, u.vaPut (.millrace p.port) o.ctx o.pl (mdLaddr o.desc) (leBytes 8 p.data) = .ok (st, v) ∧ t = v.unitOver o p.unit st))))
  ∧ PktRow Instr.live (fun p => decide (p.vl = 6)) (fun _ _ u t => t = u)
  ∧ (∀ (p : Pkt) (s : State), Arrives s p (decide (p.vl = 7)) → s.fl = true → (s.ep p.src).getLsbD 0 = true → (s.ep p.src).getLsbD 12 = true →
      let u := heard s p
      Gives (.mgmt p) s ((({ u with vl7 := u.vl7 ++ [p.src] } : State).emit .mctp [2, p.src, p.len, p.data]).wakeIf 3 p.port))
  ∧ PktRow Instr.slack (fun p => decide (p.vl = 6)) (fun p _ u t => t = u.emit .slack [p.src, p.ctx, p.len, p.data])

namespace Sys2Proof.Machine

/-- The operation's units that are still to be committed here, one fewer. -/
def unitKey (src opid unit : Nat) (u : RxUnit) : Bool :=
  decide (u.src = src) && decide (u.opid = opid) && decide (u.unit = unit) && u.whole
/-- The acknowledgement of a unit. -/
def ackUnit (t : State) (u : RxUnit) (src opid unit : Nat) (st : Status) : State :=
  t.reply u.port { txPkt 7 (u.vl + 1) src u.ctx opid unit with st := st, units := u.units }
/-- A write of MRC_SNAP_CMD that its register takes: the status, the slot and the slots in use are shown (R385). -/
def SnapRow (mk : Wr → Instr) (op : Nat) (f : State → W64 → Except Wait (Status × Option Nat × State) → Prop) : Prop :=
  ∀ (w : Wr) (s t : State), fld w.val 55 52 = op → s.ctlStore w.die .mrcSnapCmd 0 w.pl w.ctx w.val = (.ok, t) →
    let h := t.reg .hub .mrcSnapHandle 0
    ∀ x, (t.fl = false ∧ x = .ok (.unav, none, t)) ∨ (t.fl = true ∧ h = 0 ∧ x = .ok (.perm, none, t)) ∨
        (t.fl = true ∧ h ≠ 0 ∧ f t h x) →
      match x with
      | .error e => Gives (mk w) s (s.await e)
      | .ok r =>
        let u := r.2.2.setRf .hub .mrcSnapCmd 0 59 56 r.1.code
        let v := match r.2.1 with | some k => u.setRf .hub .mrcSnapCmd 0 19 16 k | none => u
        Gives (mk w) s ((v.setRf .hub .mrcSnapCmd 0 15 0 (maskOf (v.snapH.map fun e => e.1))).answer .ok 0)
/-- The slot that a SAVE uses: the handle's own, or the lowest that is free. -/
def saveSlot (t : State) (h : W64) : Option Nat :=
  match t.slotOf h with
  | some k => some k
  | none => (List.range 16).find? fun k => (aFind t.snapH k).isNone

end Sys2Proof.Machine

/-- Commit of whole units (R383), liveness of peers (R384), snapshots (R385) and management messages (R386, R460). -/
def Obligations.CommitPeersAndSnapshots : Prop :=
  (∀ (src opid unit : Nat) (s : State) (u : RxUnit), s.rxUnits.find? (unitKey src opid unit) = some u →
    s.running .hub false = true → s.unitTurn u = true →
    (∀ w v, s.commitUnit u (unitKey src opid unit) = .error (w, v) → Gives (.unitCommitted src opid unit) s (v.await w)) ∧
    (∀ st0 t, s.commitUnit u (unitKey src opid unit) = .ok (st0, t) →
      let st := if st0 = .xlat then .perm else st0
      let t1 : State := { t with rxUnits := lDrop (unitKey src opid unit) t.rxUnits }
      let same (r : RxOp) : Bool := decide (r.src = u.src) && decide (r.opid = u.opid)
      let was := t1.rxOps.find? same
      let n := (match was with | some r => r.got | none => 0) + 1
      let bad := (match was with | some r => r.bad | none => false) || decide (st ≠ .ok)
      let rest := t1.rxOps.filter fun r => !same r
      let bumps := u.lost = false ∧ u.units ≤ n ∧ bad = false ∧ u.arrive ≠ 0
      let t2 : State := { t1 with
        rxOps := if u.lost = false ∧ n < u.units then rest ++ [⟨u.src, u.opid, u.port, u.ctx, n, bad⟩] else rest }
      (u.kind = 3 → Gives (.unitCommitted src opid unit) s
        (match t1.mops.find? (fun o => decide (o.id = opid) && decide (mdDst o.desc = src) && !o.isOver) with
          | some o => t1.unitOver o unit st
          | none => t1)) ∧
      (u.kind ≠ 3 → ¬ bumps → Gives (.unitCommitted src opid unit) s (ackUnit t2 u src opid unit st)) ∧
      (u.kind ≠ 3 → bumps → match t2.bumpWord (.millrace u.port) u.ctx u.pl u.arrive with
        | .ok r => Gives (.unitCommitted src opid unit) s (ackUnit r.2 u src opid unit st)
        | .error w => Gives (.unitCommitted src opid unit) s (({ s with rxUnits := t.rxUnits } : State).await w))))
  ∧ (∀ (station port : Nat) (s : State) (e : Nat × Nat × Nat) (l : List (Nat × Nat × Nat)), s.running .hub false = true →
    s.openOnes station = e :: l → 1000 ≤ (s.now - (s.peer station).2.1).toNat → s.route station = some port →
    Gives (.liveSend station) s (s.sendPkt port (txPkt 8 6 station e.2.1 0 0)))
  ∧ (∀ (station : Nat) (s : State) (e : Nat × Nat × Nat) (l : List (Nat × Nat × Nat)), s.running .hub false = true →
    s.openOnes station = e :: l → 100 * s.rf .hub .mrcCfg 0 47 36 ≤ (s.now - (s.peer station).1).toNat →
    let mine := s.opsWith station
    let port := if aFind s.peers station = none then e.1 else (s.peer station).2.2
    let t : State := { s with
      mops := s.mops.map fun o => if o ∈ mine then s.mopLost o else o
      rxUnits := (s.rxUnits.filter fun u => decide (u.src ≠ station) || u.whole).map fun u =>
        if u.src = station then { u with lost := true } else u
      rxOps := s.rxOps.filter fun r => decide (r.src ≠ station)
      peers := aErase s.peers station }
    let r := s.reg .hub .mrcPeerLog 0
    let r1 := setFld r 55 40 (min 65535 (fld r 55 40 + 1))
    let r2 := if r.getLsbD 63 = true then setFld r1 62 62 1 else setFld (setFld (setFld r1 63 63 1) 39 24 station) 23 20 port
    Gives (.peerLost station) s ((t.setReg .hub .mrcPeerLog 0 r2).post .hub 127 (s.rf .hub .mrcCfg 0 35 32)
      (eventBytes 12 .peer 0 (0x9000 + port) 0xFF (BitVec.ofNat 64 station) s.now (natBytes 4 port ++ natBytes 4 e.2.2))))
  ∧ SnapRow Instr.snapSave 1 (fun t h x => (saveSlot t h = none ∧ x = .ok (.busy, none, t)) ∨ ∃ k, saveSlot t h = some k ∧
      let r := t.paWrites 0x6000 0 0 (snapPieces (t.slotPa k)) (leNat t.tableBytes)
      ((∃ e, r = .error e ∧ x = .error e) ∨ ∃ st u, r = .ok (st, u) ∧
        x = .ok (st, some k, { u with snapH := if st = .ok then aSet u.snapH k h else aErase u.snapH k })))
  ∧ SnapRow Instr.snapRestore 2 (fun t h x => (t.slotOf h = none ∧ x = .ok (.unav, none, t)) ∨ ∃ k, t.slotOf h = some k ∧
      let busy := t.mops ≠ [] ∨ ∃ q, q < 64 ∧ t.sqSt q = 1
      let r := t.paReads 0x6000 0 0 (snapPieces (t.slotPa k))
      ((busy ∧ x = .ok (.busy, some k, t)) ∨ (¬ busy ∧ ∃ e, r = .error e ∧ x = .error e) ∨
        (¬ busy ∧ ∃ st l u, r = .ok (st, l, u) ∧ x = .ok (st, some k, if st = .ok then u.loadTables l else u))))
  ∧ SnapRow Instr.snapDrop 3 (fun t h x => (t.slotOf h = none ∧ x = .ok (.unav, none, t)) ∨ ∃ k, t.slotOf h = some k ∧
      x = .ok (.ok, some k, { t with snapH := aErase t.snapH k }))
  ∧ (∀ (transport typ data : Nat) (s : State),
    (s.running .hub false = false →
      Gives (.mctpMessage transport typ data) s (if transport < 2 ∧ s.pwrState = 4 then s.wakeIf 4 transport else s)) ∧
    (s.running .hub false = true → (transport = 2 → s.fl = true ∧ s.vl7 ≠ []) →
      let v : State := if transport = 2 then { s with vl7 := s.vl7.filter fun x => decide (some x ≠ s.vl7.head?) } else s
      (typ = 0x7E → Gives (.mctpMessage transport typ data) s ((v.mailIn transport data).wakeIf 4 transport)) ∧
      let known := typ = 0 ∨ (transport < 2 ∧ (typ = 1 ∨ typ = 5))
      (typ ≠ 0x7E → known → ¬ (typ = 1 ∧ pldmData data = true ∧ (v.fwRuns = true ∨ v.recovering = true)) →
        Gives (.mctpMessage transport typ data) s ((v.emit .mctp [transport, typ, data, 0]).wakeIf 4 transport)) ∧
      (typ = 1 → transport < 2 → pldmData data = true → (v.fwRuns = true ∨ v.recovering = true) →
        Gives (.mctpMessage transport typ data) s (((v.pldmWrite v.otherImg).emit .mctp [transport, typ, data, 0]).wakeIf 4 transport)) ∧
      (typ ≠ 0x7E → ¬ known → Gives (.mctpMessage transport typ data) s ((v.emit .mctp [transport, typ, data, 1]).wakeIf 4 transport))))

/-! ### Power, heat and energy (Chapter 14) -/

namespace Sys2Proof.Machine

/-- The allocation of a die as a quantity in mW. -/
def shareMw (limit : Nat) (l : List (Nat × Nat)) (d : Nat) : Rat := (shareOf limit l d).1 / (shareOf limit l d).2
/-- A die's throttling follows from its own part: the register shows the duty in force. -/
def dutyShown (s : State) (d : Nat) : State := s.setRf .hub .pwrDie d 16 8 (s.dutyOf d)
/-- A droop hold on a die. -/
def drooped (s : State) (d : Nat) : State :=
  let t := s.setRf .hub .pwrDie d 0 0 1
  let u := dutyShown t d
  u.setReg .hub .pwrDroopCnt 0 (cntAdd (u.reg .hub .pwrDroopCnt 0) 1)
/-- A request of PWR_STATE_CTRL for a state below N2 (R404). -/
def RequestRow (mk : Wr → Instr) (target latency : Nat) : Prop :=
  ∀ (w : Wr) (s : State), s.gate .hub .pwrStateCtrl w.pl w.ctx = .ok → fld w.val 6 4 = target →
    let slow := w.pl ≠ 0 ∧ fld w.val 63 32 < latency
    let busy := s.pwrTry ≠ none ∨ s.pwrTarget ≠ s.pwrState ∨ s.wakeDue ≠ none ∨ target ≤ s.pwrState
    (slow → Gives (mk w) s (s.answer .perm 0)) ∧
    (¬ slow → busy → Gives (mk w) s (s.answer .busy 0)) ∧
    (¬ slow → ¬ busy →
      let t : State := { s.setReg .hub .pwrStateCtrl 0 (writeFields .pwrStateCtrl (s.reg .hub .pwrStateCtrl 0) w.val) with
        pwrTry := some ⟨target, false, [], [], 0⟩ }
      Gives (mk w) s ((if fld w.val 63 32 < s.rf .hub .pwrStateCtrl 0 63 32 ∧ fld w.val 63 32 < exitLatency s.pwrState then t.wakeIf 5 0
        else t).answer .ok 0))

end Sys2Proof.Machine

/-- R391 with a limit that can be configured: each throttled die gets at most what it asks for, at least its floor or what it
asks for below that, and together the dies get no more than the hub leaves. -/
def Obligations.AllocationsStayWithinTheLimit : Prop :=
  ∀ (limit : Nat) (l : List (Nat × Nat)), 800000 ≤ limit →
    (∀ d ∈ throttled, shareMw limit l d ≤ (wantOf l d : Nat) ∧ ((min (wantOf l d) (dieFloor d) : Nat) : Rat) ≤ shareMw limit l d ∧
      wantOf l d ≤ dieCeil d) ∧
    (throttled.map (shareMw limit l)).foldl (· + ·) 0 ≤ ((limit - min (drawOf l 0) 90000 : Nat) : Rat)

/-- R392 and R394: a duty stays from 16 to 256; a droop or a junction hold never raises it; and of any 256 clocks in a row
from a window's start as many are issued as the duty says. -/
def Obligations.DutiesStayInRange : Prop :=
  (∀ (duty p : Nat) (a : Nat × Nat), 16 ≤ nextDuty duty a p ∧ nextDuty duty a p ≤ 256) ∧
  (∀ (s : State) (d : Nat), s.dutyOf d ≤ max 256 (s.loopDuty d) ∧ (d ≠ 0 → s.dutyOf d ≤ s.loopDuty d) ∧
    (d ≠ 0 → s.drooping d = true → s.dutyOf d ≤ 128) ∧ (d ≠ 0 → d ∈ s.hotHold → s.dutyOf d ≤ 32)) ∧
  (∀ duty n : Nat, duty ≤ 256 → issuedIn duty 0 256 = duty ∧ issuedIn duty n 1 ≤ 1)

/-- Limits, droops, heat, slack and snapshots as commands (R389, R394-R398, R402). Requests, handshakes, entries and exits of power states, the clock's alarm, rails and PLLs (R403-R409). -/
def Obligations.PowerCommands : Prop :=
  ((∀ (w : Wr) (s : State), s.gate .hub .pwrLimit w.pl w.ctx = .ok →
    let t := s.setRf .hub .pwrLimit 0 7 0 (min 80 (max 32 (fld w.val 7 0)))
    (w.pl = 0 → Gives (.targetWrite w) s ((t.setRf .hub .pwrLimit 0 15 8 (min 80 (max 32 (fld w.val 15 8)))).answer .ok 0)) ∧
    (w.pl ≠ 0 → Gives (.targetWrite w) s (t.answer .ok 0)))
  ∧ (∀ (s : State), s.running .hub false = true →
    Gives .limitSample s { s with limSample := min (s.rf .hub .pwrLimit 0 7 0) (s.rf .hub .pwrLimit 0 15 8) } ∧
    (s.limitNow < s.limSample → Gives .limitRampStep s (s.setRf .hub .pwrLimit 0 23 16 (s.limitNow + 1))) ∧
    (s.limSample < s.limitNow → Gives .limitRampStep s (s.setRf .hub .pwrLimit 0 23 16 (s.limitNow - 1))) ∧
    (s.limSample = s.limitNow → Gives .limitRampStep s s))
  ∧ (∀ (draws : List (Nat × Nat)) (shares : List Share) (s : State), s.running .hub false = true →
    let total := (List.range 15).foldl (fun a d => a + drawOf draws d) 0
    let isOver : Bool := decide (s.limitNow * 25000 < total)
    let s1 : State := { s with excurCut := s.excurCut && isOver }
    let s2 := (List.range 15).foldl (State.chargeDie draws shares) ((List.range 15).foldl (State.sampleDie draws) s1)
    let s3 := ((s2.setRf .hub .pwrStatus 0 63 48 (min 65535 (total / 1000))).setRf .hub .pwrStatus 0 35 35 (if isOver then 1 else 0)).setRf
      .hub .pwrStatus 0 10 0 (if isOver then min 2047 (s.rf .hub .pwrStatus 0 10 0 + 1) else 0)
    Gives (.powerSample draws shares) s { s3 with fan := { s3.fan with draw := s3.fan.draw + total, samples := s3.fan.samples + 1 } })
  ∧ (∀ (d : Nat) (s : State), d < 15 →
    (s.running .hub false = true → Gives (.droop d) s (drooped s d)) ∧
    (s.drooping d = true → Gives (.droopRelease d) s (dutyShown (s.setRf .hub .pwrDie d 0 0 0) d)))
  ∧ (∀ (s : State),
    (s.running .hub false = true → Gives .packageOvercurrent s (throttled.foldl drooped s)) ∧
    (1900 ≤ s.rf .hub .pwrStatus 0 10 0 → s.excurCut = false → Gives .excursionLimit s
      (({ s with excurCut := true, mgmtWork := s.mgmtWork ++ [1] } : State).setReg .hub .pwrExcurCnt 0 (cntAdd (s.reg .hub .pwrExcurCnt 0) 1) |>.raise .hub 6
        (s.rf .hub .pwrStatus 0 10 0))))
  ∧ (∀ (d tj : Nat) (s : State), d < 15 → tj < 256 → s.running .hub false = true →
    let t := s.setRf .hub .pwrDie d 31 24 tj
    (d ≠ 0 → 100 ≤ tj → d ∉ s.hotHold → Gives (.thermalSample d tj) s
      (dutyShown (({ t with hotHold := t.hotHold ++ [d] } : State).raise .hub 4 (d * 256 + tj)) d).thermalView) ∧
    (d ≠ 0 → tj < 99 → Gives (.thermalSample d tj) s
      (dutyShown { t with hotHold := t.hotHold.filter fun x => decide (x ≠ d) } d).thermalView) ∧
    ((d = 0 ∨ tj = 99 ∨ (100 ≤ tj ∧ d ∈ s.hotHold)) → Gives (.thermalSample d tj) s (dutyShown t d).thermalView) ∧
    (110 ≤ tj → Gives (.thermalTrip d tj) s (s.raise .hub 5 (d * 256 + tj))))
  ∧ (∀ (s : State) (port : Nat), s.fanOn = true → s.running .hub false = true →
    100000 * s.rf .hub .pwrFanCfg 0 15 8 ≤ (s.now - s.fan.since).toNat → s.station ≠ 0xFFFF →
    s.route (s.rf .hub .pwrFanCfg 0 47 32) = some port →
    Gives .slackReport s { s.sendPkt port { txPkt 9 6 (s.rf .hub .pwrFanCfg 0 47 32) (s.rf .hub .pwrFanCfg 0 59 48) 0 0 with
      len := 32, data := leNat s.slackBytes } with fan := ⟨s.now, 0, 0, 0, 0, 0, (s.fan.seq + 1) % 2 ^ 32⟩ })
  ∧ (∀ (w : Wr) (s : State), s.gate .hub .pwrSnap w.pl w.ctx = .ok → w.val.getLsbD 63 = true →
    let live := (s.regs.filter fun e => decide (e.1.die = .hub) && pwrCounter e.1.name).map fun e => ((e.1.name, e.1.idx), e.2)
    Gives (.pwrSnapTake w) s
      (({ s with pwrSnaps := aSet s.pwrSnaps w.pl live }.setReg .hub .pwrSnap w.pl (BitVec.ofNat 64 (fld s.now 62 0))).answer .ok 0)))
  ∧ (RequestRow Instr.requestN3 3 20000 ∧ RequestRow Instr.requestN4 4 2000000
  ∧ (∀ (w : Wr) (s : State), s.gate .hub .pwrStateCtrl w.pl w.ctx = .ok → fld w.val 6 4 = 0 →
    let t := s.setReg .hub .pwrStateCtrl 0 (writeFields .pwrStateCtrl (s.reg .hub .pwrStateCtrl 0) w.val)
    let due := fld w.val 63 32 < s.rf .hub .pwrStateCtrl 0 63 32 ∧ fld w.val 63 32 < exitLatency s.pwrState
    (due → Gives (.lattolWrite w) s ((t.wakeIf 5 0).answer .ok 0)) ∧ (¬ due → Gives (.lattolWrite w) s (t.answer .ok 0)))
  ∧ (∀ (s : State), s.running .hub false = true → s.inN0 = true → s.pwrQuiet = true → s.rf .hub .pwrStateCtrl 0 1 1 = 1 →
    (∀ e ∈ s.tiles, e.2.blocks = []) →
    let lat := s.rf .hub .pwrStateCtrl 0 63 32
    (lat < 2 → Gives .idleholdExpire s s) ∧
    (2 ≤ lat → lat < 150 → Gives .idleholdExpire s { s with pwrTry := some ⟨1, true, [], [], 0⟩ }) ∧
    (150 ≤ lat → Gives .idleholdExpire s { s with pwrTry := some ⟨2, true, [], [], 0⟩ }))
  ∧ (∀ (die block us : Nat) (good : Bool) (s : State) (t : PwrTry), s.pwrTry = some t → (die, block) ∈ s.hsBlocks →
    (die, block) ∉ t.accepted → (∀ e ∈ t.deferring, e.1 ≠ (die, block)) →
    (s.hsAnswer t.target die block good us = .refuse → Gives (.handshakeAnswer die block good us) s (s.tryRefused t die block .busy)) ∧
    (∀ n, s.hsAnswer t.target die block good us = .defer n → Gives (.handshakeAnswer die block good us) s
      { s with pwrTry := some { t with deferring := t.deferring ++ [((die, block), n)] } }) ∧
    (s.hsAnswer t.target die block good us = .accept →
      let t1 := { t with accepted := t.accepted ++ [(die, block)] }
      ((∃ b ∈ s.hsBlocks, b ∉ t1.accepted) → Gives (.handshakeAnswer die block good us) s { s with pwrTry := some t1 }) ∧
      ((∀ b ∈ s.hsBlocks, b ∈ t1.accepted) → Gives (.handshakeAnswer die block good us) s (s.tryCommit t1))))
  ∧ (∀ (s : State) (t : PwrTry), s.pwrTry = some t →
    (s.hsMissing t = none → t.deferring ≠ [] → t.spent + t.longest < 10000 → Gives .handshakeDeferExpire s
      { s with pwrTry := some { t with accepted := [], deferring := [], spent := t.spent + t.longest } }) ∧
    (∀ b, s.hsMissing t = some b → Gives .handshakeTimeout s
      ((s.tryRefused t b.1 b.2 .tout).raise .hub 3 (b.1 * 256 + b.2))) ∧
    (s.hsMissing t = none → t.deferring ≠ [] → 10000 ≤ t.spent + t.longest → Gives .handshakeTimeout s (s.tryOver .tout)))
  ∧ (∀ (s : State), s.pwrTry = none → s.pwrState < s.pwrTarget →
    let shown (t : State) : State := ({ t with wakeDue := s.wakeDue }.setRf .hub .pwrStateStatus 0 31 28 s.pwrTarget).setRf .hub .pwrStateStatus 0 23 20 0
    (s.pwrTarget = 1 → Gives .powerStateEntered s (shown s)) ∧
    (s.pwrTarget = 2 → ∀ t, s.enterN2 = some t → Gives .powerStateEntered s (shown t)) ∧
    (s.pwrTarget = 3 → ∀ t, s.enterN3 = some t → Gives .powerStateEntered s (shown t)) ∧
    (s.pwrTarget = 4 → s.rdown ≠ [] → Gives .powerStateEntered s s) ∧
    (s.pwrTarget = 4 → ∀ t, s.enterN4 = some t → Gives .powerStateEntered s (if t.hubEn = true then t else shown t)))
  ∧ (∀ (s : State) (src detail : Nat), s.wakeDue = some (src, detail) → 1 ≤ s.pwrState → s.pwrTarget = s.pwrState → s.pwrTry = none →
    let time := if s.pwrState = 4 then (s.reg .hub .pwrRtcCount 0).toNat else s.now.toNat
    Gives .wake s (({ s with wakeDue := none }.setReg .hub .pwrWakeRec 0 (BitVec.ofNat 64 (2 ^ 63 + s.pwrState * 2 ^ 60 + src % 16 * 2 ^ 56
      + detail % 256 * 2 ^ 48 + time % 2 ^ 48))).setRf .hub .pwrStateStatus 0 27 24 0).exitBegin)
  ∧ (∀ (s : State), s.pwrTarget = 0 →
    let back (t : State) : State := let u := t.setRf .hub .pwrStateStatus 0 31 28 0; u.held.foldl State.perform { u with held := [] }
    (s.pwrState = 1 → Gives .powerStateExited s (back s)) ∧
    (s.pwrState = 2 → (∀ u ∈ s.pups, u.tile = false) → Gives .powerStateExited s (back ((allCds.foldl (fun x n =>
      if x.dom (.cd n) true = 3 then (x.setDom (.cd n) true 2).setReady (36 + n.val) 1 else x) s).marksUp tileAgents))) ∧
    (s.pwrState = 4 → s.boot = 9 ∨ s.boot = 10 → Gives .powerStateExited s (back s)) ∧
    (s.pwrState = 3 → (∀ d ∈ farDies, s.dom d false = 2 ∨ s.dom d false = 4) →
      (∀ n : Fin 4, s.dom (.cd n) false = 2 → s.linkUp (4 + n.val) = true) → Gives .powerStateExited s
        ((back ((allCds.foldl (fun x n => if x.dom (.cd n) false = 2 then (x.pchBack (2 * n.val)).pchBack (2 * n.val + 1) else x) s).marksUp
          (List.range 34))).recoverySettle)))
  ∧ (∀ (s : State),
    let t := { s with xtal := true }.setReg .hub .pwrRtcCount 0 (s.reg .hub .pwrRtcCount 0 + 1)
    (s.aonUp = false → Gives .rtcTick s s) ∧
    (s.aonUp = true → s.xtal = true → Gives .rtcTick s (t.alarmIf fun k => decide (k = (t.reg .hub .pwrRtcCount 0).toNat))) ∧
    (s.aonUp = true → s.xtal = false → Gives .rtcTick s (t.alarmIf fun k => decide (k ≤ (t.reg .hub .pwrRtcCount 0).toNat))))
  ∧ (∀ (rail : Nat) (s : State) (u : PUp), s.pupAt rail = some u → rail < 34 →
    Gives (.railPg rail) s (({ s with rails := s.rails ++ [rail] } : State).pupWith u (u.todo.drop 1)) ∧
    Gives (.railPgTimeout rail) s (s.stepTimeout u 1))
  ∧ (∀ (d : Die) (s : State) (u : PUp), s.pllAt d = some u →
    Gives (.pllLockAcquired d) s (s.pupWith u (u.todo.drop 1)) ∧ Gives (.pllLockTimeout d) s (s.stepTimeout u 2)))

/-! ### Faults, links, resets and losing a die (Chapters 01, 15) -/

namespace Sys2Proof.Machine

/-- A write of FLT_CTRL (Table 15-12): bit 0 clears the die's record, bit 1 at the hub the package's. -/
def cleared (w : Wr) (s : State) : State :=
  let t := if w.val.getLsbD 0 = true then
    ((s.setReg w.die .fltFirst 0 0).setReg w.die .fltFirstTime 0 0).setReg w.die .fltFirstInfo 0 0 else s
  if w.val.getLsbD 1 = true ∧ w.die = .hub then (t.setReg .hub .fltPkgFirst 0 0).setReg .hub .fltPkgTime 0 0 else t
/-- A write of FLT_WDT (Table 15-19): its fields, the start of the period where EN is set, and the kick. -/
def wdtWritten (w : Wr) (s : State) : State :=
  let t := s.setReg .hub .fltWdt 0 (s.ctlValue .hub .fltWdt 0 w.pl w.ctx w.val).2
  let u := if (s.reg .hub .fltWdt 0).getLsbD 31 = false ∧ w.val.getLsbD 31 = true then { t with kicked := s.now } else t
  if w.val.getLsbD 30 = true then u.kick else u
/-- The effect of an uncorrectable error of on-die storage, for the storages that stand in the state (R422, R425). -/
def onDieEffect : OnDie → State → State
  | .tile t arr, s =>
    let u := s.upset (0, (Die.cd t.die).idx, s.localIndex t)
    let v := (u.2.haltTile t).raise (.cd t.die) (0x40 + t.tile / 16 % 8) (t.tile % 16 * 256 + arr % 256)
    if u.1 then v.retireTile t.die (s.localIndex t) else v
  | .l2data a set way half, s =>
    (match s.lineAt a set way with
      | some (pa, l) => s.setLine a pa { l with pois := l.pois ||| 2 ^ (half % 2) }
      | none => s).raise (agentDie a) (0x50 + a % 8) (set % 2 ^ 16 * 2 ^ 16 + way % 16)
  | .l2tag a set way, s =>
    (match s.lineAt a set way with | some (pa, _) => s.ownerLost a pa | none => s).raise (agentDie a) (0x58 + a % 8)
      (set % 2 ^ 16 * 2 ^ 16 + way % 16)
  | .burr b, s => (if (s.burr b).run.isSome then s.burrFail b .pois 0 else s).raise b.cdie 0x35 b.idx
  | .sampler u, s =>
    (match (s.smp u).run with
      | some j => (match s.smpEnd u j (smpFail .pois) with | .ok t => t.raise (.cd u.die) 0x36 u.unit | .error w => s.await w)
      | none => s.raise (.cd u.die) 0x36 u.unit)
  | .dma d ch, s =>
    let u := s.upset (1, d.idx, ch)
    if u.1 then
      let v := u.2.dmaEnd d ch .pois 6
      ({ v with dmaDead := if v.dmaDead.contains (d, ch) then v.dmaDead else (d, ch) :: v.dmaDead }.setRf d .dmaStatus ch 2 0 6).raise d
        (if d = Die.hub then 0x4A else 0x34) ch
    else match u.2.dma? d ch with
      | some r => u.2.dmaStop d ch r .pois r.row r.byte []
      | none => u.2
  | .cp n, s => s.raise (.cd n) 0x33 0
  | .l3 k line, s =>
    (match s.line (32 + k.val) line with | some l => s.setLine (32 + k.val) line { l with pois := 3 } | none => s).raise (.hd k) 0x21
      (line % 2 ^ 32)
  | .core k c, s => s.raise (.hd k) 0x20 c
  | .mgmt word, s => s.raise .hub 0x09 word
/-- The places of on-die storage that the package has, with what must run for the report. -/
def onDieReal (s : State) : OnDie → Prop
  | .tile t _ => s.running (.cd t.die) true = true ∧ t.tile < 128
  | .l2data a _ _ _ => a < 32
  | .l2tag a _ _ => a < 32
  | .burr b => b.idx < 64
  | .sampler u => u.unit < 4
  | .dma d ch => ch < unitCount d .dma
  | .core _ c => c < 48
  | _ => True
/-- The dies whose timestamp copies a link's training aligns, each with its bit of HUB_READY (R38). -/
def aligns (k : Nat) : List (Die × Nat) :=
  match (linkEnds k).1.1, (linkEnds k).2.1 with
  | .cd n, .hub => [(.cd n, 32 + n.val)]
  | .cd _, .hd j => [(.hd j, 30 + j.val)]
  | _, _ => []

end Sys2Proof.Machine

/-- R412: a collector that holds a record keeps it until it is cleared and counts what comes, saturating; an empty one takes
the report with its source, time and information. At the hub it is the same for the package's record (R414). -/
def Obligations.FirstFaultIsKept : Prop :=
  (∀ (s : State) (r : Report), (s.reg r.die .fltFirst 0).getLsbD 63 = true →
    let f := (s.latch r).reg r.die .fltFirst 0
    f.getLsbD 63 = true ∧ fld f 7 0 = s.rf r.die .fltFirst 0 7 0 ∧ f.getLsbD 61 = (s.reg r.die .fltFirst 0).getLsbD 61 ∧ f.getLsbD 62 = true ∧
    fld f 47 32 = min 65535 (s.rf r.die .fltFirst 0 47 32 + 1) ∧
    (s.latch r).reg r.die .fltFirstTime 0 = s.reg r.die .fltFirstTime 0 ∧ (s.latch r).reg r.die .fltFirstInfo 0 = s.reg r.die .fltFirstInfo 0)
  ∧ (∀ (s : State) (r : Report), (s.reg r.die .fltFirst 0).getLsbD 63 = false → r.src < 256 →
    let f := (s.latch r).reg r.die .fltFirst 0
    f.getLsbD 63 = true ∧ fld f 7 0 = r.src ∧ f.getLsbD 61 = r.forced ∧ f.getLsbD 62 = (s.reg r.die .fltFirst 0).getLsbD 62 ∧
    fld f 47 32 = s.rf r.die .fltFirst 0 47 32 ∧
    (s.latch r).reg r.die .fltFirstTime 0 = s.now ∧ (s.latch r).reg r.die .fltFirstInfo 0 = r.info.zeroExtend 64)
  ∧ (∀ (s : State) (r : Report) (time : W64), (s.reg .hub .fltPkgFirst 0).getLsbD 63 = true →
    let f := (s.latchPkg r time).reg .hub .fltPkgFirst 0
    fld f 60 57 = s.rf .hub .fltPkgFirst 0 60 57 ∧ fld f 56 49 = s.rf .hub .fltPkgFirst 0 56 49 ∧ fld f 31 0 = s.rf .hub .fltPkgFirst 0 31 0 ∧
    f.getLsbD 62 = true ∧ fld f 48 33 = min 65535 (s.rf .hub .fltPkgFirst 0 48 33 + 1) ∧
    (s.latchPkg r time).reg .hub .fltPkgTime 0 = s.reg .hub .fltPkgTime 0)
  ∧ (∀ (s : State) (r : Report) (time : W64), (s.reg .hub .fltPkgFirst 0).getLsbD 63 = false → r.src < 256 →
    let f := (s.latchPkg r time).reg .hub .fltPkgFirst 0
    f.getLsbD 63 = true ∧ f.getLsbD 61 = r.forced ∧ fld f 60 57 = r.die.idx ∧ fld f 56 49 = r.src ∧ fld f 31 0 = r.info.toNat ∧
    (s.latchPkg r time).reg .hub .fltPkgTime 0 = time)

/-- Fault reports, records, forcing, on-die errors, ALIVE_OUT and the watchdog, clocks and rails (R37, R411-R425, R458, R467). -/
def Obligations.FaultCommands : Prop :=
  (∀ (d : Die) (n : Nat) (s : State), s.collects d = true →
    let l := (s.raised.filter fun r => decide (r.die = d)).take n
    l ≠ [] → Gives (.faultReport d n) s ((bySource l).foldl State.takeReport { s with raised := dropOf d n s.raised }))
  ∧ (∀ (n : Nat) (s : State), s.running .hub false = true →
    let joined := s.forwards.filter fun x => s.reach x.1.die .hub
    let cut := s.forwards.filter fun x => !s.reach x.1.die .hub
    joined.take n ≠ [] →
    Gives (.faultForward n) s
      (([0, 1, 2, 3, 4, 5, 6].flatMap fun i => (joined.take n).filter fun x => decide (x.1.die.idx = i)).foldl
        (fun t x => t.latchPkg x.1 x.2) { s with forwards := cut ++ joined.drop n }))
  ∧ (∀ (w : Wr) (s : State), s.gate w.die .fltCtrl w.pl w.ctx = .ok →
    (w.val.getLsbD 0 = true → Gives (.faultClear w) s ((cleared w s).answer .ok 0)) ∧
    (w.val.getLsbD 1 = true → Gives (.pkgclear w) s ((cleared w s).answer .ok 0)))
  ∧ (∀ (w : Wr) (s : State), s.gate w.die .fltForce w.pl w.ctx = .ok →
    let l := (List.range 64).filter fun j => w.val.getLsbD j && decide (defaultReact w.die (64 * (w.idx % 4) + j) ≠ 0)
    let t : State := { s with raised := s.raised ++ l.map fun j => Report.mk w.die (64 * (w.idx % 4) + j) 0xFFFFFFFF#32 true }
    Gives (.faultForce w) s (t.answer .ok 0))
  ∧ (∀ (x : OnDie) (s : State), onDieReal s x → Gives (.ondieUncorrectable x) s (onDieEffect x s))
  ∧ (∀ (s : State),
    (s.rf .hub .fltAlive 0 31 31 = 1 → Gives .aliveToggle s (s.setRf .hub .fltAlive 0 30 30 (1 - s.rf .hub .fltAlive 0 30 30))) ∧
    (s.rf .hub .fltAlive 0 31 31 = 0 → Gives .aliveToggle s s))
  ∧ (∀ (w : Wr) (s : State), s.gate .hub .fltAlive w.pl w.ctx = .ok → w.val.getLsbD 0 = true →
    let may := s.rf .hub .fltWdt 0 29 29 = 0 ∧ s.epinStands = false ∧ s.wdtRuns = true
    (may → Gives (.aliveRestart w) s (((s.setRf .hub .fltAlive 0 31 31 1).setRf .hub .fltAlive 0 29 28 0).answer .ok 0)) ∧
    (¬ may → Gives (.aliveRestart w) s (s.answer .ok 0)))
  ∧ (∀ (w : Wr) (s : State), s.gate .hub .fltWdt w.pl w.ctx = .ok →
    (w.val.getLsbD 31 = true → Gives (.wdtEnable w) s ((wdtWritten w s).answer .ok 0)) ∧
    (w.val.getLsbD 30 = true → Gives (.wdtKick w) s ((wdtWritten w s).answer .ok 0)))
  ∧ (∀ (s : State), s.running .hub false = true → s.rf .hub .fltWdt 0 31 31 = 1 → s.rf .hub .fltWdt 0 29 29 = 0 →
    100000 * s.rf .hub .fltWdt 0 15 0 ≤ (s.now - s.kicked).toNat →
    Gives .wdtExpire s (((({ s with wdtRuns := true } : State).setRf .hub .fltWdt 0 29 29 1).aliveStop 2).raise .hub 7 0))
  ∧ (∀ (w : Wr) (n : Fin 4) (s : State), w.die = .cd n → s.gate w.die .fltTileRetire w.pl w.ctx = .ok →
    Gives (.tileRetire w) s ((((List.range 64).filter fun j => w.val.getLsbD j).foldl
      (fun t j => t.retireTile n (64 * (w.idx % 2) + j)) s).answer .ok 0))
  ∧ (∀ (d : Die) (s : State), s.dom d false = 2 → d ∉ s.unlocked →
    (d = .hub → Gives (.pllLock d) s (s.raise .hub 1 0)) ∧
    (d ≠ .hub → Gives (.pllLock d) s (({ s with unlocked := d :: s.unlocked } : State).raise d 0 0)))
  ∧ (∀ (s : State), s.running .hub false = true → Gives .refLoss s (s.raise .hub 0 0))
  ∧ (∀ (rail : Nat) (s : State), rail < 34 → rail ∈ s.rails → (∀ e ∈ s.rdown, e.1.headD 100 ≠ rail) →
    let t : State := { s with rails := s.rails.filter fun r => decide (r ≠ rail) }
    (∀ k, railStack rail = some k → s.dom (.cd (cdOf (k / 2))) false = 2 →
      Gives (.railPgFall rail) s ((t.stackOff k).raise .hub 2 ((7 + k) * 256 + 1))) ∧
    (railStack rail = none → s.dom (railDie rail) (decide (rail < 4)) = 2 →
      Gives (.railPgFall rail) s ((t.dieLose (railDie rail)).raise .hub 2 ((railDie rail).idx * 256 + 1))) ∧
    ((∀ k, railStack rail = some k → s.dom (.cd (cdOf (k / 2))) false ≠ 2) →
      (railStack rail = none → s.dom (railDie rail) (decide (rail < 4)) ≠ 2) → Gives (.railPgFall rail) s t))
  ∧ (∀ (rail : Nat) (s : State) e, s.rdown.find? (fun e => decide (e.1.headD 100 = rail)) = some e →
    Gives (.railPgFall rail) s (s.railNext e))
  ∧ (∀ (p aer : Nat) (s : State), p < 4 → s.running .hub false = true → s.rf .hub .hubPcieCfg p 19 19 = 1 →
    Gives (.pcieLinkDown p ⟨aer, true⟩) s ((((s.setRf .hub .hubPcieCfg p 19 19 0).setReady (14 + p) 0).outbDown p).raise .hub (0x40 + p) aer) ∧
    Gives (.pcieLinkDown p ⟨aer, false⟩) s (s.raise .hub (0x40 + p) aer))

/-- Die-to-die links and Millrace ports: replays, retraining, spare lanes, versions and fences (R22, R425, R431, R450). Reset requests, Weirs, scopes and die loss (R307, R428-R435). -/
def Obligations.LinksAndResets : Prop :=
  ((∀ (k m lane : Nat) (s : State), k < 12 → m < linkBuilt k → lane < 68 → s.linkUp k = true →
    let x := s.lmod k m
    let l := (x.replays.filter fun e => decide ((s.now - e.2).toNat < 1000000)) ++ [(lane, s.now)]
    let many := 64 ≤ (l.filter fun e => decide (e.1 = lane)).length ∧ lane ∉ x.due
    (many → Gives (.linkCrcError k m lane) s (s.setLmod k m { x with replays := l, due := x.due ++ [lane] })) ∧
    (¬ many → Gives (.linkCrcError k m lane) s (s.setLmod k m { x with replays := l })))
  ∧ (∀ (k m : Nat) (bad : List Nat) (a b : List (Nat × Nat)) (s : State), k < 12 → m < linkBuilt k → s.linkUp k = true →
    Gives (.linkRetrain k m bad .fails) s (s.fence k) ∧
    (let x := s.lmod k m
     let dead := x.due ++ bad.filter fun l => x.suspects.contains l && decide (l < 68)
     let t := (dead.foldl (fun y l => y.laneFails k m l) (s.setLmod k m { x with suspects := bad, due := [], replays := [] })).linkShow k
     (t.linkLive k = [] → Gives (.linkRetrain k m bad (.ends a b)) s (t.fence k)) ∧
     (t.linkLive k ≠ [] → t.linkAgree k a b = none → Gives (.linkRetrain k m bad (.ends a b)) s ((t.fence k).linkNoVer k a b)) ∧
     (t.linkLive k ≠ [] → ∀ v, t.linkAgree k a b = some v →
       Gives (.linkRetrain k m bad (.ends a b)) s (t.setLink k (setFld (setFld (t.linkReg k) 15 8 v.1) 7 0 v.2)))))
  ∧ (∀ (k : Nat) (a b : List (Nat × Nat)) (s : State), k < 12 → s.linkLive k ≠ [] →
    s.dom (linkEnds k).1.1 false = 2 → ((∃ h, (linkEnds k).2.1 = .hd h) ∨ s.dom (linkEnds k).2.1 false = 2) →
    (s.linkAgree k a b = none → Gives (.linkTraining k a b) s (s.linkNoVer k a b)) ∧
    (∀ v, s.linkAgree k a b = some v →
      let t : State := { (s.setLink k (setFld (setFld (setFld (setFld (s.linkReg k) 31 31 1) 30 30 0) 15 8 v.1) 7 0 v.2)).linkShow k with
        linkVer := s.linkVer.filter fun x => decide (x ≠ k) }
      Gives (.linkTraining k a b) s (t.alignAt k).recoverySettle))
  ∧ (∀ (k : Nat) (s : State), ∀ d ∈ aligns k, (s.alignAt k).aligned.contains d.1 = true ∧
    (s.dom d.1 false = 2 → (s.alignAt k).rf .hub .hubReady 0 d.2 d.2 = 1))
  ∧ (∀ (a b : List (Nat × Nat)) (v : Nat × Nat), (a.map (·.1)).Nodup → (b.map (·.1)).Nodup → agree a b = some v →
    ∃ i j, (v.1, i) ∈ a ∧ (v.1, j) ∈ b ∧ v.2 = min i j ∧ ∀ m i' j', (m, i') ∈ a → (m, j') ∈ b → m ≤ v.1)
  ∧ (∀ (k : Nat) (s : State), k < 12 → s.linkUp k = true → Gives (.linkFence k) s (s.fence k))
  ∧ (∀ (q lane n : Nat) (s : State), s.mrcUp q = true → lane < 8 →
    let x := s.mlanes q
    let l := ((aGet x.errs [] lane).filter fun e => decide ((s.now - e.1).toNat < 100000000)) ++ [(s.now, n)]
    let many := symLimit < (l.map fun e => e.2).sum ∧ lane ∉ x.hot
    (many → Gives (.millraceBadCrc q lane n) s
      { s with mrcLanes := aSet s.mrcLanes q { x with errs := aSet x.errs lane l, hot := lane :: x.hot } }) ∧
    (¬ many → Gives (.millraceBadCrc q lane n) s { s with mrcLanes := aSet s.mrcLanes q { x with errs := aSet x.errs lane l } }))
  ∧ (∀ (q : Nat) (bad : List Nat) (peer : List (Nat × Nat)) (s : State), s.mrcUp q = true →
    let x := s.mlanes q
    let dead := (List.range 8).filter fun l => x.hot.contains l || (x.suspects.contains l && bad.contains l)
    let gone := (List.range 8).filter fun l => x.failed.contains l || dead.contains l
    let t := ({ s with mrcLanes := aSet s.mrcLanes q ⟨gone, bad, [], []⟩ } : State).mrcFit q
    (t.mrcUp q = false → Gives (.mrcPortRetrain q ⟨bad, peer⟩) s t) ∧
    (t.mrcUp q = true → agree s.mrcAdvert peer = none → Gives (.mrcPortRetrain q ⟨bad, peer⟩) s (t.mrcNoVer q)) ∧
    (t.mrcUp q = true → ∀ v, agree s.mrcAdvert peer = some v →
      Gives (.mrcPortRetrain q ⟨bad, peer⟩) s ((t.setRf .hub .mrcPortStatus q 15 8 v.1).setRf .hub .mrcPortStatus q 7 0 v.2))))
  ∧ ((∀ (w : Wr) (s : State), s.gate .hub .fltResetReq w.pl w.ctx = .ok → w.val.getLsbD 0 = true →
    let scope := fld w.val 51 48
    let unit := fld w.val 40 35
    let said (t : State) (st : Status) : State := (t.setRf .hub .fltResetReq 0 59 56 st.code).answer st 0
    let put := s.setReg .hub .fltResetReq 0 (writeFields .fltResetReq (s.reg .hub .fltResetReq 0) w.val)
    let all : State := { put.setRf .hub .fltResetCause 0 15 0 4 with resetDue := true }
    (scope = 4 → w.pl = 0 → Gives (.resetRequest w) s (said all .ok)) ∧
    (scope = 4 → w.pl ≠ 0 → Gives (.resetRequest w) s (said put .perm)) ∧
    (scope ≠ 4 → (Die.ofIdx (fld w.val 47 44) = none ∨ Die.ofIdx (fld w.val 47 44) = some .hub) → Gives (.resetRequest w) s (said put .perm)) ∧
    (∀ n : Fin 4, Die.ofIdx (fld w.val 47 44) = some (.cd n) → scope ≤ 3 → (scope = 0 → unit < 12) → (scope = 3 → s.relayout = false) →
      Gives (.resetRequest w) s (said (put.rstBegin (rstOp scope (.cd n) (fld w.val 43 41) unit true)) .ok)) ∧
    (∀ n : Fin 4, Die.ofIdx (fld w.val 47 44) = some (.cd n) → (4 < scope ∨ (scope = 0 ∧ 12 ≤ unit)) → Gives (.resetRequest w) s (said put .perm)) ∧
    (∀ n : Fin 4, Die.ofIdx (fld w.val 47 44) = some (.cd n) → scope = 3 → s.relayout = true → Gives (.resetRequest w) s (said put .busy)) ∧
    (∀ k : Fin 2, Die.ofIdx (fld w.val 47 44) = some (.hd k) → (scope = 3 ∨ (scope = 0 ∧ unit < 48)) →
      Gives (.resetRequest w) s (said (put.rstBegin (rstOp scope (.hd k) (fld w.val 43 41) unit true)) .ok)) ∧
    (∀ k : Fin 2, Die.ofIdx (fld w.val 47 44) = some (.hd k) → (scope = 1 ∨ scope = 2 ∨ 4 < scope ∨ (scope = 0 ∧ 48 ≤ unit)) →
      Gives (.resetRequest w) s (said put .perm)))
  ∧ (∀ (i : Nat) (s : State) (r : RstOp), s.resets[i]? = some r → r.draining = true →
    let t := r.agents.foldl State.drainAgent s
    let c := { r with clean := true }
    let late := r.agents.filter fun a => !s.drained a
    let b := { r with downed := late }
    (t.rstQuiet r = true → Gives (.weirDrainDone i) s (({ t with resets := t.resets.map fun x => if x = r then c else x } : State).rstApply c)) ∧
    (t.rstQuiet r = false → Gives (.weirDrainDone i) s s) ∧
    Gives (.weirDrainTimeout i) s ((late.foldl (fun x a => x.markDown a)
      ((({ s with resets := s.resets.map fun x => if x = r then b else x } : State).raise .hub 8 (r.die.idx * 256 + r.scope)).raise r.die 8 r.scope)).rstApply b))
  ∧ (∀ (i : Nat) (bad : SelfTest) (s : State) (r : RstOp) (n : Fin 4), s.resets[i]? = some r → r.draining = false → r.scope < 3 → r.die = .cd n →
    let t := s.rstDrop fun x => decide (x = r)
    let u := if r.scope = 2 then (t.tileUp n).chanTest (.cd n) bad.chans else t
    Gives (.scopeResetDone i bad) s ((bad.tiles.filter fun k => decide (k.1 = n.val) && r.tiles.any fun x => decide (s.localIndex x = k.2)).foldl
      (fun x k => x.retireTile n k.2) (u.marksUp (if r.scope = 2 then r.agents else r.downed))))
  ∧ (∀ (d : Die) (s : State), s.dom d false = 2 →
    ((∀ k ∈ linksOf d, s.linkUp k = false) → (∃ k ∈ linksOf d, (s.linkReg k).getLsbD 30 = true) →
      (∀ r ∈ s.resets, ¬ (r.scope = 3 ∧ r.draining = false ∧ r.die = d)) →
      (d ≠ .hub → Gives (.dieLost d) s (s.dieLose d)) ∧ (d = .hub → Gives (.dieLost d) s { s with resetDue := true })) ∧
    ((∃ k ∈ linksOf d, s.linkUp k = true) → Gives (.dieLost d) s s))
  ∧ (∀ (n : Fin 4) (s : State), n.val ∈ s.lostMem → s.dom (.cd n) false = 2 →
    let ps := (upFrom (128 * n.val) 128).filter fun p => decide (3 ≤ aGet s.pchKeep 0 p)
    Gives (.poisonFillDone (.cd n)) s
      { ps.foldl (fun x p => x.fillPch p true) s with lostMem := s.lostMem.filter fun k => decide (k ≠ n.val) })
  ∧ (∀ (d : Die) (s : State), s.dom d false = 2 → s.dieLinked d = true → (∃ r ∈ s.resets, r.scope = 3 ∧ r.draining = false ∧ r.die = d) →
    (∀ n : Fin 4, d = .cd n → n.val ∉ s.lostMem → (s.dom d true = 2 ∨ s.dom d true = 4) → Gives (.dieRejoin d) s
      (((((s.rstDrop fun r => decide (r.scope = 3 ∧ r.die = d)).pchBack (2 * n.val)).pchBack (2 * n.val + 1)).marksUp (upFrom (8 * n.val) 8)).recoverySettle)) ∧
    (∀ k : Fin 2, d = .hd k → Gives (.dieRejoin d) s
      (((s.rstDrop fun r => decide (r.scope = 3 ∧ r.die = d)).marksUp [32 + k.val]).recoverySettle))))

/-! ### Bring-up, licences, firmware and the mailbox (Chapter 16) -/

namespace Sys2Proof.Machine

/-- What is left of the part when the always-on supply has been removed and applied: fuses, flash, what stands outside, the
commands that wait and the free values not yet drawn (R34). -/
def aonFresh (s : State) : State :=
  { State.reset with
    fuse := s.fuse
    pending := s.pending
    out := s.out
    free := s.free
    flash := s.flash
    bootLog := s.bootLog
    hdrs := s.hdrs
    settings := s.settings
    pldm := s.pldm
    pins := s.pins
    rstIn := s.rstIn
    mem := s.mem
    journal := [.wipeAll]
    resetBusy := true
    aonUp := true }
/-- Management firmware, or the recovery code, serves its mailbox: no live activation is running, and no fault handling or power-loop
work comes first (R457, R460, R461). -/
def Served (s : State) : Prop := (s.fwRuns = true ∨ s.recovering = true) ∧ s.rf .hub .fwStatus 0 2 2 = 0 ∧ s.mgmtWork = []
/-- A request at the front of the mailbox with its command, in service: `exec` answers the next state in which it has left the mailbox,
`f` has served it and its answer has gone out (R460); on default settings it is answered UNAV and does nothing (R456). -/
def MailRow (i : Instr) (cmd : Nat) (f : State → Mbx → Status × Nat × State) : Prop :=
  ∀ (s : State) (m : Mbx) (rest : List Mbx), s.mbox = m :: rest → m.cmd = cmd → Served s →
    let t : State := { s with mbox := rest }
    let u : State := (f t m).2.2.mailOut m.path m.cmd m.tag (f t m).1 0 (f t m).2.1
    ((s.rf .hub .fwStatus 0 4 4 = 0 ∨ cmd = 0x0B) → exec i s = .next (s.commit u)) ∧
    (s.rf .hub .fwStatus 0 4 4 = 1 → cmd ≠ 0x0B → exec i s = .next (s.commit (t.mailOut m.path m.cmd m.tag .unav 0 0)))
/-- A pulse of the reset input (R467, R468): the cause is recorded and a package reset is due; while one is in progress it goes back to
step 2 where it has passed it. -/
def inputReset (s : State) : State :=
  if s.resetDue = true then s
  else if s.resetBusy = true then
    (if 2 < s.boot ∨ (∃ u ∈ s.pups, u.die = .hub) then { s with resetDue := true } else s)
  else { s.setRf .hub .fltResetCause 0 15 0 2 with resetDue := true }
/-- The outcome of step 4 for the licence slots: the current one first, then the other (R447). -/
def slotsTried (s : State) : State :=
  let k := s.bootRec.slot % 2
  if s.licReason (s.licSlot k) = 0 then s.licUse k (s.licSlot k)
  else
    let u := s.licRefuse (s.licReason (s.licSlot k))
    if u.licReason (u.licSlot (1 - k)) = 0 then u.licUse (1 - k) (u.licSlot (1 - k)) else u.licRefuse (u.licReason (u.licSlot (1 - k)))

end Sys2Proof.Machine

/-- The steps of bring-up (R34, R437-R445, R453, R466-R468, R484). -/
def Obligations.BringUpSteps : Prop :=
  (∀ s : State, Gives .aonPowerOn s ((aonFresh s).setDom .hub false 0))
  ∧ (∀ s : State,
    let may := s.aonUp = true ∧ s.hubEn = false ∧ s.boot = 1 ∧ (s.pwrState ≠ 4 ∨ s.pwrTarget = 0)
    (may → Gives .hubEn s (({ s with hubEn := true } : State).emit .pin [0, 1])) ∧ (¬ may → Gives .hubEn s s))
  ∧ (∀ s : State, s.hubEn = true → s.pwrGood = false → Gives .pwrGoodAssert s ({ s with pwrGood := true } : State).hubGo)
  ∧ (∀ s : State,
    Gives (.resetN false) s ({ s with rstIn := false } : State).hubGo ∧
    Gives (.resetN true) s (inputReset { s with rstIn := true }) ∧
    (s.pwrGood = true → Gives .pwrGoodFall s (inputReset { s with pwrGood := false })))
  ∧ (∀ s : State, s.resetDue = true → Gives .packageReset s ({ s.packageDown false with boot := if s.hubEn then 2 else 1 } : State).hubGo)
  ∧ (∀ (s : State) (a b : Option ImgHdr), s.running .hub false = true →
    let img (i : Nat) : Option ImgHdr := s.imgFind i (if i = 0 then a else b)
    let t : State := { s with hdrs := [(0, img 0), (1, img 1)] }
    let i := s.bootRec.active % 2
    (∀ h, s.boot = 3 → img i = some h → s.imgOk i (some h) = true → readsSchema h s.settingsNow = true →
      let run : State := { t.fwRun i h s.bootRec.trial false with trialWait := s.bootRec.trial }
      Gives (.firmwareLoad a b) s
        (({ (run.writeModes s.settingsNow).freeTraps with boot := 4 } : State).setRf .hub .licStatus 0 1 0 2)) ∧
    (s.boot = 3 → s.imgOk 0 (img 0) = false → s.imgOk 1 (img 1) = false → Gives (.firmwareLoad a b) s t.recoveryCode) ∧
    (∀ h, s.boot ≠ 3 → s.liveNext = true → img i = some h → s.imgOk i (some h) = true → readsSchema h s.settingsNow = true →
      Gives (.firmwareLoad a b) s ({ ({ t with liveNext := false } : State).fwRun i h true true with liveWait := true } : State).freeTraps))
  ∧ (∀ (s : State) (pcie : List (Nat × (Nat × Nat))) (mrc : List (Nat × List (Nat × Nat))), s.boot = 4 → s.running .hub false = true →
    let t := (List.range 4).foldl (fun x p => x.pcieTrain p (aFind pcie p)) (slotsTried (s.setRf .hub .licStatus 0 1 0 0))
    Gives (.licenceVerify pcie mrc) s { t.mrcTrainAll mrc with boot := if t.licensed = true then 5 else 7 })
  ∧ (∀ (s : State) (m : Mbx) (k : Nat) (pcie : List (Nat × (Nat × Nat))) (mrc : List (Nat × List (Nat × Nat))), s.boot ≠ 4 →
    s.running .hub false = true → s.licWait = some (m, k) →
    let t : State := { s with licWait := none }
    let l := s.licSlot k
    (s.licReason l = 0 → Gives (.licenceVerify pcie mrc) s ((t.licInstall k l mrc).mailOut m.path m.cmd m.tag .ok 0 0)) ∧
    (s.licReason l ≠ 0 → Gives (.licenceVerify pcie mrc) s ((t.licRefuse (s.licReason l)).mailOut m.path m.cmd m.tag .perm 0 0)))
  ∧ (∀ s : State, s.boot = 5 →
    let t := allCds.foldl (fun x n =>
      if 3 + n.val ∈ s.fuse.unfitted then (x.setDom (.cd n) false 4).setDom (.cd n) true 4
      else if x.dom (.cd n) false = 0 then x.powerUp (.cd n) false else x) s
    let u := [(0 : Fin 2), 1].foldl (fun x k => if 1 + k.val ∈ s.fuse.unfitted then x.setDom (.hd k) false 4 else x) t
    Gives .mcPowerUp s { u with boot := 6 })
  ∧ (∀ (k : Nat) (bad : List Nat) (s : State), k < 8 → 6 ≤ s.boot → s.boot ≤ 9 → s.running (.cd (cdOf (k / 2))) false = true →
    s.ready (40 + k) = false → 10 + k ∈ s.rails → 18 + k ∈ s.rails → 26 + k ∈ s.rails → aFind s.pchKeep (64 * k) = none →
    let ph := s.stackPhase k
    let t := ((List.range 64).filter fun i => decide (s.pch (64 * k + i) = ph)).foldl (fun t i => t.pchInit (64 * k + i) (bad.contains i)) s
    (ph ≠ 0 → t.stackPhase k = 0 → Gives (.stackInit k bad) s (t.setReady (40 + k) 1)) ∧
    (ph = 0 ∨ t.stackPhase k ≠ 0 → Gives (.stackInit k bad) s t))
  ∧ (∀ (p : Nat) (bad : Bool) (s : State),
    (s.pch p = 0 → s.pchInit p bad = s.movePch p 1) ∧
    (s.pch p = 1 → (∀ e ∈ s.retEnts, e.p ≠ p) → s.pchInit p bad = s.movePch p (if bad = true then 0 else 2)) ∧
    (s.pch p = 1 → ∀ e, (s.retEnts.find? fun e => decide (e.p = p)) = some e →
      s.pchInit p bad = ((s.movePch p 6).setRf (.cd (pchDie p)) .memPchState (pchIdx p) 12 8 e.k).setBurSt (burrOfPch p) 6) ∧
    (s.pch p = 2 → s.pchInit p bad = (s.fillPch p false).enterOnline p))
  ∧ (∀ (k : Fin 2) (f : Nat) (s : State), s.boot = 6 → s.firstStack = some f → k.val ∉ s.released → s.dom (.hd k) false = 0 →
    (∃ l ∈ hostLinks k, s.linkUp l.1 = true) →
    let t := if s.hostImg = true then s else s.hostLoad f
    Gives (.hostRelease k) s (({ t with released := t.released ++ [k.val] } : State).powerUp (.hd k) false))
  ∧ (∀ (bad : SelfTest) (s : State), s.boot = 6 → s.mcEnded = true → s.hostEnded 0 = true → s.hostEnded 1 = true →
    Gives (.tilePowerUp bad) s (allCds.foldl (fun x n => if x.tileWaits n = true then x.powerUp (.cd n) true else x)
      (({ s with boot := 8, selfBad := bad } : State).chanTest .hub bad.chans)))
  ∧ (∀ (ids heights : List (Nat × Nat)) (s : State), s.boot = 7 ∨ (s.boot = 8 ∧ s.allEnded = true) ∨ (s.boot = 9 ∧ s.topoDue = true) →
    let r := s.topoResult ids heights
    let t := (s.setRf .hub .hubReady 0 63 62 r.1).setRf .hub .hubReady 0 61 56 r.2
    let u := if r.1 = 1 then t else t.raise .hub 12 r.2
    let v := if r.1 = 3 then u else u.orderReason 0 0
    Gives (.topologyCheck ids heights) s { v with boot := 9, topoDue := false, resetBusy := false })

/-- The result of the topology check (R444, R445): ready exactly where no rule of Table 16-4 matches; otherwise the lowest rule
that does, and not ready only where it is one of the first five and the package was not declared before. Conditions of a licence in the order of Table 16-6: the reason recorded is that of the first that it fails, 0 where it
meets them all. -/
def Obligations.TopologyAndLicenceOrder : Prop :=
  (∀ (s : State) (ids heights : List (Nat × Nat)),
    let r := s.topoResult ids heights
    let was := s.rf .hub .hubReady 0 63 62
    (r.1 = 1 ↔ ∀ k, 1 ≤ k → k ≤ 10 → s.topoRule ids heights k = false) ∧
    (r.1 ≠ 1 → 1 ≤ r.2 ∧ r.2 ≤ 10 ∧ s.topoRule ids heights r.2 = true ∧ ∀ k, 1 ≤ k → k < r.2 → s.topoRule ids heights k = false) ∧
    (r.1 = 3 ↔ (r.1 ≠ 1 ∧ r.2 ≤ 5 ∧ was ≠ 1 ∧ was ≠ 2)) ∧ (r.1 = 1 → r.2 = 0) ∧ (r.1 = 1 ∨ r.1 = 2 ∨ r.1 = 3))
  ∧ (∀ (s : State) (l : Nat),
    let ok : Nat → Prop
      | 1 => licFormat l = true
      | 2 => s.fuse.licKey l = true
      | 3 => licSigned l = true
      | 4 => licFld l 0x10 16 = s.fuse.uid.toNat
      | 5 => licFld l 0x05 1 = if s.fuse.high16 = true then 1 else 2
      | 6 => s.licensed = true → s.rf .hub .licStatus 0 63 32 < licFld l 0x08 4
      | _ => s.licensed = true → s.rf .hub .licStatus 0 15 2 ≤ licTiles l ∧ ¬ (s.fl = true ∧ licFeat l = 2)
    (s.licReason l = 0 ↔ ∀ k, 1 ≤ k → k ≤ 7 → ok k) ∧
    (s.licReason l ≠ 0 → s.licReason l ≤ 7 ∧ ¬ ok (s.licReason l) ∧ ∀ k, 1 ≤ k → k < s.licReason l → ok k))

/-- Firmware confirmation, the two timeouts and the root of trust's kick (R454, R457-R459): each answers the next state in which the
trial or the live activation is over, or its previous image runs again; a kick counts from the start of a handover. -/
def Obligations.FirmwareLifeCommands : Prop :=
  (∀ (w : Wr) (s : State), s.gate .hub .fwStatus w.pl w.ctx = .ok → w.val.getLsbD 0 = true →
    (w.pl = 0 →
      let v := setFld (setFld (setFld (s.reg .hub .fwStatus 0) 3 3 0) 2 2 0) 0 0 1
      let t := s.setReg .hub .fwStatus 0 v
      let u := if s.bootRec.active % 2 = s.fwActive then t.putBoot { s.bootRec with trial := false } else t
      exec (.fwConfirm w) s = .next (s.commit (({ u with trialWait := false, liveWait := false } : State).answer .ok 0))) ∧
    (w.pl ≠ 0 → exec (.fwConfirm w) s = .next (s.commit (s.answer .ok 0))))
  ∧ (∀ s : State, s.trialWait = true → exec .trialTimeout s = .next (s.commit (s.fwBack 3)))
  ∧ (∀ s : State, s.trialWait = false → exec .trialTimeout s = .next (s.commit s))
  ∧ (∀ s : State, s.liveWait = true → exec .liveConfirmTimeout s = .next (s.commit (s.fwBack 4)))
  ∧ (∀ s : State, s.liveWait = false → exec .liveConfirmTimeout s = .next (s.commit s))
  ∧ (∀ s : State, (s.liveNext = true ∨ s.liveWait = true) → exec .rootOfTrustKick s = .next (s.commit s.kick))
  ∧ (∀ s : State, s.liveNext = false → s.liveWait = false → exec .rootOfTrustKick s = .next (s.commit s))
  ∧ (∀ (s : State) (r : BootRec), (s.putBoot r).bootRec = { r with seq := s.bootRec.seq + 1 })
  ∧ (∀ (s : State) (ev : Nat) (h : ImgHdr), aFind s.hdrs (1 - s.fwActive) = some (some h) → s.imgOk (1 - s.fwActive) (some h) = true →
    readsSchema h s.settingsNow = true →
    let t := s.fwBack ev
    t.bootRec.active = 1 - s.fwActive ∧ t.bootRec.trial = false ∧ t.bootRec.refused.contains s.fwActive = true ∧
      t.trialWait = false ∧ t.liveWait = false ∧ t.heldTraps = [])

/-- Every command of the mailbox, in service (R399, R447-R449, R456, R460, R461): what it does and what it answers. -/
def Obligations.MailboxCommands : Prop :=
  MailRow .getVersion 1 (fun t _ => (.ok, packed 2 ([t.rf .hub .fwStatus 0 47 32, t.mailMajor * 256] ++
      (([RegName.mxIfVersion, .vxIfVersion, .burIfVersion, .smpIfVersion, .cqIfVersion, .dmaIfVersion].map fun n => t.rf (.cd 0) n 0 15 0) ++
        [t.rf .hub .mrcIfVersion 0 15 0] ++ (([0, 1, 2, 3].map Die.cd ++ [Die.hub]).flatMap fun d =>
          (List.range 4).map fun p => t.rf d .linkStatus p 15 0))), t))
  ∧ (∀ v, MailRow (.setLimit v) 2 (fun t _ => (.ok, 0, t.setRf .hub .pwrLimit 0 7 0 (min 80 (max 32 v)))))
  ∧ (∀ age, MailRow (.getTelemetry age) 3 (fun t _ =>
      let u := if t.telemAge < max 1 (min 1000 age) then t else { t with telem := ⟨t.now, [t.rf .hub .pwrStatus 0 63 48, t.rf .hub .pwrStatus 0 47 40,
        (t.reg .hub .pwrPkgEnergy 0).toNat] ++ (List.range 15).map fun d => (t.reg .hub .pwrDieEnergy d).toNat⟩ }
      (.ok, packed 8 (u.telemAge :: u.telem.vals), u)))
  ∧ MailRow .getFaults 4 (fun t _ => (.ok, packed 8 ([(t.reg .hub .fltPkgFirst 0).toNat, (t.reg .hub .fltPkgTime 0).toNat] ++
      allDies.flatMap fun d => [(t.reg d .fltFirst 0).toNat, (t.reg d .fltFirstTime 0).toNat, (t.reg d .fltFirstInfo 0).toNat] ++
        (List.range 4).map fun k => (t.reg d .fltSticky k).toNat), t))
  ∧ (∀ (flips : List (Nat × Nat)) (s : State) (m : Mbx) (rest : List Mbx), s.mbox = m :: rest → m.cmd = 5 → Served s →
    let t : State := { s with mbox := rest }
    let k := t.licFree
    (s.rf .hub .fwStatus 0 4 4 = 1 → exec (.licenceInstall flips) s = .next (s.commit (t.mailOut m.path m.cmd m.tag .unav 0 0))) ∧
    (s.rf .hub .fwStatus 0 4 4 = 0 → s.licWait ≠ none →
      exec (.licenceInstall flips) s = .next (s.commit (t.mailBusy m.path m.cmd m.tag))) ∧
    (s.rf .hub .fwStatus 0 4 4 = 0 → s.licWait = none → exec (.licenceInstall flips) s = .next (s.commit
      { flips.foldl (fun x e => if e.1 < 256 then x.flashPut (licBase k + e.1) [BitVec.ofNat 8 e.2] else x)
          (t.flashPut (licBase k) (leBytes 256 m.data)) with licWait := some (m, k) })))
  ∧ (∀ off len, MailRow (.fwWrite off len) 6 (fun t m =>
      if 4096 < len ∨ 2 ^ 23 < off + len then (.perm, 0, t)
      else (.ok, 0, (t.flashPut ((if t.otherImg = 0 then 0x100000 else 0x900000) + off) (leBytes len m.data)).imgVoid t.otherImg)))
  ∧ (∀ (s : State) (base : Nat) (l : List Byte) (a : Nat),
    (∀ j b, l[j]? = some b → (s.flashPut base l).flashByte (base + j) = b) ∧
    ((a < base ∨ base + l.length ≤ a) → (s.flashPut base l).flashByte a = s.flashByte a))
  ∧ (∀ (s : State) (i : Nat), aFind (s.imgVoid i).hdrs i = none ∧ (s.imgVoid i).bootRec.refused.contains i = false ∧
    (s.imgVoid i).bootRec.active = s.bootRec.active ∧ (s.imgVoid i).flash = s.flash)
  ∧ (∀ x : Option ImgHdr, MailRow (.fwVerify x) 7 (fun t _ =>
      (if t.imgOk t.otherImg (t.imgFind t.otherImg x) = true then .ok else .perm, 0,
        { t with hdrs := aSet t.hdrs t.otherImg (t.imgFind t.otherImg x) })))
  ∧ (∀ live, MailRow (.fwActivate live) 8 (fun t _ =>
      if t.imgOk t.otherImg (t.imgFind t.otherImg none) = false then (.perm, 0, t)
      else if live = true then (.ok, 0, t.goLive t.otherImg)
      else (.ok, 0, t.putBoot { t.bootRec with active := t.otherImg, trial := true })))
  ∧ (∀ (s : State) (r : SetRec), s.settingsNow = some r →
    r ∈ s.settings.all ∧ r.valid = true ∧ ∀ x ∈ s.settings.all, x.valid = true → x.seq.toNat ≤ r.seq.toNat)
  ∧ (∀ s : State, s.settingsNow = none ↔ ∀ x ∈ s.settings.all, x.valid = false)
  ∧ MailRow .settingsRead 9 (fun t _ => (.ok, (match t.settingsNow with | some r => r.schema.toNat + 2 ^ 16 * r.payload | none => 0), t))
  ∧ (∀ modes good, MailRow (.settingsWrite modes good) 10 (fun t m => (.ok, 0, t.appendSettings m.data modes good)))
  ∧ MailRow .settingsReset 11 (fun t _ =>
      let u := (t.appendSettings 0 [] true).setRf .hub .fwStatus 0 4 4 0
      (.ok, 0, if u.rf .hub .fwStatus 0 15 12 = 2 then u.setRf .hub .fwStatus 0 15 12 0 else u))

/-! ### Low-speed pins and the test access port (Chapter 17) -/

namespace Sys2Proof.Machine

/-- The bits that leave the bypass register as some are shifted in: a 0 first, then those bits one clock later. -/
def oneLater (x : Scan) : Nat := 2 * (x.bits % 2 ^ x.len) % 2 ^ x.len
/-- The bits of the boundary register and those shifted in behind them: the first `len` come out, the next stay. -/
def through (s : State) (x : Scan) : Nat := s.boundary + x.bits % 2 ^ x.len * 2 ^ boundaryLen
/-- An instruction in force, its register scanned; TDO is in high impedance while the hub is not running (R474). -/
def scanned (s : State) (ir acts tdo : Nat) : State :=
  { s with
    jtag := { s.jtag with tap := .runTestIdle, ir := ir }
    out := s.out ++ [⟨.jtag, acts :: if s.hubLit = true then [tdo] else []⟩] }
/-- The boundary register captured, scanned and loaded. -/
def bsrScanned (s : State) (ir : Nat) (x : Scan) : State :=
  scanned { s with jtag := { s.jtag with bsr := through s x / 2 ^ x.len % 2 ^ boundaryLen } } ir ir (through s x % 2 ^ x.len)

end Sys2Proof.Machine

/-- Pin functions, their switching, inputs, and the instructions of the test access port (R475-R479). The level of a pin while its function changes is the one held from before, and with GPIO and its output on it is GPIO_CTRL's
(R477, Table 17-7); a function that does not hold its pin sees its inactive level (R475, R476); the boundary register captures every pad, and
until the hub runs the rail enables are low, QSPI_CS_N is high and TDO is in high impedance (R474, R479); the identification code ends in 1 and
carries the manufacturer and part (R479). -/
def Obligations.PinCommands : Prop :=
  ((∀ (w : Wr) (s : State), s.gate .hub .pinMux w.pl w.ctx = .ok →
    let k := w.idx % 32
    let legal := fld w.val 1 0 ∈ pinFuncs k ∧ fld w.val 5 4 ≠ 3 ∧ fld w.val 7 6 ≠ 3
    let new := setFld (setFld (setFld 0 7 6 (fld w.val 7 6)) 5 4 (fld w.val 5 4)) 1 0 (fld w.val 1 0)
    (¬ legal → Gives (.pinMuxWrite w) s (s.answer .perm 0)) ∧
    (legal → s.switching k = true → Gives (.pinMuxWrite w) s (s.answer .busy 0)) ∧
    (s.switching k = false → legal → fld w.val 1 0 = s.pinFunc k → Gives (.pinMuxWrite w) s ((s.setReg .hub .pinMux k new).answer .ok 0)) ∧
    (s.switching k = false → legal → fld w.val 1 0 ≠ s.pinFunc k → Gives (.pinMuxWrite w) s
      ((({ s with pinHold := aSet s.pinHold k (s.holdLevel k) } : State).setReg .hub .pinMux k (setFld new 31 31 1)).answer .ok 0)))
  ∧ (∀ (k : Nat) (s : State), k < 32 → s.running .hub false = true →
    (s.switching k = true → Gives (.pinSwitchDone k) s (({ s with pinHold := aErase s.pinHold k } : State).setRf .hub .pinMux k 31 31 0)) ∧
    (s.switching k = false → Gives (.pinSwitchDone k) s s))
  ∧ (∀ (k : Nat) (level : Bool) (s : State), k < 32 →
    Gives (.gpioInput k level) s { s with pins := aSet s.pins k level })
  ∧ (∀ (ir : Nat) (x : Scan) (s : State),
    Gives .jtagTapReset s { s with jtag := { s.jtag with tap := .testLogicReset, ir := 3 } } ∧
    Gives .idcode s (scanned s 3 3 s.idcode) ∧
    Gives (.bypass ⟨ir, x⟩) s (scanned s ir 0xFF (oneLater x)) ∧
    Gives (.samplePreload x) s (bsrScanned s 1 x) ∧
    (s.rstIn = true →
      Gives (.extest x) s ((bsrScanned s 2 x).emit .pin [2, through s x / 2 ^ x.len % 2 ^ boundaryLen]) ∧
      Gives (.clamp x) s ((scanned s 4 4 (oneLater x)).emit .pin [4, s.jtag.bsr]) ∧
      Gives (.highz x) s ((scanned s 5 5 (oneLater x)).emit .pin [5])) ∧
    (s.rstIn = false → Gives (.extest x) s (scanned s 2 0xFF (oneLater x)) ∧ Gives (.clamp x) s (scanned s 4 0xFF (oneLater x)) ∧
      Gives (.highz x) s (scanned s 5 0xFF (oneLater x)))))
  ∧ ((∀ (s : State) (k : Nat),
    (s.switching k = true → s.pinLevel k = aGet s.pinHold false k) ∧
    (s.switching k = false → s.pinFunc k = 0 → (s.reg .hub .pinGpioCtrl 0).getLsbD (32 + k) = true →
      s.pinLevel k = (s.reg .hub .pinGpioCtrl 0).getLsbD k) ∧
    (s.switching k = false → s.pinFunc k ≠ 0 → funcOutput k (s.pinFunc k) = false → s.pinLevel k = aGet s.pins false k)) ∧
  (∀ (s : State) (k f : Nat),
    (s.pinFunc k = f → s.switching k = false → s.funcSees k f = s.pinLevel k) ∧
    ((s.pinFunc k ≠ f ∨ s.switching k = true) →
      (s.funcSees k f = true ↔ (k, f) ∈ [(1, 1), (3, 1), (5, 1), (4, 2), (5, 2)]))) ∧
  (∀ (s : State) (i : Nat) (p : Pad), boundaryPads[i]? = some p → s.boundary.testBit i = s.padLevel p) ∧
  (∀ (s : State) (k : Nat), s.tapHolds 2 = false → s.tapHolds 4 = false → s.padLevel (.ls k) = s.pinLevel k) ∧
  (∀ s : State, s.tapHolds 2 = false → s.tapHolds 4 = false → s.tapHolds 5 = false → s.hubLit = false →
    (∀ i, s.pad (.railEn i) = .driven false) ∧ s.pad .qspiCsN = .driven true ∧ s.pad .tdo = .highZ) ∧
  (∀ (s : State) (k pl : Nat), k < 32 → (s.regView .hub .pinGpioIn 0 pl).getLsbD k = s.pinLevel k) ∧
  (∀ s : State, s.idcode % 2 = 1 ∧ s.idcode / 2 % 2 ^ 11 = 0x433 ∧ s.idcode / 2 ^ 12 % 2 ^ 16 = 0xA4E3 ∧
    s.idcode / 2 ^ 28 = (s.fuse.ids.headD 0).toNat % 16))
end

