-- ==== Sys2Proof/Laws/AMap.lean ====
section
/-!
SUPPORT. Reads of an association list after an update.
-/

namespace Sys2Proof.Machine

variable {κ α : Type} [DecidableEq κ]

theorem aFind_aSet (m : AMap κ α) (i j : κ) (v : α) : aFind (aSet m i v) j = if i = j then some v else aFind m j := by
  induction m with
  | nil => by_cases h : i = j <;> simp [aSet, aFind, h]
  | cons e r ih =>
    obtain ⟨k, w⟩ := e
    by_cases hk : k = i
    · subst hk; by_cases h : k = j <;> simp [aSet, aFind, h]
    · by_cases h : k = j
      · subst h; simp [aSet, aFind, hk, Ne.symm hk]
      · simp [aSet, aFind, hk, h, ih]

@[simp] theorem aGet_aSet_same (m : AMap κ α) (d : α) (i : κ) (v : α) : aGet (aSet m i v) d i = v := by
  simp [aGet, aFind_aSet]
theorem aGet_aSet (m : AMap κ α) (d : α) (i j : κ) (v : α) : aGet (aSet m i v) d j = if i = j then v else aGet m d j := by
  by_cases h : i = j <;> simp [aGet, aFind_aSet, h]
theorem aGet_aSet_ne (m : AMap κ α) (d : α) {i j : κ} (v : α) (h : i ≠ j) : aGet (aSet m i v) d j = aGet m d j := by
  simp [aGet_aSet, h]

theorem aFind_aErase (m : AMap κ α) (i j : κ) : aFind (aErase m i) j = if i = j then none else aFind m j := by
  induction m with
  | nil => by_cases h : i = j <;> simp [aErase, aFind, h]
  | cons e r ih =>
    obtain ⟨k, w⟩ := e
    have ih' : aFind (List.filter (fun e => decide (e.1 ≠ i)) r) j = if i = j then none else aFind r j := ih
    by_cases hk : k = i
    · subst hk
      rw [aErase, List.filter_cons_of_neg (by simp), ih']
      by_cases h : k = j <;> simp [aFind, h]
    · rw [aErase, List.filter_cons_of_pos (by simp [hk])]
      by_cases h : k = j
      · subst h; simp [aFind, Ne.symm hk]
      · simp only [aFind, if_neg h, ih']

end Sys2Proof.Machine
end

