-- ==== Sys2Proof/Laws/Regs.lean ====
section
/-!
SUPPORT. Bit fields and control registers: what a field or a register reads as after a write.
-/

namespace Sys2Proof

theorem testBit_fld {w : Nat} (x : BitVec w) (hi lo j : Nat) :
    (fld x hi lo).testBit j = (decide (j < hi + 1 - lo) && x.getLsbD (lo + j)) := by
  simp [fld, Nat.testBit_mod_two_pow, Nat.testBit_shiftRight, BitVec.testBit_toNat]

theorem getLsbD_setFld {w : Nat} (x : BitVec w) (hi lo v i : Nat) :
    (setFld x hi lo v).getLsbD i =
      if lo ≤ i ∧ i ≤ hi ∧ i < w then v.testBit (i - lo) else x.getLsbD i := by
  unfold setFld
  simp only [BitVec.getLsbD_or, BitVec.getLsbD_and, BitVec.getLsbD_not, BitVec.getLsbD_ofNat, Nat.testBit_shiftLeft,
    Nat.testBit_two_pow_sub_one, Nat.testBit_mod_two_pow]
  by_cases hw : i < w
  · by_cases h1 : lo ≤ i
    · by_cases h2 : i ≤ hi
      · have : i - lo < hi + 1 - lo := by omega
        simp [hw, h1, h2, this]
      · have : ¬ i - lo < hi + 1 - lo := by omega
        simp [hw, h1, h2, this]
    · simp [hw, h1]
  · simp [hw, BitVec.getLsbD_of_ge x i (by omega)]

/-- A field reads as written. -/
theorem fld_setFld_same {w : Nat} (x : BitVec w) {hi lo : Nat} (v : Nat) (h : hi < w) :
    fld (setFld x hi lo v) hi lo = v % 2 ^ (hi + 1 - lo) := by
  apply Nat.eq_of_testBit_eq
  intro j
  rw [testBit_fld, getLsbD_setFld, Nat.testBit_mod_two_pow]
  by_cases hj : j < hi + 1 - lo
  · have : lo ≤ lo + j ∧ lo + j ≤ hi ∧ lo + j < w := ⟨by omega, by omega, by omega⟩
    simp [hj, this]
  · simp [hj]

/-- A write of a field leaves every field beside it alone. -/
theorem fld_setFld_disjoint {w : Nat} (x : BitVec w) {hi lo hi' lo' : Nat} (v : Nat) (h : hi' < lo ∨ hi < lo') :
    fld (setFld x hi lo v) hi' lo' = fld x hi' lo' := by
  apply Nat.eq_of_testBit_eq
  intro j
  rw [testBit_fld, testBit_fld, getLsbD_setFld]
  by_cases hj : j < hi' + 1 - lo'
  · have : ¬ (lo ≤ lo' + j ∧ lo' + j ≤ hi ∧ lo' + j < w) := by omega
    rw [if_neg this]
  · simp [hj]

end Sys2Proof

namespace Sys2Proof.Machine

/-- A register reads as written, and no other register changes. -/
theorem State.reg_setReg (s : State) (d d' : Die) (n n' : RegName) (i i' : Nat) (v : W64) :
    (s.setReg d n i v).reg d' n' i' = if d = d' ∧ n = n' ∧ i = i' then v else s.reg d' n' i' := by
  simp only [State.reg, State.setReg, aGet_aSet]
  by_cases h : d = d' ∧ n = n' ∧ i = i'
  · obtain ⟨rfl, rfl, rfl⟩ := h; simp
  · rw [if_neg h, if_neg (by intro e; exact h ⟨congrArg RKey.die e, congrArg RKey.name e, congrArg RKey.idx e⟩)]
@[simp] theorem State.reg_setReg_same (s : State) (d : Die) (n : RegName) (i : Nat) (v : W64) :
    (s.setReg d n i v).reg d n i = v := by simp [State.reg_setReg]
theorem State.reg_setReg_ne (s : State) {d d' : Die} {n n' : RegName} {i i' : Nat} (v : W64) (h : ¬ (d = d' ∧ n = n' ∧ i = i')) :
    (s.setReg d n i v).reg d' n' i' = s.reg d' n' i' := by simp [State.reg_setReg, h]

/-- A field of a register reads as written. -/
theorem State.rf_setRf_same (s : State) (d : Die) (n : RegName) (i : Nat) {hi lo : Nat} (v : Nat) (h : hi < 64) :
    (s.setRf d n i hi lo v).rf d n i hi lo = v % 2 ^ (hi + 1 - lo) := by
  simp [State.rf, State.setRf, fld_setFld_same _ _ h]
/-- A write of a field leaves the register's other fields, and every other register, alone. -/
theorem State.rf_setRf_disjoint (s : State) (d : Die) (n : RegName) (i : Nat) {hi lo hi' lo' : Nat} (v : Nat)
    (h : hi' < lo ∨ hi < lo') : (s.setRf d n i hi lo v).rf d n i hi' lo' = s.rf d n i hi' lo' := by
  simp [State.rf, State.setRf, fld_setFld_disjoint _ _ h]
theorem State.reg_setRf_ne (s : State) {d d' : Die} {n n' : RegName} {i i' : Nat} (hi lo v : Nat) (h : ¬ (d = d' ∧ n = n' ∧ i = i')) :
    (s.setRf d n i hi lo v).reg d' n' i' = s.reg d' n' i' := State.reg_setReg_ne s _ h

end Sys2Proof.Machine
end

