-- ==== Sys2Proof/Laws/Threads.lean ====
section
/-!
SUPPORT. What the issue of a thread instruction gives, and what registers, predicates and lanes read after a write.
-/

namespace Sys2Proof.Machine
open Sys2Proof

/-- Everything an issue says. -/
theorem issueAt_some {s : State} {g : GroupRef} {o : TOp} {c : TCtx} (h : s.issueAt g o = some c) :
    c.t = g.tileRef ∧ c.gi = g.grp ∧ (s.tile g.tileRef).block? g.bid = some c.b ∧ c.b.st = .running
      ∧ c.b.group? g.grp = some c.g ∧ c.g.pc? = some c.pc ∧ (s.tile g.tileRef).word? c.b.ctx c.pc = some c.w
      ∧ c.act = c.g.active c.pc
      ∧ c.exe = c.act.filter (fun i => match c.g.lanes[i]? with | some l => guardOk c.w l | none => false)
      ∧ tdecode c.w = some o ∧ (s.tile g.tileRef).mayIssue g.bid g.grp o c.w = true
      ∧ s.running (.cd g.tileRef.die) true = true := by
  unfold State.issueAt at h
  split at h
  · simp at h
  · rename_i c' hc
    split at h
    · rename_i hd
      cases h
      simp only [State.frontOf] at hc
      repeat' split at hc
      all_goals first | (simp at hc; done) | skip
      cases hc
      simp_all only [Bool.and_eq_true, decide_eq_true_eq, Bool.not_eq_true', Bool.not_eq_false, ne_eq, Decidable.not_not]
      refine ⟨?_, ?_, ?_, ?_, ?_, ?_, ?_, ?_, ?_, ?_, ?_, ?_⟩ <;> trivial
    · simp at h

theorem block?_bid {x : Tile} {i : Nat} {b : Block} (h : x.block? i = some b) : b.bid = i := by
  have := List.find?_some h
  simpa using this

theorem block?_setBlock_same {x : Tile} {i : Nat} {b b' : Block} (h : x.block? i = some b) (hb : b'.bid = i) :
    (x.setBlock b').block? i = some b' := by
  simp only [Tile.block?, Tile.setBlock] at *
  generalize x.blocks = l at *
  induction l with
  | nil => simp at h
  | cons y r ih =>
    simp only [List.map_cons, List.find?_cons] at *
    by_cases hy : y.bid = i
    · simp [hy, hb]
    · simp [hy, hb] at h ⊢
      simpa [hb] using ih h

theorem block?_setBlock_ne {x : Tile} {i : Nat} {b' : Block} (hb : b'.bid ≠ i) :
    (x.setBlock b').block? i = x.block? i := by
  simp only [Tile.block?, Tile.setBlock]
  generalize x.blocks = l
  induction l with
  | nil => rfl
  | cons y r ih =>
    by_cases hy : y.bid = b'.bid
    · simp [hy, hb, ih]
    · simp only [List.map_cons, hy, if_false, List.find?_cons, ih]

@[simp] theorem tile_setTile_same (s : State) (t : TileRef) (x : Tile) : (s.setTile t x).tile t = x := by
  simp [State.tile, State.setTile]
theorem tile_setTile_ne (s : State) {t u : TileRef} (x : Tile) (h : u ≠ t) : (s.setTile t x).tile u = s.tile u := by
  simp [State.tile, State.setTile, aGet_aSet_ne _ _ _ (Ne.symm h)]

/-- A lane of the group after an instruction. -/
theorem lanes_get (c : TCtx) (f : Nat → Lane → Lane) (i : Nat) :
    (c.lanes f)[i]? = (c.g.lanes[i]?).map fun l =>
      let l' := if i ∈ c.exe then f i l else l
      if i ∈ c.act then { l' with pc := l'.pc + 8 } else l' := by
  simp only [TCtx.lanes, withIdx, List.getElem?_map, List.contains_iff_mem]
  have : ((List.range c.g.lanes.length).zip c.g.lanes)[i]? = (c.g.lanes[i]?).map fun l => (i, l) := by
    by_cases h : i < c.g.lanes.length
    · simp [h]
    · simp [h]
  rw [this]
  cases c.g.lanes[i]? <;> rfl
@[simp] theorem lanes_length (c : TCtx) (f : Nat → Lane → Lane) : (c.lanes f).length = c.g.lanes.length := by
  simp [TCtx.lanes, withIdx]

/-- A register after a write. -/
theorem rv_wv (l : Lane) (n d x k : Nat) :
    (l.wv n d x).rv n k = if d = k ∧ k < n then x % 2 ^ 32 else l.rv n k := by
  unfold Lane.wv Lane.rv
  by_cases hk : d = k
  · subst hk; by_cases hd : d < n <;> simp [hd]
  · by_cases hd : d < n
    · simp [hd, hk, aGet_aSet_ne _ _ _ hk]
    · simp [hd, hk]
@[simp] theorem wv_frame (l : Lane) (n d x : Nat) : { l with v := (l.wv n d x).v } = l.wv n d x := by
  unfold Lane.wv; split <;> rfl
/-- A clear bit set by addition. -/
theorem testBit_add_clear (p d k : Nat) (h : p.testBit d = false) :
    (p + 2 ^ d).testBit k = (decide (k = d) || p.testBit k) := by
  rw [Nat.add_comm]
  rcases Nat.lt_trichotomy k d with hk | hk | hk
  · rw [Nat.testBit_two_pow_add_gt hk]; simp [Nat.ne_of_lt hk]
  · subst hk; rw [Nat.testBit_two_pow_add_eq]; simp [h]
  · obtain ⟨e, rfl⟩ : ∃ e, k = e + (d + 1) := ⟨k - (d + 1), by omega⟩
    rw [Nat.testBit_add, Nat.testBit_add]
    have hp : 0 < 2 ^ d := Nat.two_pow_pos d
    have h1 : p / 2 ^ d % 2 = 0 := by
      rw [Nat.testBit_eq_decide_div_mod_eq] at h
      have := of_decide_eq_false h
      omega
    have h2 : (2 ^ d + p) / 2 ^ (d + 1) = p / 2 ^ (d + 1) := by
      rw [Nat.pow_succ, ← Nat.div_div_eq_div_mul, ← Nat.div_div_eq_div_mul, Nat.add_comm, Nat.add_div_right _ hp]
      omega
    rw [h2]
    have : ¬ (e + (d + 1) = d) := by omega
    simp [this]
theorem nbit_eq (x i : Nat) : nbit x i = x.testBit i := by
  rw [Nat.testBit_eq_decide_div_mod_eq]; rfl
/-- A predicate after a write. -/
theorem rp_wp (l : Lane) (d : Nat) (x : Bool) (k : Nat) : (l.wp d x).rp k = if k = d then x else l.rp k := by
  simp only [Lane.rp, Lane.wp, nbit_eq]
  cases x with
  | true =>
    by_cases h : l.p.testBit d = true
    · by_cases hk : k = d <;> simp_all
    · simp only [h, if_false, if_true, Bool.false_eq_true]
      rw [testBit_add_clear _ _ _ (by simpa using h)]
      by_cases hk : k = d <;> simp_all
  | false =>
    by_cases h : l.p.testBit d = true
    · simp only [h, if_true, if_false, Bool.false_eq_true]
      have hge : 2 ^ d ≤ l.p := Nat.ge_two_pow_of_testBit h
      obtain ⟨q, hq⟩ : ∃ q, l.p = q + 2 ^ d := ⟨l.p - 2 ^ d, by omega⟩
      have hc : q.testBit d = false := by
        rw [hq, Nat.add_comm, Nat.testBit_two_pow_add_eq] at h; simpa using h
      rw [hq, testBit_add_clear _ _ _ hc, Nat.add_sub_cancel]
      by_cases hk : k = d <;> simp_all
    · by_cases hk : k = d <;> simp_all

end Sys2Proof.Machine
end

