-- ==== Sys2Proof/WellFormed.lean ====
section
/-!
DEFINITION. Well-formed commands: every operand in the range that the spec gives it. A command that is not well formed
names something the part does not have.
-/

namespace Sys2Proof

def TileRef.wf (t : TileRef) : Bool := decide (t.tile < 128) && decide (t.tile % 16 < 12)
def BlockRef.wf (b : BlockRef) : Bool := b.tileRef.wf && decide (b.bid < 2 ^ 34)
def GroupRef.wf (g : GroupRef) : Bool := g.tileRef.wf && decide (g.bid < 2 ^ 34) && decide (g.grp < 64)
def Wr.wf (w : Wr) : Bool := decide (w.pl < 4) && decide (w.ctx < 4096)
def CtlWrite.wf (w : CtlWrite) : Bool := decide (w.pl < 4) && decide (w.ctx < 4096) && decide (w.off + w.size ≤ 2 ^ 24)
def Disturb.wf (d : Disturb) : Bool :=
  decide (d.p < 512) && decide (d.blk < 2 ^ 24) && d.flips.all (fun x => decide (x.1 < 68) && decide (x.2 < 256))
def BurrRef.wf (b : BurrRef) : Bool := decide (b.idx < 64)
def SmpRef.wf (u : SmpRef) : Bool := decide (u.unit < 4)
def Tlp.wf (t : Tlp) : Bool := decide (t.port < 4) && decide (1 ≤ t.len) && decide (t.len ≤ 4096) && decide (t.pa < 2 ^ 52)
def Pkt.wf (p : Pkt) : Bool :=
  decide (p.port < 12) && decide (p.vl < 8) && decide (p.src < 65536) && decide (p.ctx < 4096) && decide (p.opid < 2 ^ 32) &&
    decide (p.unit < 65536) && decide (p.seq < 65536) && decide (p.arg < 16) && decide (p.addr < 2 ^ 64) && decide (p.len ≤ 4096)
def Status.wf (s : Status) : Bool := decide (s ≠ .held)
def AtOp.wf (a : AtOp) : Bool := decide (a.op < 9) && decide (a.ty < 5) && decide (a.arg < 2 ^ 64) && decide (a.cmp < 2 ^ 64)
def AgentReq.wf (a : AgentReq) : Bool :=
  decide (a.agent < 35) && decide (a.req < 65536) && decide (a.pa < 2 ^ 52) && decide (a.ctx < 4096) && decide (a.pl < 4) && decide (a.il < 256) &&
    decide (a.typ < 4)
def NcReq.wf (a : NcReq) : Bool :=
  decide (a.req < 65536) && decide (a.pa < 2 ^ 52) && decide (a.ctx < 4096) && decide (a.pl < 4) && decide (a.il < 256)
def PcieWho.wf : PcieWho → Bool
  | .host c => decide (c < 96)
  | .mgmt c => decide (c < 4)
  | .dma ch => decide (ch < 16)
  | .other => true
def Share.wf (x : Share) : Bool := decide (x.die < 15) && decide (x.ctx < 4096)
def ImgHdr.wf (h : ImgHdr) : Bool :=
  decide (h.ver < 65536) && decide (h.svn < 65536) && decide (h.size ≤ 2 ^ 23) && decide (h.smin < 65536) && decide (h.smax < 65536) && decide (h.mbox < 256)
def Scan.wf (x : Scan) : Bool := decide (x.bits < 2 ^ x.len)
/-- Public instructions other than BYPASS (R479). -/
def tapPublic : List Nat := [1, 2, 3, 4, 5]
def IrScan.wf (x : IrScan) : Bool := decide (x.ir < 256) && !tapPublic.contains x.ir && x.scan.wf
def SelfTest.wf (x : SelfTest) : Bool :=
  (x.tiles.all fun e => decide (e.1 < 4) && decide (e.2 < 96)) && x.chans.all fun e => decide (e.1 < 7) && decide (e.2 < 64)
def OnDie.wf : OnDie → Bool
  | .tile t _ => t.wf
  | .l2data a set way half => decide (a < 32) && decide (set < 65536) && decide (way < 16) && decide (half < 2)
  | .l2tag a set way => decide (a < 32) && decide (set < 65536) && decide (way < 16)
  | .burr b => b.wf
  | .sampler u => u.wf
  | .dma _ ch => decide (ch < 32)
  | .cp _ => true
  | .l3 _ line => decide (line < 2 ^ 45)
  | .core _ c => decide (c < 48)
  | .mgmt _ => true

/-- Ports of a list, each below `n`. -/
def portsWf {α : Type} (n : Nat) (l : List (Nat × α)) : Bool := l.all fun x => decide (x.1 < n)

/-- The checks that a command passes: its operands lie in the ranges the spec gives them. -/
def Instr.wf : Instr → Bool
  | .registerWrite w => w.wf
  | .blockPlace t _ => t.wf
  | .instructionFetch g _ st => g.wf && st.wf
  | .undefinedEncoding g => g.wf
  | .mov g => g.wf
  | .add g => g.wf
  | .sub g => g.wf
  | .mul g => g.wf
  | .mulhi g => g.wf
  | .mad g => g.wf
  | .div g => g.wf
  | .rem g => g.wf
  | .and g => g.wf
  | .or g => g.wf
  | .xor g => g.wf
  | .shl g => g.wf
  | .shr g => g.wf
  | .minmax g => g.wf
  | .bitop g => g.wf
  | .setp g => g.wf
  | .fadd g => g.wf
  | .fsub g => g.wf
  | .fmul g => g.wf
  | .ffma g => g.wf
  | .fminmax g => g.wf
  | .fdiv g => g.wf
  | .fun1 g => g.wf
  | .fun2 g => g.wf
  | .lmul g => g.wf
  | .ldiv g => g.wf
  | .lpow g => g.wf
  | .lroot g => g.wf
  | .ladd g => g.wf
  | .cvt g => g.wf
  | .lminmax g => g.wf
  | .ldg g => g.wf
  | .stg g => g.wf
  | .ldl g => g.wf
  | .stl g => g.wf
  | .ldu g => g.wf
  | .prf g => g.wf
  | .aadd g => g.wf
  | .aadds g => g.wf
  | .amin g => g.wf
  | .amax g => g.wf
  | .aand g => g.wf
  | .aor g => g.wf
  | .axor g => g.wf
  | .axchg g => g.wf
  | .acas g => g.wf
  | .bra g => g.wf
  | .jmp g => g.wf
  | .call g => g.wf
  | .exit g => g.wf
  | .bar g => g.wf
  | .nop g => g.wf
  | .fence g => g.wf
  | .waitk g => g.wf
  | .rdk g => g.wf
  | .rnd g => g.wf
  | .time g => g.wf
  | .sel g => g.wf
  | .plop g => g.wf
  | .shfl g => g.wf
  | .vote g => g.wf
  | .rdlane g => g.wf
  | .mxi g => g.wf
  | .vxi g => g.wf
  | .umov g => g.wf
  | .uadd g => g.wf
  | .usub g => g.wf
  | .umul g => g.wf
  | .uand g => g.wf
  | .uor g => g.wf
  | .ushl g => g.wf
  | .ushr g => g.wf
  | .memoryResponse t _ st => t.wf && st.wf
  | .l1Fill t st => t.wf && st.wf
  | .writeBufferDrain t => t.wf
  | .writeBufferAck t st => t.wf && st.wf
  | .blockEnd b => b.wf
  | .mma t _ => t.wf
  | .accLoad t => t.wf
  | .accStore t => t.wf
  | .accZero t => t.wf
  | .mxCounterIncrement t => t.wf
  | .vxLoad t _ => t.wf
  | .vxStore t _ => t.wf
  | .cvtl t _ => t.wf
  | .cvts t _ => t.wf
  | .cvtx t _ => t.wf
  | .vxFill t _ => t.wf
  | .vxCopy t _ => t.wf
  | .vxAdd t _ => t.wf
  | .vxSub t _ => t.wf
  | .vxMul t _ => t.wf
  | .vxDiv t _ => t.wf
  | .vxFma t _ => t.wf
  | .vxMin t _ => t.wf
  | .vxMax t _ => t.wf
  | .vxSign t _ => t.wf
  | .vxCmp t _ => t.wf
  | .vxSel t _ => t.wf
  | .vxBit t _ => t.wf
  | .vxFun t _ => t.wf
  | .vxReduce t _ => t.wf
  | .vxRand t _ => t.wf
  | .genGet t => t.wf
  | .genSet t => t.wf
  | .vxCounterIncrement t => t.wf
  | .burrLaunchDeliver _ _ => true
  | .burrProgramStart b => b.wf
  | .burrMv b _ reads => b.wf && (reads.all (fun x => x.wf))
  | .burrMvt b _ reads => b.wf && (reads.all (fun x => x.wf))
  | .score b _ reads => b.wf && (reads.all (fun x => x.wf))
  | .wsum b _ reads => b.wf && (reads.all (fun x => x.wf))
  | .append b _ => b.wf
  | .axpy b => b.wf
  | .burrReduce b => b.wf
  | .burrCopy b _ reads => b.wf && (reads.all (fun x => x.wf))
  | .burrFill b _ => b.wf
  | .gate b _ reads => b.wf && (reads.all (fun x => x.wf))
  | .burrFeedArrive b _ => b.wf
  | .burrLaunchComplete _ _ => true
  | .burrDisable w => w.wf
  | .burrEnable w => w.wf
  | .samplerDeliver _ _ => true
  | .samplerStart u => u.wf
  | .smpSample u _ => u.wf
  | .smpHost u _ => u.wf
  | .hostPoll u => u.wf
  | .hostTimeout u => u.wf
  | .samplerDisable w => w.wf
  | .samplerEnable w => w.wf
  | .bandModeWrite w => w.wf
  | .uncorrectableReread d => d.wf
  | .scrubRead d _ => d.wf
  | .refresh p bank => decide (p < 512) && decide (bank < 64)
  | .channelRetrain _ ch _ => decide (ch < 64)
  | .pchThresholdClear w => w.wf
  | .tgStart w => w.wf
  | .tgAbort w _ reads => w.wf && (reads.all (fun x => x.wf))
  | .tgRunDone _ ch reads => decide (ch < 64) && (reads.all (fun x => x.wf))
  | .retireGo w => w.wf
  | .relayoutCopy reads => (reads.all (fun x => x.wf))
  | .rdS a => a.wf
  | .rdX a => a.wf
  | .upg a => a.wf
  | .itom a _ => a.wf
  | .wb agent pa _ => decide (agent < 35) && decide (pa < 2 ^ 45)
  | .cleanEvict agent pa => decide (agent < 35) && decide (pa < 2 ^ 45)
  | .rdNc a => a.wf
  | .wrNc a _ _ _ => a.wf
  | .atNc a op => a.wf && op.wf
  | .fwdS agent pa _ _ => decide (agent < 35) && decide (pa < 2 ^ 45)
  | .fwdX agent pa _ _ => decide (agent < 35) && decide (pa < 2 ^ 45)
  | .fwdNc agent pa _ _ => decide (agent < 35) && decide (pa < 2 ^ 45)
  | .inv agent pa => decide (agent < 35) && decide (pa < 2 ^ 45)
  | .recall agent pa _ _ => decide (agent < 35) && decide (pa < 2 ^ 45)
  | .pushS agent pa => decide (agent < 35) && decide (pa < 2 ^ 45)
  | .dataS agent pa => decide (agent < 35) && decide (pa < 2 ^ 45)
  | .dataE agent pa => decide (agent < 35) && decide (pa < 2 ^ 45)
  | .dataX agent pa => decide (agent < 35) && decide (pa < 2 ^ 45)
  | .gntX agent pa => decide (agent < 35) && decide (pa < 2 ^ 45)
  | .dataNc req pa => decide (req < 65536) && decide (pa < 2 ^ 45)
  | .done req pa => decide (req < 65536) && decide (pa < 2 ^ 45)
  | .ack agent pa => decide (agent < 35) && decide (pa < 2 ^ 45)
  | .fwdAck agent pa => decide (agent < 35) && decide (pa < 2 ^ 45)
  | .wbAck agent pa => decide (agent < 35) && decide (pa < 2 ^ 45)
  | .nack who pa => decide (who < 65600) && decide (pa < 2 ^ 45)
  | .comp agent pa => decide (agent < 35) && decide (pa < 2 ^ 45)
  | .nackRetry who pa => decide (who < 65600) && decide (pa < 2 ^ 45)
  | .tokenExpire who pa => decide (who < 65600) && decide (pa < 2 ^ 45)
  | .homeTimeout pa => decide (pa < 2 ^ 45)
  | .agentMarkDown agent => decide (agent < 35)
  | .directorySweep _ => true
  | .agentMarkUp agent => decide (agent < 35)
  | .requestTimeout who pa => decide (who < 65600) && decide (pa < 2 ^ 45)
  | .walkReadReturn t _ st => t.wf && st.wf
  | .cptWrite w => w.wf
  | .writeSync w => w.wf
  | .cptSync w => w.wf
  | .cptRead w => w.wf
  | .setRoot w => w.wf
  | .fdtWrite w => w.wf
  | .fdtSync w => w.wf
  | .fdtRead w => w.wf
  | .cdtWrite w => w.wf
  | .cdtSync w => w.wf
  | .cdtRead w => w.wf
  | .replicaUpdate rep kind _ => decide (rep < 5) && decide (kind < 3)
  | .cptCommandComplete => true
  | .xltInv w => w.wf
  | .xltInvComplete => true
  | .dmaGo w => w.wf
  | .dmaResume w => w.wf
  | .dmaAbort w => w.wf
  | .dmaPause w => w.wf
  | .dmaDisable w => w.wf
  | .dmaEnable w => w.wf
  | .dmaDescriptorRead _ ch => decide (ch < 32)
  | .dmaCopy _ ch => decide (ch < 32)
  | .dmaFill _ ch => decide (ch < 32)
  | .dmaWrite _ ch => decide (ch < 32)
  | .tolocal _ ch => decide (ch < 32)
  | .fromlocal _ ch => decide (ch < 32)
  | .dmaSegmentResponse _ ch => decide (ch < 32)
  | .cqDoorbell w => w.wf
  | .cqEnable w => w.wf
  | .cqDisable w => w.wf
  | .cmdNop _ q => decide (q < 64)
  | .launch _ q => decide (q < 64)
  | .cmdDma _ q => decide (q < 64)
  | .cmdBurr _ q => decide (q < 64)
  | .feed _ q => decide (q < 64)
  | .cmdSample _ q => decide (q < 64)
  | .waitc _ q => decide (q < 64)
  | .waitm _ q => decide (q < 64)
  | .waitmPoll _ q => decide (q < 64)
  | .waitmTimeout _ q => decide (q < 64)
  | .cmdWrite _ q => decide (q < 64)
  | .cmdTime _ q => decide (q < 64)
  | .cmdFence _ q => decide (q < 64)
  | .event _ q => decide (q < 64)
  | .cmdXltInv _ q => decide (q < 64)
  | .cmdCall _ q => decide (q < 64)
  | .commandComplete _ _ => true
  | .eventPushRetry _ _ => true
  | .eqPop w => w.wf
  | .eqPush w => w.wf
  | .eqEnable w => w.wf
  | .eqDisable w => w.wf
  | .preempt w => w.wf
  | .blockImageWritten b => b.wf
  | .preemptResume w => w.wf
  | .restore w => w.wf
  | .bsave w => w.wf
  | .brestore w => w.wf
  | .release w => w.wf
  | .kill w => w.wf
  | .pcieOutbound who t _ _ => who.wf && t.wf
  | .rootPortRequest t => t.wf
  | .interruptWindowWrite t => t.wf
  | .sluiceAccess t => t.tlp.wf
  | .sluiceCtrlWrite w => w.wf
  | .endpointWakeDoorbell r => r.wf
  | .orderedModeEnter => true
  | .mrcSqDoorbell w => w.wf
  | .sqTailPoll q => decide (q < 64)
  | .sqEnable w => w.wf
  | .sqDisable w => w.wf
  | .mrcPut q => decide (q < 64)
  | .mrcGet q => decide (q < 64)
  | .mrcAtomic q => decide (q < 64)
  | .mrcRput q => decide (q < 64)
  | .coll q => decide (q < 64)
  | .waitin q => decide (q < 64)
  | .mrcOpComplete opid => decide (opid < 2 ^ 32)
  | .putData p => p.wf
  | .getReq p => p.wf
  | .getData p => p.wf
  | .atomic p => p.wf
  | .atomicRsp p => p.wf
  | .rputData p => p.wf
  | .mrcAck p => p.wf
  | .live p => p.wf
  | .slack p => p.wf
  | .mgmt p => p.wf
  | .unitCommitted src opid _ => decide (src < 65536) && decide (opid < 2 ^ 32)
  | .liveSend station => decide (station < 65536)
  | .peerLost station => decide (station < 65536)
  | .snapSave w => w.wf
  | .snapRestore w => w.wf
  | .snapDrop w => w.wf
  | .mctpMessage transport typ _ => decide (transport < 3) && decide (typ < 256)
  | .slackReport => true
  | .targetWrite w => w.wf
  | .limitSample => true
  | .limitRampStep => true
  | .powerSample _ shares => (shares.all (fun x => x.wf))
  | .droop d => decide (d < 15)
  | .droopRelease d => decide (d < 15)
  | .packageOvercurrent => true
  | .excursionLimit => true
  | .thermalSample d tj => decide (d < 15) && decide (tj < 256)
  | .thermalTrip d tj => decide (d < 15) && decide (tj < 256)
  | .pwrSnapTake w => w.wf
  | .requestN3 w => w.wf
  | .requestN4 w => w.wf
  | .lattolWrite w => w.wf
  | .idleholdExpire => true
  | .handshakeAnswer die block _ _ => decide (die < 7) && decide (block < 12)
  | .handshakeDeferExpire => true
  | .handshakeTimeout => true
  | .powerStateEntered => true
  | .wake => true
  | .powerStateExited => true
  | .rtcTick => true
  | .railPgTimeout rail => decide (rail < 34)
  | .pllLockTimeout _ => true
  | .railPg rail => decide (rail < 34)
  | .railPgFall rail => decide (rail < 34)
  | .pllLock _ => true
  | .refLoss => true
  | .faultReport _ _ => true
  | .faultForward _ => true
  | .faultClear w => w.wf
  | .pkgclear w => w.wf
  | .faultForce w => w.wf
  | .ondieUncorrectable x => x.wf
  | .aliveToggle => true
  | .aliveRestart w => w.wf
  | .wdtEnable w => w.wf
  | .wdtKick w => w.wf
  | .wdtExpire => true
  | .linkCrcError k m lane => decide (k < 12) && decide (m < 8) && decide (lane < 68)
  | .linkRetrain k m bad _ => decide (k < 12) && decide (m < 8) && (bad.all (fun i => decide (i < 68)))
  | .linkTraining k _ _ => decide (k < 12)
  | .linkFence k => decide (k < 12)
  | .mrcPortRetrain q bad => decide (q < 12) && (bad.bad.all (fun i => decide (i < 8)))
  | .tileRetire w => w.wf
  | .resetRequest w => w.wf
  | .weirDrainDone _ => true
  | .weirDrainTimeout _ => true
  | .scopeResetDone _ bad => bad.wf
  | .dieLost _ => true
  | .poisonFillDone _ => true
  | .dieRejoin _ => true
  | .aonPowerOn => true
  | .hubEn => true
  | .resetN _ => true
  | .pwrGoodFall => true
  | .packageReset => true
  | .firmwareLoad a b => (a.all (fun x => x.wf)) && (b.all (fun x => x.wf))
  | .licenceVerify pcie mrc => (portsWf 4 pcie) && (portsWf 12 mrc)
  | .mcPowerUp => true
  | .stackInit k bad => decide (k < 8) && (bad.all (fun i => decide (i < 64)))
  | .hostRelease _ => true
  | .tilePowerUp bad => bad.wf
  | .topologyCheck ids heights => (ids.all (fun i => decide (i.1 < 7) && decide (i.2 < 2 ^ 32))) && (heights.all (fun i => decide (i.1 < 8)))
  | .fwConfirm w => w.wf
  | .trialTimeout => true
  | .liveConfirmTimeout => true
  | .rootOfTrustKick => true
  | .getVersion => true
  | .setLimit v => decide (v < 256)
  | .getTelemetry _ => true
  | .getFaults => true
  | .licenceInstall flips => (flips.all (fun x => decide (x.1 < 256) && decide (x.2 < 256)))
  | .fwWrite _ len => (decide (len ≤ 4096))
  | .fwVerify h => (h.all (fun x => x.wf))
  | .fwActivate _ => true
  | .settingsRead => true
  | .settingsWrite modes _ => (modes.all (fun x => decide (x.1 < 4) && decide (x.2 < 4)))
  | .settingsReset => true
  | .pinMuxWrite w => w.wf
  | .pinSwitchDone k => decide (k < 32)
  | .jtagTapReset => true
  | .bypass tdi => tdi.wf
  | .samplePreload tdi => tdi.wf
  | .extest tdi => tdi.wf
  | .idcode => true
  | .clamp tdi => tdi.wf
  | .highz tdi => tdi.wf
  | .pllLockAcquired _ => true
  | .pwrGoodAssert => true
  | .controllerReadComplete d => d.wf
  | .inDieCorrectionReport p _ => decide (p < 512)
  | .millraceBadCrc q lane _ => decide (q < 12) && decide (lane < 8)
  | .pcieLinkDown p _ => decide (p < 4)
  | .gpioInput k _ => decide (k < 32)

end Sys2Proof
end

