-- ==== Sys2Proof/Safety.lean ====
section
/-!
DEFINITION. What counts as a safe run of the part: every step answers a next state, and between steps memory stands in its
canonical form with no change outstanding.
-/

namespace Sys2Proof.Machine

/-- A state between two steps: equal memories are equal data. -/
def Settled (s : State) : Prop := Memory.wf s.mem = true ∧ s.journal = []

/-- The state after `k` steps; none where a step stops the part. -/
def State.after (s : State) : Nat → Option State
  | 0 => some s
  | k + 1 =>
    match step s with
    | .next t => t.after k
    | _ => none

/-- `k` steps are safe: none of them stops the part, and the states on the way are settled. -/
def SafeFor (s : State) (k : Nat) : Prop := ∀ j, j ≤ k → ∃ t, s.after j = some t ∧ Settled t

end Sys2Proof.Machine
end

