-- ==== Sys2Proof/Tests/Slice0.lean ====
section
/-!
SUPPORT. The model's own tests: the checks of WellFormed, worked examples of the spec, and for every statement with hypotheses
states and operands that meet them.
-/

namespace Sys2Proof.Tests
open Sys2Proof Sys2Proof.Machine

set_option Elab.async false

/-! ### States to test on -/

/-- A register of a die with a value. -/
def at_ (d : Die) (n : RegName) (i v : Nat) : RKey × W64 := (⟨d, n, i⟩, BitVec.ofNat 64 v)
/-- Every domain running, every link up, pseudo-channels 0 to 3 ONLINE and bands 0 to 31 interleaved by mode 1. -/
def upRegs : AMap RKey W64 :=
  [at_ .hub .hubPartitionState 0 0x222222222222, at_ .hub .hubReady 0 0xFFFFC0000003, at_ .hub .memBandMode 0 0x5555555555555555, at_ (.cd 0) .memPchState 0 3,
   at_ (.cd 0) .memPchState 1 3, at_ (.cd 0) .memPchState 2 3, at_ (.cd 0) .memPchState 3 3]
/-- The part in service with further registers as given. -/
def up (l : List (RKey × W64)) : State :=
  let s : State := { State.reset with regs := upRegs ++ l, boot := 9, hubEn := true, pwrGood := true, aonUp := true }
  (List.range 12).foldl (fun s k => s.setLink k (setFld (s.linkReg k) 31 31 1)) s
/-- A translation of the first 64 KiB to the pool, every access allowed. -/
def page (who : XReq) : TlbE := ⟨who, 0, 16, 0, 0, 1, List.replicate 16 0⟩
/-- The part in service with a page for a requester and bytes in memory. -/
def upFor (who : XReq) (l : List (RKey × W64)) (m : List Host.Cell) : State := { up l with tlb := [page who], mem := m }
/-- Bytes of a number, zeros not listed. -/
def cells (a n x : Nat) : List Host.Cell := ((withIdx (leBytes n x)).filter fun e => decide (e.2 ≠ 0)).map fun e => (a + e.1, e.2)

/-- What an access that does not have to wait answers. -/
def okOf {α : Type} (x : Except Wait α) : Option α := match x with | .ok a => some a | .error _ => none
/-- What a command leaves. -/
def after (i : Instr) (s : State) : State := match exec i s with | .next t => t | _ => s


/-! ### Thread instructions (Chapters 03 and 04) -/

/-- A word of the R format (Table 4-2): opcode, TYPE, D, A, B. -/
def rW (op ty d a b : Nat) : Nat := op * 2 ^ 56 + ty * 2 ^ 48 + d * 2 ^ 32 + a * 2 ^ 24 + b * 2 ^ 16
/-- A word of the I form (Table 4-3): opcode, TYPE, D, A, IMM. -/
def iW (op ty d a imm : Nat) : Nat := op * 2 ^ 56 + ty * 2 ^ 48 + d * 2 ^ 40 + a * 2 ^ 32 + imm
/-- A word of the M format (Table 4-4): opcode, SZ, D, BASE, DATA, OFFSET; MOD as it stands. -/
def mW (op sz d base data off : Nat) : Nat := op * 2 ^ 56 + sz * 2 ^ 48 + d * 2 ^ 37 + base * 2 ^ 29 + data * 2 ^ 21 + off
/-- A word of the U format (Table 4-6): opcode, TYPE, UD, UA, UB. -/
def uW (op ty d a b : Nat) : Nat := op * 2 ^ 56 + ty * 2 ^ 48 + d * 2 ^ 42 + a * 2 ^ 36 + b * 2 ^ 30

def g0 : GroupRef := ⟨0, 0, 7, 0⟩
def t0 : TileRef := ⟨0, 0⟩
/-- A lane at address 0x1000 with v0, v1 and on as given. -/
def lane (v : List Nat) : Lane := ⟨0x1000, false, 0, (withIdx v).map fun e => (e.1, BitVec.ofNat 32 e.2), 0, 1⟩
/-- A block of one group of two lanes with 32 registers and 64 KiB of local memory. -/
def blk (v w : List Nat) : Block :=
  ⟨7, [], 0, 0, 32, 1, 32, 65536, 4, 16, .running, [⟨0, [lane v, lane w], [], 0, 0⟩], List.replicate 8 0, [], [], [],
    List.replicate 128 1, none, false, 0, false, false, false⟩
/-- The part with that block on tile 0 and words in its instruction cache from 0x1000. -/
def thr (b : Block) (ws : List Nat) : State :=
  let line : Line := BitVec.ofNat 1024 (ws.foldr (fun w a => w + 2 ^ 64 * a) 0)
  { upFor (.tile t0) [] [] with tiles := [(t0, { Tile.empty with blocks := [b], icache := [⟨0, 32, line, 0⟩] })] }
/-- Register `k` of lane `i` after a command. -/
def vAfter (i : GroupRef → Instr) (s : State) (ln k : Nat) : Nat :=
  match ((after (i g0) s).tile t0).block? 7 with
  | some b => (match b.group? 0 with | some g => (match g.lanes[ln]? with | some l => l.rv 32 k | none => 0) | none => 0)
  | none => 0
def uAfter (i : GroupRef → Instr) (s : State) (k : Nat) : Nat :=
  match ((after (i g0) s).tile t0).block? 7 with
  | some b => (match b.group? 0 with | some g => (g.ru k).toNat | none => 0)
  | none => 0

/-- A word of each thread instruction, written out from its format and tables. -/
def wordOf : TOp → Nat
  | .mov => rW 0x00 0 2 0 0 | .add => rW 0x02 0 2 0 1 | .sub => iW 0x05 1 2 0 5 | .mul => rW 0x06 2 4 0 2 | .mulhi => rW 0x08 1 2 0 1
  | .mad => rW 0x0A 0 2 0 1 + 3 * 2 ^ 8 | .div => rW 0x0C 1 2 0 1 | .rem => rW 0x0E 0 2 0 1 | .and => rW 0x10 0 2 0 1
  | .or => iW 0x13 0 2 0 0xFFFF0000 | .xor => rW 0x14 3 2 0 2 | .shl => iW 0x17 0 2 0 31 | .shr => iW 0x19 1 2 0 31
  | .minmax => rW 0x1A 1 2 0 1 + 2 ^ 40 | .bitop => rW 0x1C 0 2 0 0 | .setp => rW 0x1E 1 3 0 1 + 2 * 2 ^ 44
  | .fadd => rW 0x20 4 2 0 1 | .fsub => rW 0x22 4 2 0 1 | .fmul => rW 0x24 6 4 0 2 | .ffma => rW 0x26 4 2 0 1 + 3 * 2 ^ 8
  | .fminmax => rW 0x28 4 2 0 1 | .fdiv => iW 0x2B 4 2 0 0x40000000 | .fun1 => rW 0x2C 4 2 0 0 | .fun2 => rW 0x2E 4 2 0 0 + 2 * 2 ^ 40
  | .lmul => rW 0x30 5 2 0 1 | .ldiv => rW 0x32 5 2 0 1 | .lpow => rW 0x34 5 2 0 1 | .lroot => rW 0x36 5 2 0 0
  | .ladd => rW 0x38 5 2 0 1 | .lminmax => rW 0x3C 5 2 0 1 | .cvt => 0x3A * 2 ^ 56 + 2 * 2 ^ 32
  | .ldg => mW 0x40 4 4 2 0 8 | .stg => mW 0x42 4 0 2 1 0 | .ldl => mW 0x44 4 4 0 0 4 | .stl => mW 0x46 4 0 0 1 0
  | .ldu => mW 0x48 4 4 2 0 0 + 2 ^ 45 | .prf => mW 0x4A 0 0 2 0 0
  | .aadd => mW 0x50 0 4 2 1 0 | .aadds => mW 0x51 0 4 2 1 0 | .amin => mW 0x52 1 4 2 1 0 | .amax => mW 0x53 0 4 2 1 0
  | .aand => mW 0x54 0 4 2 1 0 | .aor => mW 0x55 0 4 2 1 0 | .axor => mW 0x56 0 4 2 1 0 | .axchg => mW 0x57 0 4 2 1 0
  | .acas => mW 0x58 0 4 2 0 0
  | .bra => 0x60 * 2 ^ 56 + 2 | .jmp => 0x62 * 2 ^ 56 + 2 * 2 ^ 32 | .call => 0x64 * 2 ^ 56 + 4 * 2 ^ 32 + 0xFFFFFFFF
  | .exit => 0x66 * 2 ^ 56 | .bar => 0x68 * 2 ^ 56 | .nop => 0x6A * 2 ^ 56
  | .fence => 0x70 * 2 ^ 56 + 2 * 2 ^ 47 | .waitk => 0x72 * 2 ^ 56 | .rdk => 0x74 * 2 ^ 56 + 3 * 2 ^ 48 + 2 * 2 ^ 32
  | .rnd => rW 0x80 0 2 0 0 | .time => rW 0x82 0 2 0 0 | .sel => rW 0x84 0 2 0 1 | .plop => rW 0x86 0 3 0 1 | .shfl => rW 0x88 0 2 0 1
  | .vote => rW 0x8A 0 5 0 0 | .rdlane => rW 0x8C 0 5 0 0 + 2 ^ 8 | .mxi => rW 0x90 2 0 8 0 + 2 ^ 7 | .vxi => rW 0x92 7 0 56 0 + 2 ^ 7
  | .umov => 0xA1 * 2 ^ 56 + 5 * 2 ^ 42 + 9 | .uadd => uW 0xA2 2 5 6 7 | .usub => uW 0xA4 1 5 6 7 | .umul => uW 0xA6 3 5 6 7
  | .uand => uW 0xA8 0 5 6 7 | .uor => uW 0xAA 0 5 6 7 | .ushl => uW 0xAC 0 5 6 7 | .ushr => 0xAF * 2 ^ 56 + 1 * 2 ^ 48 + 5 * 2 ^ 42 + 6 * 2 ^ 36 + 31

/-- A group of two lanes, v2 and v3 holding 0, that finds an instruction's word at its program counter. -/
def ready (o : TOp) : State := thr (blk [6, 3, 0, 0] [0x80000000, 1, 0, 0]) [wordOf o]
/-- The instruction issues, in both lanes. -/
def issues (o : TOp) : Bool := (((ready o).issueAt g0 o).map fun c => decide (c.act = [0, 1]) && decide (c.exe = [0, 1])) = some true

def allOps : List TOp :=
  List.flatten [[.mov, .add, .sub, .mul, .mulhi, .mad, .div, .rem, .and, .or, .xor, .shl, .shr, .minmax, .bitop, .setp],
    [.fadd, .fsub, .fmul, .ffma, .fminmax, .fdiv, .fun1, .fun2, .lmul, .ldiv, .lpow, .lroot, .ladd, .cvt, .lminmax],
    [.ldg, .stg, .ldl, .stl, .ldu, .prf, .aadd, .aadds, .amin, .amax, .aand, .aor, .axor, .axchg, .acas],
    [.bra, .jmp, .call, .exit, .bar, .nop, .fence, .waitk, .rdk, .rnd, .time, .sel, .plop, .shfl, .vote, .rdlane, .mxi, .vxi],
    [.umov, .uadd, .usub, .umul, .uand, .uor, .ushl, .ushr]]

/-- Every thread instruction issues somewhere (the hypothesis of the statements of Chapter 04). -/
theorem wit_every_instruction_issues : allOps.all issues = true ∧ allOps.length = 72 := by decide +kernel

/-- R115, R116: every value of an undefined encoding stops: opcode 0x1F has no TYPE 6, 0xFF no row. -/
theorem test_undefined_encodings :
    tdecode (BitVec.ofNat 64 (rW 0x1E 6 0 0 0)) = none ∧ tdecode (BitVec.ofNat 64 (rW 0xFF 0 0 0 0)) = none ∧
    tdecode (BitVec.ofNat 64 (rW 0x02 2 3 0 2)) = none := by decide +kernel

/-- Results by hand from Table 4-8: 6 + 3, the saturating sum in the top lane, 6 − 5, −2^31 − 5 wrapped. -/
theorem test_add_sub :
    vAfter .add (ready .add) 0 2 = 9 ∧ vAfter .add (thr (blk [6, 3] [0xFFFFFFFF, 1]) [wordOf .add + 2 ^ 45]) 1 2 = 0xFFFFFFFF ∧
    vAfter .sub (ready .sub) 0 2 = 1 ∧ vAfter .sub (ready .sub) 1 2 = 0x7FFFFFFB := by decide +kernel
/-- R123: a quotient truncates towards zero, and division by zero gives all ones. -/
theorem test_div : vAfter .div (thr (blk [0xFFFFFFF9, 2] [5, 0]) [wordOf .div]) 0 2 = 0xFFFFFFFD ∧
    vAfter .div (thr (blk [0xFFFFFFF9, 2] [5, 0]) [wordOf .div]) 1 2 = 0xFFFFFFFF := by decide +kernel
/-- A shift by the width or more: SHL gives 0, an arithmetic SHR the sign. -/
theorem test_shifts : vAfter .shl (thr (blk [1] [1]) [iW 0x17 0 2 0 32]) 0 2 = 0 ∧ vAfter .shl (ready .shl) 0 2 = 0 ∧
    vAfter .shr (ready .shr) 1 2 = 0xFFFFFFFF := by decide +kernel
theorem test_mulhi_minmax_bitop : vAfter .mulhi (ready .mulhi) 1 2 = 0xFFFFFFFF ∧ vAfter .minmax (ready .minmax) 1 2 = 1 ∧
    vAfter .bitop (ready .bitop) 0 2 = 29 := by decide +kernel
/-- 1.5 + 2.25, 6.0 / 2.0, and |−1.0|. -/
theorem test_float : vAfter .fadd (thr (blk [0x3FC00000, 0x40100000] []) [wordOf .fadd]) 0 2 = 0x40700000 ∧
    vAfter .fdiv (thr (blk [0x40C00000] []) [wordOf .fdiv]) 0 2 = 0x40400000 ∧
    vAfter .fun2 (thr (blk [0xBF800000] []) [wordOf .fun2]) 0 2 = 0x3F800000 := by decide +kernel
/-- R118, R86: a 64-bit result fills a pair, and a register beyond the declaration is not written. -/
theorem test_pairs_and_bounds : vAfter .mul (thr (blk [0xFFFFFFFF, 0, 2] []) [wordOf .mul]) 0 4 = 0xFFFFFFFE ∧
    vAfter .mul (thr (blk [0xFFFFFFFF, 0, 2] []) [wordOf .mul]) 0 5 = 1 ∧
    vAfter .mov (thr (blk [7] []) [rW 0 0 40 0 0]) 0 40 = 0 := by decide +kernel
/-- R117: a lane whose guard is off keeps its register and moves on. -/
theorem test_guard : vAfter .add (thr (blk [6, 3] [1, 1]) [wordOf .add + 2 ^ 55]) 0 2 = 0 := by decide +kernel
/-- R144: u6 + u7 in 64 bits; UMOV of an immediate. -/
theorem test_uniform : uAfter .umov (ready .umov) 5 = 9 ∧ uAfter .vote (ready .vote) 5 = 0 ∧ uAfter .rdlane (ready .rdlane) 5 = 0x80000000 := by
  decide +kernel

/-- VOTE, RDLANE, TIME and WAITK with operands that meet every clause: a ballot with an executing lane, the other votes, both
forms of TIME, and a count reached and not reached. -/
theorem wit_group_instructions :
    ((ready .vote).issueAt g0 .vote).any (fun c => decide (c.exe ≠ []) && decide (wSub c.w = 0)) = true ∧
    ((thr (blk [1] [1]) [wordOf .vote + 2 ^ 40]).issueAt g0 .vote).any (fun c => decide (wSub c.w = 1)) = true ∧
    ((thr (blk [1] [1]) [wordOf .vote + 2 ^ 41]).issueAt g0 .vote).any (fun c => decide (wSub c.w = 2)) = true ∧
    ((ready .rdlane).issueAt g0 .rdlane).any (fun c => decide (c.exe ≠ [])) = true ∧
    ((thr (blk [1] [1]) [wordOf .time + 2 ^ 47]).issueAt g0 .time).any (fun c => wb c.w 47) = true ∧
    ((thr (blk [1] [1]) [wordOf .waitk + 2 ^ 8]).issueAt g0 .waitk).any (fun c => decide ((c.b.k[0]?.getD 0) - 1 ≠ 0)) = true := by
  decide +kernel
/-- BAR with its group's accesses performed; the barrier then opens, since the only group has arrived. -/
theorem wit_bar : ((ready .bar).tile t0).settled 7 0 = true ∧
    ((blk [] []).setGroup 0 ⟨0, [lane []], [], 1, 0⟩).openOnce.isSome = true := by decide +kernel
/-- An undefined encoding at the front of a running block. -/
theorem wit_undefined_encoding :
    ((thr (blk [] []) [0xFF * 2 ^ 56]).frontOf g0).any (fun c => decide (tdecode c.w = none) && decide (c.b.halt = none)) = true := by
  decide +kernel
/-- A fetch of the group's own line and of a line ahead, held in the cluster L2; a fetch that fails; a misaligned program counter. -/
def fetcher (pc : Nat) : State :=
  let b := blk [] []
  let b := { b with groups := b.groups.map fun g => { g with lanes := g.lanes.map fun l => { l with pc := BitVec.ofNat 64 pc } } }
  { upFor (.tile t0) [] [] with
    tiles := [(t0, { Tile.empty with blocks := [b] })], cl := [((0, 32), ⟨1, 0, 0, 5, 0⟩), ((0, 33), ⟨1, 0, 0, 6, 0⟩)] }
theorem wit_fetch :
    ((fetcher 0x1000).fetchAt g0).isSome = true ∧ (((fetcher 0x1000).tile t0).iline 0 0x1000) = none ∧
    (okOf ((fetcher 0x1000).xlate (.tile t0) 0 0 3 0x1000)).map (fun r => r.1) = some (.ok 0x1000 1) ∧
    (okOf ((fetcher 0x1000).xlate (.tile t0) 0 0 3 0x1080)).map (fun r => r.1) = some (.ok 0x1080 1) ∧
    (fetcher 0x1000).region 0x1000 = .pool ∧ ((fetcher 0x1000).line 0 32).isSome = true ∧ ((fetcher 0x1000).line 0 33).isSome = true ∧
    ((fetcher 0x1004).fetchAt g0).any (fun f => decide (f.2.2.toNat % 8 = 4)) = true := by decide +kernel

/-- Memory instructions in the forms of the statements: lanes with aligned addresses, global and local. -/
theorem wit_memory_instructions :
    ([.ldg, .stg, .ldu, .prf, .aadd, .aadds, .amin, .amax, .aand, .aor, .axor, .axchg, .acas] : List TOp).all (fun o =>
      ((ready o).issueAt g0 o).any fun c => !isLoc o c.w && decide (opLanes c o ≠ []) &&
        (opLanes c o).all fun l => decide (l.addr % opBytes o c.w = 0)) = true ∧
    ([.ldl, .stl] : List TOp).all (fun o => ((ready o).issueAt g0 o).any fun c => isLoc o c.w && decide (opLanes c o ≠ [])) = true ∧
    ([.aadd, .aadds, .amin, .amax, .aand, .aor, .axor, .axchg, .acas] : List TOp).all (fun o =>
      ((thr (blk [0, 1] [4, 1]) [wordOf o + 2 ^ 47]).issueAt g0 o).any fun c => isLoc o c.w && decide (opLanes c o ≠ [])) = true := by
  decide +kernel
/-- A local store is performed at its lane's offset; a lane that reaches beyond SIZE is answered PERM (R95). -/
theorem test_stl :
    (((after (.stl g0) (thr (blk [16, 0xABCD] [65534, 1]) [wordOf .stl])).tile t0).block? 7).map (fun b => b.lrd 16 4) = some 0xABCD ∧
    (((after (.stl g0) (thr (blk [16, 0xABCD] [65536, 1]) [wordOf .stl])).tile t0).ops.map fun o => o.lanes.map fun l => l.st) =
      [[.done .ok 0, .done .perm 0]] := by decide +kernel
/-- FENCE ready and not ready, at cluster and at device scope, and one that acquires at device scope. -/
theorem wit_fence :
    (((ready .fence).tile t0).groupOps 7 0) = [] ∧ ((ready .fence).tile t0).settled 7 0 = true ∧ ((ready .fence).tile t0).wb = [] ∧
    ((ready .fence).issueAt g0 .fence).any (fun c => decide (wf c.w 48 47 = 2) && decide (wf c.w 50 49 = 0)) = true ∧
    ((thr (blk [] []) [0x70 * 2 ^ 56]).issueAt g0 .fence).any (fun c => decide (wf c.w 48 47 = 0)) = true ∧
    (let s := ready .fence
     let x := s.tile t0
     let u := s.setTile t0 { x with ops := [⟨0, 7, 0, 0, 0, .stg, 0, 0, 3, [⟨0, 0, 0, 1, 0, .held⟩]⟩] }
     (u.tile t0).settled 7 0 = false) ∧
    (let f (scope : Nat) : MOp := ⟨0, 7, 0, 0, 0, .fence, BitVec.ofNat 64 (0x70 * 2 ^ 56 + scope * 2 ^ 47), 0, 3, []⟩
     let s := ready .add
     let x := { s.tile t0 with ops := [f 2], l1 := [⟨1, 0, 0, 0⟩] }
     ((s.setTile t0 x).issueAt g0 .add).isSome = true ∧ x.fenceMet (f 2) = true ∧ x.endFences.ops = [] ∧ x.endFences.l1 = []) := by decide +kernel
/-- A load whose lanes have answers, OK in lane 0 and PERM in lane 1: lane 0's register is written, lane 1's is not (R109). -/
def loaded : MOp := ⟨0, 7, 0, 0, 0, .ldg, BitVec.ofNat 64 (wordOf .ldg), 0x1000, 3, [⟨0, 8, 8, 1, 0, .done .ok 0x55⟩, ⟨1, 8, 8, 1, 0, .done .perm 0⟩]⟩
theorem wit_loads : ((blk [] []).group? 0).isSome = true ∧ (loaded.lanes.map fun l => l.lane).Nodup ∧
    ((loadBack (blk [] []) loaded).group? 0).map (fun g => g.lanes.map fun l => l.rv 32 4) = some [0x55, 0] := by decide +kernel


/-! ### Tile memory, blocks and engines (Chapters 03 to 06) -/

/-- The part with tile 0 as given. -/
def tileWith (x : Tile) : State := { upFor (.tile t0) [] [] with tiles := [(t0, x)], cl := [((0, 32), ⟨2, 0, 0, 0x1122, 0⟩)] }
def ld (st : LState) : MOp := ⟨5, 7, 0, 0, 0, .ldg, BitVec.ofNat 64 (wordOf .ldg), 0x1000, 1, [⟨0, 0x1000, 0x1000, 1, 0, st⟩]⟩
def tB : Tile := { Tile.empty with blocks := [blk [] []], nextOp := 6 }
/-- A load all of whose lanes are answered completes at MEMORY_RESPONSE and writes its register (R109). -/
theorem wit_memory_response :
    (let s := tileWith { tB with ops := [ld (.done .ok 0x1122)] }
     ((s.pump t0).atomicsGo t0 5 .ok).op? t0 5 = some (ld (.done .ok 0x1122)) ∧ (s.op? t0 5).isSome = true) ∧
    vAfter (fun _ => .memoryResponse t0 5 .ok) (tileWith { tB with ops := [ld (.done .ok 0x1122)] }) 0 4 = 0x1122 := by decide +kernel
/-- A fill whose line is in the cluster L2 answers the lane that waits, and its load then completes with the line's bytes; one that
fails answers it with its status (R99, R100). -/
theorem wit_l1_fill :
    (let s := tileWith { tB with ops := [ld .wait], fills := [⟨5, 32, 0, 0, 1, true, false⟩] }
     (s.line (tileAgent t0) 32).isSome = true ∧
     (((after (.l1Fill t0 .ok) s).tile t0).ops.map fun o => o.lanes.map fun l => l.st) = [[.done .ok 0x1122]] ∧
     (((after (.l1Fill t0 .unav) s).tile t0).ops.map fun o => o.lanes.map fun l => l.st) = [[.done .unav 0]]) := by decide +kernel
def wbe (sent : Bool) : WbEnt := ⟨32, 0, 0, 1, 0xF, 0xAABBCCDD, sent, [(5, 0)], false⟩
/-- The write buffer with an entry to send, with four sent, and with an acknowledged entry (R287, R290). -/
theorem wit_write_buffer :
    (((after (.writeBufferDrain t0) (tileWith { tB with wb := [wbe true, wbe false] })).tile t0).wb.map fun e => e.sent) = [true, true] ∧
    (((after (.writeBufferDrain t0) (tileWith { tB with wb := [wbe true, wbe true, wbe true, wbe true, wbe false] })).tile t0).wb.map
      fun e => e.sent) = [true, true, true, true, false] ∧
    (after (.writeBufferAck t0 .ok) (tileWith { tB with wb := [wbe true] })).line 0 32 = some ⟨3, 0, 0, 0xAABBCCDD, 0⟩ := by
  decide +kernel
/-- A walk of a tile that goes down a level, and one that ends with a translation (R318). The table at level 1 stands at 0, with an entry
for a table at 0x100, whose first entry maps 64 KiB at 0x10000. -/
def walker (lv tb : Nat) : State :=
  { up [] with
    tiles := [(t0, tB)], mem := cells 0 8 (0x100 + 1) ++ cells 0x100 8 (0x10000 + 2 ^ 52 + 2 ^ 6 + 2 ^ 2 + 3), walks := [⟨.tile t0, 0, 0, 0, 0x40, lv, tb⟩] }
theorem wit_walks :
    (okOf ((walker 1 0).walkStep (.tile t0) 0 0 0 0x40 1 0)).map (fun r => r.1) = some (.down 0 0x100) ∧
    (okOf ((walker 0 0x100).walkStep (.tile t0) 0 0 0 0x40 0 0x100)).map (fun r => r.1) = some (WalkStep.isOver (.ok 0x10040 1)) ∧
    (after (.walkReadReturn t0 0x40 .ok) (walker 0 0x100)).walks = [] := by decide +kernel

/-- A LAUNCH of blocks of 4 groups of 16 threads with 20 registers on tiles 0 and 1. -/
def launchWord : Nat := 1 * 2 ^ 46 + 3 * 2 ^ 40 + 20 * 2 ^ 32 + 1 * 2 ^ 25
def launched (todo : List Nat) : State :=
  { up [] with launches := [⟨0, 3, 0, 9, 5, 2, BitVec.ofNat 64 launchWord, [0x4000, 0x99, 0, 0, 0], todo, [], .ok⟩] }
theorem wit_block_place :
    (launched [0, 1]).running (.cd 0) true = true ∧ (launched [0, 1]).inN0 = true ∧ fitsWith [] (BitVec.ofNat 64 launchWord) = true ∧
    (launched [0, 1]).rf (.cd 0) .cqCfg 3 23 21 ≠ 3 ∧
    (((after (.blockPlace t0 9) (launched [0, 1])).tile t0).blocks.map fun b => b.bid) = [9] ∧
    (let s : State := { launched [0, 1] with resets := [⟨0, .cd 0, 0, 0, true, false, true, []⟩] }
     s.tileShut t0 = true ∧ ((after (.blockPlace t0 9) s).launches.map fun l => (l.todo, l.st)) = [([1], Status.unav)]) := by decide +kernel
/-- Table 3-3: thread 17 of a block of groups of 16 is lane 1 of group 1: v0 is 17, u0 the argument, u2 the size of local memory. -/
theorem test_new_block :
    (((after (.blockPlace t0 9) (launched [0, 1])).tile t0).block? 9).any (fun b => (b.group? 1).any fun g =>
      decide ((g.lanes[1]?.map fun l => (l.rv 20 0, l.pc)) = some (17, 0x4000)) && decide (g.ru 0 = 0x99) && decide (g.ru 2 = 16384)) = true := by decide +kernel
/-- A block whose group has ended leaves its tile. -/
def spent : Block := { blk [] [] with groups := [⟨0, [{ lane [] with exited := true }], [], 0, 0⟩] }
theorem wit_block_end : spent.groups.all (fun g => g.ended) = true ∧
    ((after (.blockEnd ⟨0, 0, 7⟩) (tileWith { tB with blocks := [spent] })).tile t0).blocks = [] := by decide +kernel

/-- A descriptor of group 0 of the block. -/
def desc (words : Nat) (fin : Option Status) : Desc := ⟨0, 7, 0, 0, 3, 0x1000, 2, words, 0, false, fin, [], 0⟩
/-- The tile with a Millstone descriptor, and with one of the vector engine; local memory begins with 1.0 and buffer 0 with 1.0. -/
def eb : Block := { blk [] [] with accN := 4, vxN := 4, lmem := [(2, 0x80), (3, 0x3F)], bufs := [((0, 0), 0x3F800000)] }
def mxT (w : Nat) : State := tileWith { tB with blocks := [eb], mx := [desc w none] }
def vxT' (w : Nat) : State := tileWith { tB with blocks := [eb], vx := [desc w none] }
/-- Table 5-1: VERSION 1.0, OPC, and K 32 where it is an MMA; ACC_STORE with a row stride of 4. -/
def mxW (opc : Nat) : Nat := 0x100 + opc * 2 ^ 16 + (if opc = 1 then 2 ^ 24 + 32 * 2 ^ 64 else if opc = 3 then 4 * 2 ^ 128 else 0)
/-- Table 6-1: VERSION 1.0, OPC and TYPE, one element; BIT and RAND in u32. -/
def vxW (opc sub : Nat) : Nat := 0x100 + opc * 2 ^ 16 + sub * 2 ^ 200 + (if opc = 0x1A ∨ opc = 0x40 then 14 * 2 ^ 24 else 0)
theorem wit_millstone : ([1, 2, 3, 4] : List Nat).all (fun o =>
      decide (mxFront ((mxT (mxW o)).tile t0) ((mxT (mxW o)).tile t0).mx = some (desc (mxW o) none)) && (mxT (mxW o)).mxCheck 0 eb (mxW o) &&
        (mxT (mxW o)).running (.cd 0) true && decide (mxOpc (mxW o) = o)) = true ∧
    ([1, 2, 3, 4] : List Nat).all (fun o => !(mxT (mxW o + 2 ^ 8)).mxCheck 0 eb (mxW o + 2 ^ 8) && decide (mxOpc (mxW o + 2 ^ 8) = o)) = true := by
  decide +kernel
theorem wit_vector : ([(1, 0), (2, 0), (3, 0), (4, 0), (5, 0), (6, 0), (7, 0), (7, 1), (0x10, 0), (0x11, 0), (0x12, 0), (0x13, 0), (0x14, 0),
        (0x15, 0), (0x16, 0), (0x17, 0), (0x18, 0), (0x19, 0), (0x1A, 0), (0x20, 0), (0x30, 0), (0x40, 0), (0x41, 0), (0x41, 1)] :
      List (Nat × Nat)).all (fun o =>
      let w := vxW o.1 o.2
      decide (mxFront ((vxT' w).tile t0) ((vxT' w).tile t0).vx = some (desc w none)) && (vxT' w).vxCheck 0 eb w && decide (vxOpc w = o.1) &&
        decide (vxSub w = o.2) && !(vxT' w).vxCheck 0 eb (w + 2 ^ 8)) = true ∧
    ([1, 2] : List Nat).all (fun m => (vxT' 0).vxCheck 0 eb (vxW 0x30 0 + m * 2 ^ 43) && decide (vxBmode (vxW 0x30 0 + m * 2 ^ 43) = m)) = true := by
  decide +kernel
/-- R161 by hand: 1.0 × 1.0 and 31 products of zeros; ACC_STORE then finds 1.0. -/
theorem test_mma :
    (((after (.mma t0 1) (mxT (mxW 1))).tile t0).block? 7).map (fun b => b.accAt 0 0 0) = some 0x3F800000 ∧
    (((after (.accLoad t0) (mxT (mxW 2))).tile t0).block? 7).map (fun b => b.accAt 0 0 0) = some 0x3F800000 := by decide +kernel
/-- 1.0 + 1.0 in buffer 0, and a LOAD of 1.0 from local memory. -/
theorem test_vx :
    (((after (.vxAdd t0 1) (vxT' (vxW 0x10 0))).tile t0).block? 7).map (fun b => b.bufAt 0 0 0) = some 0x40000000 ∧
    (((after (.vxFun t0 1) (vxT' (vxW 0x20 0))).tile t0).block? 7).map (fun b => b.bufAt 0 0 0) = some 0x3F800000 ∧
    (((after (.genSet t0) (vxT' (vxW 0x41 1))).tile t0).block? 7).map (fun b => (b.lanegen[0]?, b.lanegen[1]?)) =
      some (some 0x3F800000, some 1) := by decide +kernel
/-- A completed descriptor at the front of its queue, with status OK and with PERM; and MXI with 8 descriptors accepted. -/
theorem wit_completion :
    (((tileWith { tB with mx := [desc 0 (some .ok)] }).tile t0).queued [desc 0 (some .ok)]) = [desc 0 (some .ok)] ∧
    (((after (.mxCounterIncrement t0) (tileWith { tB with mx := [desc 0 (some .ok)] })).tile t0).block? 7).map (fun b => b.k[2]?) = some (some 1) ∧
    (((after (.vxCounterIncrement t0) (tileWith { tB with vx := [desc 0 (some .perm)] })).tile t0).block? 7).map (fun b => b.st) = some .halted ∧
    ((tB.queued (List.replicate 8 (desc 0 none))).length = 8) := by decide +kernel


/-! ### The spec's worked examples -/

/-- Chapter 04: `@!p1 add.s32.sat v7, v3, u4` is 0x02C9_2007_0304_0040. -/
theorem ex_encoding :
    (let w : W64 := 0x02C9200703040040#64
     tdecode w = some .add ∧ wType w = 1 ∧ wD w = 7 ∧ wA w = 3 ∧ wB w = 4 ∧ wUB w = true ∧ wUA w = false) := by decide +kernel
/-- Chapter 02: the LN8 product of codes 0x0D and 0xFA, its sum with 1.5, and one third as PF64. -/
theorem ex_numbers :
    lnProd .ln8 0x0D (expOfByte 0xFD) .ln8 0xFA (expOfByte 0x02) = 0xBF6AC0C7 ∧ f32add 0x3FC00000 0xBF6AC0C7 = 0x3F153F39 ∧
    f32div 0x3F800000 0x40400000 = 0x3EAAAAAB ∧ convert .f64 .pf64 .rne 0x3FD5555555555555 0 0 = 0xB22AAAAB3EAAAAAB := by decide +kernel
/-- Chapter 03: combined FP32 adds of 0.5, 2^-24 and 2^-24 to 1.0. -/
theorem ex_atomic_add :
    atTurns [⟨0, 4, 0x3F000000, 0⟩, ⟨0, 4, 0x33800000, 0⟩, ⟨0, 4, 0x33800000, 0⟩] 0x3F800000 =
      ([0x3F800000, 0x3FC00000, 0x3FC00000], 0x3FC00000) := by decide +kernel
/-- Table 6-10: products with saturation and the quiet NaN; and lane 5's draws of Table 6-12. -/
theorem ex_vector :
    (vxOpc 0x3F3F0E0000120100 = 0x12 ∧ vxBmode 0x3F3F0E0000120100 = 1 ∧ vxMasked 0x3F3F0E0000120100 = true ∧ vxXm 0x3F3F0E0000120100 = 2 ∧
     vxM 0x3F3F0E0000120100 = 64 ∧ vxN 0x3F3F0E0000120100 = 64) ∧
    vxMul 0x3F3F0E0000120100 0x3FC00000 0x3DCCCCCD = 0x3E19999A ∧ vxMul 0x3F3F0E0000120100 0x7F000000 0x40800000 = 0x7F7FFFFF ∧
    vxMul 0x3F3F0E0000120100 0x7FA00001 0x3F800000 = 0x7FC00000 ∧
    (let a := genDraw 16 0x3C5A91E70B48D26F#64
     let b := genDraw 16 a.2
     a.1 = 0xD26F ∧ b.1 = 0x0B48 ∧ (genDraw 16 b.2).1 = 0x91E7) ∧
    f32mul 0x3F400000 0x3FAAAAAB = 0x3F800000 ∧ f32mul 0x40400000 0x3FAAAAAB = 0x40800000 := by decide +kernel
/-- Chapter 07: the encoding of an MV over 28 rows of 6,144 LN4 elements. -/
def mvWords : Nat := 0x10100 + 0x001C180005304000 * 2 ^ 64 + 0x0000300000000C00 * 2 ^ 128 + 0x15000 * 2 ^ 192
theorem ex_burr_mv :
    boOpc mvWords = 1 ∧ boR mvWords = 28 ∧ boK mvWords = 6144 ∧ boQ mvWords = 1 ∧ boFm mvWords = .ln4 ∧ boFs mvWords = .ln16 ∧
    boRa mvWords = true ∧ boAcc mvWords = false ∧ boSx mvWords = 0 ∧ boSy mvWords = 0x3000 ∧ boStride mvWords = 3072 ∧ boMaddr mvWords = 0 ∧
    boSaddr mvWords = 0x15000 ∧ boRowBytes mvWords = 3072 ∧ boScaleBytes mvWords = 192 ∧
    burrCheck (0x0100 + 2 * 2 ^ 192) mvWords 0 = true := by decide +kernel
/-- Chapter 08: the top-p cut on eight logits with temperature 2, k 5, TOPP 0.85 and DRAW 0xB400_0000. -/
def smpWords : Nat := 0x100 + 1 * 2 ^ 16 + 1 * 2 ^ 28 + 4 * 2 ^ 32 + 7 * 2 ^ 44 + 0xB4000000 * 2 ^ 288 + 0x3F000000 * 2 ^ 320 + 0x3F59999A * 2 ^ 352
def smpLogits : List (Nat × Nat) := [(0, 0x3F800000), (1, 0x40400000), (2, 0xC0000000), (3, 0x40400000), (4, 0x3F000000), (6, 0x40000000)]
theorem ex_sampler :
    (let r := smpResult smpWords smpLogits
     r.index = 6 ∧ r.zmax = 0x3FC00000 ∧ r.nkept = 4 ∧ r.ncand = 5 ∧ r.draw = 0xB4000000) ∧
    (smpResult (smpWords - 0x3F59999A * 2 ^ 352 + 0x3F800000 * 2 ^ 352) smpLogits).nkept = 5 ∧
    smpLogit 0 0x7FC00000 = none ∧ smpLogit 0 0xFF800000 = none := by decide +kernel
/-- Chapter 09: the pool address 0x12_3456_7ABC; Chapter 11: the Burr-layout address 0x5161_2345 in MS3.C01.P0. -/
theorem ex_mapping : mapMode 1 0x1234567ABC = ⟨26, 0x91A2ABC⟩ ∧ mapMode 3 0x51612345 = ⟨64 * 3 + 2, 2659141⟩ := by decide +kernel
/-- Chapter 01: the global index of CD2.C5.T07 under both licences. -/
theorem ex_tile_index : State.reset.tileIndex ⟨2, 5 * 16 + 7⟩ = 259 ∧
    ({ State.reset with dieTiles := [(2, 10)] } : State).tileIndex ⟨2, 5 * 16 + 7⟩ = 217 := by decide +kernel
/-- Chapter 13: BASE, PL, CTXID and EN of a window position, and the address that BAR0 offset 0x0A0_0000 reaches. -/
theorem ex_sluice : (let c : W64 := 0xA000004000000123#64
    fld c 51 28 * 2 ^ 28 + 0xA00000 = 0x4000A00000 ∧ fld c 62 61 = 1 ∧ fld c 11 0 = 0x123 ∧ c.getLsbD 63 = true) := by decide +kernel
/-- Chapter 14: shares of a 1,400 W limit and Table 14-4's loop. -/
def draws1400 (cd : Nat) : List (Nat × Nat) :=
  List.flatten [[(60000, 60000)], List.replicate 2 (40000, 40000), List.replicate 4 (cd, 280000), List.replicate 8 (40000, 40000)]
theorem ex_power :
    (let a (d : Nat) : Nat := (shareOf 1400000 (draws1400 280000) d).1 / (shareOf 1400000 (draws1400 280000) d).2
     a 3 = 244768 ∧ a 1 = 38398 ∧ a 7 = 35516) ∧
    nextDuty 256 (shareOf 1400000 (draws1400 280000) 3) 280000 = 223 ∧ nextDuty 223 (shareOf 1400000 (draws1400 252930) 3) 252930 = 215 ∧
    nextDuty 215 (shareOf 1400000 (draws1400 246370) 3) 246370 = 213 ∧ nextDuty 213 (shareOf 1400000 (draws1400 244730) 3) 244730 = 213 := by
  decide +kernel
/-- Chapter 16: versions of hub links and of ring links between dies. -/
theorem ex_versions : agree [(2, 3)] [(2, 5), (3, 1)] = some (2, 3) ∧ agree [(2, 5), (3, 1)] [(2, 5), (3, 1)] = some (3, 1) := by decide +kernel
/-- Chapter 17: the identification codes of steppings 0 and 1. -/
theorem ex_idcode : State.reset.idcode = 0x0A4E3867 ∧
    ({ State.reset with fuse := { State.reset.fuse with ids := [1] } } : State).idcode = 0x1A4E3867 := by decide +kernel


/-! ### Burrs and token samplers (Chapters 07 and 08) -/

def b0 : BurrRef := ⟨0, 0⟩
/-- A program of one operation that sees one page. -/
def bHdr : Nat := 0x100 + 0x80 * 2 ^ 16 + 1 * 2 ^ 32 + 1 * 2 ^ 192
def bProg (o : Nat) : BProg := ⟨0, 3, 0, 0, bHdr, [o], false⟩
/-- Burr 0 in state `st` with the program, its page in band 1, which is laid out for Burrs. -/
def burrWith (st : Nat) (run pend : Option BProg) (l : List (RKey × W64)) : State :=
  { (up (at_ (.cd 0) .burState 0 (st * 2 ^ 5) :: l)).setReg .hub .memBandMode 0 0x555555555555555D#64 with
    tlb := [⟨.burr 0, 0, 16, 0, 2 ^ 24, 3, List.replicate 16 0⟩, page (.cp 0)]
    burrs := [(0, { BurrU.empty with run := run, pend := pend })] }
/-- Operations of one unit each: 32 columns and one row where it has them, LN8 in memory, LN16 in scratch. -/
def bOp (opc : Nat) : Nat :=
  0x100 + opc * 2 ^ 16 +
    (if opc ≤ 5 then 3 * 2 ^ 84 + 4 * 2 ^ 88 + 32 * 2 ^ 96 + (if opc = 4 then 4 else 1) * 2 ^ 112 + 32 * 2 ^ 128 + 0x1000 * 2 ^ 192 else
      if opc ≤ 7 then 4 * 2 ^ 96 + (if opc = 7 then 2 ^ 112 else 0) else if opc ≤ 9 then 64 * 2 ^ 96 else 0)
    + (if opc = 1 ∨ opc = 2 ∨ opc = 3 ∨ opc = 6 ∨ opc = 7 ∨ opc = 8 ∨ opc = 9 then 0x2000 * 2 ^ 160 else if opc = 4 then 0x3000 * 2 ^ 144 else 0)
def unitOf (opc : Nat) (s : State) : UnitRes :=
  let o := bOp opc
  let p := bProg o
  match opc with
  | 1 => unitMv b0 p [] o 0 s | 2 => unitMvt b0 p [] o 0 s | 3 => unitScore b0 p [] o 0 s | 4 => unitWsum b0 p [] o 0 s
  | 5 => unitAppend b0 p o 0 s | 6 => unitAxpy b0 o s | 7 => unitReduce b0 o s | 8 => unitCopy b0 p [] o 0 s
  | _ => unitFill b0 p o 0 s
def bReady (opc : Nat) : State := burrWith 1 (some (bProg (bOp opc))) none []
/-- Every operation runs: its checks pass and its first unit succeeds. -/
theorem wit_burr_operations :
    ([1, 2, 3, 4, 5, 6, 7, 8, 9, 10] : List Nat).all (fun o =>
      burrCheck bHdr (bOp o) 0 && decide (boOpc (bOp o) = o) && (bReady o).running b0.cdie false && decide ((bReady o).burSt b0 = 1)) = true ∧
    ([1, 2, 3, 4, 5, 6, 7, 8, 9] : List Nat).all (fun o =>
      (match unitOf o (bReady o) with | .ok _ => true | _ => false) && decide (0 < boUnits (bOp o))) = true := by decide +kernel
/-- A transaction that keeps the line at location key `loc` busy. -/
def busyTxn (loc : Nat) : Txn :=
  ⟨loc, ⟨64, 0, .rdNc, 0, 0, 0, 0, 0, 0, false, 0, 0, none, none, [], 0, .home, false, [], 0⟩, .snoop, [1], 0, 0, 0, none, false, false, false, false⟩
/-- A unit whose page table cannot be read now waits, and one whose row lies on another stack's frame fails with PERM (R207). -/
theorem wit_burr_unit_ends :
    unitMv b0 (bProg (bOp 1)) [] (bOp 1) 0 { bReady 1 with tlb := [⟨.burr 0, 0, 16, 0, 2 ^ 24 + 2 ^ 21, 3, List.replicate 16 0⟩] } =
      .fail .perm 0 { bReady 1 with tlb := [⟨.burr 0, 0, 16, 0, 2 ^ 24 + 2 ^ 21, 3, List.replicate 16 0⟩] } ∧
    (match unitMv b0 (bProg (bOp 1)) [] (bOp 1) 0 { bReady 1 with tlb := [], txns := [busyTxn 0] } with | .wait _ => true | _ => false) = true ∧
    (okOf ((bReady 1).burrRow b0 (bProg (bOp 1)) [] (bOp 1) 0)).any (fun r => decide (r.1 = .ok)) = true := by decide +kernel
/-- A row of zeros but for one element of 1.0, times scratch elements of 1.0: the dot product is 1.0 (R213), and the Burr is idle
after its one operation. -/
theorem test_burr_mv :
    (let a := 2 ^ 24
     let l := mapMode 3 a
     let s := { bReady 1 with mem := cells (l.key + 1) 31 (leNat (List.replicate 31 0x40)) ++ cells (l.key + 0x1000) 1 0 }
     let s := s.setBurr b0 { s.burr b0 with scratch := [(0, 0), (1, 0)] }
     (((after (.burrMv b0 1 []) s).burr b0).rd 0x2000 4, (after (.burrMv b0 1 []) s).burSt b0)) = (0x3F800000, 0) := by decide +kernel
/-- GATE with its count reached, not reached, and not reached while the program is ended by PREEMPT. -/
theorem wit_gate :
    (let s := burrWith 1 (some (bProg (bOp 10 + 2 ^ 32))) none []
     burrCheck bHdr (bOp 10 + 2 ^ 32) 0 = true ∧ (after (.gate b0 0 []) s).burSt b0 = 2 ∧
     (after (.gate b0 0 []) (burrWith 1 (some { bProg (bOp 10 + 2 ^ 32) with draining := true }) none [])).burSt b0 = 0) ∧
    (after (.gate b0 0 []) (bReady 10)).burSt b0 = 0 := by decide +kernel
/-- R220: a failure with an empty record, and with one that is VALID and stays. -/
theorem wit_burr_failure :
    (let t := (bReady 1).burrFail b0 .pois 0xFFFFFFFF
     (t.burSt b0, t.rf b0.cdie .burFault 0 63 32, t.rf b0.cdie .burFault 0 0 0)) = (4, 0xFFFFFFFF, 1) ∧
    (let s := burrWith 1 (some (bProg (bOp 1))) none [at_ (.cd 0) .burFault 0 0x123400000001]
     (s.rf b0.cdie .burFault 0 0 0, (s.burrFail b0 .pois 7).reg b0.cdie .burFault 0)) = (1, 0x123400000001#64) := by decide +kernel
/-- A stream's command number 3 on die 0, queue 0. -/
def cmdAt (op word : Nat) (ops : List W64) (started : Bool) (fin : Option Status) : Cmd :=
  ⟨3, 0, 0, 0, BitVec.ofNat 64 (op * 2 ^ 56 + word), ops, 0, 0, started, fin, 0, 0, 0, none⟩
def bLaunch (todo left : Nat) : BLaunch := ⟨3, 0, 0, 0, bHdr, [bOp 6], todo, left, 0, .ok, false⟩
/-- Launches delivered, refused where a Burr is disabled, and waiting for a pending place; the start of a pending program; the
completion of a launch that no Burr is left to end. -/
theorem wit_burr_launch :
    (let s (st todo : Nat) (pend : Option BProg) : State :=
       { burrWith st none pend [] with cmds := [cmdAt 4 0 [] false none], blaunches := [bLaunch todo 1] }
     (((after (.burrLaunchDeliver 0 3) (s 0 1 none)).burr b0).pend.isSome = true) ∧
     (after (.burrLaunchDeliver 0 3) (s 5 1 none)).blaunches = [] ∧
     (after (.burrLaunchDeliver 0 3) (s 0 1 (some (bProg (bOp 6))))).blaunches = [bLaunch 1 1] ∧
     (((after (.burrProgramStart b0) (s 0 0 (some (bProg (bOp 6))))).burr b0).run.isSome = true)) ∧
    (let s : State := { burrWith 0 none none [] with cmds := [cmdAt 4 0 [] true none], blaunches := [bLaunch 0 0] }
     s.prodHeld (.cd 0) 0 = false ∧ (after (.burrLaunchComplete 0 3) s).blaunches = []) := by decide +kernel
/-- A feed of 4 bytes to Burrs 0 and 1 arrives at Burr 0 and counts its gate up; DISABLE and ENABLE of Burr 0. -/
theorem wit_burr_feed_and_writes :
    (let s : State := { burrWith 0 none none [] with feeds := [⟨3, 0, 0, 0, 0x40, 0x10, 4, 0, 3, .ok⟩], mem := cells 0x40 4 0x11223344 }
     let t := after (.burrFeedArrive b0 3) s
     ((t.burr b0).rd 0x10 4, t.burGate b0, t.feeds.map fun f => f.todo)) = (0x11223344, 1, [2]) ∧
    (let w (v : Nat) : Wr := ⟨.cd 0, 0, 0, 0, BitVec.ofNat 64 v⟩
     ((burrWith 0 none none []).ctlStore (.cd 0) .burState 0 0 0 0).1 = .ok ∧
     (after (.burrDisable (w 0)) (burrWith 0 none none [])).burSt b0 = 5 ∧ (after (.burrEnable (w 1)) (burrWith 5 none none [])).burSt b0 = 0 ∧
     (after (.burrDisable (w 0)) (burrWith 6 none none [])).burSt b0 = 6 ∧ (after (.burrEnable (w 1)) (burrWith 6 none none [])).burSt b0 = 6) := by
  decide +kernel


/-! ### Token samplers (Chapter 08) -/

def s0 : SmpRef := ⟨0, 0⟩
def sReg (st en : Nat) : RKey × W64 := at_ (.cd 0) .smpState 0 (st * 2 ^ 5 + en)
/-- Sampler 0 in a state, with its jobs; a SAMPLE command of which the descriptor stands at 0x100, as memory holds it. -/
def smpWith (st : RKey × W64) (run pend : Option SmpJob) (m : List Host.Cell) : State :=
  { up [st] with
    tlb := [page (.cp 0), page (.sampler 0)], mem := m, samplers := [(0, ⟨run, pend⟩)], cmds := [cmdAt 6 0 [0x100] false none] }
/-- Descriptors: greedy over two binary32 logits at 0x200, record at 0x300; a HOST with its buffer at 0x380 and a limit. -/
def sdSample : Nat := 0x100 + 2 ^ 16 + 2 ^ 44 + 0x200 * 2 ^ 64 + 0x300 * 2 ^ 128 + 0x3F800000 * 2 ^ 352
def sdHost (copy : Bool) : Nat := 0x100 + 2 * 2 ^ 16 + (if copy then 2 ^ 30 else 0) + 2 ^ 44 + 0x200 * 2 ^ 64 + 0x300 * 2 ^ 128 + 0x380 * 2 ^ 192 + 9 * 2 ^ 256 + 5 * 2 ^ 288
def job (d pos : Nat) (x : List (Nat × Nat)) : SmpJob := ⟨3, 0, 0, 0, d, false, x, pos⟩
theorem wit_sampler_deliver :
    (let ok := smpWith (sReg 0 1) none none (cells 0x100 64 sdSample)
     ok.cmd? 0 3 = some (cmdAt 6 0 [0x100] false none) ∧ ok.smpPick (cmdAt 6 0 [0x100] false none) = some s0 ∧
     ((after (.samplerDeliver 0 3) ok).smp s0).pend = some (job sdSample 0 [])) ∧
    (after (.samplerDeliver 0 3) (smpWith (sReg 4 0) none none (cells 0x100 64 sdSample))).cmds = [] ∧
    (after (.samplerDeliver 0 3) (smpWith (sReg 0 1) none none (cells 0x100 64 (sdSample + 2 ^ 31)))).cmds = [] ∧
    (after (.samplerDeliver 0 3) { smpWith (sReg 0 1) none none [] with poison := [mapMode 1 0x100 |>.blk] }).cmds = [] := by decide +kernel
/-- A SAMPLE from start to record: the greatest of 1.0 and 3.0 is entry 1, and without an entry INDEX is all ones (R244, R245). -/
theorem wit_sampler_sample :
    (let s := smpWith (sReg 0 1) none (some (job sdSample 0 [])) []
     ((after (.samplerStart s0) s).smp s0).run = some (job sdSample 0 []) ∧ (after (.samplerStart s0) s).smpSt s0 = 1) ∧
    (let s := smpWith (sReg 1 1) (some (job sdSample 0 [])) none (cells 0x200 8 0x404000003F800000)
     ((after (.smpSample s0 1) s).smp s0).run = some (job sdSample 1 [(0, 0x3F800000)]) ∧
     ((after (.smpSample s0 9) s).smp s0).run = some (job sdSample 2 [(0, 0x3F800000), (1, 0x40400000)]) ∧
     (after (.smpSample s0 9) s).smpSt s0 = 2) ∧
    (let s := smpWith (sReg 2 1) (some (job sdSample 2 [(0, 0x3F800000), (1, 0x40400000)])) none []
     (okOf (s.smpEnd s0 (job sdSample 2 [(0, 0x3F800000), (1, 0x40400000)]) (smpResult sdSample [(0, 0x3F800000), (1, 0x40400000)]))).isSome = true ∧
     (after (.smpSample s0 0) s).cmds = [] ∧ ((smpResult sdSample [(0, 0x3F800000), (1, 0x40400000)]).index = 1)) ∧
    (let s := smpWith (sReg 2 1) (some (job sdSample 2 [])) none []
     (after (.smpSample s0 0) s).rdKey 0x300 = 0xFF ∧
     (okOf (s.smpEnd s0 (job sdSample 2 []) ⟨0xFFFFFFFF, 0x7FC00000, 0x7FC00000, 0x7FC00000, 0x7FC00000, 0, 0, 0, .ok⟩)).isSome = true) := by decide +kernel
/-- A HOST that copies, presents, is answered, and is not answered before its limit (R251, R252). -/
theorem wit_sampler_host :
    (let s := smpWith (sReg 1 1) (some (job (sdHost true) 0 [])) none (cells 0x200 8 0x404000003F800000)
     ((after (.smpHost s0 1) s).smp s0).run = some (job (sdHost true) 1 []) ∧ (after (.smpHost s0 1) s).rdKey 0x3C3 = 0x3F) ∧
    (let s := smpWith (sReg 1 1) (some (job (sdHost false) 0 [])) none []
     (okOf (s.hostPresent s0 (job (sdHost false) 0 []))).any (fun r => decide (r.1 = .ok)) = true ∧ sdNotify (sdHost false) = false ∧
     (after (.smpHost s0 0) s).smpSt s0 = 3) ∧
    (let s := smpWith (sReg 3 1) (some (job (sdHost false) 0 [])) none []
     (okOf (s.hostAnswer s0 (job (sdHost false) 0 []))).any (fun r => decide (r.1 = none)) = true ∧ (after (.hostPoll s0) s).smpSt s0 = 3 ∧
     (after (.hostTimeout s0) s).smpSt s0 = 0) ∧
    (let s := smpWith (sReg 3 1) (some (job (sdHost false) 0 [])) none (cells 0x390 1 9 ++ cells 0x394 1 1)
     (okOf (s.hostAnswer s0 (job (sdHost false) 0 []))).any (fun r => r.1.any fun r => decide (r.index = 1)) = true ∧
     (after (.hostPoll s0) s).smpSt s0 = 0 ∧ (after (.hostPoll s0) s).rdKey 0x300 = 1) := by decide +kernel
theorem wit_sampler_writes :
    (let w (v : Nat) : Wr := ⟨.cd 0, 0, 0, 0, BitVec.ofNat 64 v⟩
     let idle := smpWith (sReg 0 1) none none []
     (okOf ((idle.ctlStore (.cd 0) .smpState 0 0 0 0).2.smpStop s0)).isSome = true ∧ (after (.samplerDisable (w 0)) idle).smpSt s0 = 4 ∧
     (after (.samplerDisable (w 0)) (smpWith (sReg 1 1) (some (job sdSample 0 [])) none [])).smpSt s0 = 1 ∧
     (after (.samplerEnable (w 1)) (smpWith (sReg 4 0) none none [])).smpSt s0 = 0 ∧
     (after (.samplerEnable (w 1)) (smpWith (sReg 1 0) (some (job sdSample 0 [])) none [])).smpSt s0 = 1) := by decide +kernel


/-! ### Memory controllers (Chapter 09) -/

def mem1 : State := { up [] with mem := cells 0 8 0x1122334455667788 }
/-- Reads of block 0 of pseudo-channel 0 undisturbed, with one symbol disturbed, with five, and poisoned, in the order of the statement's
clauses: the data, the corrected data, a re-read, POIS (R266, R267, R269). -/
def mem2 : State := mem1.setRf (.cd 0) .memCfg 0 1 0 2
def d1 (n : Nat) : Disturb := ⟨0, 0, (List.range n).map fun i => (i, 7)⟩
theorem wit_reads :
    mem1.ctlWorks 0 = true ∧ decodeOf mem1 (d1 0) = .clean ∧ (match decodeOf mem1 (d1 2) with | .fix _ => true | _ => false) = true ∧
    mem2.ctlWorks 0 = true ∧ decodeOf mem2 (d1 1) = .uncor ∧ decodeOf { mem1 with poison := [0] } (d1 0) = .poisoned ∧
    ((after (.controllerReadComplete (d1 2)) mem1).ctlRead.map fun c => c.data) = some 0x1122334455667788#512 ∧
    (after (.controllerReadComplete (d1 1)) mem2).rereads = [⟨0, 0, 1, false⟩] ∧
    (after (.uncorrectableReread (d1 1)) { mem2 with rereads := [⟨0, 0, 1, false⟩] }).poisoned 0 = true ∧
    (after (.uncorrectableReread (d1 0)) { mem2 with rereads := [⟨0, 0, 1, false⟩] }).ctlRead.any (fun r => decide (r.status = .ok)) = true := by
  decide +kernel
/-- A scrub read of block 0 that finds each of the four outcomes; a corrected block is written back (R270). -/
theorem wit_scrub :
    aGet mem1.scrubPos 0 0 = 0 ∧ mem1.pch 0 = 3 ∧ (after (.scrubRead (d1 1) false) mem2).rereads = [⟨0, 0, 2, false⟩] ∧
    aGet (after (.scrubRead (d1 1) false) mem1).scrubPos 0 0 = 1 ∧ (after (.scrubRead (d1 1) true) mem1).mem = mem1.mem := by decide +kernel
/-- Band modes: a write of word 0; and the last bit that the fuse map gives bands. Refresh of bank 47, the last of a 12-high stack. -/
theorem wit_memory_writes :
    (let w (v : Nat) : Wr := ⟨.hub, 0, 0, 0, BitVec.ofNat 64 v⟩
     (up []).gate .hub .memBandMode 0 0 = .ok ∧ (after (.bandModeWrite (w 3)) (up [])).bandMode 0 = 3 ∧ 0 < (up []).fuse.bands / 32) ∧
    (after (.inDieCorrectionReport 0 5) (up [])).reg (.cd 0) .memIdieCnt 0 = 5#64 ∧
    (after (.refresh 0 47) (up [])).refreshed = [((0, 47), 0)] ∧
    (after (.channelRetrain 0 0 true) (up [])).trcCnt.all (fun e => decide (e.2 = 0)) = true ∧
    (after (.channelRetrain 0 63 false) (up [])).raised.length = 1 := by decide +kernel
/-- A write of MEM_PCH_STATE that clears the threshold flags of a FENCED pseudo-channel, which goes back to ONLINE (R278). -/
theorem wit_threshold_clear :
    (let s := (up []).setReg (.cd 0) .memPchState 0 0xE4#64
     let w : Wr := ⟨.cd 0, 0, 0, 0, 0xE0#64⟩
     (s.ctlStore (.cd 0) .memPchState 0 0 0 0xE0).1 = .ok ∧ s.rf (.cd 0) .memPchState 0 7 5 = 7 ∧ (after (.pchThresholdClear w) s).pch 0 = 3) := by
  decide +kernel
/-- A read scan of pseudo-channel 0 of channel 0 of CD0 starts, is refused where the range ends beyond the part, is
aborted, and completes (R276, R277). -/
def tgS (l : List (RKey × W64)) : State := up l
def tgW (v : Nat) : Wr := ⟨.cd 0, 0, 0, 0, BitVec.ofNat 64 v⟩
theorem wit_generator :
    (tgS []).gate (.cd 0) .tgCtrl 0 0 = .ok ∧ (tgS []).tgRunOf 0 ((tgS []).tgUnit (tgW 1)) = none ∧
    (tgS [at_ (.cd 0) .tgRange 0 (2 ^ 55)]).tgRefused (tgOf (tgS [at_ (.cd 0) .tgRange 0 (2 ^ 55)]) (tgW 1) 0) = true ∧
    (let s := (up []).setReg (.cd 0) .tgCfg 0 (BitVec.ofNat 64 (2 ^ 20 + 1))
     s.tgRefused (tgOf s (tgW 1) 0) = false ∧ (after (.tgStart (tgW 1)) s).tgRuns.length = 1) ∧
    (let s : State := { up [] with tgRuns := [⟨0, 0, 1#64, 0, 0, 0⟩] }
     s.tgRunOf 0 (s.tgUnit (tgW 2)) = some ⟨0, 0, 1#64, 0, 0, 0⟩ ∧ (after (.tgAbort (tgW 2) 0 []) s).tgRuns = [] ∧
     (after (.tgRunDone 0 0 []) { s with tgRuns := [⟨0, 0, 1#64, 0, 0, 0⟩] }).tgRuns = []) := by decide +kernel
/-- A retirement of pseudo-channel 511 begins (R279, R280); a relayout whose cursor stands at region 0. -/
theorem wit_retirement :
    (let s := (up []).setPch 511 3
     let m := donorBands s.fuse.bands 1
     (upFrom (s.usable - m) m).all (fun b => decide (s.bandMode b = 0)) = true ∧ s.retCount = 0 ∧ s.pch 511 = 3 ∧
     s.running (.cd (pchDie 511)) false = true ∧ s.pwrTarget = 0 ∧ (s.retireGo 511).rf .hub .memRetireCtrl 0 28 26 = 1) ∧
    (let s := ((up []).setPch 5 3).retireGo 5
     let w : Wr := ⟨.hub, 0, 0, 0, BitVec.ofNat 64 (2 ^ 25 + 5 * 2 ^ 16)⟩
     (up []).gate .hub .memRetireCtrl 0 0 = .ok ∧ (up []).relayout = false ∧ (after (.retireGo w) ((up []).setPch 5 3)).relayout = true ∧
     s.relayout = true ∧ s.retEnts.getLast?.isSome = true ∧ s.txns = [] ∧ ([0, 1, 2, 3] : List (Fin 4)).all (fun n => s.running (.cd n) false) = true) := by
  decide +kernel


/-! ### Coherence (Chapter 10) -/

def aReq (a : Nat) : AgentReq := ⟨a, 0, 0, 0, 0, 0, false, 0⟩
def nReq (r : Nat) : NcReq := ⟨r, 0, 0, 0, 0⟩
def line7 (st : Nat) : CLine := ⟨st, 0, 0, 7, 0⟩
def rq (who : Nat) (k : ReqKind) (ph : ReqPhase) : Req := ⟨who, 0, k, 0, 0, 0, 0, 0, 0, false, 0, 0, none, none, [], 0, ph, false, [], 0⟩
def txn (ph : TPhase) (left : List Nat) (due : Bool) : Txn := ⟨0, rq 1 .rdS .home, ph, left, 0, 0, 0, none, false, due, false, false⟩
/-- Line 0 held by agent 0 as given, with messages, requests and a transaction. -/
def coh (l : Option CLine) (net : List Msg) (reqs : List Req) (txns : List Txn) : State :=
  { up [] with cl := l.toList.map fun l => ((0, 0), l), net := net, reqs := reqs, txns := txns }
/-- The first reader of line 0, the agent with the highest number among the cluster L2s (R299). -/
theorem wit_first_reader :
    (let s := coh none [] [] []
     s.findReq 31 0 = none ∧ s.mayAsk 31 0 = true ∧ s.lineSt 31 0 = 0 ∧ s.homeAt 0 = .at ⟨0, 0⟩ ∧ s.reach (agentDie 31) (homeDie 0) = true ∧
     s.reach (homeDie 0) (agentDie 31) = true ∧ s.line 31 0 = none ∧ s.txns = [] ∧ s.tokens = [] ∧
     (s.homeCheck ⟨0, 0⟩ 0 0 0 0 0 0 0).isNone = true ∧ s.answers = [] ∧ s.rereads = [] ∧ s.isDown 0 31 = false ∧ s.dirSet 0 = [] ∧
     s.ent 0 = none ∧ s.isBurr 0 = false ∧ locOfLine 0 = ⟨0, 0⟩ ∧
     s.linePoison ⟨0, 0⟩ = 0 ∧ s.journal = []) ∧
    ((after (.rdS (aReq 31)) (coh none [] [] [])).net.map fun m => m.kind) = [.dataE] := by decide +kernel
/-- Requests: of a line not held, of one in S, of a full entry of a tile and of a host die; and the three of a non-caching
requester with the greatest identifier and a full mask. -/
theorem wit_requests :
    (coh none [] [] []).mayAsk 0 0 = true ∧ (coh none [] [] []).lineSt 0 0 = 0 ∧ (coh (some (line7 1)) [] [] []).lineSt 0 0 = 1 ∧
    (coh none [] [] []).mayAsk 34 0 = true ∧
    ({ coh none [] [] [] with tiles := [(t0, { Tile.empty with wb := [⟨0, 0, 0, 0, fullMask, 9, true, [], false⟩] })] } : State).fullEntry 0 0 = some 9 ∧
    (coh none [] [] []).findReq (64 + 65535) 0 = none ∧ ((after (.wrNc (nReq 65535) (2 ^ 128 - 1) 5 (some 34)) (coh none [] [] [])).reqs.length = 1) ∧
    ((after (.atNc (nReq 0) ⟨8, 4, 0, 0⟩) (coh none [] [] [])).reqs.length = 1) := by decide +kernel
/-- Forwards at an owner in E and in M, at an agent that is down, and at one that no longer holds the line (R298). -/
theorem wit_forwards :
    ([.fwdS, .fwdX, .fwdNc] : List MsgKind).all (fun k =>
      let s := coh (some (line7 2)) [{ Msg.plain k 0 0 with dest := 1 }] [] []
      (s.findMsg k 0 0).isSome && s.agentUp 0 && (s.line 0 0).any fun l => decide (2 ≤ l.st)) = true ∧
    ((after (.fwdS 0 0 false 0) (coh (some (line7 3)) [{ Msg.plain .fwdS 0 0 with dest := 1 }] [] [])).net.map fun m => (m.kind, m.dirty)) =
      [(.dataS, false), (.fwdAck, true)] ∧
    ((after (.fwdX 0 0 false 0) (coh none [{ Msg.plain .fwdX 0 0 with dest := 1 }] [] [])).net.map fun m => m.kind) = [.fwdAck] ∧
    ((coh none [] [] []).setDom (.cd 0) true 0).agentUp 0 = false := by decide +kernel
/-- Invalidation, recall of a dirty line and at a down agent, stash. -/
theorem wit_snoops :
    (after (.inv 0 0) (coh (some (line7 1)) [Msg.plain .inv 0 0] [] [])).cl = [] ∧
    ((after (.recall 0 0 false 0) (coh (some (line7 3)) [Msg.plain .recall 0 0] [] [])).net.map fun m => (m.kind, m.dirty)) = [(.ack, true)] ∧
    ((after (.recall 0 0 false 0) (coh (some (line7 1)) [Msg.plain .recall 0 0] [] [])).net.map fun m => (m.kind, m.dirty)) = [(.ack, false)] ∧
    ((coh none [Msg.plain .pushS 0 0] [] []).install 0 0 1 7 0 false).isSome = true ∧
    (after (.pushS 0 0) (coh none [{ Msg.plain .pushS 0 0 with data := 7 }] [] [])).line 0 0 = some (line7 1) := by decide +kernel
/-- Grants at a requester, with what each installs, and answers at a non-caching one. -/
theorem wit_grants :
    ([(.dataS, Instr.dataS 0 0, 1), (.dataE, Instr.dataE 0 0, 2), (.dataX, Instr.dataX 0 0, 3)] : List (MsgKind × Instr × Nat)).all (fun e =>
      let t := after e.2.1 (coh none [{ Msg.plain e.1 0 0 with data := 7 }] [rq 0 .rdS .home] [])
      decide (t.line 0 0 = some (line7 e.2.2)) && decide (t.reqs = []) && decide ((t.net.map fun m => m.kind) = [.comp])) = true ∧
    (after (.gntX 0 0) (coh (some (line7 1)) [Msg.plain .gntX 0 0] [rq 0 .upg .home] [])).line 0 0 = some (line7 3) ∧
    (after (.dataNc 7 0) (coh none [{ Msg.plain .dataNc 71 0 with data := 5 }] [rq 71 .rdNc .home] [])).ncLast = some ⟨71, 0, .ok, 5, 0⟩ ∧
    (after (.done 7 0) (coh none [Msg.plain .done 71 0] [rq 71 .wrNc .home] [])).ncLast = some ⟨71, 0, .ok, 0, 0⟩ ∧
    (after (.wbAck 0 0) { coh none [Msg.plain .wbAck 0 0] [] [] with wbuf := [((0, 0), (7, 0))] }).wbuf = [] := by decide +kernel
/-- Refusals and retries (R303): an UPG whose line has gone becomes an RD_X; the request timeouts of both kinds of requester. -/
theorem wit_nacks :
    ((after (.nack 0 0) (coh none [Msg.plain .nack 0 0] [rq 0 .upg .nacked] [])).reqs.map fun r => (r.phase, r.nacks)) = [(.backoff, 1)] ∧
    ((after (.nackRetry 0 0) (coh none [] [rq 0 .upg .backoff] [])).reqs.map fun r => (r.phase, r.kind)) = [(.sent, .rdX)] ∧
    ((after (.nackRetry 0 0) (coh (some (line7 1)) [] [rq 0 .upg .backoff] [])).reqs.map fun r => (r.phase, r.kind)) = [(.sent, .upg)] ∧
    (after (.requestTimeout 63 0) (coh none [] [rq 63 .rdS .sent] [])).ncLast = none ∧
    (after (.requestTimeout 64 0) (coh none [] [rq 64 .rdNc .sent] [])).ncLast = some ⟨64, 0, .tout, 0, 0⟩ := by decide +kernel
/-- Answers awaited at the home, one of two and the last; completions; evictions by message and by a host die. -/
theorem wit_homes :
    ((coh none [Msg.plain .ack 3 0] [] [txn .snoop [3, 4] false]).takeMsg .ack 3 0).awaiting 3 0 = some (txn .snoop [3, 4] false) ∧
    ((coh none [Msg.plain .fwdAck 3 0] [] [txn .snoop [3] false]).takeMsg .fwdAck 3 0).awaiting 3 0 = some (txn .snoop [3] false) ∧
    (after (.ack 3 0) (coh none [Msg.plain .ack 3 0] [] [txn .snoop [3, 4] false])).txns = [txn .snoop [4] false] ∧
    (after (.comp 1 0) (coh none [Msg.plain .comp 1 0] [] [txn .comp [] true])).txns = [] ∧
    (after (.comp 1 0) (coh none [Msg.plain .comp 1 0] [] [txn .snoop [3] true])).txns = [txn .snoop [3] false] ∧
    (let s := coh none [{ Msg.plain .wb 0 0 with data := 7, dirty := true }] [] []
     let t := after (.wb 0 0 0) { s with dir := [(0, ⟨0, 0, 2, 0, 0, 0⟩)] }
     (t.dir, t.rdKey 0)) = ([], 7) ∧
    (let s : State := { coh none [] [] [] with cl := [((32, 0), line7 3)], dir := [(0, ⟨0, 0, 2, 32, 0, 0⟩)] }
     isHost 32 = true ∧ s.agentUp 32 = true ∧ s.lineSt 32 0 = 3 ∧ s.wbufRoom 32 = true ∧ (after (.wb 32 0 5) s).rdKey 0 = 5) ∧
    (after (.cleanEvict 0 0) { coh none [Msg.plain .cleanEvict 0 0] [] [] with dir := [(0, ⟨0, 0, 2, 0, 0, 0⟩)] }).dir = [] := by decide +kernel
/-- A token that expires, a home's timeout with an empty record and two missing holders, agents marked down and up, a sweep. -/
theorem wit_home_faults :
    (after (.tokenExpire 64 0) { coh none [] [] [] with tokens := [⟨0, 0, 64⟩] }).tokens = [] ∧
    (let s := coh none [] [] [txn .snoop [3, 4] false]
     (s.reg (.cd 0) .memDirToutRec 0).getLsbD 63 = false ∧ homeDie (locP 0) = .cd 0 ∧ (txn .snoop [3, 4] false).phase ≠ .recall ∧
     (after (.homeTimeout 0) s).isDown 0 3 = true ∧ (after (.homeTimeout 0) s).poisoned 0 = true) ∧
    ((coh none [] [] []).setDom (.cd 0) true 0).agentUp 7 = false ∧
    (after (.agentMarkDown 7) ((coh none [] [] []).setDom (.cd 0) true 0)).isDown 511 7 = true ∧
    (coh none [] [] []).agentLinked 34 = true ∧ (after (.agentMarkUp 34) ((up []).setReg (.cd 3) .memDirAgentDown 0 (BitVec.ofNat 64 (2 ^ 34)))).isDown 511 34 = false ∧
    (coh none [] [] []).running (.cd 3) false = true := by decide +kernel
/-- R306: agent 34 marked down on every die, and no other. R267: a write of the first byte of a poisoned half is dropped, one that
covers the half is not. -/
theorem test_lines :
    ((up []).markDown 34).isDown 511 34 = true ∧ ((up []).markDown 34).isDown 0 33 = false ∧
    ((({ up [] with poison := [0] } : State).writeLine ⟨0, 0⟩ 1 9).1.rdKey 0 = 0) ∧
    ((({ up [] with poison := [0] } : State).writeLine ⟨0, 0⟩ (2 ^ 64 - 1) 9).1.rdKey 0 = 9) ∧
    ((({ up [] with poison := [0] } : State).writeLine ⟨0, 0⟩ (2 ^ 127) (9 <<< 1016)).1.rdKey 127 = 9) := by decide +kernel


/-! ### Protection tables, translation caches and DMA channels (Chapters 11 and 12) -/

def hubW (pl ctx v : Nat) : Wr := ⟨.hub, 0, pl, ctx, BitVec.ofNat 64 v⟩
/-- The hub idle and busy; commands of CPT_CMD by level 0, and by level 1 where only level 0 may. -/
theorem wit_cpt_commands :
    (up []).gate .hub .cptCmd 0 0 = .ok ∧ (up []).gate .hub .cptCmd 1 5 = .ok ∧
    ([(Instr.cptWrite, 1), (Instr.writeSync, 2), (Instr.cptSync, 3), (Instr.cptRead, 4), (Instr.setRoot, 5), (Instr.fdtWrite, 6),
      (Instr.fdtSync, 7), (Instr.fdtRead, 8), (Instr.cdtWrite, 9), (Instr.cdtSync, 10), (Instr.cdtRead, 11)] : List ((Wr → Instr) × Nat)).all (fun e =>
      (after (e.1 (hubW 0 0 (e.2 * 2 ^ 48 + 4095))) ((up []).setReg .hub .cptStage1 0 1)).hubCmd.isSome) = true ∧
    (after (.cptWrite (hubW 1 5 (2 ^ 48))) (up [])).last.status = .perm ∧
    (after (.cptRead (hubW 1 5 (4 * 2 ^ 48))) { up [] with hubCmd := some ⟨1, 0, 0, 0, 0, 0, 0, 0, 0, false, []⟩ }).last.status = .busy := by decide +kernel
/-- Replicas of the first and the last entry, and the completions of commands whose replicas are in step. -/
theorem wit_replicas_and_completions :
    (after (.replicaUpdate 0 0 4095) { up [] with cpt := [(4095, 9)] }).cptAt 0 4095 = 9 ∧
    (after (.replicaUpdate 4 1 262143) { up [] with fdt := [(262143, 9)] }).fdtAt 4 262143 = 9 ∧
    aGet (after (.replicaUpdate 4 2 16383) { up [] with cdt := [(16383, 9)] }).cdtRep 0 16383 = 9 ∧
    (let h (op : Nat) : HubCmd := ⟨op, 0, 0, 0, 0, 0, 0, 0, 0, false, []⟩
     (up []).cptInStep 0 = true ∧ (up []).fdtInStep 0 = true ∧ (up []).cdtInStep 0 = true ∧ (up []).drains (fun _ => true) = [] ∧
     (after .cptCommandComplete { up [] with hubCmd := some { h 3 with swept := true } }).hubCmd = none ∧
     ([1, 2, 3, 7, 10, 11] : List Nat).all (fun o => (after .cptCommandComplete { up [] with hubCmd := some (h o) }).hubCmd.isNone) = true ∧
     (after .xltInvComplete { up [] with hubCmd := some (h 16) }).hubCmd = none ∧
     (after .xltInvComplete { up [] with hubCmd := some { h 16 with bank := 2, cmd := 3 }, cmds := [cmdAt 13 0 [0] true none] }).hubCmd = none) := by
  decide +kernel
/-- XLT_INV: accepted, refused while the hub is busy, refused to level 2 for another context. R322: the translation in range goes, one
out of range and one of another context stay, and a walk starts again. -/
theorem wit_invalidation :
    (after (.xltInv (hubW 0 0 (2 ^ 12))) (up [])).hubCmd.isSome = true ∧
    (after (.xltInv (hubW 0 0 (2 ^ 12))) { up [] with hubCmd := some ⟨16, 0, 0, 0, 0, 0, 0, 0, 0, true, []⟩ }).last.status = .busy ∧
    (up []).gate .hub .xltInvCmd 2 5 = .ok ∧ (up []).invRight 2 5 2 6 1 = false ∧ (after (.xltInv (hubW 2 5 (2 ^ 12 + 2 * 2 ^ 48 + 2 ^ 40 + 6))) (up [])).last.status = .perm ∧
    (let e (p c : Nat) : TlbE := ⟨.cp 0, c, 16, p, 0, 1, List.replicate 16 0⟩
     let s : State := { up [] with tlb := [e 0 0, e 1 0, e 0 5], walks := [⟨.cp 0, 0, 0, 0, 0, 1, 7⟩] }
     let t := s.invalidate 0 0 0 0
     (t.tlb, t.walks.map fun w => w.level)) = ([⟨.cp 0, 0, 16, 1, 0, 1, List.replicate 16 0⟩, ⟨.cp 0, 5, 16, 0, 0, 1, List.replicate 16 0⟩], [4]) := by
  decide +kernel

/-- Channel 0 of CD0 in a state with a chain, in context 0 of level 0, with memory. -/
def dmaAt (st : Nat) (r : Option DmaRun) (m : List Host.Cell) : State :=
  { up [at_ (.cd 0) .dmaStatus 0 st, at_ (.cd 0) .dmaCtx 0 (2 ^ 12)] with
    tlb := [page (.dma (.cd 0) 0)], mem := m, dmas := (r.toList.map fun r => ((.cd 0, 0), r)), tiles := [(t0, tB)] }
/-- Table 12-1: 200 bytes from 0x40 to 0x150, in one row; FILL with 7; WRITE of 8 bytes; block 7 of tile 0 as source and destination. -/
def dd (opc : Nat) : Nat :=
  0x100 + opc * 2 ^ 16 + (if opc = 3 then 8 else 200) * 2 ^ 32 + (if opc = 1 ∨ opc = 4 then 0x40 * 2 ^ 64 else 0)
    + (if opc = 4 then 0 else 0x150) * 2 ^ 128 + 2 ^ 256 + (if 4 ≤ opc then 7 * 2 ^ 288 else 0) + (if opc = 2 ∨ opc = 3 then 7 * 2 ^ 320 else 0)
def dRun (opc : Nat) : DmaRun := ⟨0, dd opc, true, 0, 0, false, [], 0, none, 0xFF, []⟩
theorem wit_dma_segments :
    ([1, 2, 3, 4, 5] : List Nat).all (fun o => (dmaAt 1 (some (dRun o)) []).ddCheck (.cd 0) (dd o) &&
      decide ((dmaAt 1 (some (dRun o)) []).dmaFront (.cd 0) 0 o = some (dRun o))) = true ∧ (okOf ((dmaAt 1 (some (dRun 1)) []).dmaKeep (.cd 0) 0 (dRun 1))).any (fun r => decide (r.1 = dRun 1)) = true ∧
    (match ({ dmaAt 1 (some (dRun 1)) [] with txns := [busyTxn 0] } : State).dmaRead (.cd 0) 0 0x40 8 with | .error _ => true | .ok _ => false) = true ∧
    (let t := after (.dmaCopy (.cd 0) 0) (dmaAt 1 (some (dRun 1)) (cells 0x40 8 0x1122))
     (t.rdKey 0x150, t.rdKey 0x151, (t.dma? (.cd 0) 0).map fun r => r.segs.map fun g => (g.len, g.st))) = (0x22, 0x11, some [(48, .ok)]) ∧
    (after (.dmaFill (.cd 0) 0) (dmaAt 1 (some (dRun 2)) [])).rdKey 0x150 = 7 ∧ (after (.dmaWrite (.cd 0) 0) (dmaAt 1 (some (dRun 3)) [])).rdKey 0x150 = 7 ∧
    (let t := after (.tolocal (.cd 0) 0) (dmaAt 1 (some (dRun 4)) (cells 0x40 8 0x1122))
     ((t.tile t0).block? 7).map fun b => b.lrd 0 2) = some 0x1122 ∧
    (dmaAt 1 (some (dRun 5)) []).localBlock (.cd 0) 0 0 7 128 = (.ok, some (t0, blk [] [])) ∧
    (after (.fromlocal (.cd 0) 0) (dmaAt 1 (some (dRun 5)) [])).dmas.length = 1 ∧
    (dmaAt 1 (some (dRun 4)) []).localBlock (.cd 0) 0 0 8 128 = (.unav, none) ∧
    (dmaAt 1 (some (dRun 4)) []).localBlock (.cd 0) 0 65500 7 128 = (.perm, none) ∧
    (okOf ((dmaAt 1 (some (dRun 1)) []).dmaRead (.cd 0) 0 (2 ^ 20) 8)).any (fun r => decide (r.1 = .xlat)) = true := by decide +kernel
/-- Responses that go on, end the descriptor and fail; a descriptor read that passes its checks, one that does not, one that fails. -/
theorem wit_dma_responses :
    (let seg (st : Status) : DmaSeg := ⟨0, 0, 48, st, []⟩
     (after (.dmaSegmentResponse (.cd 0) 0) (dmaAt 1 (some { dRun 1 with byte := 48, segs := [seg .ok] }) [])).dmaSt (.cd 0) 0 = 1 ∧
     (after (.dmaSegmentResponse (.cd 0) 0) (dmaAt 1 (some { dRun 1 with row := 1, segs := [seg .ok] }) [])).dmaSt (.cd 0) 0 = 0 ∧
     (after (.dmaSegmentResponse (.cd 0) 0) (dmaAt 1 (some { dRun 1 with byte := 48, segs := [seg .pois] }) [])).dmaSt (.cd 0) 0 = 3 ∧
     (after (.dmaSegmentResponse (.cd 0) 0) (dmaAt 1 (some { dRun 1 with byte := 48, segs := [seg .pois], begun := true }) [])).dmaSt (.cd 0) 0 = 1) ∧
    (let new : DmaRun := ⟨0, 0, false, 0, 0, false, [], 0, none, 0xFF, []⟩
     ((after (.dmaDescriptorRead (.cd 0) 0) (dmaAt 1 (some new) (cells 0 64 (dd 1)))).dma? (.cd 0) 0).map (fun r => r.got) = some true ∧
     (after (.dmaDescriptorRead (.cd 0) 0) (dmaAt 1 (some new) [])).dmaSt (.cd 0) 0 = 3 ∧
     (after (.dmaDescriptorRead (.cd 0) 0) { dmaAt 1 (some new) [] with poison := [0] }).rf (.cd 0) .dmaStatus 0 11 8 = Status.pois.code) := by
  decide +kernel
/-- The six actions of DMA_CTRL, each in the state where it acts. -/
theorem wit_dma_control :
    (let w (v : Nat) : Wr := ⟨.cd 0, 0, 0, 0, BitVec.ofNat 64 v⟩
     let e := 2 ^ 31
     (up []).gate (.cd 0) .dmaCtrl 0 0 = .ok ∧ dmaAction (BitVec.ofNat 64 e) (BitVec.ofNat 64 (e + 1)) = 5 ∧ dmaAction (BitVec.ofNat 64 e) (BitVec.ofNat 64 (e + 2)) = 4 ∧
     dmaAction (BitVec.ofNat 64 e) (BitVec.ofNat 64 (e + 4)) = 2 ∧ dmaAction (BitVec.ofNat 64 e) (BitVec.ofNat 64 (e + 8)) = 3 ∧ dmaAction (BitVec.ofNat 64 e) 0 = 1 ∧ dmaAction 0 (BitVec.ofNat 64 e) = 6 ∧
     (after (.dmaGo (w (e + 1))) (dmaAt 0 none [])).dmaSt (.cd 0) 0 = 1 ∧ (after (.dmaResume (w (e + 2))) (dmaAt 4 (some (dRun 1)) [])).dmaSt (.cd 0) 0 = 1 ∧
     (after (.dmaAbort (w (e + 4))) (dmaAt 1 (some (dRun 1)) [])).dmaSt (.cd 0) 0 = 0 ∧ (after (.dmaPause (w (e + 8))) (dmaAt 1 (some (dRun 1)) [])).dmaSt (.cd 0) 0 = 4 ∧
     (after (.dmaDisable (w 0)) (dmaAt 0 none [])).dmaSt (.cd 0) 0 = 5 ∧
     (after (.dmaEnable (w e)) ((dmaAt 5 none []).setReg (.cd 0) .dmaCtrl 0 0)).dmaSt (.cd 0) 0 = 0) := by decide +kernel
/-- R343 at its edges: the first segment ends at a line of the destination, the last at the end of the row. -/
theorem wit_dma_rows : (dRun 1).byte < ddLen (dRun 1).desc ∧ (dRun 1).next = (48, 0x40, 0x150, 0) ∧
    ({ dRun 1 with byte := 176 } : DmaRun).next = (24, 0xF0, 0x200, 0) ∧ (({ dRun 1 with byte := 176 } : DmaRun).advance 24).row = 1 := by decide +kernel


/-! ### Command streams and event queues (Chapter 12) -/

/-- Queue 0 of CD0 enabled and idle, its ring at 0 with the words given. -/
def ring (l : List (RKey × W64)) (ws : List Nat) : State :=
  { up (List.flatten [l, [at_ (.cd 0) .cqCfg 0 (2 ^ 12), at_ (.cd 0) .cqPtr 0 (ws.length * 2 ^ 32)]]) with
    tlb := [page (.cp 0)], mem := cells 0 (8 * ws.length) (ws.foldr (fun w a => w + 2 ^ 64 * a) 0), tiles := [(t0, tB)] }
/-- A command word: operation, operands, low bits. -/
def cw (op len low : Nat) : Nat := op * 2 ^ 56 + len * 2 ^ 53 + low
def fronts (s : State) (op : Nat) : Bool :=
  match s.cqFront 0 0 with | .word w ops _ => decide (cwOp w = op) && cwFormatOk false w ops | _ => false
/-- Words of each command of Table 12-3, with the operands it takes. -/
def streamWords : List (Nat × List Nat) :=
  [(0, [cw 0 0 0]), (1, [cw 1 5 (20 * 2 ^ 32), 0x4000, 0, 0, 1, 0]), (3, [cw 3 1 0, 0]), (4, [cw 4 2 0, 0x40, 1]),
   (5, [cw 5 2 (4 * 2 ^ 16), 0x40, 1]), (6, [cw 6 1 0, 0x100]), (7, [cw 7 0 0]), (8, [cw 8 2 0, 0x100, 0]), (9, [cw 9 2 0, 0x100, 5]),
   (10, [cw 10 1 0, 0x100]), (11, [cw 11 0 0]), (12, [cw 12 0 7]), (13, [cw 13 1 0, 0]), (14, [cw 14 1 1, 0x100])]
/-- Every command of the table is at the front of a queue, well formed; one with a reserved bit is not; one that cannot be read. -/
theorem wit_stream_fronts :
    streamWords.all (fun e => fronts (ring [] e.2) e.1) = true ∧ streamRows.map (fun r => r.2) = streamWords.map (fun e => e.1) ∧
    (match (ring [] [cw 0 0 1]).cqFront 0 0 with | .word w ops _ => !cwFormatOk false w ops | _ => false) = true ∧
    (match (ring [] [cw 2 0 0]).cqFront 0 0 with | .word w _ _ => decide (cwOp w = 2) | _ => false) = true ∧
    (match ({ ring [] [cw 0 0 0] with poison := [0] } : State).cqFront 0 0 with | .bad st _ _ => decide (st = .pois) | _ => false) = true ∧
    (match (ring [] [cw 9 2 0]).cqFront 0 0 with | .part w _ => decide (cwOp w = 9) | _ => false) = true ∧
    (match ({ ring [] [cw 9 2 0] with txns := [busyTxn 0] } : State).cqFront 0 0 with | .wait _ => true | _ => false) = true ∧
    (after (.cmdNop 0 0) (ring [] [cw 2 0 0])).cqSt 0 0 = 4 ∧ (after (.cmdNop 0 0) (ring [] [cw 0 0 0])).cqHead 0 0 = 1 := by decide +kernel
/-- LAUNCH in order, on a retired tile, and too large; DMA on a free channel of the context; BURR; FEED in order, to a disabled Burr, and with
an empty mask. -/
theorem wit_stream_starts :
    (after (.launch 0 0) (ring [] [cw 1 5 (20 * 2 ^ 32), 0x4000, 0, 0, 1, 0])).launches.length = 1 ∧
    (after (.launch 0 0) (ring [at_ (.cd 0) .fltTileRetire 0 1] [cw 1 5 (20 * 2 ^ 32), 0x4000, 0, 0, 1, 0])).cqSt 0 0 = 4 ∧
    (after (.launch 0 0) (ring [] [cw 1 5 (15 * 2 ^ 32), 0x4000, 0, 0, 1, 0])).cqSt 0 0 = 4 ∧
    (after (.cmdDma 0 0) (ring [at_ (.cd 0) .dmaCtx 0 (2 ^ 12)] [cw 3 1 0, 0x80])).dmaSt (.cd 0) 0 = 1 ∧
    (after (.cmdDma 0 0) (ring [at_ (.cd 0) .dmaCtx 0 (2 ^ 12), at_ (.cd 0) .dmaStatus 0 1] [cw 3 1 0, 0x80])).cqSt 0 0 = 2 ∧
    ((after (.cmdDma 0 0) (ring [at_ (.cd 0) .dmaStatus 0 6] [cw 3 1 0, 0x80])).cmds.map fun c => c.fin) = [some .unav] ∧
    ((after (.cmdDma 0 0) (ring [] [cw 3 1 0, 0x80])).cmds.map fun c => c.fin) = [some .perm] ∧
    (let s := ring [] [cw 4 2 0, 0x40, 1]
     let s : State := { s with mem := s.mem ++ cells 0x40 96 (bHdr + 2 ^ 512 * bOp 6) }
     (after (.cmdBurr 0 0) s).blaunches.length = 1) ∧
    (after (.cmdBurr 0 0) (ring [] [cw 4 2 0, 0x41, 1])).blaunches = [] ∧
    (after (.feed 0 0) (ring [] [cw 5 2 (4 * 2 ^ 16), 0x40, 1])).feeds.length = 1 ∧
    (after (.feed 0 0) (ring [at_ (.cd 0) .burState 0 (5 * 2 ^ 5)] [cw 5 2 (4 * 2 ^ 16), 0x40, 1])).feeds = [] ∧
    (after (.feed 0 0) (ring [] [cw 5 2 (4 * 2 ^ 16), 0x40, 0])).feeds = [] := by decide +kernel
/-- Waits that hold and do not; writes, ordered writes, times, fences, invalidations and calls. -/
theorem wit_stream_effects :
    (after (.waitc 0 0) (ring [] [cw 7 0 0])).cqHead 0 0 = 1 ∧ (after (.waitc 0 0) (ring [] [cw 7 0 1])).cqSt 0 0 = 2 ∧
    (after (.cmdWrite 0 0) (ring [] [cw 9 2 0, 0x100, 5])).rdKey 0x100 = 5 ∧
    (after (.cmdWrite 0 0) { ring [] [cw 9 2 2, 0x100, 5] with cmds := [cmdAt 3 0 [] true none] }).cqSt 0 0 = 2 ∧
    (after (.cmdTime 0 0) { ring [] [cw 10 1 0, 0x100] with now := 9 }).rdKey 0x100 = 9 ∧
    (after (.cmdFence 0 0) (ring [] [cw 11 0 0])).cqHead 0 0 = 1 ∧
    (after (.cmdFence 0 0) { ring [] [cw 11 0 0] with cmds := [cmdAt 3 0 [] true none] }).cqSt 0 0 = 2 ∧
    (after (.event 0 0) (ring [] [cw 12 0 7])).cqHead 0 0 = 1 ∧
    (after (.cmdXltInv 0 0) (ring [] [cw 13 1 0, 0])).hubCmd.isSome = true ∧
    (after (.cmdXltInv 0 0) { ring [] [cw 13 1 0, 0] with hubCmd := some ⟨16, 0, 0, 0, 0, 0, 0, 0, 0, true, []⟩ }).cqSt 0 0 = 2 ∧
    ((after (.cmdXltInv 0 0) ((ring [] [cw 13 1 0, 0]).setDom .hub false 0)).cmds.map fun c => c.fin) = [some .unav] ∧
    (up []).invRight 2 5 2 6 1 = false ∧ (after (.cmdCall 0 0) (ring [] [cw 14 1 1, 0x100])).calls.length = 1 := by decide +kernel
/-- A WAITM whose word has and has not its value, and at its limit; completions of a command that has its status, and of a LAUNCH. -/
theorem wit_stream_waits :
    (let s (low : Nat) : State := { ring [] [] with cmds := [cmdAt 8 low [0x100, 5] false none] }
     let m (low : Nat) : State := { s low with mem := cells 0x100 8 5 }
     (s 0).waitm 0 0 = some (cmdAt 8 0 [0x100, 5] false none) ∧ (after (.waitmPoll 0 0) (m 0)).cmds = [] ∧
     (after (.waitmPoll 0 0) (s 0)).cmds.length = 1 ∧ (after (.waitmTimeout 0 0) (s 0)).cmds.length = 1 ∧
     (after (.waitmTimeout 0 0) (s (2 ^ 16))).cmds = [] ∧
     (okOf ((m 0).waitmRead (cmdAt 8 0 [0x100, 5] false none))).any (fun r => r.2.1) = true ∧
     (okOf ((m 1).waitmRead (cmdAt 8 1 [0x100, 5] false none))).any (fun r => !r.2.1) = true ∧
     (okOf ((m 2).waitmRead (cmdAt 8 2 [0x100, 5] false none))).any (fun r => r.2.1) = true) ∧
    (let s (op : Nat) (fin : Option Status) : State := { ring [] [] with cmds := [cmdAt op 0 [] true fin] }
     (s 3 (some .ok)).prodHeld (.cd 0) 0 = false ∧ (after (.commandComplete 0 3) (s 3 (some .pois))).cmds = [] ∧
     (after (.commandComplete 0 3) (s 3 none)).cmds.length = 1 ∧
     (let e : Cmd := { cmdAt 6 0 [] true (some .abrt) with word := BitVec.ofNat 64 (cw 6 1 (2 ^ 51)) }
      let t := after (.commandComplete 0 3) { ring [at_ (.cd 0) .eqCfg 0 (2 ^ 12), at_ (.cd 0) .eqStatus 0 (2 ^ 32)] [] with cmds := [e] }
      cwE e.word = true ∧ t.cmds = [] ∧ t.rf (.cd 0) .eqStatus 0 8 0 = 1) ∧
     (after (.commandComplete 0 3) { s 1 none with launches := [⟨0, 0, 0, 0, 0, 0, 0, [], [], [], .ok⟩] }).cmds = [] ∧
     (after (.commandComplete 0 3) { s 1 none with launches := [⟨0, 0, 0, 0, 0, 0, 0, [], [5], [], .ok⟩] }).cmds.length = 1) := by decide +kernel
/-- Doorbells: taken at the ring's size, refused beyond it and behind TAIL; queues enabled and disabled, at rest and busy. -/
theorem wit_queue_registers :
    (let w (v : Nat) : Wr := ⟨.cd 0, 0, 0, 0, BitVec.ofNat 64 v⟩
     (ring [] []).gate (.cd 0) .cqDoorbell 0 0 = .ok ∧ (ring [] []).cqWords 0 0 = 512 ∧
     (after (.cqDoorbell (w 512)) (ring [] [])).cqTail 0 0 = 512 ∧ (after (.cqDoorbell (w 513)) (ring [] [])).last.status = .busy ∧
     (after (.cqDoorbell (w (2 ^ 31))) (ring [] [])).last.status = .perm ∧
     (up []).gate (.cd 0) .cqCfg 0 0 = .ok ∧ (up []).rf (.cd 0) .cqCfg 0 12 12 = 0 ∧
     (after (.cqEnable (w (2 ^ 12 + 0x100 * 2 ^ 32))) (up [])).cqSt 0 0 = 0 ∧ (after (.cqEnable (w (2 ^ 12 + 0x101 * 2 ^ 32))) (up [])).last.status = .busy ∧
     (after (.cqDisable (w 0)) (ring [] [])).cqSt 0 0 = 5 ∧
     (after (.cqDisable (w 0)) { ring [] [] with cmds := [cmdAt 3 0 [] true none] }).last.status = .busy ∧
     (after (.eqEnable (w (2 ^ 12))) (up [])).rf (.cd 0) .eqStatus 0 34 32 = 1 ∧
     (after (.eqDisable (w 0)) (up [at_ (.cd 0) .eqCfg 0 (2 ^ 12), at_ (.cd 0) .eqStatus 0 (2 ^ 32)])).rf (.cd 0) .eqStatus 0 34 32 = 0 ∧
     (after (.eqDisable (w 0)) (up [at_ (.cd 0) .eqCfg 0 (2 ^ 12), at_ (.cd 0) .eqStatus 0 (2 ^ 32 + 1)])).last.status = .busy ∧
     ([100, 126] : List Nat).all (fun k => decide ((after (.eqDisable (w (k * 2 ^ 49)))
       (up [at_ (.cd 0) .eqCfg 0 (2 ^ 12), at_ (.cd 0) .eqStatus 0 (2 ^ 32 + 1)])).last.status = .perm)) = true) := by decide +kernel
/-- Removal of as many entries as are held and of one more; a software push, to a queue that is not enabled and to one that is; a retry. -/
theorem wit_event_queues :
    (let w (v : Nat) : Wr := ⟨.cd 0, 0, 0, 0, BitVec.ofNat 64 v⟩
     let q (d : Nat) : State := { up [at_ (.cd 0) .eqCfg 0 (2 ^ 12), at_ (.cd 0) .eqStatus 0 (2 ^ 32 + d)] with tlb := [page (.cp 0)] }
     (q 3).gate (.cd 0) .eqOp 0 0 = .ok ∧ (after (.eqPop (w 3)) (q 3)).rf (.cd 0) .eqStatus 0 8 0 = 0 ∧
     (after (.eqPop (w 4)) (q 3)).rf (.cd 0) .eqStatus 0 40 40 = 1 ∧ (after (.eqPush (w (2 ^ 9))) (up [])).rf (.cd 0) .eqStatus 0 40 40 = 1 ∧
     (after (.eqPush (w (2 ^ 9))) (q 256)).rf (.cd 0) .eqStatus 0 40 40 = 1 ∧ (after (.eqPush (w (2 ^ 9))) (q (2 ^ 16 + 255))).rf (.cd 0) .eqStatus 0 8 0 = 256 ∧
     (after (.eqPop (w (3 + 2 ^ 9))) (q 3)).rf (.cd 0) .eqStatus 0 8 0 = 1 ∧ (after (.eqPop (w 0)) (q 3)).rf (.cd 0) .eqStatus 0 8 0 = 3 ∧
     (after (.eventPushRetry (.cd 0) 1) { q 0 with heldEv := [⟨.cd 0, 1, 0, eventBytes 10 .ok 0 0 0 0 0 []⟩] }).heldEv = [] ∧
     (after (.eventPushRetry (.cd 0) 1) { q 256 with heldEv := [⟨.cd 0, 1, 0, []⟩] }).heldEv.length = 1 ∧
     (let two (d : Nat) : State := { q d with heldEv := [⟨.cd 0, 1, 0, eventBytes 10 .ok 0 0 0 0 0 []⟩, ⟨.cd 0, 0, 0, eventBytes 10 .ok 0 0 0 0 0 []⟩] }
      (two 0).pushTurn (.cd 0) 0 1 = false ∧ (two 0).pushTurn (.cd 0) 0 0 = true ∧ (after (.eventPushRetry (.cd 0) 1) (two 0)).heldEv = [] ∧
      ((after (.eventPushRetry (.cd 0) 1) (two (2 ^ 16 + 255))).heldEv.map fun h => h.prod) = [1] ∧
      ((two 256).retryBelow (.cd 0) 0 1).pushTurn (.cd 0) 0 1 = false)) := by decide +kernel


/-! ### Pre-emption (Chapter 12) -/

def preW (op v : Nat) : Wr := ⟨.cd 0, 0, 0, 0, BitVec.ofNat 64 (op * 2 ^ 52 + v)⟩
/-- CD0 with a block of context 0 on tile 0 in a state, without local memory or engine regions, and pages of a Burr-layout frame where an image goes. -/
def preS (st : BState) (ops : List (Nat × PreOp)) : State :=
  { (up []).setReg .hub .memBandMode 0 0x555555555555555D#64 with
    tlb := ([0, 2, 3] : List Nat).flatMap fun v => [⟨.tile t0, 0, 16, v, 2 ^ 24, 3, List.replicate 16 0⟩, ⟨.cp 0, 0, 16, v, 2 ^ 24, 3, List.replicate 16 0⟩]
    tiles := [(t0, { tB with blocks := [{ blk [] [] with st := st, size := 0, accN := 0, vxN := 0, groups := [⟨0, [lane []], [], 0, 0⟩] }] })], preOps := ops }
/-- Every operation of CQ_PREEMPT with nothing in progress, and one with an operation in progress (R356, R357). -/
theorem wit_preempt_operations :
    ([(Instr.preempt, 1), (Instr.preemptResume, 2), (Instr.restore, 3), (Instr.bsave, 4), (Instr.brestore, 5), (Instr.release, 6), (Instr.kill, 7)] :
      List ((Wr → Instr) × Nat)).all (fun e =>
        decide (((preS .running []).ctlStore (.cd 0) .cqPreempt 0 0 0 (preW e.2 0).val).1 = .ok) &&
        decide ((after (e.1 (preW e.2 0)) (preS .running [])).last = ⟨.ok, 0⟩) &&
        decide ((after (e.1 (preW e.2 0)) ((preS .running []).setReg (.cd 0) .cqPreempt 0 (BitVec.ofNat 64 (2 ^ 63)))).last.status = .busy)) = true ∧
    (((after (.preempt (preW 1 0)) (preS .running [])).tile t0).blocks.map fun b => b.st) = [.stopping] ∧
    ((after (.kill (preW 7 0)) (preS .running [])).tile t0).blocks = [] ∧ ((after (.release (preW 6 0)) (preS .halted [])).tile t0).blocks = [] ∧
    (okOf ((preS .running []).smpKills 0 (smpsAll 0))).isSome = true := by decide +kernel
/-- The image of a stopped block, written, and failing because its pages are not there. -/
def preO : PreOp := ⟨1, 0, 0, [(0, 7, 0)], 0, 0, .ok⟩
theorem wit_block_image :
    (let s := preS .stopping [(0, preO)]
     (s.tile t0).stopped 7 = true ∧ s.pre? 0 = some preO ∧ ((after (.blockImageWritten ⟨0, 0, 7⟩) s).tile t0).blocks = [] ∧
     (after (.blockImageWritten ⟨0, 0, 7⟩) s).preImgs = [⟨0, 0, 0, 0⟩] ∧
     (((after (.blockImageWritten ⟨0, 0, 7⟩) { s with tlb := [] }).tile t0).blocks.map fun b => b.st) = [.retained]) := by decide +kernel

/-! ### Control registers (Chapters 00 and 01) -/

/-- Accesses to registers of minimum level 0 and 2 by level 3, read and written; a group whose level is checked although the offset
holds no register. -/
theorem wit_less_privileged :
    groupOf .hub 0x50000 8 = some .cptCmd ∧ groupOf (.cd 0) 0xB1008 8 = some .dmaCtx ∧
    (regInfo .cptCmd).minPL < 3 ∧ (regInfo .dmaCtx).minPL < 3 ∧ (up []).asleep .hub (regInfo .cptCmd).tileDom = false ∧
    (up []).ctlUp .hub (regInfo .cptCmd).tileDom = true ∧ (up []).ctlUp (.cd 0) (regInfo .dmaCtx).tileDom = true ∧
    (up []).ctlRead1 .hub 0x50000 8 3 5 = (.perm, 0) ∧
    (after (.cptWrite ⟨.hub, 0, 3, 5, BitVec.ofNat 64 (2 ^ 48)⟩) (up [])).last = ⟨.perm, 0⟩ ∧
    (after (.registerWrite ⟨.cd 0, 0xB1008, 8, 3, 5, 7⟩) (up [])).last = ⟨.perm, 0⟩ := by decide +kernel
/-- REGISTER_WRITE: a value taken, a refused one, RTC_ALARM, an access of another size, a misplaced one, a free place in a group
and in none, a domain that does not run (R41-R43). -/
theorem wit_register_write :
    ctlFind (.cd 0) 0xB1008 8 = .reg .dmaCtx 0 ∧ (up []).gate (.cd 0) .dmaCtx 0 0 = .ok ∧
    ((up []).ctlValue (.cd 0) .dmaCtx 0 0 0 5#64).1 = .ok ∧ (after (.registerWrite ⟨.cd 0, 0xB1008, 8, 0, 0, 5⟩) (up [])).dmaCtxId (.cd 0) 0 = 5 ∧
    (after (.registerWrite ⟨.cd 0, 0xB1008, 4, 0, 0, 5⟩) (up [])).last.status = .perm ∧
    ctlFind .hub (regInfo .pwrRtcAlarm).off 8 = .reg .pwrRtcAlarm 0 ∧ (after (.registerWrite ⟨.hub, (regInfo .pwrRtcAlarm).off, 8, 0, 0, 5⟩) (up [])).last.status = .ok ∧
    ctlFind (.cd 0) 0xFFF000 8 = .free ∧ ctlGroup (.cd 0) 0xFFF000 = none ∧ (after (.registerWrite ⟨.cd 0, 0xFFF000, 8, 0, 0, 5⟩) (up [])).last.status = .ok ∧
    ctlFind (.cd 0) 0xFFF001 8 = .bad ∧ ctlGroup (.cd 0) 0xFFF001 = none ∧ (after (.registerWrite ⟨.cd 0, 0xFFF001, 8, 0, 0, 5⟩) (up [])).last.status = .perm ∧
    ctlFind (.cd 0) 0xB1FF8 8 = .free ∧ (ctlGroup (.cd 0) 0xB1FF8).isSome = true ∧ (after (.registerWrite ⟨.cd 0, 0xB1FF8, 8, 0, 0, 5⟩) (up [])).last.status = .ok ∧
    ctlFind (.cd 0) 0xB100C 8 = .bad ∧ (ctlGroup (.cd 0) 0xB100C).isSome = true ∧ (up []).ctlRead1 (.cd 0) 0xB100C 8 0 0 = (.perm, 0) ∧
    (after (.registerWrite ⟨.cd 0, 0xB100C, 8, 0, 0, 5⟩) (up [])).last.status = .perm ∧ (after (.registerWrite ⟨.cd 0, 0xB1FF8, 8, 1, 0, 5⟩) (up [])).last.status = .perm ∧
    (after (.registerWrite ⟨.cd 0, 0xB100C, 8, 3, 5, 5⟩) State.reset).last.status = .unav ∧
    State.reset.ctlUp (.cd 0) false = false ∧ (after (.registerWrite ⟨.cd 0, 0xFFF000, 8, 0, 0, 5⟩) State.reset).last.status = .unav ∧
    ((up []).ctlValue (.cd 0) .dmaCtx 0 1 5 (BitVec.ofNat 64 0)).1 = .ok := by decide +kernel


/-! ### Host ports and I/O (Chapter 13) -/

/-- Port 0 up as a root port, port 1 as an endpoint; region 0 open to everyone at the hub and at CD0; further registers. -/
def ioS (l : List (RKey × W64)) : State :=
  { up (List.flatten [[at_ .hub .hubPcieCfg 0 (2 ^ 19), at_ .hub .hubPcieCfg 1 (2 ^ 28 + 2 ^ 19)], l]) with
    fdtRep := [((0, 0), 0x80FF), ((4, 0), 0x80FF)], mem := cells 0x40 4 0x11223344 }
def rp (wr : Bool) (pa len : Nat) : Tlp := ⟨0, wr, pa, len, 0x55⟩
def ept (wr : Bool) (pa len : Nat) : Tlp := ⟨1, wr, pa, len, 0x55⟩
/-- Requests to root-port memory: the first and last host core, a channel of level 0, one of level 2, nobody; a port that is down. -/
theorem wit_pcie_outbound :
    let s := ioS [at_ .hub .dmaCtx 1 (2 ^ 33)]
    s.region pcieBase = .pcie ∧ inIntWindow pcieBase = false ∧
    (after (.pcieOutbound (.host 0) (rp false pcieBase 8) .ok 9) s).last = ⟨.ok, 9⟩ ∧
    (after (.pcieOutbound (.host 95) (rp true pcieBase 8) .timeout 9) s).last = ⟨.tout, 0⟩ ∧
    (after (.pcieOutbound (.mgmt 3) (rp false pcieBase 1) .ok 0x109) s).last = ⟨.ok, 9⟩ ∧
    (after (.pcieOutbound (.dma 0) (rp false pcieBase 8) .poisoned 9) s).last = ⟨.pois, 0⟩ ∧
    (let o : OutReq := ⟨s.reqId (.dma .hub 0), pcieBase, 8, false, 0, none⟩
     (after (.pcieOutbound (.dma 0) (rp false pcieBase 8) .unsupported 9) { s with io := ⟨[o], []⟩ }).io.outb = [{ o with ans := some (.perm, 0) }]) ∧
    (after (.pcieOutbound (.dma 1) (rp false pcieBase 8) .ok 9) s).last = ⟨.perm, 0⟩ ∧
    (let i := 0xEFFFFFF000000
     s.region i = .pcie ∧ inIntWindow i = true ∧ (after (.pcieOutbound (.host 0) (rp true i 4) .ok 0) s).last = ⟨.perm, 0⟩) ∧
    (after (.pcieOutbound .other (rp false pcieBase 8) .ok 9) s).last = ⟨.perm, 0⟩ ∧
    (after (.pcieOutbound (.host 0) (rp false (pcieBase + 2 ^ 46) 8) .ok 9) s).last = ⟨.unav, 0⟩ := by decide +kernel
/-- A request of a device within the window of its port, one beyond it, and one to a region that is not open. -/
theorem wit_root_port :
    let s0 := ioS [at_ .hub .hubRpWin 0 (2 ^ 63)]
    let d : Line := BitVec.ofNat 1024 (0x11223344 * 2 ^ 512)
    let s : State := { s0 with cl := [((34, 0), ⟨3, 0, 0, d, 0⟩)] }
    let w := after (.rootPortRequest (rp false 0x40 4)) s0
    w.io.tlps.length = 1 ∧ w.reqs.length = 1 ∧ (after (.rootPortRequest (rp true 0x40 4)) s0).io.tlps.length = 1 ∧
    (after (.rootPortRequest (rp true 0x40 4)) w).io.tlps.length = 2 ∧
    (after (.interruptWindowWrite (rp true 0xEFFFFFF000000 4)) w).io.tlps.length = 2 ∧
    rootPortReason s (rp false 0x40 4) = 0 ∧ (after (.rootPortRequest (rp false 0x40 4)) s).out = s.out ++ [⟨.tlp, [2, 0, 0, 0x11223344]⟩] ∧
    ((after (.rootPortRequest (rp true 0x40 4)) s).line 34 0).map (fun l => leNat (lineBytes l.data 64 4)) = some 0x55 ∧
    rootPortReason (ioS []) (rp false 0x40 4) = 8 ∧ (after (.rootPortRequest (rp false 0x40 4)) (ioS [])).out = s.out ++ [⟨.tlp, [2, 0, 2]⟩] ∧
    rootPortReason s (rp true (2 ^ 21) 4) = 4 ∧ (after (.rootPortRequest (rp true (2 ^ 21) 4)) s).out = s.out ∧ s0.portIo 0 = true := by decide +kernel
/-- Interrupts for core 0 and core 95; a read, a write of 8 bytes and a write for core 96. -/
theorem wit_interrupt_window :
    let go (wr : Bool) (core len : Nat) := (after (.interruptWindowWrite (rp wr (0xEFFFFFF000000 + 64 * core) len)) (ioS [])).out
    go true 0 4 = (ioS []).out ++ [⟨.interrupt, [0, 0x55]⟩] ∧ go true 95 4 = (ioS []).out ++ [⟨.interrupt, [95, 0x55]⟩] ∧
    go true 96 4 = (ioS []).out ∧ go true 0 8 = (ioS []).out ∧ go false 0 4 = (ioS []).out := by decide +kernel
/-- The Sluice window closed, open for context 0 of level 0, and for a context that may not read; a write of its register (R369). -/
theorem wit_sluice :
    let s0 := ioS [at_ .hub .hubSluiceCtrl 0 (2 ^ 63)]
    let d : Line := BitVec.ofNat 1024 (0x11223344 * 2 ^ 512)
    let a : State := { s0 with cl := [((34, 0), ⟨3, 0, 0, d, 0⟩)] }
    let c := ioS [at_ .hub .hubSluiceCtrl 0 (2 ^ 63 + 2 ^ 61 + 9)]
    let w := after (.sluiceAccess ⟨false, (ept false 0x40 4)⟩) s0
    w.io.tlps.length = 1 ∧ w.reqs.length = 1 ∧
    (after (.sluiceAccess ⟨false, (ept false 0x40 4)⟩) (ioS [])).out = a.out ++ [⟨.tlp, [2, 1, 1]⟩] ∧
    (after (.sluiceAccess ⟨false, (ept false 0x40 4)⟩) a).out = a.out ++ [⟨.tlp, [2, 1, 0, 0x11223344]⟩] ∧
    ((after (.sluiceAccess ⟨false, (ept true 0x40 4)⟩) a).line 34 0).map (fun l => leNat (lineBytes l.data 64 4)) = some 0x55 ∧
    (after (.sluiceAccess ⟨false, (ept false 0x40 4)⟩) c).out = a.out ++ [⟨.tlp, [2, 1, 2]⟩] ∧
    (let t := after (.sluiceAccess ⟨true, (ept true 0x20 4)⟩) a
     (after (.sluiceAccess ⟨true, (ept false 0x20 4)⟩) t).out = a.out ++ [⟨.tlp, [2, 1, 0, 0x55]⟩]) ∧
    ((after (.sluiceCtrlWrite ⟨.hub, 0, 0, 0, BitVec.ofNat 64 (2 ^ 63)⟩) (ioS [])).reg .hub .hubSluiceCtrl 0).toNat = 2 ^ 63 + 2 ^ 61 + 1 ∧
    (after (.sluiceCtrlWrite ⟨.hub, 0, 3, 7, 0⟩) (ioS [])).last.status = .perm := by decide +kernel
/-- Ordered mode from a count of 1; the doorbell at its address and beside it, while the part comes out of a state. -/
theorem wit_ordered_and_doorbell :
    ((after .orderedModeEnter ((ioS []).setReg .hub .hubOrderStatus 0 1)).reg .hub .hubOrderStatus 0).getLsbD 31 = true ∧
    (let s := (ioS []).setRf .hub .pwrStateStatus 0 27 24 3
     s.portMode 1 1 = true ∧ s.pwrTarget = 3 ∧ (after (.endpointWakeDoorbell (ept true 0x3000 4)) s).wakeDue = some (2, 255) ∧
     (after (.endpointWakeDoorbell (ept true 0x3004 4)) s).wakeDue = none) := by decide +kernel


/-! ### The Millrace fabric (Chapter 13) -/

/-- A licence with FL, station 1, port 0 up with protocol major 1, station 2 behind it; context 5 may use region 0 at the hub and at
CD0, and translates the first 64 KiB. -/
def fab (l : List (RKey × W64)) : State :=
  { up (List.flatten [[at_ .hub .licStatus 0 (2 ^ 16), at_ .hub .mrcCfg 0 (2 ^ 48 + 2 ^ 36), at_ .hub .mrcPortStatus 0 (2 ^ 31 + 2 ^ 8)], l]) with
    tables := { State.reset.tables with epMap := [(2, 0x3001)] }
    cptRep := [((0, 5), 0x1ED), ((4, 5), 0x1ED)], fdtRep := [((0, 0), 0x8000), ((4, 0), 0x8000)]
    tlb := [page (.millrace 0), { page (.millrace 0) with ctx := 5 }] }
/-- A descriptor for station 2 on VL0: operation, length, further bits. -/
def mdesc (opc len more : Nat) : Nat := 0x100 + opc * 2 ^ 16 + 2 * 2 ^ 80 + len * 2 ^ 96 + more
/-- Queue 0 running, with a descriptor in its ring at 0. -/
def sqRun (d : Nat) : State := { fab [at_ .hub .mrcSqCfg 0 (2 ^ 21 + 2 ^ 12), at_ .hub .mrcSqPtr 0 (2 ^ 32)] with mem := cells 0 64 d }
def sent (s : State) : List (List Nat) := s.out.map fun e => e.args.take 4
/-- The doorbell of an idle queue, up to its ring's size; of a queue that is full, disabled, or another context's. -/
theorem wit_sq_doorbell :
    let d (ctx v : Nat) : Instr := .mrcSqDoorbell ⟨.hub, 0, 0, ctx, BitVec.ofNat 64 v⟩
    let s := fab [at_ .hub .mrcSqCfg 0 (2 ^ 12)]
    s.gate .hub .mrcSqDoorbell 0 0 = .ok ∧ s.sqSize 0 = 64 ∧ (after (d 0 64) s).sqTail 0 = 64 ∧ (after (d 0 64) s).sqSt 0 = 1 ∧
    (after (d 0 65) s).last.status = .busy ∧ (after (d 0 (2 ^ 31)) s).last.status = .perm ∧ (after (d 7 1) s).last.status = .perm ∧
    (after (d 0 1) (s.setSqSt 0 4)).last.status = .perm := by decide +kernel
/-- A tail word that is taken, one too far, and one that cannot be read. -/
theorem wit_sq_tail_poll :
    let s (t : Nat) : State := { fab [at_ .hub .mrcSqCfg 0 (2 ^ 12 + 2 ^ 49), at_ .hub .mrcSqTailaddr 0 0] with mem := cells 0 8 t }
    (after (.sqTailPoll 0) (s 64)).sqTail 0 = 64 ∧ (after (.sqTailPoll 0) (s 65)).sqTail 0 = 0 ∧
    (after (.sqTailPoll 0) { s 1 with poison := [0] }).sqSt 0 = 3 := by decide +kernel
/-- A queue enabled with the version of the part and with another; disabled when idle and when not. -/
theorem wit_sq_enable :
    let e (v : Nat) : Wr := ⟨.hub, 0, 0, 0, BitVec.ofNat 64 v⟩
    let on := fab [at_ .hub .mrcSqCfg 0 (2 ^ 12)]
    (fab []).gate .hub .mrcSqCfg 0 0 = .ok ∧ versionOk ((fab []).reg .hub .mrcIfVersion 0) 0x100 = true ∧
    (after (.sqEnable (e (2 ^ 12 + 0x100 * 2 ^ 32))) (fab [])).rf .hub .mrcSqCfg 0 12 12 = 1 ∧
    (after (.sqEnable (e (2 ^ 12 + 0x200 * 2 ^ 32))) (fab [])).last.status = .busy ∧
    (after (.sqDisable (e 0)) on).sqSt 0 = 4 ∧ (after (.sqDisable (e 0)) (on.setSqSt 0 1)).last.status = .busy := by decide +kernel
/-- Each operation starts from the front of its queue and sends what it sends; a FENCE waits for operations of the queue; words that
cannot be read stop it. -/
theorem wit_sq_rows :
    (let s := after (.mrcPut 0) (sqRun (mdesc 1 8 0)); s.sqHead 0 = 1 ∧ sent s = [[0, 1, 0, 2]]) ∧
    sent (after (.mrcGet 0) (sqRun (mdesc 2 8 0))) = [[0, 2, 0, 2]] ∧ sent (after (.mrcAtomic 0) (sqRun (mdesc 3 8 0))) = [[0, 4, 0, 2]] ∧
    sent (after (.mrcRput 0) (sqRun (mdesc 4 8 0))) = [[0, 6, 0, 2]] ∧
    ((after (.coll 0) (sqRun (mdesc 5 0 (2 * 2 ^ 336)))).mops.map fun o => o.entries) = [[0, 1]] ∧
    ((after (.waitin 0) (sqRun (mdesc 6 0 0))).mops.map fun o => o.isOver) = [false] ∧
    (let s : State := { sqRun (mdesc 1 8 (2 ^ 40)) with mops := [opAt (fab []) 0 (mdesc 6 0 0) 0 0 none] }
     (after (.mrcPut 0) s).sqHead 0 = 0) ∧
    (after (.mrcPut 0) { sqRun (mdesc 1 8 0) with poison := [0] }).sqSt 0 = 3 := by decide +kernel
/-- How operations begin: without FL, ill formed, without a route, of no bytes, with words that cannot be read. -/
theorem wit_mrc_begin :
    let st (s : State) (d : Nat) : Option (List (Bool × Status)) := (okOf (s.mrcBegin 0 d 0 0 none)).map fun t => t.mops.map fun o => (o.isOver, o.st)
    st ((fab []).setReg .hub .licStatus 0 0) (mdesc 1 8 0) = some [(true, .unav)] ∧ st (fab []) (mdesc 7 8 0) = some [(true, .perm)] ∧
    st { fab [] with tables := State.reset.tables } (mdesc 1 8 0) = some [(true, .unav)] ∧ st (fab []) (mdesc 1 0 0) = some [(true, .ok)] ∧
    st { fab [] with poison := [0] } (mdesc 1 8 0) = some [(true, .pois)] ∧ st (fab []) (mdesc 3 8 0) = some [(false, .ok)] ∧
    st (fab []) (mdesc 2 8 0) = some [(false, .ok)] ∧ st (fab []) (mdesc 6 0 0) = some [(false, .ok)] := by decide +kernel
def mopS (o : MrcOp) : State := { fab [at_ .hub .mrcSqCfg 0 (2 ^ 12)] with mops := [o] }
def mop (d : Nat) : MrcOp := opAt (fab []) 0 d 0 0 none
/-- Operations that are over, that wait for a word, and schedules with entries left and without. -/
theorem wit_mrc_complete :
    let go (s : State) := (after (.mrcOpComplete 0) s).mops.map fun o => (o.id, o.isOver)
    go (mopS { mop (mdesc 1 8 0) with isOver := true }) = [] ∧ go (mopS (mop (mdesc 6 0 0))) = [] ∧
    go (mopS (mop (mdesc 6 0 (2 ^ 320)))) = [(0, false)] ∧ go { mopS (mop (mdesc 6 0 0)) with poison := [0] } = [] ∧
    go (mopS (mop (mdesc 5 0 0))) = [] ∧ go (mopS (mop (mdesc 1 8 0))) = [(0, false)] ∧
    (let s : State := { mopS { mop (mdesc 5 0 0) with entries := [0] } with mrcNext := 1, tables := { (fab []).tables with collTab := [(0, mdesc 1 8 0)] } }
     go s = [(0, false), (1, false)] ∧ go (after (.mrcOpComplete 0) s) = [(0, false), (1, false)]) := by decide +kernel

/-- A packet from station 2 to port 0 for context 5, operation 0, unit 0. -/
def pkt (vl addr data : Nat) : Pkt := ⟨0, vl, 2, 5, 0, 0, 0, true, 0, .ok, 1, addr, 8, data, 0, 1⟩
/-- Each kind of packet arrives, on its lane; another major, and another lane, is dropped and counted; a port that is down takes nothing. -/
theorem wit_packets :
    let s := fab []
    s.mrcUp 0 = true ∧ s.rf .hub .mrcPortStatus 0 15 8 = 1 ∧ (pkt 0 0x40 7).onReq = true ∧ (pkt 5 0x40 7).onRsp = true ∧
    ((after (.putData (pkt 0 0x40 7)) s).rxUnits.map fun u => (u.whole, u.st)) = [(true, .ok)] ∧
    ((after (.rputData { pkt 4 0x40 7 with src := 3 }) s).rxUnits.map fun u => u.st) = [.perm] ∧
    sent (after (.getReq (pkt 0 0x40 8)) s) = [[0, 3, 1, 2]] ∧ sent (after (.getReq { pkt 0 0x40 8 with ctx := 0 }) s) = [[0, 3, 1, 2]] ∧
    sent (after (.atomic (pkt 0 0x40 8)) s) = [[0, 5, 1, 2]] ∧ (after (.atomic (pkt 0 0x40 8)) s).rdKey 0x40 = 8 ∧
    sent (after (.atomic { pkt 0 0x40 8 with arg := 6 }) s) = [[0, 5, 1, 2]] ∧
    (after (.live { pkt 6 0 0 with vmaj := 2 }) s).mrcDrops = [(0, 1)] ∧ (after (.live (pkt 0 0 0)) s).mrcDrops = [(0, 1)] ∧
    ((after (.live (pkt 6 0 0)) s).peers.map fun e => e.1) = [2] ∧ (after (.live { pkt 6 0 0 with port := 1 }) s).peers = [] ∧
    ((after (.mgmt (pkt 7 0 9)) s).out.map fun e => e.args) = [[2, 2, 8, 9]] ∧ ((after (.slack (pkt 6 0 9)) s).out.map fun e => e.args) = [[2, 5, 8, 9]] ∧
    ((after (.mgmt (pkt 7 0 9)) s).vl7 = [2]) ∧ (after (.slack { pkt 6 0 9 with ctx := 0 }) s).out = [] := by
  decide +kernel
/-- Answers to open operations, and to none: data of a GET and a refusal of it, an acknowledgement, the old value of an atomic. -/
theorem wit_packet_answers :
    let o (d : Nat) : MrcOp := { mop d with units := [0] }
    let ended (i : Instr) (d : Nat) := (after i (mopS (o d))).mops.map fun x => (x.isOver, x.st)
    ((mopS (o (mdesc 2 8 0))).openOp (pkt 1 0 7) [2]).isSome = true ∧ (fab []).openOp (pkt 1 0 7) [2] = none ∧
    ((after (.getData (pkt 1 0 7)) (mopS (o (mdesc 2 8 0)))).rxUnits.map fun u => u.kind) = [3] ∧
    ended (.getData { pkt 1 0 7 with st := .perm }) (mdesc 2 8 0) = [(true, .perm)] ∧ ended (.mrcAck (pkt 1 0 0)) (mdesc 1 8 0) = [(true, .ok)] ∧
    ended (.atomicRsp (pkt 1 0 7)) (mdesc 3 8 0) = [(true, .ok)] ∧ (after (.atomicRsp (pkt 1 0 7)) (mopS (o (mdesc 3 8 0)))).rdKey 0 = 7 ∧
    ended (.atomicRsp { pkt 1 0 7 with st := .pois }) (mdesc 3 8 0) = [(true, .pois)] := by decide +kernel
/-- A whole unit: of a PUT without an arrival word, with one that is not the last and the last, and of a GET. -/
def rxu (kind arrive units : Nat) : RxUnit := ⟨0, 2, 0, 0, kind, 5, 3, 0, 0, 0x40, 0, 8, 1, true, .ok, arrive, units, none, false⟩
theorem wit_unit_committed :
    let go (u : RxUnit) := after (.unitCommitted 2 0 0) { fab [] with rxUnits := [u], mem := cells 0 1 7 }
    (go (rxu 1 0 1)).rdKey 0x40 = 7 ∧ sent (go (rxu 1 0 1)) = [[0, 7, 1, 2]] ∧ (go (rxu 1 0x80 2)).rxOps = [⟨2, 0, 0, 5, 1, false⟩] ∧
    (go (rxu 1 0x80 1)).rdKey 0x80 = 1 ∧ (go { rxu 6 0 1 with arg := 2 }).rdKey 0x40 = 7 ∧ sent (go { rxu 1 0x80 1 with st := .perm }) = [[0, 7, 1, 2]] ∧
    ((after (.unitCommitted 2 0 0) { mopS { mop (mdesc 2 8 0) with units := [0] } with rxUnits := [{ rxu 3 0 1 with ctx := 0, pl := 0 }] }).mops.map
      fun o => (o.isOver, o.committed)) = [(true, 8)] := by decide +kernel
/-- A peer of an open operation to which nothing was sent for 1,000 counts, and one from which nothing came for PLTO. -/
theorem wit_peers :
    let s : State := { mopS { mop (mdesc 1 8 0) with units := [0] } with now := 1000, peers := [(2, (0, 0, 0))] }
    s.openOnes 2 ≠ [] ∧ s.opsWith 2 ≠ [] ∧ sent (after (.liveSend 2) s) = [[0, 8, 6, 2]] ∧
    ((after (.peerLost 2) s).mops.map fun o => (o.isOver, o.st)) = [(true, .peer)] ∧ ((after (.peerLost 2) s).reg .hub .mrcPeerLog 0).getLsbD 63 = true := by
  decide +kernel
/-- Snapshots: no licence, no handle, no such slot, a busy fabric, an area that is not memory, and one dropped. -/
theorem wit_snapshots :
    let c (op : Nat) : Wr := ⟨.hub, 0, 0, 0, BitVec.ofNat 64 (op * 2 ^ 52)⟩
    let s : State := { fab [at_ .hub .mrcSnapHandle 0 9, at_ .hub .mrcSnapArea 0 (2 ^ 50)] with snapH := [(3, 9)] }
    let st (t : State) := t.rf .hub .mrcSnapCmd 0 59 56
    (s.ctlStore .hub .mrcSnapCmd 0 0 0 (c 1).val).1 = .ok ∧ saveSlot s 9 = some 3 ∧ saveSlot s 8 = some 0 ∧
    st (after (.snapSave (c 1)) s) = Status.perm.code ∧ st (after (.snapRestore (c 2)) s) = Status.perm.code ∧
    st (after (.snapRestore (c 2)) { s with mops := [mop 0] }) = Status.busy.code ∧ (after (.snapDrop (c 3)) s).snapH = [] ∧
    st (after (.snapDrop (c 3)) { s with snapH := [] }) = Status.unav.code ∧ st (after (.snapDrop (c 3)) (s.setReg .hub .mrcSnapHandle 0 0)) = Status.perm.code ∧
    st (after (.snapDrop (c 3)) (s.setReg .hub .licStatus 0 0)) = Status.unav.code := by decide +kernel
/-- A management message in N0 and in N4. -/
theorem wit_mctp :
    ((after (.mctpMessage 0 0 9) (fab [])).out.map fun e => e.args) = [[0, 0, 9, 0]] ∧
    ((after (.mctpMessage 2 1 9) { fab [] with vl7 := [2] }).out.map fun e => e.args) = [[2, 1, 9, 1]] ∧ (after (.mctpMessage 2 1 9) { fab [] with vl7 := [2] }).vl7 = [] ∧
    (after (.mctpMessage 0 0 9) ((fab []).setRf .hub .pwrStateStatus 0 31 24 0x44)).wakeDue = some (4, 0) ∧
    (after (.mctpMessage 0 0x7E 0) (fab [])).out.length = 1 ∧
    (let s : State := { fab [] with hdrs := [(0, none), (1, none)] }
     pldmData 0x150500 = true ∧ s.fwRuns = true ∧ (after (.mctpMessage 1 1 0x150500) s).hdrs = [(0, none)] ∧
     (after (.mctpMessage 1 1 0x150500) s).pldm = [(1, 0)]) := by decide +kernel


/-! ### Power, heat and energy (Chapter 14) -/

/-- With the least limit, every die asking for its ceiling: CD0 gets its floor, 60 W, and of what it asks for above that the 314/1664 that
the floors and the hub leave (R391); nobody asks for anything. -/
theorem wit_allocations :
    let l : List (Nat × Nat) := List.replicate 15 (90000, 400000)
    (shareOf 800000 l 3).1 * 1664 = (60000 * 1664 + 240000 * 314) * (shareOf 800000 l 3).2 ∧ shareOf 800000 [] 3 = (0, 1) := by decide +kernel

def hubWr (pl ctx v : Nat) : Wr := ⟨.hub, 0, pl, ctx, BitVec.ofNat 64 v⟩
def pw (st target : Nat) : State := (up []).setRf .hub .pwrStateStatus 0 31 24 (16 * st + target)
/-- Limits at their bounds and between; a sample and the steps to it. -/
theorem wit_limits :
    (up []).gate .hub .pwrLimit 0 0 = .ok ∧ (after (.targetWrite (hubWr 0 0 (20 + 255 * 2 ^ 8))) (up [])).rf .hub .pwrLimit 0 15 0 = 32 + 80 * 2 ^ 8 ∧
    (after (.targetWrite (hubWr 1 1 50)) (up [])).last.status = .ok ∧
    (let s := after .limitSample (up [at_ .hub .pwrLimit 0 (40 + 50 * 2 ^ 8 + 60 * 2 ^ 16)])
     s.limSample = 40 ∧ (after .limitRampStep s).limitNow = 59 ∧ (after .limitRampStep { s with limSample := 61 }).limitNow = 61 ∧
     (after .limitRampStep { s with limSample := 60 }).limitNow = 60) := by decide +kernel
/-- A sample within the limit and above it; droops, the limit on excursions, junctions at 100 °C, 99 °C and below, and a trip. -/
theorem wit_power_sample :
    let s := up [at_ .hub .pwrLimit 0 (40 * 2 ^ 16)]
    (after (.powerSample [(1000000, 5), (1, 5)] []) s).rf .hub .pwrStatus 0 35 35 = 1 ∧
    (after (.powerSample [(1000000, 5)] []) s).rf .hub .pwrStatus 0 35 35 = 0 ∧
    (after (.droop 1) s).dutyOf 1 = 128 ∧ (after (.droopRelease 14) (after (.droop 14) s)).dutyOf 14 = 256 ∧
    (after .packageOvercurrent s).rf .hub .pwrDroopCnt 0 31 0 = 14 ∧
    (after .excursionLimit (s.setRf .hub .pwrStatus 0 10 0 1900)).excurCut = true ∧ (after .excursionLimit (s.setRf .hub .pwrStatus 0 10 0 1899)).excurCut = false ∧
    (after (.thermalSample 1 100) s).hotHold = [1] ∧ (after (.thermalSample 1 99) { s with hotHold := [1] }).hotHold = [1] ∧
    (after (.thermalSample 1 98) { s with hotHold := [1] }).hotHold = [] ∧ (after (.thermalSample 0 100) s).hotHold = [] ∧
    (after (.thermalTrip 14 110) s).raised.length = 1 ∧ (after (.thermalTrip 14 109) s).raised.length = 0 := by decide +kernel
/-- A SLACK report when its period has passed, and a snapshot of the counters. -/
theorem wit_slack_and_snap :
    (let s : State := { up [at_ .hub .mrcCfg 0 (2 ^ 48), at_ .hub .mrcPortStatus 0 (2 ^ 31 + 2 ^ 8), at_ .hub .pwrFanCfg 0 (2 ^ 63 + 2 * 2 ^ 32 + 2 ^ 8)] with
       tables := { State.reset.tables with epMap := [(2, 0x3001)] }, now := 100000 }
     s.fanOn = true ∧ s.route 2 = some 0 ∧ (after .slackReport s).fan.seq = 1) ∧
    (after (.pwrSnapTake (hubWr 0 0 (2 ^ 63))) (up [])).last = ⟨.ok, 0⟩ ∧ ((after (.pwrSnapTake (hubWr 0 0 (2 ^ 63))) (up [])).pwrSnaps.map fun e => e.1) = [0] := by
  decide +kernel
/-- Requests: with too little tolerance, during another, and taken; a tolerance that wakes and one that does not. -/
theorem wit_power_requests :
    let r (pl t lat : Nat) := hubWr pl pl (t * 16 + lat * 2 ^ 32)
    (up []).gate .hub .pwrStateCtrl 0 0 = .ok ∧ (up []).gate .hub .pwrStateCtrl 1 1 = .ok ∧
    (after (.requestN3 (r 1 3 19999)) (up [])).last.status = .perm ∧ (after (.requestN3 (r 1 3 20000)) (up [])).pwrTry = some ⟨3, false, [], [], 0⟩ ∧
    (after (.requestN4 (r 0 4 0)) (up [])).pwrTry = some ⟨4, false, [], [], 0⟩ ∧ (after (.requestN4 (r 0 4 0)) (pw 4 4)).last.status = .busy ∧
    (after (.lattolWrite (hubWr 0 0 (149 * 2 ^ 32))) ((pw 2 2).setRf .hub .pwrStateCtrl 0 63 32 200)).wakeDue = some (5, 0) ∧
    (after (.lattolWrite (hubWr 0 0 (150 * 2 ^ 32))) ((pw 2 2).setRf .hub .pwrStateCtrl 0 63 32 200)).wakeDue = none := by decide +kernel
/-- A write of a tile register in N1 waits for the exit (R403). -/
theorem wit_held_write : ((pw 1 1).gate (.cd 0) .dmaCtx 0 0 = .held) ∧
    (after (.registerWrite ⟨.cd 0, 0xB1008, 8, 0, 0, 5⟩) (pw 1 1)).held.length = 1 := by decide +kernel
/-- Idle periods that end at tolerances about 2 and 150 µs. -/
theorem wit_idlehold :
    let s (lat : Nat) := up [at_ .hub .pwrStateCtrl 0 (2 + lat * 2 ^ 32)]
    let t (lat : Nat) := (after .idleholdExpire (s lat)).pwrTry.map fun t => t.target
    (s 0).inN0 = true ∧ t 1 = none ∧ t 2 = some 1 ∧ t 149 = some 1 ∧ t 150 = some 2 := by decide +kernel
/-- Answers that accept, refuse, defer and complete a handshake; a round of deferrals, their limit, and an answer that is missing. -/
theorem wit_handshake :
    let t1 : PwrTry := ⟨1, true, [], [], 0⟩
    let t3 : PwrTry := { t1 with target := 3, auto := false }
    let all := (up []).hsBlocks
    let but (b : Nat × Nat) := all.filter fun x => decide (x ≠ b)
    let with_ (t : PwrTry) : State := { up [] with pwrTry := some t }
    (3, 2) ∈ all ∧ (after (.handshakeAnswer 3 2 true 7) (with_ t1)).pwrTry = some { t1 with accepted := [(3, 2)] } ∧
    (after (.handshakeAnswer 3 2 true 7) (with_ { t1 with accepted := but (3, 2) })).pwrTarget = 1 ∧
    (after (.handshakeAnswer 3 1 true 7) { with_ t1 with tiles := [(t0, tB)] }).pwrTry = none ∧
    (let d : PwrTry := { t3 with deferring := [((0, 11), 7)] }
     (after (.handshakeAnswer 0 11 false 7) (with_ t3)).pwrTry = some d ∧ (after .handshakeTimeout (with_ d)).pwrTry = none ∧
     (with_ d).hsMissing d ≠ none ∧ (after .handshakeDeferExpire (with_ { d with accepted := but (0, 11) })).pwrTry = some { t3 with spent := 7 } ∧
     (after .handshakeTimeout (with_ { d with accepted := but (0, 11), spent := 9993 })).pwrTry = none ∧
     (after .handshakeTimeout (with_ { d with accepted := but (0, 11), spent := 9992 })).pwrTry ≠ none) := by decide +kernel
/-- The same with compute and host dies that have failed. -/
def far (st target : Nat) : State := farDies.foldl (fun x d => x.setDom d false 4) (pw st target)
/-- States entered, woken from and left, each of N1 to N4; N4 waits for the rails. -/
theorem wit_power_states :
    let entered (t : Nat) := (after .powerStateEntered (pw 0 t)).pwrState
    entered 1 = 1 ∧ entered 4 = 4 ∧ (pw 0 2).enterN2.isSome = true ∧ entered 2 = 2 ∧ (far 0 3).enterN3.isSome = true ∧ (after .powerStateEntered (far 0 3)).pwrState = 3 ∧
    (let s := after .wake { pw 1 1 with wakeDue := some (2, 9) }
     s.pwrTarget = 0 ∧ (s.reg .hub .pwrWakeRec 0).getLsbD 63 = true) ∧
    (after .powerStateExited (pw 1 0)).pwrState = 0 ∧ (after .powerStateExited (pw 2 0)).pwrState = 0 ∧ (after .powerStateExited (far 3 0)).pwrState = 0 ∧
    (after .powerStateExited (pw 4 0)).pwrState = 0 ∧ (pw 4 0).boot = 9 ∧
    (let s : State := after .powerStateEntered { pw 0 4 with rails := [3, 8] }
     s.pwrState = 0 ∧ s.hubEn = true ∧ s.rdown ≠ [] ∧ (after .powerStateEntered s).pwrState = 0) := by decide +kernel
/-- The clock; a rail and a PLL awaited, in time and not. -/
theorem wit_rails :
    let p (todo : List Nat) : State := { up [] with pups := [⟨.cd 0, false, todo, false⟩] }
    ((after .rtcTick (up [])).reg .hub .pwrRtcCount 0).toNat = 1 ∧ (up []).xtal = false ∧ (after .rtcTick (up [])).xtal = true ∧
    ((after .rtcTick { up [] with aonUp := false }).reg .hub .pwrRtcCount 0).toNat = 0 ∧
    ((after .rtcTick { up [] with xtal := true }).reg .hub .pwrRtcCount 0).toNat = 1 ∧
    (p [33, 100]).pupAt 33 = some ⟨.cd 0, false, [33, 100], false⟩ ∧ (after (.railPg 33) (p [33, 100])).rails = (p []).rails ++ [33] ∧
    ((after (.railPgTimeout 33) (p [33, 100])).pups.map fun u => u.again) = [true] ∧
    (p [100]).pllAt (.cd 0) = some ⟨.cd 0, false, [100], false⟩ ∧ ((after (.pllLockTimeout (.cd 0)) (p [100])).pups.map fun u => u.again) = [true] ∧
    ((after (.pllLockAcquired (.cd 0)) (p [100, 33])).pups.map fun u => u.todo) = [[33]] := by decide +kernel


/-! ### Faults, links, resets and losing a die (Chapters 01, 15) -/

def rep (src info : Nat) (forced : Bool) : Report := ⟨.cd 0, src, BitVec.ofNat 32 info, forced⟩
/-- A record taken and one kept, of a die and of the package. -/
theorem wit_first_fault :
    let s : State := { up [] with now := 9 }
    let t := s.latch (rep 0x31 5 true)
    (s.reg (.cd 0) .fltFirst 0).getLsbD 63 = false ∧ (t.reg (.cd 0) .fltFirst 0).toNat = 2 ^ 63 + 2 ^ 61 + 0x31 ∧
    (t.reg (.cd 0) .fltFirstTime 0).toNat = 9 ∧ ((t.latch (rep 0x24 6 false)).reg (.cd 0) .fltFirst 0).toNat = 2 ^ 63 + 2 ^ 62 + 2 ^ 61 + 2 ^ 32 + 0x31 ∧
    (s.reg .hub .fltPkgFirst 0).getLsbD 63 = false ∧ ((s.latchPkg (rep 0x31 5 false) 7).reg .hub .fltPkgFirst 0).toNat = 2 ^ 63 + 3 * 2 ^ 57 + 0x31 * 2 ^ 49 + 5 ∧
    (((s.latchPkg (rep 0x31 5 false) 7).latchPkg (rep 0x24 6 false) 8).reg .hub .fltPkgTime 0).toNat = 7 := by decide +kernel
/-- Reports of a die, the lower source first; their way to the hub; records cleared; sources forced. -/
theorem wit_reports :
    (let s : State := { up [] with raised := [rep 0x31 5 false, rep 0x24 6 false] }
     let t := after (.faultReport (.cd 0) 2) s
     s.collects (.cd 0) = true ∧ t.rf (.cd 0) .fltFirst 0 7 0 = 0x24 ∧ t.raised = [] ∧ t.forwards.length = 2 ∧
     (after (.faultForward 1) t).rf .hub .fltPkgFirst 0 56 49 = 0x24 ∧ (after (.faultForward 1) t).forwards.length = 1) ∧
    (let c (d : Die) (v : Nat) : Wr := ⟨d, 0, 0, 0, BitVec.ofNat 64 v⟩
     let s := up [at_ (.cd 0) .fltFirst 0 (2 ^ 63), at_ .hub .fltFirst 0 (2 ^ 63), at_ .hub .fltPkgFirst 0 (2 ^ 63)]
     s.gate (.cd 0) .fltCtrl 0 0 = .ok ∧ ((after (.faultClear (c (.cd 0) 1)) s).reg (.cd 0) .fltFirst 0).toNat = 0 ∧
     ((after (.pkgclear (c .hub 2)) s).reg .hub .fltPkgFirst 0).toNat = 0 ∧ ((after (.pkgclear (c .hub 2)) s).reg .hub .fltFirst 0).toNat = 2 ^ 63 ∧
     (after (.faultForce (c (.cd 0) 3)) s).raised.length = 1) := by decide +kernel
/-- An uncorrectable error of each storage: reported with its source. -/
theorem wit_ondie :
    let go (x : OnDie) := (after (.ondieUncorrectable x) (up [])).raised.map fun r => r.src
    go (.tile t0 0) = [0x40] ∧ go (.l2data 0 0 0 0) = [0x50] ∧ go (.l2tag 31 0 0) = [0x5F] ∧ go (.burr ⟨0, 0⟩) = [0x35] ∧ go (.sampler ⟨0, 3⟩) = [0x36] ∧
    go (.dma (.cd 0) 0) = [] ∧ go (.cp 0) = [0x33] ∧ go (.l3 0 0) = [0x21] ∧ go (.core 1 47) = [0x20] ∧ go (.mgmt 0) = [0x09] ∧
    (after (.ondieUncorrectable (.dma .hub 0)) (after (.ondieUncorrectable (.dma .hub 0)) (up []))).dmaDead = [(.hub, 0)] := by decide +kernel
/-- ALIVE_OUT toggles and restarts, the watchdog is enabled, kicked and expires. -/
theorem wit_alive :
    let on := up [at_ .hub .fltAlive 0 (2 ^ 31), at_ .hub .fltWdt 0 (2 ^ 31 + 1)]
    (after .aliveToggle on).rf .hub .fltAlive 0 30 30 = 1 ∧ (after .aliveToggle (up [])).rf .hub .fltAlive 0 30 30 = 0 ∧
    (up []).gate .hub .fltAlive 0 0 = .ok ∧ (after (.aliveRestart (hubWr 0 0 1)) { up [] with wdtRuns := true }).rf .hub .fltAlive 0 31 31 = 1 ∧
    (after (.aliveRestart (hubWr 0 0 1)) (up [])).rf .hub .fltAlive 0 31 31 = 0 ∧
    (after (.wdtEnable (hubWr 0 0 (2 ^ 31 + 5))) { up [] with now := 3 }).kicked = 3 ∧ (after (.wdtKick (hubWr 0 0 (2 ^ 31 + 2 ^ 30 + 1))) on).wdtRuns = true ∧
    (let s := after .wdtExpire { on with now := 100000 }
     s.rf .hub .fltWdt 0 29 29 = 1 ∧ s.rf .hub .fltAlive 0 31 28 = 2) ∧ (after .wdtExpire { on with now := 99999 }).rf .hub .fltWdt 0 29 29 = 0 := by
  decide +kernel
/-- Tiles retired, clocks and rails lost, a PCIe link down. -/
theorem wit_clocks_and_rails :
    (up []).gate (.cd 0) .fltTileRetire 0 0 = .ok ∧ (after (.tileRetire ⟨.cd 0, 0, 0, 0, 1⟩) (up [])).tileRetired 0 0 = true ∧
    (after (.pllLock (.cd 0)) (up [])).raised.length = 1 ∧ (after (.pllLock (.cd 0)) (up [])).unlocked = [.cd 0] ∧ (after (.pllLock .hub) (up [])).raised.length = 1 ∧ (after .refLoss (up [])).raised.length = 1 ∧
    (after (.railPgFall 10) { up [] with rails := [10] }).deadStacks = [0] ∧ (after (.railPgFall 8) { up [] with rails := [8] }).dom (.hd 0) false = 1 ∧
    (after (.pcieLinkDown 3 ⟨0, true⟩) (up [at_ .hub .hubPcieCfg 3 (2 ^ 19)])).rf .hub .hubPcieCfg 3 19 19 = 0 ∧
    (let s := after (.pcieLinkDown 3 ⟨5, false⟩) (up [at_ .hub .hubPcieCfg 3 (2 ^ 19)]); s.rf .hub .hubPcieCfg 3 19 19 = 1 ∧ s.raised.length = 1) ∧
    (let s : State := (({ up [] with rails := [8, 10] } : State).setDom (.hd 0) false 0).setDom (.cd 0) false 0
     (after (.railPgFall 8) s).raised = [] ∧ (after (.railPgFall 10) s).rails = [8]) ∧
    (let s : State := { up [] with rails := [12], rdown := [([11, 12], 0)] }
     (after (.railPgFall 11) s).rails = [] ∧ (after (.railPgFall 11) s).rdown = [([12], 0)] ∧ (after (.railPgFall 11) s).raised = []) := by decide +kernel
/-- Replays on a lane up to the 64th within 10 ms; a retrain that fails, and ones after which modules are left and are not. -/
theorem wit_links :
    let v3 : List (Nat × Nat) := [(2, 3)]
    (let s (n : Nat) := (up []).setLmod 4 0 ⟨[], [], [], List.replicate n (67, 0), false⟩
     ((after (.linkCrcError 4 0 67) (s 62)).lmod 4 0).due = [] ∧ ((after (.linkCrcError 4 0 67) (s 63)).lmod 4 0).due = [67]) ∧
    (after (.linkRetrain 4 0 [] .fails) (up [])).linkUp 4 = false ∧ fld ((after (.linkRetrain 4 0 [3] (.ends [(2, 5)] v3)) (up [])).linkReg 4) 15 0 = 0x203 ∧
    (up []).linkAgree 4 [] [(1, 7)] = none ∧ (after (.linkRetrain 4 0 [3] (.ends [] [(1, 7)])) (up [])).linkUp 4 = false ∧
    (let s := [1, 2, 3].foldl (fun x m => x.setLmod 4 m ⟨[], [], [], [], true⟩) ((up []).setLmod 4 0 ⟨[(0, some 64), (1, some 65), (2, some 66), (3, some 67)], [5], [], [], false⟩)
     s.linkLive 4 = [0] ∧ (after (.linkRetrain 4 0 [5] (.ends [] v3)) s).linkLive 4 = [] ∧ (after (.linkRetrain 4 0 [5] (.ends [] v3)) s).linkUp 4 = false) ∧
    agree [(1, 2), (2, 5)] [(2, 3), (3, 0)] = some (2, 3) ∧
    (let s := (up []).setLink 4 (setFld ((up []).linkReg 4) 31 31 0)
     s.linkLive 4 ≠ [] ∧ (after (.linkTraining 4 [(2, 5)] v3) s).linkUp 4 = true ∧ fld ((after (.linkTraining 4 [(2, 5)] v3) s).linkReg 4) 15 0 = 0x203 ∧
     (after (.linkTraining 4 [] [(1, 7)]) s).raised.length = 2 ∧ (after (.linkTraining 4 [] [(1, 7)]) s).linkUp 4 = false ∧ s.linkLive 8 ≠ [] ∧
     (Die.cd 0, 32) ∈ aligns 4 ∧ (Die.hd 0, 30) ∈ aligns 8) ∧
    (after (.linkFence 11) (up [])).linkUp 11 = false := by decide +kernel
/-- Symbol errors of a Millrace lane up to 2^20 within a second and past them; a retrain that takes such a lane out, and one that fails lanes. -/
theorem wit_millrace_lanes :
    let s := up [at_ .hub .mrcPortStatus 0 (2 ^ 31)]
    let m (f u h : List Nat) (e : AMap Nat (List (W64 × Nat))) : State := { s with mrcLanes := [(0, ⟨f, u, e, h⟩)], now := 100000001 }
    s.mrcUp 0 = true ∧ (after (.millraceBadCrc 0 7 5) s).mlanes 0 = ⟨[], [], [(7, [(0, 5)])], []⟩ ∧
    (after (.millraceBadCrc 0 7 1) (m [] [] [] [(7, [(2, 2 ^ 20)])])).mlanes 0 = ⟨[], [], [(7, [(2, 2 ^ 20), (100000001, 1)])], [7]⟩ ∧
    (after (.millraceBadCrc 0 7 1) (m [] [] [] [(7, [(1, 2 ^ 20)])])).mlanes 0 = ⟨[], [], [(7, [(100000001, 1)])], []⟩ ∧
    (after (.mrcPortRetrain 0 ⟨[1], [(1, 0)]⟩) (m [] [1] [7] [(6, [(1, 2 ^ 20)])])).mlanes 0 = ⟨[1, 7], [1], [], []⟩ ∧
    (after (.mrcPortRetrain 0 ⟨[], [(1, 0)]⟩) s).mrcUp 0 = true ∧ (after (.mrcPortRetrain 0 ⟨[], [(2, 0)]⟩) s).mrcUp 0 = false ∧
    (after (.mrcPortRetrain 0 ⟨[1, 7], [(1, 0)]⟩) (m [0, 4] [1, 7] [] [])).mrcUp 0 = false := by
  decide +kernel
/-- Resets asked for: the package by PL0 and by PL1, a tile, a partition, the hub; a drain that is quiet and one that times out; scopes
that are done. -/
theorem wit_resets :
    let w (pl scope die unit : Nat) : Wr := ⟨.hub, 0, pl, pl, BitVec.ofNat 64 (scope * 2 ^ 48 + die * 2 ^ 44 + unit * 2 ^ 35 + 1)⟩
    let go (x : Wr) := after (.resetRequest x) (up [])
    (up []).gate .hub .fltResetReq 0 0 = .ok ∧ (go (w 0 4 0 0)).resetDue = true ∧
    (go (w 1 4 0 0)).last.status = .perm ∧ (go (w 0 0 7 0)).last.status = .perm ∧ (go (w 0 0 15 0)).last.status = .perm ∧ (go (w 0 5 3 0)).last.status = .perm ∧
    (go (w 0 0 3 12)).last.status = .perm ∧ (after (.resetRequest (w 0 3 3 0)) ((up []).setRf .hub .memRetireCtrl 0 28 26 1)).last.status = .busy ∧
    (go (w 0 0 1 47)).resets.length = 1 ∧ (go (w 0 3 2 0)).resets.length = 1 ∧ (go (w 0 0 1 48)).last.status = .perm ∧ (go (w 0 1 1 0)).last.status = .perm ∧ (up []).gate .hub .fltResetReq 1 1 = .ok ∧ (go (w 0 3 0 0)).last.status = .perm ∧
    (go (w 0 0 3 11)).resets = [⟨0, .cd 0, 0, 11, true, false, true, []⟩] ∧ (go (w 0 2 6 0)).resets.length = 1 ∧
    ((after (.weirDrainDone 0) (go (w 0 0 3 11))).resets.map fun r => (r.draining, r.clean)) = [(false, true)] ∧
    ((after (.weirDrainTimeout 0) (go (w 0 0 3 11))).resets.map fun r => (r.draining, r.clean)) = [(false, false)] ∧
    (let s := after (.weirDrainDone 0) (go (w 0 0 3 11))
     (after (.scopeResetDone 0 ⟨[(0, 11)], []⟩) s).resets = [] ∧ (after (.scopeResetDone 0 ⟨[(0, 11)], []⟩) s).tileRetired 0 11 = true) := by decide +kernel
/-- A host die lost and back; the hub lost; a compute die, with no stack that can come back, that joins again; memory filled after a loss. -/
theorem wit_die_loss :
    let cut (l : List Nat) (s : State) := l.foldl (fun x k => x.setLink k (setFld (setFld (x.linkReg k) 31 31 0) 30 30 1)) s
    let r (d : Die) : RstOp := ⟨3, d, 0, 0, false, false, false, []⟩
    (after (.dieLost (.hd 0)) (up [])).resets = [] ∧ (after (.dieLost (.hd 0)) (cut [8, 9] (up []))).resets = [r (.hd 0)] ∧
    (after (.dieLost .hub) (cut [4, 5, 6, 7] (up []))).resetDue = true ∧
    (after (.dieRejoin (.hd 0)) { up [] with resets := [r (.hd 0)] }).resets = [] ∧
    (after (.dieRejoin (.cd 0)) { up [] with resets := [r (.cd 0)], deadStacks := [0, 1] }).resets = [] ∧
    (after (.poisonFillDone (.cd 0)) { up [] with lostMem := [0], pchKeep := [(5, 3)] }).poisonBase = [5] := by decide +kernel


/-! ### Bring-up, licences, firmware and the mailbox (Chapter 16) -/

/-- The part at a step of bring-up, its management domain running. -/
def bootS (n : Nat) : State := { up [] with boot := n }
def img : ImgHdr := ⟨5, 3, 2 ^ 20, 1, 4, 1⟩
def hdrs2 : AMap Nat (Option ImgHdr) := [(0, some img), (1, some img)]
/-- A licence for 384 tiles with FL, signed for the package with identifier 1, and the digest of its key (made outside the model with Python's
hashlib and the curve's definition). -/
def goodLic : Nat :=
  0xb787c3bec5d6a1f8b74a18138a41dee9a6fb5760b9f86a3d98b392c7f38dd059752f17569aa8645e6bde72cca48f9ffeb787c3bec5d6a1f8b74a18138a41dee9a6fb5760b9f86a3d98b392c7f38dd059752f17569aa8645e6bde72cca48f9ffede2415a5a82cbd260d567d382ae600fd890e6239d07de60cefb3ff66a3426487d271e9931c11196ce858834b64a9ba590d45875bd6b31c323bbc71a32b98dfad291d3c56f6ffd99767cf1d6fe177cc4fe980e36ea4af4a6048a797c95d92567500000000000000000000000000000000000000000000000000000000000000000000000000000000000000000000000100000000000000020000010101800100
def goodKey : Nat := 0x383fc52fcd2a536d1cdef8e2de653542f509aad49863399d4ed0bc8f905b5d9fbf000703742adea8513c329dc9687a37
/-- A state with that key fused, and a licence in a slot. -/
def licS (s : State) (k l : Nat) : State :=
  { s with fuse := { s.fuse with keys := [goodKey] }, flash := (withIdx (leBytes 256 l)).map fun e => (licBase k + e.1, e.2) }
/-- Power: the always-on supply, HUB_EN, PWR_GOOD, RESET_N released and asserted, and a package reset that is due. -/
theorem wit_power_up :
    let a := after .aonPowerOn State.reset
    let b := after .hubEn a
    let c := after .pwrGoodAssert b
    a.aonUp = true ∧ b.hubEn = true ∧ (after .hubEn b).out = b.out ∧ (c.pups.map fun u => u.die) = [.hub] ∧
    (after (.resetN false) { a with hubEn := true, pwrGood := true, rstIn := true }).rstIn = false ∧
    (after (.resetN true) (up [])).resetDue = true ∧ (after (.resetN true) { up [] with resetBusy := true, boot := 2 }).resetDue = false ∧ (after (.resetN true) { up [] with resetBusy := true }).resetDue = true ∧
    (after .pwrGoodFall (up [])).pwrGood = false ∧ (after .packageReset { up [] with resetDue := true }).boot = 2 := by decide +kernel
/-- Images: the active one runs with no settings, the other where the first does not verify, neither is accepted; the new one of a live
activation starts. -/
theorem wit_firmware_load :
    (bootS 3).imgOk 0 (some img) = true ∧ readsSchema img (bootS 3).settingsNow = true ∧
    (let s := after (.firmwareLoad (some img) none) (bootS 3); s.boot = 4 ∧ s.rf .hub .fwStatus 0 47 16 = 5 * 2 ^ 16 + 3) ∧
    (after (.firmwareLoad none none) (bootS 3)).boot = 10 ∧
    (bootS 3).imgOk 0 none = false ∧ (bootS 3).imgOk 1 (some { img with size := 2 ^ 23 + 1 }) = false ∧
    (let s := after (.firmwareLoad none (some img)) (bootS 3); s.boot = 4 ∧ s.fwActive = 1 ∧ s.bootRec.active = 1) ∧
    (let s : State := { up [] with hdrs := hdrs2, liveNext := true }
     s.imgFind 0 none = some img ∧ (after (.firmwareLoad none none) s).liveWait = true ∧ (after (.firmwareLoad none none) s).liveNext = false) := by decide +kernel
/-- Licences: none in the flash (step 4 ends, PCIe ports train all the same), and the domains of steps 5 to 8. -/
theorem wit_steps :
    (let s := after (.licenceVerify [(0, (16, 6))] []) (bootS 4)
     s.boot = 7 ∧ s.licensed = false ∧ s.rf .hub .licStatus 0 27 24 = 1 ∧ s.rf .hub .hubPcieCfg 0 19 19 = 1) ∧
    (bootS 5).fuse.unfitted = [] ∧ (after .mcPowerUp (bootS 5)).boot = 6 ∧
    (let s : State := { (bootS 6).setReady 40 0 with rails := [10, 18, 26] }
     let a := after (.stackInit 0 []) s
     let b := after (.stackInit 0 [5]) (a.setReg .hub .memRetireEntry 0 (BitVec.ofNat 64 (2 ^ 63 + 6 * 2 ^ 32 + 1)))
     s.stackPhase 0 = 0 ∧ a.pch 4 = 1 ∧ b.pch 4 = 2 ∧ b.pch 5 = 0 ∧ b.pch 6 = 6 ∧ b.ready 40 = false ∧
     (after (.stackInit 0 []) b).pch 4 = 3 ∧ (after (.stackInit 0 []) b).ready 40 = true) ∧
    (let s : State := (({ bootS 6 with flash := (List.range 8).map fun i => (0x1100000 + i, 0) } : State).setReady 40 1).setDom (.hd 0) false 0
     s.firstStack = some 0 ∧ (after (.hostRelease 0) s).released = [0] ∧ (after (.hostRelease 0) s).hostImg = true) ∧
    (bootS 6).mcEnded = true ∧ (bootS 6).hostEnded 0 = true ∧ (bootS 6).hostEnded 1 = true ∧ (after (.tilePowerUp ⟨[], []⟩) (bootS 6)).boot = 8 ∧
    (bootS 8).allEnded = true ∧ (after (.topologyCheck [] []) (bootS 8)).boot = 9 ∧ (bootS 8).topoResult [] [] = (3, 1) := by decide +kernel
/-- A licence that verifies, in the other slot in step 4, and without its key; the results of a check that finds one fault of a
package declared ready, and of one that finds none. -/
theorem wit_licence_and_topology :
    (up []).licReason 0 = 1 ∧ licFld 0 0 2 ≠ 0x0100 ∧ (licS (up []) 0 goodLic).licReason goodLic = 0 ∧ (up []).licReason goodLic = 2 ∧
    ((up []).setRf .hub .hubReady 0 63 62 1).topoResult [] [] = (2, 1) := by decide +kernel
theorem wit_licence_step :
    (let s := after (.licenceVerify [] []) (licS (bootS 4) 1 goodLic)
     s.rf .hub .licStatus 0 20 0 = 2 ^ 20 + 2 ^ 18 + 2 ^ 16 + 4 * 384 + 1) := by decide +kernel
/-- An install: written, a second one meanwhile turned away, verified and in force; one whose slot has come out otherwise. -/
theorem wit_licence_install :
    let m : Mbx := ⟨0, 5, 9, goodLic⟩
    let s : State := { up [] with hdrs := hdrs2, mbox := [m] }
    s.licFree = 1 ∧ (after (.licenceInstall []) s).licWait = some (m, 1) ∧
    ((after (.licenceInstall []) { s with licWait := some (m, 1) }).out.map fun e => e.args.getD 4 0) = [Status.busy.code] ∧
    (after (.licenceInstall [(0, 7)]) s).flashByte (licBase 1) = 7 := by decide +kernel
theorem wit_licence_installed :
    let m : Mbx := ⟨0, 5, 9, goodLic⟩
    let a : State := { licS (up []) 1 goodLic with licWait := some (m, 1) }
    a.boot ≠ 4 ∧ a.running .hub false = true ∧ a.licReason (a.licSlot 1) = 0 ∧
    ((after (.licenceVerify [] []) { a with licWait := some (m, 0) }).out.map fun e => e.args.getD 4 0) = [Status.perm.code] := by decide +kernel
/-- A trial, confirmed and not; a live activation, kicked and confirmed too late. -/
theorem wit_firmware_life :
    let s : State := { up [] with hdrs := hdrs2, trialWait := true, liveWait := true }
    s.gate .hub .fwStatus 0 0 = .ok ∧ (after (.fwConfirm (hubWr 0 0 1)) s).trialWait = false ∧ (after (.fwConfirm (hubWr 1 1 1)) s).trialWait = true ∧
    (after .trialTimeout s).fwActive = 1 ∧ (after .trialTimeout (up [])).bootRec = (up []).bootRec ∧ (after .liveConfirmTimeout s).bootRec.refused = [0] ∧
    (after .rootOfTrustKick (s.setRf .hub .fltWdt 0 31 31 1)).wdtRuns = true ∧
    aFind s.hdrs (1 - s.fwActive) = some (some img) ∧ s.imgOk (1 - s.fwActive) (some img) = true ∧ readsSchema img s.settingsNow = true := by decide +kernel
/-- The mailbox: each command at the front of the queue, served; on default settings all but SETTINGS_RESET are turned away. -/
theorem wit_mailbox :
    let s (cmd data : Nat) : State := { up [] with hdrs := hdrs2, mbox := [⟨0, cmd, 9, data⟩] }
    let st (i : Instr) (t : State) := ((after i t).out.map fun e => [e.args.getD 0 0, e.args.getD 3 0, e.args.getD 4 0])
    (s 1 0).fwRuns = true ∧ (s 1 0).mgmtWork = [] ∧ st .getVersion (s 1 0) = [[0, 1, 0]] ∧ (after (.setLimit 50) (s 2 0)).rf .hub .pwrLimit 0 7 0 = 50 ∧
    st (.getTelemetry 1) (s 3 0) = [[0, 3, 0]] ∧ st .getFaults (s 4 0) = [[0, 4, 0]] ∧
    st (.licenceInstall []) ((s 5 0).setRf .hub .fwStatus 0 4 4 1) = [[0, 5, Status.unav.code]] ∧
    (after (.fwWrite 0 1) (s 6 0xAB)).flash = [(0x900000, 0xAB)] ∧ st (.fwWrite 0 4097) (s 6 0) = [[0, 6, Status.perm.code]] ∧
    st (.fwVerify none) (s 7 0) = [[0, 7, 0]] ∧ st (.fwVerify none) { s 7 0 with hdrs := [] } = [[0, 7, Status.perm.code]] ∧
    (after (.fwActivate false) (s 8 0)).bootRec.trial = true ∧ (after (.fwActivate true) (s 8 0)).liveNext = true ∧
    st (.fwActivate true) { s 8 0 with hdrs := [] } = [[0, 8, Status.perm.code]] ∧ st .settingsRead (s 9 0) = [[0, 9, 0]] ∧
    (s 9 0).settingsNow = none ∧ (after (.settingsWrite [] true) (s 10 7)).settings.all.length = 1 ∧
    ((after (.settingsWrite [] true) (s 10 7)).settingsNow.map fun r => r.payload) = some 7 ∧ (after (.settingsWrite [] false) (s 10 7)).settingsNow = none ∧
    (after .settingsReset ((s 11 0).setRf .hub .fwStatus 0 4 4 1)).rf .hub .fwStatus 0 4 4 = 0 ∧
    st .settingsRead ((s 9 0).setRf .hub .fwStatus 0 4 4 1) = [[0, 9, Status.unav.code]] := by decide +kernel
/-- CRC-32 of the bytes "123456789" (the check value of the IEEE 802.3 polynomial). -/
theorem test_crc32 : crc32 [0x31, 0x32, 0x33, 0x34, 0x35, 0x36, 0x37, 0x38, 0x39] = 0xCBF43926#32 := by decide +kernel

/-! ### Pins and the test access port (Chapter 17) -/

/-- A function switched, the same function kept, an illegal one, and one while the pin switches; the switch done; inputs. -/
theorem wit_pins :
    let m (k v : Nat) : Wr := ⟨.hub, k, 0, 0, BitVec.ofNat 64 v⟩
    let s := after (.pinMuxWrite (m 0 1)) (up [])
    (up []).gate .hub .pinMux 0 0 = .ok ∧ s.switching 0 = true ∧ (after (.pinMuxWrite (m 0 0)) s).last.status = .busy ∧
    (after (.pinMuxWrite (m 0 3)) s).last.status = .perm ∧ (after (.pinMuxWrite (m 0 0xC0)) s).last.status = .perm ∧
    (after (.pinMuxWrite (m 31 1)) (up [])).last.status = .perm ∧ (after (.pinMuxWrite (m 31 0x10)) (up [])).pinPull 31 = 1 ∧
    (after (.pinSwitchDone 0) s).switching 0 = false ∧ ((after (.gpioInput 31 true) (up [])).regView .hub .pinGpioIn 0 0).getLsbD 31 = true ∧
    ((after (.gpioInput 31 true) State.reset).pins = [(31, true)]) := by decide +kernel
/-- The instructions of the test access port, with RESET_N asserted and released, while the hub runs and while it does not. -/
theorem wit_jtag :
    let r : State := { up [] with rstIn := true }
    let o (i : Instr) (s : State) := (after i s).out.map fun e => e.args
    (after .jtagTapReset r).jtag.ir = 3 ∧ o (.bypass ⟨0xFF, ⟨4, 3⟩⟩) (up []) = [[0xFF, 6]] ∧ o (.bypass ⟨9, ⟨4, 3⟩⟩) ((up []).setDom .hub false 0) = [[0xFF]] ∧
    (after (.samplePreload ⟨200, 0⟩) (up [])).jtag.ir = 1 ∧ (after (.extest ⟨3, 5⟩) r).out.length = 2 ∧ o (.extest ⟨4, 5⟩) (up []) = [[0xFF, 10]] ∧
    o (.clamp ⟨4, 5⟩) { r with jtag := { r.jtag with bsr := 7 } } = [[4, 10], [4, 7]] ∧ o (.highz ⟨4, 5⟩) r = [[5, 10], [5]] ∧
    o (.highz ⟨4, 5⟩) (up []) = [[0xFF, 10]] ∧ (after .idcode (up [])).idcode % 2 ^ 28 = 0xA4E3 * 2 ^ 12 + 0x867 := by decide +kernel
/-- Pads: GPIO driven, a function's inactive levels, EXTEST's levels, and those of a hub that does not run. -/
theorem wit_pads :
    let g := up [at_ .hub .pinGpioCtrl 0 (2 ^ 32 + 1)]
    g.pinFunc 0 = 0 ∧ g.pinLevel 0 = true ∧ g.padLevel (.ls 0) = true ∧ g.tapHolds 2 = false ∧
    (up [at_ .hub .pinMux 1 1]).funcSees 1 1 = false ∧ (up []).funcSees 1 1 = true ∧ (up []).funcSees 0 1 = false ∧
    (let s : State := { g with rstIn := true, jtag := ⟨.runTestIdle, 2, 0⟩ }; s.tapHolds 2 = true ∧ s.pad (.ls 0) = .driven false) ∧
    (let s : State := { (up []).setDom .hub false 0 with rails := [3] }
     s.hubLit = false ∧ s.pad .qspiCsN = .driven true ∧ s.pad (.railEn 3) = .driven false ∧ s.pad .tdo = .highZ) ∧ (up []).pad .tms = .pullUp ∧
    boundaryPads[68]? = some (.ls 0) := by decide +kernel

/-! ### A step -/

/-- The command at the front of the queue runs on the state with the rest of it; the memory of a state in canonical form has it. -/
theorem wit_step :
    ((match step { up [] with pending := [.jtagTapReset, .idcode] } with | .next t => t | _ => State.reset).pending = [.idcode]) ∧
    Memory.wf (cells 0x40 4 0x11223344) = true := by decide +kernel
/-- A tick with nothing under way, in N0 and in N1, with the hub in reset; the slack measurement with a context that waits and off; work of the
management cores, the urgent piece first; a generator. -/
theorem wit_tick :
    let go (s : State) : State := match step s with | .next t => t | _ => State.reset
    let s : State := { up [] with now := 9 }
    let w : State := { up [at_ .hub .pwrFanCfg 0 (2 ^ 63 + 5 * 2 ^ 48), at_ (.cd 0) .cqCfg 0 (2 * 2 ^ 21 + 5), at_ .hub .licStatus 0 (2 ^ 16)] with mgmtWork := [3, 0, 2] }
    s.pending = [] ∧ s.io.tlps = [] ∧ s.preOps = [] ∧ s.rdown = [] ∧ s.rf .hub .hubOrderStatus 0 2 2 = 0 ∧ s.tgRuns = [] ∧
    (go s).now = 10 ∧ aGet (go s).cycles 0 3 = 16 ∧ aGet (go (pw 1 1)).cycles 0 3 = 0 ∧ ((go s).reg .hub .pwrResid 0).toNat = 1 ∧
    (go (s.setDom .hub false 1)).now = 9 ∧ (go s).fan.since = 10 ∧ w.fanOn = true ∧ w.ctxRuns 5 = false ∧ w.ctxWaits 5 = true ∧ (go w).fan.wait = 1 ∧
    (go { s with mgmtWork := [3, 0, 2] }).mgmtWork = [3, 2] ∧ (go { s with mgmtWork := [3, 2] }).mgmtWork = [2] ∧ s.fwRuns = true ∧
    ((go { s with tgRuns := [⟨0, 0, 1#64, 0, 0, 0⟩] }).tgRuns.map fun r => r.pos) = [1] := by decide +kernel


/-! ### The checks of WellFormed: a term that each refuses -/

def badT : TileRef := ⟨0, 12⟩
def okW : Wr := ⟨.hub, 0, 0, 0, 0⟩
def okP : Pkt := ⟨0, 0, 0, 0, 0, 0, 0, true, 0, .ok, 0, 0, 0, 0, 0, 0⟩
def okA : AgentReq := ⟨0, 0, 0, 0, 0, 0, false, 0⟩
def okN : NcReq := ⟨0, 0, 0, 0, 0⟩
theorem test_wf_references :
    badT.wf = false ∧ TileRef.wf ⟨0, 128⟩ = false ∧ BlockRef.wf ⟨0, 12, 0⟩ = false ∧ BlockRef.wf ⟨0, 0, 2 ^ 34⟩ = false ∧
    GroupRef.wf ⟨0, 12, 0, 0⟩ = false ∧ GroupRef.wf ⟨0, 0, 2 ^ 34, 0⟩ = false ∧ GroupRef.wf ⟨0, 0, 0, 64⟩ = false ∧
    BurrRef.wf ⟨0, 64⟩ = false ∧ SmpRef.wf ⟨0, 4⟩ = false ∧ Status.wf .held = false ∧
    TileRef.wf ⟨3, 123⟩ = true ∧ GroupRef.wf ⟨0, 0, 2 ^ 34 - 1, 63⟩ = true := by decide
theorem test_wf_writes :
    Wr.wf { okW with pl := 4 } = false ∧ Wr.wf { okW with ctx := 4096 } = false ∧ CtlWrite.wf ⟨.hub, 0, 8, 4, 0, 0⟩ = false ∧
    CtlWrite.wf ⟨.hub, 0, 8, 0, 4096, 0⟩ = false ∧ CtlWrite.wf ⟨.hub, 2 ^ 24 - 4, 8, 0, 0, 0⟩ = false ∧
    Wr.wf { okW with pl := 3, ctx := 4095 } = true ∧ CtlWrite.wf ⟨.hub, 2 ^ 24 - 8, 8, 3, 4095, 0⟩ = true := by decide
theorem test_wf_memory :
    Disturb.wf ⟨512, 0, []⟩ = false ∧ Disturb.wf ⟨0, 2 ^ 24, []⟩ = false ∧ Disturb.wf ⟨0, 0, [(68, 0)]⟩ = false ∧ Disturb.wf ⟨0, 0, [(0, 256)]⟩ = false ∧
    AgentReq.wf { okA with agent := 35 } = false ∧ AgentReq.wf { okA with req := 65536 } = false ∧ AgentReq.wf { okA with pa := 2 ^ 52 } = false ∧ AgentReq.wf { okA with ctx := 4096 } = false ∧
    AgentReq.wf { okA with pl := 4 } = false ∧ AgentReq.wf { okA with il := 256 } = false ∧ AgentReq.wf { okA with typ := 4 } = false ∧ okA.wf = true ∧
    NcReq.wf { okN with req := 65536 } = false ∧ NcReq.wf { okN with pa := 2 ^ 52 } = false ∧ NcReq.wf { okN with ctx := 4096 } = false ∧
    NcReq.wf { okN with pl := 4 } = false ∧ NcReq.wf { okN with il := 256 } = false ∧ okN.wf = true ∧
    AtOp.wf ⟨9, 0, 0, 0⟩ = false ∧ AtOp.wf ⟨0, 5, 0, 0⟩ = false ∧ AtOp.wf ⟨0, 0, 2 ^ 64, 0⟩ = false ∧ AtOp.wf ⟨0, 0, 0, 2 ^ 64⟩ = false := by decide
theorem test_wf_ports :
    Tlp.wf ⟨4, true, 0, 1, 0⟩ = false ∧ Tlp.wf ⟨0, true, 0, 0, 0⟩ = false ∧ Tlp.wf ⟨0, true, 0, 4097, 0⟩ = false ∧ Tlp.wf ⟨0, true, 2 ^ 52, 1, 0⟩ = false ∧
    PcieWho.wf (.host 96) = false ∧ PcieWho.wf (.mgmt 4) = false ∧ PcieWho.wf (.dma 16) = false ∧ portsWf 4 [(4, (1, 1))] = false ∧
    okP.wf = true ∧ Pkt.wf { okP with port := 12 } = false ∧ Pkt.wf { okP with vl := 8 } = false ∧ Pkt.wf { okP with src := 65536 } = false ∧
    Pkt.wf { okP with ctx := 4096 } = false ∧ Pkt.wf { okP with opid := 2 ^ 32 } = false ∧ Pkt.wf { okP with unit := 65536 } = false ∧
    Pkt.wf { okP with seq := 65536 } = false ∧ Pkt.wf { okP with arg := 16 } = false ∧ Pkt.wf { okP with addr := 2 ^ 64 } = false ∧
    Pkt.wf { okP with len := 4097 } = false := by decide
theorem test_wf_package :
    Share.wf ⟨15, 0, 0⟩ = false ∧ Share.wf ⟨0, 4096, 0⟩ = false ∧ ImgHdr.wf ⟨65536, 0, 0, 0, 0, 0⟩ = false ∧ ImgHdr.wf ⟨0, 65536, 0, 0, 0, 0⟩ = false ∧
    ImgHdr.wf ⟨0, 0, 2 ^ 23 + 1, 0, 0, 0⟩ = false ∧ ImgHdr.wf ⟨0, 0, 0, 65536, 0, 0⟩ = false ∧ ImgHdr.wf ⟨0, 0, 0, 0, 65536, 0⟩ = false ∧
    ImgHdr.wf ⟨0, 0, 0, 0, 0, 256⟩ = false ∧ Scan.wf ⟨2, 4⟩ = false ∧ IrScan.wf ⟨3, ⟨0, 0⟩⟩ = false ∧ IrScan.wf ⟨256, ⟨0, 0⟩⟩ = false ∧
    SelfTest.wf ⟨[(4, 0)], []⟩ = false ∧ SelfTest.wf ⟨[(0, 96)], []⟩ = false ∧ SelfTest.wf ⟨[], [(7, 0)]⟩ = false ∧ SelfTest.wf ⟨[], [(0, 64)]⟩ = false ∧ OnDie.wf (.tile badT 0) = false ∧
    OnDie.wf (.l2data 32 0 0 0) = false ∧ OnDie.wf (.l2data 0 65536 0 0) = false ∧ OnDie.wf (.l2data 0 0 16 0) = false ∧ OnDie.wf (.l2data 0 0 0 2) = false ∧
    OnDie.wf (.l2tag 32 0 0) = false ∧ OnDie.wf (.l2tag 0 65536 0) = false ∧ OnDie.wf (.l2tag 0 0 16) = false ∧ OnDie.wf (.burr ⟨0, 64⟩) = false ∧
    OnDie.wf (.sampler ⟨0, 4⟩) = false ∧ OnDie.wf (.dma .hub 32) = false ∧ OnDie.wf (.l3 0 (2 ^ 45)) = false ∧ OnDie.wf (.core 0 48) = false := by decide
/-- Operands of commands that no structure checks: one command of each kind, with an operand one too large. -/
theorem test_wf_commands :
    ([.refresh 512 0, .refresh 0 64, .channelRetrain 0 64 true, .wb 35 0 0, .cleanEvict 0 (2 ^ 45), .dataNc 65536 0, .nack 65600 0, .homeTimeout (2 ^ 45),
      .agentMarkDown 35, .replicaUpdate 5 0 0, .replicaUpdate 0 3 0, .dmaCopy .hub 32, .launch 0 64, .sqTailPoll 64, .mrcOpComplete (2 ^ 32),
      .unitCommitted 65536 0 0, .unitCommitted 0 (2 ^ 32) 0, .liveSend 65536, .mctpMessage 3 0 0, .mctpMessage 0 256 0, .droop 15, .thermalSample 0 256,
      .handshakeAnswer 7 0 true 0, .handshakeAnswer 0 12 true 0, .railPg 34, .linkCrcError 12 0 0, .linkCrcError 0 8 0, .linkCrcError 0 0 68,
      .linkRetrain 0 0 [68] (.ends [] []), .mrcPortRetrain 0 ⟨[8], []⟩, .scopeResetDone 0 ⟨[(0, 96)], []⟩, .stackInit 8 [], .stackInit 0 [64], .tilePowerUp ⟨[(4, 0)], []⟩,
      .tilePowerUp ⟨[(0, 96)], []⟩, .topologyCheck [(7, 0)] [], .topologyCheck [] [(8, 0)], .setLimit 256, .fwWrite 0 4097, .settingsWrite [(4, 0)] true,
      .settingsWrite [(0, 4)] true, .pinSwitchDone 32, .bypass ⟨2, ⟨0, 0⟩⟩, .inDieCorrectionReport 512 0, .millraceBadCrc 0 8 0, .pcieLinkDown 4 ⟨0, true⟩,
      .gpioInput 32 true] : List Instr).all (fun i => !i.wf) = true := by decide
/-- Commands with operands at the ends of their ranges pass. -/
theorem test_wf_accepts :
    ([.refresh 511 63, .dmaCopy .hub 31, .launch 3 63, .linkRetrain 11 7 [67] (.ends [] []), .stackInit 7 [63], .add ⟨3, 123, 2 ^ 34 - 1, 63⟩, .gpioInput 31 true] :
      List Instr).all (fun i => i.wf) = true := by decide

end Sys2Proof.Tests
end

section
/-!
Links, ports and resets (Chapters 01 and 15): what each command answers under its guard, what the alignment of timestamp copies
leaves, and what the negotiation of a version finds.
-/

namespace Sys2Proof.Machine
open Sys2Proof

/-- A command gives the effect that its meaning hands to `done`. -/
theorem gives_of_done_eq {i : Instr} {s e e' : State} (h : exec i s = done s e') (he : e' = e) : Gives i s e := he ▸ h

/-! ### Versions (R22, R450) -/

/-- One more offer `x` leaves the agreement as it was where the other end has no such major; otherwise `x` takes it where its major
is the highest so far, and the earlier agreement stands where it is not. -/
theorem agree_concat (a b : List (Nat × Nat)) (x : Nat × Nat) :
    ((∀ y ∈ b, y.1 ≠ x.1) ∧ agree (a ++ [x]) b = agree a b) ∨
    (∃ j, (x.1, j) ∈ b ∧ (∀ z, agree a b = some z → z.1 < x.1) ∧ agree (a ++ [x]) b = some (x.1, min x.2 j)) ∨
    (∃ z, agree a b = some z ∧ x.1 ≤ z.1 ∧ agree (a ++ [x]) b = some z) := by
  unfold agree
  rw [List.foldl_append, List.foldl_cons, List.foldl_nil]
  generalize List.foldl _ none a = best
  cases hf : b.find? fun y => decide (y.1 = x.1) with
  | none => exact .inl ⟨by simpa using hf, rfl⟩
  | some y =>
    have hy : (x.1, y.2) ∈ b := by
      have hx : y.1 = x.1 := by simpa using List.find?_some hf
      exact hx ▸ List.mem_of_find?_eq_some hf
    cases best with
    | none => exact .inr (.inl ⟨y.2, hy, by simp, rfl⟩)
    | some z =>
      by_cases hz : z.1 < x.1
      · exact .inr (.inl ⟨y.2, hy, by simpa using hz, if_pos hz⟩)
      · exact .inr (.inr ⟨z, rfl, Nat.le_of_not_lt hz, if_neg hz⟩)

/-- The version agreed on is offered by both ends, with the lower of their minors. -/
theorem offered_of_agree {a b : List (Nat × Nat)} {v : Nat × Nat} (h : agree a b = some v) :
    ∃ i j, (v.1, i) ∈ a ∧ (v.1, j) ∈ b ∧ v.2 = min i j := by
  induction a using List.reverseRecOn generalizing v with
  | nil => cases h
  | append_singleton a x ih =>
    have earlier (hv : agree a b = some v) : ∃ i j, (v.1, i) ∈ a ++ [x] ∧ (v.1, j) ∈ b ∧ v.2 = min i j := by
      obtain ⟨i, j, hi, hj, hm⟩ := ih hv
      exact ⟨i, j, List.mem_append_left _ hi, hj, hm⟩
    obtain ⟨-, heq⟩ | ⟨j, hj, -, heq⟩ | ⟨z, hz, -, heq⟩ := agree_concat a b x
    · exact earlier (heq ▸ h)
    · obtain rfl : (x.1, min x.2 j) = v := Option.some.inj (heq.symm.trans h)
      exact ⟨x.2, j, by simp, hj, rfl⟩
    · exact earlier (hz.trans (heq.symm.trans h))

/-- A major that both ends offer is agreed on, or a higher one. -/
theorem le_agree_of_offered {a b : List (Nat × Nat)} {m i j : Nat} (ha : (m, i) ∈ a) (hb : (m, j) ∈ b) :
    ∃ v, agree a b = some v ∧ m ≤ v.1 := by
  induction a using List.reverseRecOn with
  | nil => cases ha
  | append_singleton a x ih =>
    rw [List.mem_append, List.mem_singleton] at ha
    obtain ⟨hno, heq⟩ | ⟨j', -, hlt, heq⟩ | ⟨z, hz, hle, heq⟩ := agree_concat a b x
    · obtain ha | rfl := ha
      · exact heq ▸ ih ha
      · exact (hno _ hb rfl).elim
    · refine ⟨_, heq, ?_⟩
      obtain ha | rfl := ha
      · obtain ⟨v, hv, hm⟩ := ih ha
        exact hm.trans (hlt v hv).le
      · exact le_rfl
    · refine ⟨z, heq, ?_⟩
      obtain ha | rfl := ha
      · obtain ⟨v, hv, hm⟩ := ih ha
        obtain rfl : v = z := Option.some.inj (hv.symm.trans hz)
        exact hm
      · exact hle

/-! ### Die-to-die links (R425, R431, R450) -/

section
variable {k m lane : Nat} {s : State}

/-- The replays of a module in the last 10 ms, with one of a lane now. -/
def LMod.replayed (x : LMod) (now : W64) (lane : Nat) : List (Nat × W64) :=
  (x.replays.filter fun e => decide ((now - e.2).toNat < 1000000)) ++ [(lane, now)]

/-- A lane's 64th replay within 10 ms makes it permanent, once. -/
def LMod.lanePermanent (x : LMod) (now : W64) (lane : Nat) : Prop :=
  64 ≤ ((x.replayed now lane).filter fun e => decide (e.1 = lane)).length ∧ lane ∉ x.due

theorem linkCrcError_done (hk : k < 12) (hm : m < linkBuilt k) (hl : lane < 68) (hu : s.linkUp k = true) :
    exec (.linkCrcError k m lane) s = done s (s.setLmod k m { s.lmod k m with
      replays := (s.lmod k m).replayed s.now lane
      due := if 64 ≤ (((s.lmod k m).replayed s.now lane).filter fun e => decide (e.1 = lane)).length ∧
        (s.lmod k m).due.contains lane = false then (s.lmod k m).due ++ [lane] else (s.lmod k m).due }) := by
  have hg : ¬ (12 ≤ k ∨ linkBuilt k ≤ m ∨ 68 ≤ lane ∨ s.linkUp k = false) := by
    simp only [hu, reduceCtorEq, or_false]
    omega
  exact gives_of_done_eq rfl (if_neg hg)

theorem linkCrcError_permanent_gives (hk : k < 12) (hm : m < linkBuilt k) (hl : lane < 68) (hu : s.linkUp k = true)
    (hp : (s.lmod k m).lanePermanent s.now lane) :
    Gives (.linkCrcError k m lane) s (s.setLmod k m { s.lmod k m with
      replays := (s.lmod k m).replayed s.now lane, due := (s.lmod k m).due ++ [lane] }) :=
  gives_of_done_eq (linkCrcError_done hk hm hl hu) (by rw [if_pos ⟨hp.1, by simpa using hp.2⟩])

theorem linkCrcError_replayed_gives (hk : k < 12) (hm : m < linkBuilt k) (hl : lane < 68) (hu : s.linkUp k = true)
    (hp : ¬ (s.lmod k m).lanePermanent s.now lane) :
    Gives (.linkCrcError k m lane) s (s.setLmod k m { s.lmod k m with replays := (s.lmod k m).replayed s.now lane }) :=
  gives_of_done_eq (linkCrcError_done hk hm hl hu) (by rw [if_neg fun h => hp ⟨h.1, by simpa using h.2⟩])

theorem linkFence_gives (hk : k < 12) (hu : s.linkUp k = true) : Gives (.linkFence k) s (s.fence k) :=
  gives_of_done_eq rfl (if_pos ⟨hk, hu⟩)

/-- The guard of a retrain: a module that the link is built from, and the link up. -/
theorem retrain_guard (hk : k < 12) (hm : m < linkBuilt k) (hu : s.linkUp k = true) :
    ¬ (12 ≤ k ∨ linkBuilt k ≤ m ∨ s.linkUp k = false) := by
  simp only [hu, reduceCtorEq, or_false]
  omega

theorem linkRetrain_fails_gives (bad : List Nat) (hk : k < 12) (hm : m < linkBuilt k) (hu : s.linkUp k = true) :
    Gives (.linkRetrain k m bad .fails) s (s.fence k) :=
  gives_of_done_eq rfl (if_neg (retrain_guard hk hm hu))

/-- A link after the lane test of a retrain: the lanes that are permanent have failed, and the fields of its register show it. -/
def State.laneTested (s : State) (k m : Nat) (bad : List Nat) : State :=
  let x := s.lmod k m
  let dead := x.due ++ bad.filter fun l => x.suspects.contains l && decide (l < 68)
  (dead.foldl (fun y l => y.laneFails k m l) (s.setLmod k m { x with suspects := bad, due := [], replays := [] })).linkShow k

/-- A retrain that ends: without a module left the link is fenced, and otherwise its ends negotiate again. -/
theorem linkRetrain_ends_done (bad : List Nat) (a b : List (Nat × Nat)) (hk : k < 12) (hm : m < linkBuilt k) (hu : s.linkUp k = true) :
    let t := s.laneTested k m bad
    exec (.linkRetrain k m bad (.ends a b)) s = done s (if (t.linkLive k).isEmpty then t.fence k
      else match t.linkAgree k a b with
        | none => (t.fence k).linkNoVer k a b
        | some v => t.setLink k (setFld (setFld (t.linkReg k) 15 8 v.1) 7 0 v.2)) :=
  gives_of_done_eq rfl (if_neg (retrain_guard hk hm hu))

theorem linkRetrain_ends_dead_gives (bad : List Nat) (a b : List (Nat × Nat)) (hk : k < 12) (hm : m < linkBuilt k)
    (hu : s.linkUp k = true) (hd : (s.laneTested k m bad).linkLive k = []) :
    Gives (.linkRetrain k m bad (.ends a b)) s ((s.laneTested k m bad).fence k) :=
  gives_of_done_eq (linkRetrain_ends_done bad a b hk hm hu) (by rw [if_pos (by simp [hd])])

theorem linkRetrain_ends_noVer_gives (bad : List Nat) (a b : List (Nat × Nat)) (hk : k < 12) (hm : m < linkBuilt k)
    (hu : s.linkUp k = true) (hd : (s.laneTested k m bad).linkLive k ≠ []) (hv : (s.laneTested k m bad).linkAgree k a b = none) :
    Gives (.linkRetrain k m bad (.ends a b)) s (((s.laneTested k m bad).fence k).linkNoVer k a b) :=
  gives_of_done_eq (linkRetrain_ends_done bad a b hk hm hu) (by rw [if_neg (by simpa using hd), hv])

theorem linkRetrain_ends_agreed_gives (bad : List Nat) (a b : List (Nat × Nat)) {v : Nat × Nat} (hk : k < 12) (hm : m < linkBuilt k)
    (hu : s.linkUp k = true) (hd : (s.laneTested k m bad).linkLive k ≠ []) (hv : (s.laneTested k m bad).linkAgree k a b = some v) :
    let t := s.laneTested k m bad
    Gives (.linkRetrain k m bad (.ends a b)) s (t.setLink k (setFld (setFld (t.linkReg k) 15 8 v.1) 7 0 v.2)) :=
  gives_of_done_eq (linkRetrain_ends_done bad a b hk hm hu) (by rw [if_neg (by simpa using hd), hv])

/-- A link that has come up with a version: its register at both ends, and its fault of versions over. -/
def State.linkTrained (s : State) (k : Nat) (v : Nat × Nat) : State :=
  { (s.setLink k (setFld (setFld (setFld (setFld (s.linkReg k) 31 31 1) 30 30 0) 15 8 v.1) 7 0 v.2)).linkShow k with
    linkVer := s.linkVer.filter fun x => decide (x ≠ k) }

/-- A link with both ends running and a module left trains: its ends negotiate. -/
theorem linkTraining_done (a b : List (Nat × Nat)) (hk : k < 12) (hl : s.linkLive k ≠ []) (ha : s.dom (linkEnds k).1.1 false = 2)
    (hb : (∃ h, (linkEnds k).2.1 = .hd h) ∨ s.dom (linkEnds k).2.1 false = 2) :
    exec (.linkTraining k a b) s = done s (match s.linkAgree k a b with
      | none => s.linkNoVer k a b
      | some v => ((s.linkTrained k v).alignAt k).recoverySettle) := by
  refine gives_of_done_eq rfl (if_neg ?_)
  rintro (h | h | h | h)
  · omega
  · dsimp only at h
    split at h <;> simp_all
  · obtain ⟨j, hj⟩ | hb := hb
    · rw [hj] at h; cases h
    · dsimp only at h
      split at h <;> simp_all
  · exact hl (by simpa using h)

theorem linkTraining_noVer_gives {a b : List (Nat × Nat)} (hk : k < 12) (hl : s.linkLive k ≠ [])
    (ha : s.dom (linkEnds k).1.1 false = 2) (hb : (∃ h, (linkEnds k).2.1 = .hd h) ∨ s.dom (linkEnds k).2.1 false = 2)
    (hv : s.linkAgree k a b = none) : Gives (.linkTraining k a b) s (s.linkNoVer k a b) :=
  gives_of_done_eq (linkTraining_done a b hk hl ha hb) (by rw [hv])

theorem linkTraining_agreed_gives {a b : List (Nat × Nat)} {v : Nat × Nat} (hk : k < 12) (hl : s.linkLive k ≠ [])
    (ha : s.dom (linkEnds k).1.1 false = 2) (hb : (∃ h, (linkEnds k).2.1 = .hd h) ∨ s.dom (linkEnds k).2.1 false = 2)
    (hv : s.linkAgree k a b = some v) : Gives (.linkTraining k a b) s ((s.linkTrained k v).alignAt k).recoverySettle :=
  gives_of_done_eq (linkTraining_done a b hk hl ha hb) (by rw [hv])

end

/-- A die whose timestamp copy is aligned. -/
def State.markAligned (s : State) (d : Die) : State :=
  { s with aligned := if s.aligned.contains d then s.aligned else d :: s.aligned }
/-- The timestamp copy of a die is aligned, and a die that runs reports ready at its bit of HUB_READY (R38, R439). -/
def State.alignDie (s : State) (d : Die) (bit : Nat) : State :=
  if s.dom d false = 2 then (s.markAligned d).setReady bit 1 else s.markAligned d

/-- Only one copy is aligned over a link. -/
theorem alignAt_of_mem_aligns {k : Nat} {d : Die × Nat} (h : d ∈ aligns k) (s : State) : s.alignAt k = s.alignDie d.1 d.2 := by
  unfold aligns at h
  split at h
  next ha hb => obtain rfl := List.mem_singleton.mp h; unfold State.alignAt; rw [ha, hb]; rfl
  next ha hb => obtain rfl := List.mem_singleton.mp h; unfold State.alignAt; rw [ha, hb]; rfl
  next => cases h

/-- The bits that alignment sets are 30 to 35 of HUB_READY. -/
theorem bit_lt_of_mem_aligns {k : Nat} {d : Die × Nat} (h : d ∈ aligns k) : d.2 < 64 := by
  unfold aligns at h
  split at h
  next n _ _ => obtain rfl := List.mem_singleton.mp h; dsimp only; omega
  next j _ _ => obtain rfl := List.mem_singleton.mp h; dsimp only; omega
  next => cases h

theorem alignDie_aligned (s : State) (d : Die) (bit : Nat) : (s.alignDie d bit).aligned.contains d = true := by
  have hm : (s.markAligned d).aligned.contains d = true := by
    unfold State.markAligned
    split <;> simp_all
  unfold State.alignDie
  split
  · exact hm
  · exact hm

theorem alignDie_ready (s : State) {d : Die} {bit : Nat} (hb : bit < 64) (hd : s.dom d false = 2) :
    (s.alignDie d bit).rf .hub .hubReady 0 bit bit = 1 := by
  rw [State.alignDie, if_pos hd, State.setReady, State.rf_setRf_same _ _ _ _ _ hb]
  simp

/-! ### Millrace ports (R374, R425) -/

section
variable {q lane n : Nat} {s : State}

/-- The symbol errors of a lane in the last second, with `n` now. -/
def MLanes.counted (x : MLanes) (now : W64) (lane n : Nat) : List (W64 × Nat) :=
  ((aGet x.errs [] lane).filter fun e => decide ((now - e.1).toNat < 100000000)) ++ [(now, n)]

/-- More than `symLimit` symbol errors of a lane within a second make it permanent, once. -/
def MLanes.laneHot (x : MLanes) (now : W64) (lane n : Nat) : Prop :=
  symLimit < ((x.counted now lane n).map fun e => e.2).sum ∧ lane ∉ x.hot

theorem millraceBadCrc_done (hu : s.mrcUp q = true) (hl : lane < 8) :
    exec (.millraceBadCrc q lane n) s = done s { s with mrcLanes := aSet s.mrcLanes q { s.mlanes q with
      errs := aSet (s.mlanes q).errs lane ((s.mlanes q).counted s.now lane n)
      hot := if decide (symLimit < (((s.mlanes q).counted s.now lane n).map fun e => e.2).sum) && !(s.mlanes q).hot.contains lane then
        lane :: (s.mlanes q).hot else (s.mlanes q).hot } } :=
  gives_of_done_eq rfl (if_neg (by simp [hu, hl]))

theorem millraceBadCrc_hot_gives (hu : s.mrcUp q = true) (hl : lane < 8) (hh : (s.mlanes q).laneHot s.now lane n) :
    Gives (.millraceBadCrc q lane n) s { s with mrcLanes := aSet s.mrcLanes q { s.mlanes q with
      errs := aSet (s.mlanes q).errs lane ((s.mlanes q).counted s.now lane n), hot := lane :: (s.mlanes q).hot } } :=
  gives_of_done_eq (millraceBadCrc_done hu hl) (by rw [if_pos (by simpa [MLanes.laneHot] using hh)])

theorem millraceBadCrc_counted_gives (hu : s.mrcUp q = true) (hl : lane < 8) (hh : ¬ (s.mlanes q).laneHot s.now lane n) :
    Gives (.millraceBadCrc q lane n) s { s with mrcLanes := aSet s.mrcLanes q { s.mlanes q with
      errs := aSet (s.mlanes q).errs lane ((s.mlanes q).counted s.now lane n) } } :=
  gives_of_done_eq (millraceBadCrc_done hu hl) (by rw [if_neg fun h => hh (by simpa [MLanes.laneHot] using h)])

/-- A port whose lanes have been tested by a retrain: those that are permanent have failed, and what is left of it is in service. -/
def State.portTested (s : State) (q : Nat) (bad : List Nat) : State :=
  let x := s.mlanes q
  let dead := (List.range 8).filter fun l => x.hot.contains l || (x.suspects.contains l && bad.contains l)
  let gone := (List.range 8).filter fun l => x.failed.contains l || dead.contains l
  ({ s with mrcLanes := aSet s.mrcLanes q ⟨gone, bad, [], []⟩ } : State).mrcFit q

theorem mrcPortRetrain_done (bad : List Nat) (peer : List (Nat × Nat)) (hu : s.mrcUp q = true) :
    let t := s.portTested q bad
    exec (.mrcPortRetrain q ⟨bad, peer⟩) s = done s (if t.mrcUp q = false then t
      else match agree s.mrcAdvert peer with
        | none => t.mrcNoVer q
        | some v => (t.setRf .hub .mrcPortStatus q 15 8 v.1).setRf .hub .mrcPortStatus q 7 0 v.2) :=
  gives_of_done_eq rfl (if_neg (by simp [hu]))

theorem mrcPortRetrain_down_gives {bad : List Nat} {peer : List (Nat × Nat)} (hu : s.mrcUp q = true)
    (ht : (s.portTested q bad).mrcUp q = false) : Gives (.mrcPortRetrain q ⟨bad, peer⟩) s (s.portTested q bad) :=
  gives_of_done_eq (mrcPortRetrain_done bad peer hu) (if_pos ht)

theorem mrcPortRetrain_noVer_gives {bad : List Nat} {peer : List (Nat × Nat)} (hu : s.mrcUp q = true)
    (ht : (s.portTested q bad).mrcUp q = true) (hv : agree s.mrcAdvert peer = none) :
    Gives (.mrcPortRetrain q ⟨bad, peer⟩) s ((s.portTested q bad).mrcNoVer q) :=
  gives_of_done_eq (mrcPortRetrain_done bad peer hu) (by rw [if_neg (by simp [ht]), hv])

theorem mrcPortRetrain_agreed_gives {bad : List Nat} {peer : List (Nat × Nat)} {v : Nat × Nat} (hu : s.mrcUp q = true)
    (ht : (s.portTested q bad).mrcUp q = true) (hv : agree s.mrcAdvert peer = some v) :
    Gives (.mrcPortRetrain q ⟨bad, peer⟩) s
      (((s.portTested q bad).setRf .hub .mrcPortStatus q 15 8 v.1).setRf .hub .mrcPortStatus q 7 0 v.2) :=
  gives_of_done_eq (mrcPortRetrain_done bad peer hu) (by rw [if_neg (by simp [ht]), hv])

end

/-! ### Reset requests (R428, R430, Table 15-22) -/

section
variable {w : Wr} {s : State}

/-- A compute die. -/
def isComputeDie : Die → Bool
  | .cd _ => true
  | _ => false
/-- No reset of this scope is at a far die: there is no such scope, a host die has no clusters and no tile domain, or the unit is past
the last tile of a cluster or the last core (Table 15-22). -/
def noScope (d : Die) (scope unit : Nat) : Bool :=
  decide (4 < scope ∨ (isComputeDie d = false ∧ (scope = 1 ∨ scope = 2)) ∨ (scope = 0 ∧ (if isComputeDie d then 12 else 48) ≤ unit))
theorem noScope_cd (n : Fin 4) (scope unit : Nat) :
    noScope (.cd n) scope unit = decide (4 < scope ∨ (scope = 0 ∧ 12 ≤ unit)) := by simp [noScope, isComputeDie]
theorem noScope_hd (k : Fin 2) (scope unit : Nat) :
    noScope (.hd k) scope unit = decide (4 < scope ∨ (scope = 1 ∨ scope = 2) ∨ (scope = 0 ∧ 48 ≤ unit)) := by
  simp [noScope, isComputeDie]
/-- The reset request register with the fields of a request written. -/
def State.resetAsked (s : State) (w : Wr) : State :=
  s.setReg .hub .fltResetReq 0 (writeFields .fltResetReq (s.reg .hub .fltResetReq 0) w.val)
/-- A reset request answered, its status shown in the register. -/
def State.resetSaid (s : State) (st : Status) : State := (s.setRf .hub .fltResetReq 0 59 56 st.code).answer st 0

variable (hg : s.gate .hub .fltResetReq w.pl w.ctx = .ok) (hgo : w.val.getLsbD 0 = true)
include hg hgo

theorem resetRequest_package_gives (hs : fld w.val 51 48 = 4) (hpl : w.pl = 0) :
    Gives (.resetRequest w) s
      (State.resetSaid { (s.resetAsked w).setRf .hub .fltResetCause 0 15 0 4 with resetDue := true } .ok) := by
  refine gives_of_done_eq rfl ?_
  rw [hg]
  exact (if_neg (by simp [hgo])).trans (if_pos ⟨hs, hpl⟩)

/-- The package is reset by privilege level 0 only. -/
theorem resetRequest_package_perm_gives (hs : fld w.val 51 48 = 4) (hpl : w.pl ≠ 0) :
    Gives (.resetRequest w) s ((s.resetAsked w).resetSaid .perm) := by
  refine gives_of_done_eq rfl ?_
  rw [hg]
  refine ((if_neg (by simp [hgo])).trans (if_neg fun h => hpl h.2)).trans ?_
  rw [hs]
  rfl

/-- No scope below the package is at the hub or at a die that there is not. -/
theorem resetRequest_noDie_perm_gives (hs : fld w.val 51 48 ≠ 4)
    (hd : Die.ofIdx (fld w.val 47 44) = none ∨ Die.ofIdx (fld w.val 47 44) = some .hub) :
    Gives (.resetRequest w) s ((s.resetAsked w).resetSaid .perm) := by
  refine gives_of_done_eq rfl ?_
  rw [hg]
  refine ((if_neg (by simp [hgo])).trans (if_neg fun h => hs h.1)).trans ?_
  split
  next h => exact absurd h hs
  next => rfl
  next => rfl
  next hne h _ =>
    obtain hd | hd := hd
    · cases hd.symm.trans h
    · exact absurd (Option.some.inj (hd.symm.trans h)).symm hne

section
variable {d : Die} (hs : fld w.val 51 48 ≠ 4) (hd : Die.ofIdx (fld w.val 47 44) = some d) (hne : d ≠ .hub)
include hs hd hne

/-- A request for a scope of a far die: refused, put off while contents are laid out again, or begun. -/
theorem resetRequest_far_done :
    exec (.resetRequest w) s = done s (
      if noScope d (fld w.val 51 48) (fld w.val 40 35) then (s.resetAsked w).resetSaid .perm
      else if isComputeDie d && decide (fld w.val 51 48 = 3) && s.relayout then (s.resetAsked w).resetSaid .busy
      else ((s.resetAsked w).rstBegin (rstOp (fld w.val 51 48) d (fld w.val 43 41) (fld w.val 40 35) true)).resetSaid .ok) := by
  refine gives_of_done_eq rfl ?_
  rw [hg]
  refine ((if_neg (by simp [hgo])).trans (if_neg fun h => hs h.1)).trans ?_
  split
  next h => exact absurd h hs
  next h _ => exact absurd (Option.some.inj (hd.symm.trans h)) hne
  next h _ => cases hd.symm.trans h
  next h _ =>
    obtain rfl := Option.some.inj (hd.symm.trans h)
    exact if_congr decide_eq_true_iff.symm rfl rfl

theorem resetRequest_noScope_gives (hn : noScope d (fld w.val 51 48) (fld w.val 40 35) = true) :
    Gives (.resetRequest w) s ((s.resetAsked w).resetSaid .perm) :=
  gives_of_done_eq (resetRequest_far_done hg hgo hs hd hne) (if_pos hn)

theorem resetRequest_relayout_gives (hn : noScope d (fld w.val 51 48) (fld w.val 40 35) = false)
    (hb : (isComputeDie d && decide (fld w.val 51 48 = 3) && s.relayout) = true) :
    Gives (.resetRequest w) s ((s.resetAsked w).resetSaid .busy) :=
  gives_of_done_eq (resetRequest_far_done hg hgo hs hd hne) ((if_neg (by simp [hn])).trans (if_pos hb))

theorem resetRequest_begun_gives (hn : noScope d (fld w.val 51 48) (fld w.val 40 35) = false)
    (hb : (isComputeDie d && decide (fld w.val 51 48 = 3) && s.relayout) = false) :
    Gives (.resetRequest w) s
      (((s.resetAsked w).rstBegin (rstOp (fld w.val 51 48) d (fld w.val 43 41) (fld w.val 40 35) true)).resetSaid .ok) :=
  gives_of_done_eq (resetRequest_far_done hg hgo hs hd hne) ((if_neg (by simp [hn])).trans (if_neg (by simp [hb])))

end

end

/-! ### Weirs and scopes (R307, R425, R428, R429) -/

section
variable {i : Nat} {s : State} {r : RstOp}

theorem weirDrainDone_done (hr : s.resets[i]? = some r) :
    let t := r.agents.foldl State.drainAgent s
    let c := { r with clean := true }
    exec (.weirDrainDone i) s = done s (if r.draining && t.rstQuiet r then
      ({ t with resets := t.resets.map fun x => if x = r then c else x } : State).rstApply c else s) :=
  gives_of_done_eq rfl (by rw [hr])

theorem weirDrainTimeout_gives (hr : s.resets[i]? = some r) (hd : r.draining = true) :
    let late := r.agents.filter fun a => !s.drained a
    let b := { r with downed := late }
    Gives (.weirDrainTimeout i) s ((late.foldl (fun x a => x.markDown a)
      ((({ s with resets := s.resets.map fun x => if x = r then b else x } : State).raise .hub 8 (r.die.idx * 256 + r.scope)).raise
        r.die 8 r.scope)).rstApply b) :=
  gives_of_done_eq rfl (by rw [hr]; exact if_neg (by simp [hd]))

theorem scopeResetDone_gives {n : Fin 4} (bad : SelfTest) (hr : s.resets[i]? = some r) (hd : r.draining = false) (hs : r.scope < 3)
    (hn : r.die = .cd n) :
    let t := s.rstDrop fun x => decide (x = r)
    let u := if r.scope = 2 then (t.tileUp n).chanTest (.cd n) bad.chans else t
    Gives (.scopeResetDone i bad) s ((bad.tiles.filter fun k => decide (k.1 = n.val) && r.tiles.any fun x => decide (s.localIndex x = k.2)).foldl
      (fun x k => x.retireTile n k.2) (u.marksUp (if r.scope = 2 then r.agents else r.downed))) := by
  refine gives_of_done_eq rfl ?_
  have hg : ¬ ((r.draining || decide (3 ≤ r.scope)) = true) := by simpa [hd] using hs
  rw [hr]
  dsimp only
  rw [if_neg hg, hn]

end

/-! ### Losing a die and its return (R307, R432, R433, R435) -/

section
variable {d : Die} {s : State}

theorem cutOff_of_links_down (hd : s.dom d false = 2) (hu : ∀ k ∈ linksOf d, s.linkUp k = false)
    (hf : ∃ k ∈ linksOf d, (s.linkReg k).getLsbD 30 = true)
    (hr : ∀ r ∈ s.resets, ¬ (r.scope = 3 ∧ r.draining = false ∧ r.die = d)) : s.cutOff d = true := by
  have hj : s.resets.any (rejoining d) = false := by
    simpa [rejoining, and_assoc] using hr
  simp only [State.cutOff, Bool.and_eq_true, List.all_eq_true, List.any_eq_true, Bool.not_eq_true', decide_eq_true_eq]
  exact ⟨⟨⟨hd, hu⟩, hf⟩, hj⟩

theorem cutOff_of_link_up (hu : ∃ k ∈ linksOf d, s.linkUp k = true) : s.cutOff d = false := by
  obtain ⟨k, hk, hu⟩ := hu
  have hall : (linksOf d).all (fun k => !s.linkUp k) = false := List.all_eq_false.mpr ⟨k, hk, by simp [hu]⟩
  simp [State.cutOff, hall]

theorem dieLost_none_gives (hc : s.cutOff d = false) : Gives (.dieLost d) s s := gives_of_done_eq rfl (if_pos hc)

theorem dieLost_hub_gives (hc : s.cutOff .hub = true) : Gives (.dieLost .hub) s { s with resetDue := true } :=
  gives_of_done_eq rfl (by rw [if_neg (by simp [hc]), if_pos rfl])

theorem dieLost_far_gives (hc : s.cutOff d = true) (hd : d ≠ .hub) : Gives (.dieLost d) s (s.dieLose d) :=
  gives_of_done_eq rfl (by rw [if_neg (by simp [hc]), if_neg hd])

theorem poisonFillDone_gives {n : Fin 4} (hl : n.val ∈ s.lostMem) (hd : s.dom (.cd n) false = 2) :
    let ps := (upFrom (128 * n.val) 128).filter fun p => decide (3 ≤ aGet s.pchKeep 0 p)
    Gives (.poisonFillDone (.cd n)) s
      { ps.foldl (fun x p => x.fillPch p true) s with lostMem := s.lostMem.filter fun k => decide (k ≠ n.val) } :=
  gives_of_done_eq rfl (if_pos (by simp [hl, hd]))

/-- The guard of a rejoin: a partition that is being brought back, running, with its links trained. -/
theorem dieRejoin_guard (hd : s.dom d false = 2) (hl : s.dieLinked d = true)
    (hr : ∃ r ∈ s.resets, r.scope = 3 ∧ r.draining = false ∧ r.die = d) :
    ¬ (s.resets.filter (rejoining d) = [] ∨ s.dom d false ≠ 2 ∨ s.dieLinked d = false) := by
  obtain ⟨r, hmem, hs, hdr, hdie⟩ := hr
  have hne : s.resets.filter (rejoining d) ≠ [] :=
    List.ne_nil_of_mem (List.mem_filter.mpr ⟨hmem, by simp [rejoining, hs, hdr, hdie]⟩)
  simp [hne, hd, hl]

theorem dieRejoin_compute_gives {n : Fin 4} (hd : s.dom (.cd n) false = 2) (hl : s.dieLinked (.cd n) = true)
    (hr : ∃ r ∈ s.resets, r.scope = 3 ∧ r.draining = false ∧ r.die = .cd n) (hm : n.val ∉ s.lostMem)
    (ht : s.dom (.cd n) true = 2 ∨ s.dom (.cd n) true = 4) :
    Gives (.dieRejoin (.cd n)) s
      (((((s.rstDrop fun r => decide (r.scope = 3 ∧ r.die = .cd n)).pchBack (2 * n.val)).pchBack (2 * n.val + 1)).marksUp
        (upFrom (8 * n.val) 8)).recoverySettle) := by
  have hg : ¬ ((s.lostMem.contains n.val || decide (s.dom (.cd n) true ≠ 2 ∧ s.dom (.cd n) true ≠ 4)) = true) := by
    have hd' : ¬ (s.dom (.cd n) true ≠ 2 ∧ s.dom (.cd n) true ≠ 4) := by omega
    simp [hm, hd']
  exact gives_of_done_eq rfl ((if_neg (dieRejoin_guard hd hl hr)).trans (if_neg hg))

theorem dieRejoin_host_gives {k : Fin 2} (hd : s.dom (.hd k) false = 2) (hl : s.dieLinked (.hd k) = true)
    (hr : ∃ r ∈ s.resets, r.scope = 3 ∧ r.draining = false ∧ r.die = .hd k) :
    Gives (.dieRejoin (.hd k)) s
      (((s.rstDrop fun r => decide (r.scope = 3 ∧ r.die = .hd k)).marksUp [32 + k.val]).recoverySettle) :=
  gives_of_done_eq rfl (if_neg (dieRejoin_guard hd hl hr))

end

/-! ### The rows together -/

/-- Settles O55: each command's row under its guard, with the alignment of timestamp copies and the version negotiated. -/
theorem linksAndResets : Obligations.LinksAndResets := by
  unfold Obligations.LinksAndResets
  refine ⟨⟨?crc, ?retrain, ?training, ?align, ?version, ?fence, ?badCrc, ?portRetrain⟩, ?request, ?weir, ?scope, ?lost, ?poison, ?rejoin⟩
  case crc =>
    intro k m lane s hk hm hl hu
    exact ⟨linkCrcError_permanent_gives hk hm hl hu, linkCrcError_replayed_gives hk hm hl hu⟩
  case retrain =>
    intro k m bad a b s hk hm hu
    exact ⟨linkRetrain_fails_gives bad hk hm hu, linkRetrain_ends_dead_gives bad a b hk hm hu,
      linkRetrain_ends_noVer_gives bad a b hk hm hu, fun hd _ => linkRetrain_ends_agreed_gives bad a b hk hm hu hd⟩
  case training =>
    intro k a b s hk hl ha hb
    exact ⟨linkTraining_noVer_gives hk hl ha hb, fun _ => linkTraining_agreed_gives hk hl ha hb⟩
  case align =>
    intro k s d hd
    rw [alignAt_of_mem_aligns hd]
    exact ⟨alignDie_aligned s d.1 d.2, alignDie_ready s (bit_lt_of_mem_aligns hd)⟩
  case version =>
    intro a b v _ _ h
    obtain ⟨i, j, hi, hj, hv⟩ := offered_of_agree h
    refine ⟨i, j, hi, hj, hv, fun m i' j' hi' hj' => ?_⟩
    obtain ⟨v', hv', hm⟩ := le_agree_of_offered hi' hj'
    exact Option.some.inj (hv'.symm.trans h) ▸ hm
  case fence => exact fun k s => linkFence_gives
  case badCrc =>
    intro q lane n s hu hl
    exact ⟨millraceBadCrc_hot_gives hu hl, millraceBadCrc_counted_gives hu hl⟩
  case portRetrain =>
    intro q bad peer s hu
    exact ⟨mrcPortRetrain_down_gives hu, mrcPortRetrain_noVer_gives hu, fun ht _ => mrcPortRetrain_agreed_gives hu ht⟩
  case request =>
    intro w s hg hgo
    refine ⟨resetRequest_package_gives hg hgo, resetRequest_package_perm_gives hg hgo, resetRequest_noDie_perm_gives hg hgo, ?_, ?_, ?_, ?_, ?_⟩
    · intro n hd h3 hu hb
      have hn : noScope (.cd n) (fld w.val 51 48) (fld w.val 40 35) = false := by rw [noScope_cd, decide_eq_false]; omega
      exact resetRequest_begun_gives hg hgo (by omega) hd (by simp) hn (by simpa [isComputeDie] using hb)
    · intro n hd hbad
      exact resetRequest_noScope_gives hg hgo (by omega) hd (by simp) (by rw [noScope_cd, decide_eq_true hbad])
    · intro n hd h3 hb
      have hn : noScope (.cd n) (fld w.val 51 48) (fld w.val 40 35) = false := by rw [noScope_cd, decide_eq_false]; omega
      exact resetRequest_relayout_gives hg hgo (by omega) hd (by simp) hn (by simp [isComputeDie, h3, hb])
    · intro k hd hok
      have hn : noScope (.hd k) (fld w.val 51 48) (fld w.val 40 35) = false := by rw [noScope_hd, decide_eq_false]; omega
      exact resetRequest_begun_gives hg hgo (by omega) hd (by simp) hn (by simp [isComputeDie])
    · intro k hd hbad
      have hn : noScope (.hd k) (fld w.val 51 48) (fld w.val 40 35) = true := by rw [noScope_hd, decide_eq_true]; omega
      exact resetRequest_noScope_gives hg hgo (by omega) hd (by simp) hn
  case weir =>
    intro i s r hr hd
    exact ⟨fun hq => gives_of_done_eq (weirDrainDone_done hr) (if_pos (by simp [hd, hq])),
      fun hq => gives_of_done_eq (weirDrainDone_done hr) (if_neg (by simp [hq])), weirDrainTimeout_gives hr hd⟩
  case scope => exact fun i bad s r n => scopeResetDone_gives bad
  case lost =>
    intro d s hd
    refine ⟨fun hu hf hr => ?_, fun hu => dieLost_none_gives (cutOff_of_link_up hu)⟩
    have hc := cutOff_of_links_down hd hu hf hr
    exact ⟨dieLost_far_gives hc, fun hh => by subst hh; exact dieLost_hub_gives hc⟩
  case poison => exact fun n s => poisonFillDone_gives
  case rejoin =>
    intro d s hd hl hr
    constructor
    · rintro n rfl hm ht
      exact dieRejoin_compute_gives hd hl hr hm ht
    · rintro k rfl
      exact dieRejoin_host_gives hd hl hr

end Sys2Proof.Machine
end

section
/-!
Control space (Chapters 00 and 01): the values that registers hold when the always-on supply is applied, what refuses an access, and
what a write changes.
-/

namespace Sys2Proof.Machine
open Sys2Proof

/-- Every register of the map stands in the list that an access is looked up in. -/
theorem mem_regNames (n : RegName) : n ∈ regNames := by cases n <;> decide

/-! ### Reset values (R34, R40) -/

theorem reg_reset (d : Die) (n : RegName) (i : Nat) : State.reset.reg d n i = regReset State.reset.fuse ⟨d, n, i⟩ := rfl

/-- A register whose value neither its die nor its source fixes starts with the reset values of its table's fields. -/
theorem reg_reset_of_fields {n : RegName} (hd : n ≠ .hubDieId) (hr : n ≠ .fltReact) (hm : n ≠ .memRetireCtrl) (d : Die) (i : Nat) :
    State.reset.reg d n i = BitVec.ofNat 64 ((regInfo n).fields.foldl (fun a x => a + x.rst * 2 ^ x.lo) 0) := by
  rw [reg_reset, regReset]
  split
  case h_1 h => exact absurd h hr
  case h_2 h => exact absurd h hm
  case h_3 h => exact absurd h hd
  case h_4 => rfl

/-- In every table the reset values fit their fields and the fields are apart, so that each reads back from the register. -/
theorem fld_resetFields (n : RegName) : ∀ f ∈ (regInfo n).fields,
    fld (BitVec.ofNat 64 ((regInfo n).fields.foldl (fun a x => a + x.rst * 2 ^ x.lo) 0)) f.hi f.lo = f.rst := by
  cases n <;> decide

theorem ite_lt {c : Prop} [Decidable c] {a b n : Nat} (ha : a < n) (hb : b < n) : (if c then a else b) < n := by
  split <;> assumption

/-- A default reaction fits the five bits of FLT_REACT. -/
theorem defaultReact_lt (d : Die) (src : Nat) : defaultReact d src < 32 := by
  cases d <;> dsimp only [defaultReact]
  all_goals repeat' apply ite_lt
  all_goals decide

theorem rf_reset_fltReact (d : Die) (i : Nat) : State.reset.rf d .fltReact i 4 0 = defaultReact d i := by
  have h := defaultReact_lt d i
  calc State.reset.rf d .fltReact i 4 0 = (BitVec.ofNat 64 (defaultReact d i)).toNat % 32 := rfl
    _ = defaultReact d i := by rw [BitVec.toNat_ofNat]; omega

theorem rf_reset_memRetireCtrl (i : Nat) : State.reset.rf .hub .memRetireCtrl i 63 48 = 32768 := by
  change fld (BitVec.ofNat 64 (32768 * 2 ^ 48)) 63 48 = 32768
  decide

/-- Settles O44: nothing is listed in the reset state, so every register reads as its table's reset value. -/
theorem resetState : Obligations.ResetState := by
  refine ⟨rfl, rfl, rfl, rfl, ?_, rf_reset_fltReact, rf_reset_memRetireCtrl⟩
  intro d n i hd hr hm f hf
  rw [State.rf, reg_reset_of_fields hd hr hm]
  exact fld_resetFields n f hf

section
variable {s : State} {d : Die} {n : RegName} {idx pl ctx off size : Nat} {val : W64}

/-! ### Answers -/

theorem answerTo_of_ne_held (s : State) (c : Instr) {st : Status} (v : W64) (h : st ≠ .held) : s.answerTo c st v = s.answer st v :=
  if_neg h
/-- An access that waits for the exit of a power state, and is a wake (R403). -/
def State.holdBack (s : State) (c : Instr) : State := { s with held := s.held ++ [c] }.wakeIf 6 0
theorem answerTo_held (s : State) (c : Instr) (v : W64) : s.answerTo c .held v = s.holdBack c := if_pos rfl

/-! ### Stores (R41, R42) -/

/-- The state in which a register holds what it makes of a written value; a counter takes a free value to tell whether an increment
met the write (R18). -/
def State.stored (s : State) (d : Die) (n : RegName) (key pl ctx : Nat) (val : W64) : State :=
  { s.setReg d n key (s.counterWrite n (s.ctlValue d n key pl ctx val).2) with
    free := if isCounter n = true then s.free + 1 else s.free }

theorem ctlStore_of_gate_ne_ok (h : s.gate d n pl ctx ≠ .ok) : s.ctlStore d n idx pl ctx val = (s.gate d n pl ctx, s) := by
  unfold State.ctlStore
  split
  · contradiction
  · rfl

theorem ctlStore_of_value_ne_ok (hg : s.gate d n pl ctx = .ok) (hv : (s.ctlValue d n (s.regKey d n idx pl) pl ctx val).1 ≠ .ok) :
    s.ctlStore d n idx pl ctx val = ((s.ctlValue d n (s.regKey d n idx pl) pl ctx val).1, s) := by
  unfold State.ctlStore
  rw [hg]
  dsimp only
  split
  · contradiction
  · rfl

theorem ctlStore_taken (hg : s.gate d n pl ctx = .ok) (hv : (s.ctlValue d n (s.regKey d n idx pl) pl ctx val).1 = .ok) :
    s.ctlStore d n idx pl ctx val = (.ok, if n = .pwrRtcAlarm then (s.stored d n (s.regKey d n idx pl) pl ctx val).alarmCheck
      else s.stored d n (s.regKey d n idx pl) pl ctx val) := by
  unfold State.ctlStore
  rw [hg]
  dsimp only
  rw [hv]
  dsimp only
  split
  case h_1 => rfl
  case h_2 hn => rw [if_neg hn]; rfl

/-- No register holds the access up: waiting is the gate's alone (R403). -/
theorem ctlValue_ne_held (s : State) (d : Die) (n : RegName) (key pl ctx : Nat) (val : W64) :
    (s.ctlValue d n key pl ctx val).1 ≠ .held := by
  unfold State.ctlValue
  dsimp only
  repeat' split
  all_goals exact nofun

/-! ### Writes of a place that holds a register -/

section
variable {w : CtlWrite}

theorem regWrite_reg (hf : ctlFind w.die w.off w.size = .reg n idx)
    (ho : ownRow n (s.reg w.die n (s.regKey w.die n idx w.pl)) w.val = false) :
    s.regWrite w = let r := (s.touch w.die n).ctlStore w.die n idx w.pl w.ctx w.val; r.2.answerTo (.registerWrite w) r.1 0 := by
  rw [State.regWrite, hf]
  exact if_neg (by simp [ho])

theorem registerWrite_gives {e : State} (h : s.regWrite w = e) : Gives (.registerWrite w) s e := gives_of_done_eq rfl h

/-- What REGISTER_WRITE answers where its register has been found, by what the gate and the register say. -/
theorem registerWrite_reg_gives (hf : ctlFind w.die w.off w.size = .reg n idx)
    (ho : ownRow n (s.reg w.die n (s.regKey w.die n idx w.pl)) w.val = false) {r : Status × State}
    (hr : (s.touch w.die n).ctlStore w.die n idx w.pl w.ctx w.val = r) (hh : r.1 ≠ .held) :
    Gives (.registerWrite w) s (r.2.answer r.1 0) := by
  refine registerWrite_gives ?_
  rw [regWrite_reg hf ho, hr]
  exact answerTo_of_ne_held _ _ _ hh

theorem registerWrite_held_gives (hf : ctlFind w.die w.off w.size = .reg n idx)
    (ho : ownRow n (s.reg w.die n (s.regKey w.die n idx w.pl)) w.val = false)
    (hg : (s.touch w.die n).gate w.die n w.pl w.ctx = .held) :
    Gives (.registerWrite w) s ((s.touch w.die n).holdBack (.registerWrite w)) := by
  refine registerWrite_gives ?_
  rw [regWrite_reg hf ho, ctlStore_of_gate_ne_ok (by rw [hg]; exact nofun), hg]
  exact answerTo_held _ _ _

/-! ### Places that hold no register (R41) -/

theorem regWrite_none {bad : Bool} (hf : ctlFind w.die w.off w.size = if bad then .bad else .free) :
    s.regWrite w = (s.ctlTouch w.die w.off).answerTo (.registerWrite w) (s.ctlNone w.die w.off w.pl w.ctx bad) 0 := by
  unfold State.regWrite
  rw [hf]
  cases bad <;> rfl

end

theorem ctlRead1_none {bad : Bool} (hf : ctlFind d off size = if bad then .bad else .free) :
    s.ctlRead1 d off size pl ctx = (s.ctlNone d off pl ctx bad, 0) := by
  unfold State.ctlRead1
  rw [hf]
  cases bad <;> rfl

theorem ctlTouch_of_group (h : ctlGroup d off = some n) (s : State) : s.ctlTouch d off = s.touch d n := by
  rw [State.ctlTouch, h]
theorem ctlTouch_of_no_group (h : ctlGroup d off = none) (s : State) : s.ctlTouch d off = s := by
  rw [State.ctlTouch, h]

theorem ctlNone_of_no_group (h : ctlGroup d off = none) (s : State) (bad : Bool) :
    s.ctlNone d off pl ctx bad =
      if s.ctlUp d false = false then .unav else if bad = true ∨ (ctx = 0 ∧ pl ≠ 0) then .perm else .ok := by
  simp [State.ctlNone, h]

theorem ctlNone_asleep (h : ctlGroup d off = some n) (ha : s.asleep d (regInfo n).tileDom = true) (bad : Bool) :
    s.ctlNone d off pl ctx bad = .held := by
  simp [State.ctlNone, h, ha]

theorem ctlNone_awake (h : ctlGroup d off = some n) (ha : s.asleep d (regInfo n).tileDom = false) (bad : Bool) :
    s.ctlNone d off pl ctx bad =
      if s.ctlUp d (regInfo n).tileDom = false then .unav
      else if (regInfo n).minPL < pl ∨ bad = true ∨ (ctx = 0 ∧ pl ≠ 0) then .perm else .ok := by
  simp [State.ctlNone, h, ha, ite_or]

/-- An access that is refused in two ways, or not at all, is not one that waits. -/
theorem refusal_ne_held (p q : Prop) [Decidable p] [Decidable q] :
    (if p then Status.unav else if q then .perm else .ok) ≠ .held := by
  split_ifs <;> exact nofun

end

/-- Settles O42: the gate and the register decide, in that order, what a write of a register answers; the group alone what a write of a
place without one does. -/
theorem registerWriteEffects : Obligations.RegisterWriteEffects := by
  intro w s
  constructor
  · intro n idx hf v key r t ho
    refine ⟨fun hg hv hn => ?_, fun hg hv hn => ?_, fun hg hv => ?_, fun hg hh => ?_, registerWrite_held_gives hf ho⟩
    · exact registerWrite_reg_gives hf ho ((ctlStore_taken hg hv).trans (congrArg (Prod.mk _) (if_neg hn))) nofun
    · exact registerWrite_reg_gives hf ho ((ctlStore_taken hg hv).trans (congrArg (Prod.mk _) (if_pos hn))) nofun
    · exact registerWrite_reg_gives hf ho (ctlStore_of_value_ne_ok hg hv) (ctlValue_ne_held _ _ _ _ _ _ _)
    · exact registerWrite_reg_gives hf ho (ctlStore_of_gate_ne_ok hg) hh
  · intro bad hf
    constructor
    · intro hg
      refine registerWrite_gives ?_
      rw [regWrite_none hf, ctlTouch_of_no_group hg, ctlNone_of_no_group hg]
      exact answerTo_of_ne_held _ _ _ (refusal_ne_held _ _)
    · intro n hg st
      refine ⟨fun ha => ⟨?_, registerWrite_gives ?_⟩, fun ha => registerWrite_gives ?_⟩
      · rw [ctlRead1_none hf, ctlNone_awake hg ha]
      · rw [regWrite_none hf, ctlTouch_of_group hg, ctlNone_awake hg ha]
        exact answerTo_of_ne_held _ _ _ (refusal_ne_held _ _)
      · rw [regWrite_none hf, ctlTouch_of_group hg, ctlNone_asleep hg ha]
        exact answerTo_held _ _ _

section
variable {s : State} {d : Die} {n : RegName} {idx pl ctx off size : Nat} {val : W64}

/-! ### Accesses from a less privileged level (R42) -/

/-- Dies of one kind hold the same registers. -/
def dieKind : Die → Die
  | .hub => .hub
  | .hd _ => .hd 0
  | .cd _ => .cd 0

theorem here_dieKind (i : RegInfo) (d : Die) : i.here (dieKind d) = i.here d := by cases d <;> rfl

/-- The level of a register group: that of the first register of the map that stands in it. -/
def groupLevel (d : Die) (g : Nat) : Option Nat :=
  (regNames.find? fun n => (regInfo n).here d && decide ((regInfo n).off / 4096 = g)).map fun n => (regInfo n).minPL

theorem groupLevel_of_kind : ∀ d ∈ [Die.hub, .hd 0, .cd 0], ∀ n ∈ regNames, (regInfo n).here d = true →
    groupLevel d ((regInfo n).off / 4096) = some (regInfo n).minPL := by
  decide +kernel

theorem groupLevel_eq {d : Die} {n : RegName} (hn : (regInfo n).here d = true) :
    groupLevel d ((regInfo n).off / 4096) = some (regInfo n).minPL := by
  have h := groupLevel_of_kind (dieKind d) (by cases d <;> simp [dieKind]) n (mem_regNames n)
  simpa [groupLevel, here_dieKind, hn] using h

theorem minPL_of_same_group (d : Die) (n m : RegName) (hn : (regInfo n).here d = true) (hm : (regInfo m).here d = true)
    (ho : (regInfo n).off / 4096 = (regInfo m).off / 4096) : (regInfo n).minPL = (regInfo m).minPL :=
  Option.some.inj ((groupLevel_eq hn).symm.trans (ho ▸ groupLevel_eq hm))

theorem wakeIf_eq_self (ht : s.pwrTry = none) (h0 : s.pwrTarget = 0) (src detail : Nat) : s.wakeIf src detail = s := by
  simp [State.wakeIf, ht, h0]

theorem touch_eq_self (ht : s.pwrTry = none) (h0 : s.pwrTarget = 0) (d : Die) (n : RegName) : s.touch d n = s := by
  unfold State.touch
  split
  · split
    · exact wakeIf_eq_self ht h0 6 0
    · rfl
  · rfl

theorem ctlTouch_eq_self (ht : s.pwrTry = none) (h0 : s.pwrTarget = 0) (d : Die) (off : Nat) : s.ctlTouch d off = s := by
  unfold State.ctlTouch
  split
  · exact touch_eq_self ht h0 _ _
  · rfl

theorem gate_of_less (ha : s.asleep d (regInfo n).tileDom = false) (hu : s.ctlUp d (regInfo n).tileDom = true)
    (hp : (regInfo n).minPL < pl) : s.gate d n pl ctx = .perm := by
  simp [State.gate, ha, hu, hp]

theorem groupOf_of_reg (h : ctlFind d off size = .reg n idx) : groupOf d off size = some n := by
  rw [groupOf, h]

theorem groupOf_of_none {bad : Bool} (h : ctlFind d off size = if bad then .bad else .free) : groupOf d off size = ctlGroup d off := by
  unfold groupOf
  rw [h]
  cases bad <;> rfl

/-- An access lands on a register or on a place without one. -/
theorem ctlFind_cases (d : Die) (off size : Nat) :
    (∃ n idx, ctlFind d off size = .reg n idx) ∨ ∃ bad : Bool, ctlFind d off size = if bad then .bad else .free := by
  cases ctlFind d off size with
  | reg n idx => exact .inl ⟨n, idx, rfl⟩
  | bad => exact .inr ⟨true, rfl⟩
  | free => exact .inr ⟨false, rfl⟩

theorem ctlNone_of_less {bad : Bool} (hg : ctlGroup d off = some n) (ha : s.asleep d (regInfo n).tileDom = false)
    (hu : s.ctlUp d (regInfo n).tileDom = true) (hp : (regInfo n).minPL < pl) : s.ctlNone d off pl ctx bad = .perm := by
  rw [ctlNone_awake hg ha, if_neg (by simp [hu]), if_pos (.inl hp)]

/-- A read from below its group's level returns zero with PERM, wherever in the group it lands. -/
theorem ctlRead1_of_less (hg : groupOf d off size = some n) (ha : s.asleep d (regInfo n).tileDom = false)
    (hu : s.ctlUp d (regInfo n).tileDom = true) (hp : (regInfo n).minPL < pl) :
    s.ctlRead1 d off size pl ctx = (.perm, 0) := by
  obtain ⟨r, idx, hf⟩ | ⟨bad, hf⟩ := ctlFind_cases d off size
  · obtain rfl : r = n := Option.some.inj ((groupOf_of_reg hf).symm.trans hg)
    rw [State.ctlRead1, hf]
    dsimp only
    rw [State.ctlReadReg, gate_of_less ha hu hp]
  · rw [groupOf_of_none hf] at hg
    rw [ctlRead1_none hf, ctlNone_of_less hg ha hu hp]

/-- REGISTER_WRITE from below its group's level has no effect. -/
theorem registerWrite_of_less (hg : groupOf d off size = some n) (ha : s.asleep d (regInfo n).tileDom = false)
    (hu : s.ctlUp d (regInfo n).tileDom = true) (hp : (regInfo n).minPL < pl) (ht : s.pwrTry = none) (h0 : s.pwrTarget = 0)
    (ho : ∀ r idx, ctlFind d off size = .reg r idx → ownRow r (s.reg d r (s.regKey d r idx pl)) val = false) :
    Gives (.registerWrite ⟨d, off, size, pl, ctx, val⟩) s (s.answer .perm 0) := by
  obtain ⟨r, idx, hf⟩ | ⟨bad, hf⟩ := ctlFind_cases d off size
  · obtain rfl : r = n := Option.some.inj ((groupOf_of_reg hf).symm.trans hg)
    have hgate : s.gate d r pl ctx = .perm := gate_of_less ha hu hp
    refine registerWrite_reg_gives (w := ⟨d, off, size, pl, ctx, val⟩) (r := (.perm, s)) hf (ho r idx hf) ?_ nofun
    rw [touch_eq_self ht h0, ctlStore_of_gate_ne_ok (by simp [hgate]), hgate]
  · rw [groupOf_of_none hf] at hg
    refine registerWrite_gives ?_
    rw [regWrite_none hf, ctlTouch_eq_self ht h0, ctlNone_of_less hg ha hu hp]
    rfl

/-! ### Writes of a register that have a command of their own -/

/-- The write `w` of register `n` comes from below the level of its group, in N0 with no entry to a state tried. -/
structure LessPrivileged (s : State) (w : Wr) (n : RegName) : Prop where
  here : (regInfo n).here w.die = true
  noTry : s.pwrTry = none
  noTarget : s.pwrTarget = 0
  awake : s.asleep w.die (regInfo n).tileDom = false
  up : s.ctlUp w.die (regInfo n).tileDom = true
  less : (regInfo n).minPL < w.pl

namespace LessPrivileged

variable {w : Wr}

theorem touch (h : LessPrivileged s w n) : s.touch w.die n = s := touch_eq_self h.noTry h.noTarget _ _
theorem gate (h : LessPrivileged s w n) : s.gate w.die n w.pl w.ctx = .perm := gate_of_less h.awake h.up h.less
theorem store (h : LessPrivileged s w n) : s.ctlStore w.die n idx w.pl w.ctx val = (.perm, s) := by
  rw [ctlStore_of_gate_ne_ok (by simp [h.gate]), h.gate]

/-- A register that only the hub holds is written there. -/
theorem hubDie (h : LessPrivileged s w n) (hc : (regInfo n).inCd = false) (hd : (regInfo n).inHd = false) : w.die = .hub := by
  have := h.here
  cases hw : w.die <;> simp [hw, RegInfo.here, hc, hd] at this ⊢
theorem hubGate (h : LessPrivileged s w n) (hc : (regInfo n).inCd = false) (hd : (regInfo n).inHd = false) :
    s.gate .hub n w.pl w.ctx = .perm := h.hubDie hc hd ▸ h.gate
/-- A register that only the compute dies hold is written there. -/
theorem computeDie (h : LessPrivileged s w n) (hh : (regInfo n).inHub = false) (hd : (regInfo n).inHd = false) :
    ∃ k, w.die = .cd k := by
  have := h.here
  cases hw : w.die <;> simp [hw, RegInfo.here, hh, hd] at this ⊢

end LessPrivileged

section
variable {w : Wr}

/-! #### The operations that several rows share -/

theorem cptStart_of_less (h : LessPrivileged s w .cptCmd) (op : Nat) (f : State → Nat → Nat → Nat → State) :
    s.cptStart w op f = s.answer .perm 0 := by
  rw [State.cptStart, h.hubGate rfl rfl]

theorem dmaCtl_of_less (h : LessPrivileged s w .dmaCtrl) (c : Instr) (a : Nat) (f : State → Nat → State) :
    s.dmaCtl w c a f = s.answer .perm 0 := by
  rw [State.dmaCtl, h.touch, h.gate]
  rfl

theorem eqOpWrite_of_less (h : LessPrivileged s w .eqOp) (c : Instr) (f : State → Nat → Except Wait State) :
    s.eqOpWrite w c f = s.answer .perm 0 := by
  rw [State.eqOpWrite, h.touch, h.gate]
  rfl

theorem preWrite_of_less (h : LessPrivileged s w .cqPreempt) (c : Instr) {op : Nat} (ho : opIs 55 52 op w = true)
    (f : State → Fin 4 → PreOp → Except Wait State) : s.preWrite w c op f = s.answer .perm 0 := by
  obtain ⟨k, hk⟩ := h.computeDie rfl rfl
  have hst : (s.touch w.die .cqPreempt).ctlStore w.die .cqPreempt 0 w.pl w.ctx w.val = (.perm, s) := by rw [h.touch, h.store]
  unfold State.preWrite
  rw [hst]
  simp [hk, of_decide_eq_true ho, State.answerTo]

theorem snapWrite_of_less (h : LessPrivileged s w .mrcSnapCmd) {op : Nat} (ho : opIs 55 52 op w = true)
    (f : State → W64 → Except Wait (Status × Option Nat × State)) : s.snapWrite w op f = s.answer .perm 0 := by
  rw [State.snapWrite, if_neg (not_not_intro (of_decide_eq_true ho)), h.store]

theorem pwrRequest_of_less (h : LessPrivileged s w .pwrStateCtrl) (target : Nat) : s.pwrRequest w target = s.answer .perm 0 := by
  rw [State.pwrRequest, h.hubGate rfl rfl]

theorem fltClear_of_less (h : LessPrivileged s w .fltCtrl) (bit : Nat) : s.fltClear w bit = s.answer .perm 0 := by
  rw [State.fltClear, h.gate]

theorem wdtWrite_of_less (h : LessPrivileged s w .fltWdt) (bit : Nat) : s.wdtWrite w bit = s.answer .perm 0 := by
  rw [State.wdtWrite, h.hubGate rfl rfl]

/-- A bit, as an operation field of its own. -/
theorem fld_bit (x : W64) (i : Nat) : fld x i i = b2n (x.getLsbD i) := by
  apply Nat.eq_of_testBit_eq
  intro j
  rw [testBit_fld]
  cases j <;> cases x.getLsbD i <;> simp [b2n, Nat.testBit_succ]

theorem getLsbD_of_fld_bit {x : W64} {i k : Nat} (h : fld x i i = k) : x.getLsbD i = decide (k = 1) := by
  rw [fld_bit] at h
  subst h
  cases x.getLsbD i <;> rfl

theorem getLsbD_of_opIs {i k : Nat} (h : opIs i i k w = true) : w.val.getLsbD i = decide (k = 1) :=
  getLsbD_of_fld_bit (of_decide_eq_true h)

/-! #### The rows -/

/-- A row that a write from below its register's level leaves without effect. -/
def RefusesLess (r : WriteRow) : Prop :=
  ∀ (w : Wr) (s : State), LessPrivileged s w r.2.1 → r.2.2 w = true → Gives (r.1 w) s (s.answer .perm 0)

/-- Every row refuses a write from below its register's level: its meaning asks the gate before anything else. -/
theorem refusesLess_of_isWriteRow : ∀ r, IsWriteRow r → RefusesLess r := by
  rintro r (hr | hr | hr | hr | hr) <;> revert r <;>
    simp only [List.mem_cons, List.not_mem_nil, or_false, forall_eq_or_imp, forall_eq]
  · refine ⟨?burrDisable, ?burrEnable, ?samplerDisable, ?samplerEnable, ?bandModeWrite, ?pchThresholdClear, ?tgStart, ?retireGo⟩ <;>
      intro w s h ho
    case tgStart => exact gives_of_done_eq rfl (by rw [h.gate]; cases w.die <;> rfl)
    case pchThresholdClear => exact gives_of_done_eq rfl (by simp [h.store])
    case samplerDisable =>
      exact gives_of_done_eq rfl (by simp [State.smpOff, getLsbD_of_opIs ho, -BitVec.getLsbD_eq_getElem, h.touch, h.store, State.answerTo])
    case samplerEnable =>
      exact gives_of_done_eq rfl (by simp [State.smpOn, getLsbD_of_opIs ho, -BitVec.getLsbD_eq_getElem, h.touch, h.store, State.answerTo])
    case burrDisable => exact gives_of_done_eq rfl (by simp [getLsbD_of_opIs ho, -BitVec.getLsbD_eq_getElem, h.store])
    case burrEnable => exact gives_of_done_eq rfl (by simp [getLsbD_of_opIs ho, -BitVec.getLsbD_eq_getElem, h.store])
    all_goals exact gives_of_done_eq rfl (by rw [h.hubGate rfl rfl])
  · refine ⟨?cptWrite, ?writeSync, ?cptSync, ?cptRead, ?setRoot, ?fdtWrite, ?fdtSync, ?fdtRead, ?cdtWrite, ?cdtSync, ?cdtRead, ?xltInv⟩ <;>
      intro w s h _
    case xltInv => exact gives_of_done_eq rfl (by rw [h.hubGate rfl rfl])
    all_goals exact gives_of_done_eq rfl (cptStart_of_less h _ _)
  · refine ⟨?dmaGo, ?dmaResume, ?dmaAbort, ?dmaPause, ?dmaDisable, ?dmaEnable, ?cqDoorbell, ?cqEnable, ?cqDisable, ?eqEnable, ?eqDisable,
      ?eqPop, ?eqPush⟩ <;> intro w s h ho
    case cqDoorbell => exact gives_of_done_eq rfl (by simp [State.cqRing, h.gate, State.answerTo])
    case cqEnable => exact gives_of_done_eq rfl (by simp [State.cqOn, h.touch, h.gate, State.answerTo])
    case cqDisable => exact gives_of_done_eq rfl (by simp [State.cqOff, h.touch, h.gate, State.answerTo])
    case eqEnable => exact gives_of_done_eq rfl (by simp [State.eqOn, h.touch, h.gate, State.answerTo])
    case eqDisable => exact gives_of_done_eq rfl (by simp [State.eqOff, h.touch, h.gate, State.answerTo])
    case eqPop =>
      have hn : fld w.val 8 0 ≠ 0 := by simpa [opIs] using ho
      exact gives_of_done_eq rfl (by rw [State.eqPopWrite, if_neg (by simp [hn]), eqOpWrite_of_less h])
    case eqPush =>
      obtain ⟨hn, hp⟩ : fld w.val 8 0 = 0 ∧ fld w.val 9 9 = 1 := by simpa [opIs] using ho
      have hb : w.val.getLsbD 9 = true := getLsbD_of_fld_bit hp
      exact gives_of_done_eq rfl (by rw [State.eqPushWrite, hn, hb, if_neg (by simp), eqOpWrite_of_less h])
    all_goals exact gives_of_done_eq rfl (dmaCtl_of_less h _ _ _)
  · refine ⟨?preempt, ?preemptResume, ?restore, ?bsave, ?brestore, ?release, ?kill, ?sluiceCtrlWrite, ?mrcSqDoorbell, ?sqEnable, ?sqDisable,
      ?snapSave, ?snapRestore, ?snapDrop⟩ <;> intro w s h ho
    case sluiceCtrlWrite => exact gives_of_done_eq rfl (by rw [h.store])
    case mrcSqDoorbell => exact gives_of_done_eq rfl (by rw [h.gate])
    case sqEnable => exact gives_of_done_eq rfl (by rw [h.gate])
    case sqDisable => exact gives_of_done_eq rfl (by rw [h.gate])
    case snapSave => exact gives_of_done_eq rfl (snapWrite_of_less h ho _)
    case snapRestore => exact gives_of_done_eq rfl (snapWrite_of_less h ho _)
    case snapDrop => exact gives_of_done_eq rfl (snapWrite_of_less h ho _)
    all_goals exact gives_of_done_eq rfl (preWrite_of_less h _ ho _)
  · refine ⟨?targetWrite, ?pwrSnapTake, ?requestN3, ?requestN4, ?lattolWrite, ?faultClear, ?pkgclear, ?faultForce, ?aliveRestart, ?wdtEnable,
      ?wdtKick, ?tileRetire, ?resetRequest, ?fwConfirm, ?pinMuxWrite⟩ <;> intro w s h _
    case requestN3 => exact gives_of_done_eq rfl (pwrRequest_of_less h _)
    case requestN4 => exact gives_of_done_eq rfl (pwrRequest_of_less h _)
    case faultClear => exact gives_of_done_eq rfl (fltClear_of_less h _)
    case pkgclear => exact gives_of_done_eq rfl (fltClear_of_less h _)
    case faultForce => exact gives_of_done_eq rfl (by rw [h.gate])
    case wdtEnable => exact gives_of_done_eq rfl (wdtWrite_of_less h _)
    case wdtKick => exact gives_of_done_eq rfl (wdtWrite_of_less h _)
    case tileRetire => exact gives_of_done_eq rfl (by rw [h.gate]; cases w.die <;> rfl)
    all_goals exact gives_of_done_eq rfl (by rw [h.hubGate rfl rfl])

theorem tgAbort_of_perm (hg : s.gate w.die .tgCtrl w.pl w.ctx = .perm) (n : Nat) (l : List Disturb) :
    Gives (.tgAbort w n l) s (s.answer .perm 0) :=
  gives_of_done_eq rfl (by rw [hg]; cases w.die <;> rfl)

end

end

/-- Settles O41: the gate answers PERM before it looks at anything but the domain, so every row ends there. -/
theorem lessPrivilegedAccessesArePermission : Obligations.LessPrivilegedAccessesArePermission := by
  refine ⟨minPL_of_same_group, fun _ _ _ => rfl, ?_, ?_, ?_⟩
  · intro s d off size pl ctx n hg ha hu hp
    exact ⟨ctlRead1_of_less hg ha hu hp, fun val ht h0 ho => registerWrite_of_less hg ha hu hp ht h0 ho⟩
  · intro r hr w s hh hv ht h0 ha hu hp
    exact refusesLess_of_isWriteRow r hr w s ⟨hh, ht, h0, ha, hu, hp⟩ hv
  · intro w n l s _ ha hu hp
    exact tgAbort_of_perm (gate_of_less ha hu hp) n l

end Sys2Proof.Machine
end

section
/-!
The tick (Chapters 00, 01 and 14): what a clk_time counts while nothing is under way, and that the accesses of traffic generators leave
what it counts alone.
-/

namespace Sys2Proof.Machine
open Sys2Proof

/-! ### Generators leave the counts of time alone -/

/-- What the tick counts: the package timestamp, the tile cycles, the slack measurement and the work of the management cores. -/
def State.timeCounts (s : State) : W64 × AMap Nat W64 × FanAcc × List Nat := (s.now, s.cycles, s.fan, s.mgmtWork)

section
variable (s : State) (d : Die) (n : RegName) (r : TgRun) (p blk i kind : Nat)

theorem timeCounts_foldl {α : Type} {f : State → α → State} (hf : ∀ t x, (f t x).timeCounts = t.timeCounts) (l : List α) (s : State) :
    (l.foldl f s).timeCounts = s.timeCounts := by
  induction l generalizing s with
  | nil => rfl
  | cons x l ih => exact (ih (f s x)).trans (hf s x)

@[simp] theorem timeCounts_setReg (v : W64) : (s.setReg d n i v).timeCounts = s.timeCounts := rfl
@[simp] theorem timeCounts_setRf (hi lo v : Nat) : (s.setRf d n i hi lo v).timeCounts = s.timeCounts := rfl
@[simp] theorem timeCounts_count (k : Nat) : (s.count d n i k).timeCounts = s.timeCounts := rfl
@[simp] theorem timeCounts_raise (src info : Nat) : (s.raise d src info).timeCounts = s.timeCounts := rfl
@[simp] theorem timeCounts_setRun : (s.setRun r).timeCounts = s.timeCounts := rfl
@[simp] theorem timeCounts_tgEnd (st : Nat) : (s.tgEnd r st).timeCounts = s.timeCounts := rfl
@[simp] theorem timeCounts_setPoison (v : Bool) : (s.setPoison blk v).timeCounts = s.timeCounts := rfl
@[simp] theorem timeCounts_overwritten : (s.overwritten blk).timeCounts = s.timeCounts := rfl

@[simp] theorem timeCounts_movePch (st : Nat) : (s.movePch p st).timeCounts = s.timeCounts :=
  timeCounts_foldl (f := fun t r => State.tgEnd t r 3) (fun _ _ => rfl) _ (s.setPch p st)

@[simp] theorem timeCounts_markFailing (bit : Nat) : (s.markFailing p bit).timeCounts = s.timeCounts := by
  unfold State.markFailing
  dsimp only
  split <;> simp

@[simp] theorem timeCounts_noteCorrected : (s.noteCorrected p).timeCounts = s.timeCounts := by
  unfold State.noteCorrected
  dsimp only
  split
  · split
    · exact timeCounts_markFailing _ _ _
    · rfl
  · rfl

@[simp] theorem timeCounts_errRec : (s.errRec p blk kind).timeCounts = s.timeCounts := by
  unfold State.errRec
  dsimp only
  split <;> rfl

@[simp] theorem timeCounts_noteUncor : (s.noteUncor p blk kind).timeCounts = s.timeCounts := by
  have h : ((s.count (.cd (pchDie p)) .memUncorCnt (pchIdx p) 1).errRec p blk kind).timeCounts = s.timeCounts := by simp
  unfold State.noteUncor
  dsimp only
  generalize (if (aGet s.thuRows [] p).contains (blk / 16) = true then _ else _) = rows
  split
  · split
    · exact (timeCounts_markFailing _ _ _).trans h
    · exact h
  · exact h

@[simp] theorem timeCounts_notePoisoned : (s.notePoisoned p blk kind).timeCounts = s.timeCounts := by
  simp [State.notePoisoned]

@[simp] theorem timeCounts_writeBlock (v : BitVec 512) : (s.writeBlock p blk v).timeCounts = s.timeCounts := by
  rw [State.writeBlock, timeCounts_overwritten]
  exact timeCounts_foldl (by intros; rfl) _ _

@[simp] theorem timeCounts_tgMiss : (s.tgMiss r p blk).timeCounts = s.timeCounts := by
  unfold State.tgMiss
  dsimp only
  split <;> rfl

@[simp] theorem timeCounts_tgCompare (left : BitVec 512) : (s.tgCompare r p blk left).timeCounts = s.timeCounts := by
  unfold State.tgCompare
  split
  · rfl
  · exact timeCounts_tgMiss s r p blk

@[simp] theorem timeCounts_tgRead (reads : List Disturb) : (s.tgRead r p blk reads).1.timeCounts = s.timeCounts := by
  unfold State.tgRead
  dsimp only
  repeat' split
  all_goals simp

@[simp] theorem timeCounts_tgAccess (reads : List Disturb) : (s.tgAccess r reads).1.timeCounts = s.timeCounts := by
  unfold State.tgAccess
  dsimp only
  split <;> simp

end

theorem timeCounts_tgDo (k : Nat) (r : TgRun) (reads : List Disturb) (s : State) : (State.tgDo k r reads s).timeCounts = s.timeCounts := by
  induction k generalizing r reads s with
  | zero => rfl
  | succ k ih => exact (ih _ _ _).trans (timeCounts_tgAccess s r reads)

theorem timeCounts_tgTick (s : State) : s.tgTick.timeCounts = s.timeCounts := by
  refine timeCounts_foldl (fun t r => ?_) _ _
  split
  · exact timeCounts_tgDo 1 r [] t
  · rfl

theorem tgTick_now (s : State) : s.tgTick.now = s.now := congrArg (·.1) (timeCounts_tgTick s)
theorem tgTick_cycles (s : State) : s.tgTick.cycles = s.cycles := congrArg (·.2.1) (timeCounts_tgTick s)
theorem tgTick_fan (s : State) : s.tgTick.fan = s.fan := congrArg (·.2.2.1) (timeCounts_tgTick s)
theorem tgTick_mgmtWork (s : State) : s.tgTick.mgmtWork = s.mgmtWork := congrArg (·.2.2.2) (timeCounts_tgTick s)

theorem tgTick_of_no_runs {s : State} (h : s.tgRuns = []) : s.tgTick = s := by rw [State.tgTick, h]; rfl

/-- With one run the generators' part of the tick is that run's access, where it makes one. -/
theorem tgTick_of_one_run {s : State} {r : TgRun} (h : s.tgRuns = [r]) :
    s.tgTick = if s.running (.cd r.die) false = true ∧ (r.passes = 0 ∨ r.pos + 1 < r.total) then
      (s.tgAccess r []).1.setRun (s.tgAccess r []).2.1 else s := by
  rw [State.tgTick, h]
  simp [State.tgDo]


/-! ### The compute dies -/

/-- The tile cycles after the tick's visit to a die (R141, R403). -/
def State.cyclesAfter (s : State) (c : AMap Nat W64) (d : Fin 4) : AMap Nat W64 :=
  if s.running (.cd d) true = true ∧ s.pwrState ≠ 1 then aSet c d.val (aGet c 0 d.val + 16) else c

theorem aGet_cyclesAfter (s : State) (c : AMap Nat W64) (d n : Fin 4) :
    aGet (s.cyclesAfter c d) 0 n.val =
      if d = n ∧ s.running (.cd n) true = true ∧ s.pwrState ≠ 1 then aGet c 0 n.val + 16 else aGet c 0 n.val := by
  unfold State.cyclesAfter
  by_cases hd : d = n
  · subst hd
    split <;> simp_all
  · have hv : d.val ≠ n.val := fun h => hd (Fin.ext h)
    have hn : ¬ (d = n ∧ s.running (.cd n) true = true ∧ s.pwrState ≠ 1) := fun h => hd h.1
    rw [if_neg hn]
    split
    · exact aGet_aSet_ne _ _ _ hv
    · rfl

/-- Each die is visited once. -/
theorem aGet_cyclesAfter_all (s : State) (c : AMap Nat W64) (n : Fin 4) :
    aGet (allCds.foldl s.cyclesAfter c) 0 n.val =
      if s.running (.cd n) true = true ∧ s.pwrState ≠ 1 then aGet c 0 n.val + 16 else aGet c 0 n.val := by
  simp only [allCds, List.foldl_cons, List.foldl_nil, aGet_cyclesAfter]
  fin_cases n <;> simp

/-- With no operation of CQ_PREEMPT in progress a die's part of the tick is its cycles. -/
theorem tickDie_of_no_preOps {s : State} (h : s.preOps = []) (c : AMap Nat W64) (d : Fin 4) :
    State.tickDie { s with cycles := c } d = { s with cycles := s.cyclesAfter c d } := by
  have hp : ∀ t : State, t.preOps = [] → t.preGo d = t := fun t ht => by simp [State.preGo, State.pre?, ht, aFind]
  unfold State.tickDie
  dsimp only
  rw [hp _ (by split <;> exact h)]
  have hc : (State.running { s with cycles := c } (.cd d) true && decide (State.pwrState { s with cycles := c } ≠ 1)) =
    (s.running (.cd d) true && decide (s.pwrState ≠ 1)) := rfl
  rw [hc, State.cyclesAfter]
  split <;> simp_all

theorem tickDies_of_no_preOps {s : State} (h : s.preOps = []) :
    allCds.foldl State.tickDie s = { s with cycles := allCds.foldl s.cyclesAfter s.cycles } :=
  (List.foldl_hom (fun c => ({ s with cycles := c } : State)) (fun c d => tickDie_of_no_preOps h c d)).symm ▸ rfl

/-! ### The hub -/

theorem recoverySettle_eq_self {s : State} (h : s.rf .hub .hubOrderStatus 0 2 2 = 0) : s.recoverySettle = s := by
  simp [State.recoverySettle, h]
theorem tlpStep_eq_self {s : State} (h : s.io.tlps = []) : s.tlpStep = s := by rw [State.tlpStep, h, State.tlpsGo]
theorem railTick_eq_self {s : State} (h : s.rdown = []) : s.railTick = s := by rw [State.railTick, h]; rfl

/-- The slack measurement after a clk_time (R398). -/
def State.fanNext (s : State) : FanAcc :=
  if s.fanOn = true then (if s.ctxRuns (s.rf .hub .pwrFanCfg 0 59 48) = false ∧ s.ctxWaits (s.rf .hub .pwrFanCfg 0 59 48) = true then
    { s.fan with wait := s.fan.wait + 1 } else s.fan) else ⟨s.now, 0, 0, 0, 0, 0, s.fan.seq⟩

theorem fanTick_eq (s : State) : s.fanTick = { s with fan := s.fanNext } := by
  simp only [State.fanTick, State.fanNext, Bool.and_eq_true, Bool.not_eq_true']
  split_ifs <;> rfl

/-- What the management cores have left to do after a piece of it (R461). -/
def State.workNext (s : State) : List Nat :=
  if s.fwRuns = true then (if 0 ∈ s.mgmtWork then s.mgmtWork.erase 0 else s.mgmtWork.drop 1) else s.mgmtWork

/-- The management cores' part of the tick: their work, and a telemetry snapshot. -/
theorem mgmtTick_eq (s : State) : ∃ x, s.mgmtTick = { s with mgmtWork := s.workNext, telem := x } := by
  unfold State.mgmtTick
  split
  case isTrue hf => exact ⟨s.telem, by simp [State.workNext, hf]⟩
  case isFalse hf =>
    split
    case isTrue h0 => exact ⟨s.telem, by simp_all [State.workNext]⟩
    case isFalse h0 =>
      split
      case isTrue hw => exact ⟨s.telem, by simp_all [State.workNext]⟩
      case isFalse hw =>
        have hn : s.workNext = s.mgmtWork := by simp [State.workNext, not_not.mp hw]
        rw [hn]
        split
        · exact ⟨s.telem, rfl⟩
        · exact ⟨s.telemTake.telem, rfl⟩

/-- The package timestamp and the time in the power state in effect after a clk_time (R38, R400). -/
def State.clocked (s : State) : State := ({ s with now := s.now + 1 } : State).count .hub .pwrResid s.pwrState 1

theorem reg_clocked (s : State) (d : Die) (n : RegName) (i : Nat) :
    s.clocked.reg d n i = if d = .hub ∧ n = .pwrResid ∧ i = s.pwrState then cntAdd (s.reg d n i) 1 else s.reg d n i := by
  have h := State.reg_setReg ({ s with now := s.now + 1 } : State) .hub d .pwrResid n s.pwrState i
    (cntAdd (s.reg .hub .pwrResid s.pwrState) 1)
  refine h.trans ?_
  by_cases hk : d = .hub ∧ n = .pwrResid ∧ i = s.pwrState
  · obtain ⟨rfl, rfl, rfl⟩ := hk
    simp
  · rw [if_neg hk, if_neg (by simpa [eq_comm] using hk)]
    rfl

theorem rf_clocked (s : State) (d : Die) {n : RegName} (hn : n ≠ .pwrResid) (i hi lo : Nat) : s.clocked.rf d n i hi lo = s.rf d n i hi lo := by
  rw [State.rf, reg_clocked, if_neg fun h => hn h.2.1, State.rf]

section
variable {s : State}

theorem dom_clocked (s : State) (d : Die) (tile : Bool) : s.clocked.dom d tile = s.dom d tile := rf_clocked s _ (by decide) _ _ _
theorem ready_clocked (s : State) (bit : Nat) : s.clocked.ready bit = s.ready bit := by
  unfold State.ready
  rw [reg_clocked, if_neg fun h => nomatch h.2.1]
theorem running_clocked (s : State) (d : Die) (tile : Bool) : s.clocked.running d tile = s.running d tile := by
  rw [State.running, dom_clocked, ready_clocked]
  rfl
theorem pwrState_clocked (s : State) : s.clocked.pwrState = s.pwrState := rf_clocked s _ (by decide) _ _ _
theorem fanOn_clocked (s : State) : s.clocked.fanOn = s.fanOn := by
  simp [State.fanOn, State.nx, rf_clocked, reg_clocked]
theorem ctxRuns_clocked (s : State) (ctx : Nat) : s.clocked.ctxRuns ctx = s.ctxRuns ctx := by
  simp only [State.ctxRuns, rf_clocked s _ (show RegName.dmaStatus ≠ .pwrResid by decide), rf_clocked s _ (show RegName.dmaCtx ≠ .pwrResid by decide)]
  rfl
theorem ctxWaits_clocked (s : State) (ctx : Nat) : s.clocked.ctxWaits ctx = s.ctxWaits ctx := by
  simp only [State.ctxWaits, rf_clocked s _ (show RegName.cqCfg ≠ .pwrResid by decide)]

theorem fanNext_clocked_on (h : s.fanOn = true) :
    (fanWaits s → s.clocked.fanNext = { s.fan with wait := s.fan.wait + 1 }) ∧ (¬ fanWaits s → s.clocked.fanNext = s.fan) := by
  have hc : s.clocked.rf .hub .pwrFanCfg 0 59 48 = s.rf .hub .pwrFanCfg 0 59 48 := rf_clocked s _ (by decide) _ _ _
  rw [State.fanNext, fanOn_clocked, if_pos h, hc, ctxRuns_clocked, ctxWaits_clocked]
  exact ⟨fun hw => if_pos hw, fun hw => if_neg hw⟩

theorem fanNext_clocked_off (h : s.fanOn = false) : s.clocked.fanNext = ⟨s.now + 1, 0, 0, 0, 0, 0, s.fan.seq⟩ := by
  rw [State.fanNext, fanOn_clocked, if_neg (by simp [h])]
  rfl

theorem workNext_clocked (h : s.fwRuns = true) :
    s.clocked.workNext = if 0 ∈ s.mgmtWork then s.mgmtWork.erase 0 else s.mgmtWork.drop 1 := by
  have hf : s.clocked.fwRuns = true := by rw [State.fwRuns, running_clocked, ready_clocked]; exact h
  rw [State.workNext, if_pos hf]
  rfl

/-- With the slack measurement on top. -/
def State.measured (s : State) : State := { s.clocked with fan := s.clocked.fanNext }

/-- The hub's part of a quiet tick: the counts of the clk_time, the slack measurement and the management cores. -/
def State.hubTicked (s : State) (x : Telem) : State :=
  { s.clocked with fan := s.clocked.fanNext, mgmtWork := s.clocked.workNext, telem := x }

theorem tickHub_of_quiet (hq : Quiet s) : ∃ x, s.tickHub = s.hubTicked x := by
  obtain ⟨htlp, -, hrail, hrec⟩ := hq
  have hrec' : s.measured.recoverySettle = s.measured :=
    recoverySettle_eq_self ((rf_clocked s .hub (by decide) 0 2 2).trans hrec)
  have htlp' : s.measured.tlpStep = s.measured := tlpStep_eq_self htlp
  have hrail' : s.measured.railTick = s.measured := railTick_eq_self hrail
  obtain ⟨x, hx⟩ := mgmtTick_eq s.measured
  refine ⟨x, ?_⟩
  calc s.tickHub = s.clocked.fanTick.recoverySettle.tlpStep.railTick.mgmtTick := rfl
    _ = s.measured.mgmtTick := by rw [fanTick_eq, ← State.measured, hrec', htlp', hrail']
    _ = _ := hx

theorem cyclesAfter_hubTicked (s : State) (x : Telem) : (s.hubTicked x).cyclesAfter = s.cyclesAfter := by
  have hr (d : Fin 4) : (s.hubTicked x).running (.cd d) true = s.running (.cd d) true := running_clocked s _ _
  have hp : (s.hubTicked x).pwrState = s.pwrState := pwrState_clocked s
  funext c d
  rw [State.cyclesAfter, hr, hp, State.cyclesAfter]

/-- A quiet tick while the hub runs, but for the generators. -/
theorem tick_of_hub_running (hq : Quiet s) (hu : s.running .hub false = true) :
    ∃ x, s.tick = State.tgTick { s.hubTicked x with cycles := allCds.foldl s.cyclesAfter s.cycles } := by
  obtain ⟨x, hx⟩ := tickHub_of_quiet hq
  have hp : (s.hubTicked x).preOps = [] := hq.2.1
  refine ⟨x, ?_⟩
  rw [State.tick, if_pos hu, hx, tickDies_of_no_preOps hp, cyclesAfter_hubTicked]
  rfl

/-- A quiet tick while the hub does not run, but for the generators. -/
theorem tick_of_hub_stopped (hq : Quiet s) (hu : ¬ s.running .hub false = true) :
    s.tick = State.tgTick { s with cycles := allCds.foldl s.cyclesAfter s.cycles } := by
  rw [State.tick, if_neg hu, tickDies_of_no_preOps hq.2.1]

end

/-- Settles O4: a quiet tick is the counts of the hub and of the dies, then the generators, which leave those counts alone. -/
theorem emptyQueueIsATick : Obligations.EmptyQueueIsATick := by
  refine ⟨fun s hs => ?_, fun s hq => ?_, fun s r hr => ?_⟩
  · rw [step, hs]
    rfl
  · intro t up
    by_cases hu : s.running .hub false = true
    case pos =>
      obtain ⟨x, hx⟩ := tick_of_hub_running hq hu
      have ht : t = _ := hx
      refine ⟨fun _ => ?now, fun h => absurd hu h, fun n => ?cycles, fun hr d n i => ?reg, fun _ hf => ?fan, fun _ hf => ?off,
        fun _ hw => ?work, fun hr => ?rest⟩
      case now => rw [ht, tgTick_now]; rfl
      case cycles => rw [ht, tgTick_cycles]; exact aGet_cyclesAfter_all s s.cycles n
      case reg =>
        rw [ht, tgTick_of_no_runs]
        · simp only [hu, true_and]
          exact reg_clocked s d n i
        · exact hr
      case fan => rw [ht, tgTick_fan]; exact fanNext_clocked_on hf
      case off => rw [ht, tgTick_fan]; exact fanNext_clocked_off hf
      case work => rw [ht, tgTick_mgmtWork]; exact workNext_clocked hw
      case rest =>
        rw [ht, tgTick_of_no_runs]
        · exact ⟨rfl, rfl, rfl, rfl, rfl, rfl, rfl, rfl, rfl, rfl⟩
        · exact hr
    case neg =>
      have ht : t = _ := tick_of_hub_stopped hq hu
      refine ⟨fun h => absurd h hu, fun _ => ?now, fun n => ?cycles, fun hr d n i => ?reg, fun h => absurd h hu, fun h => absurd h hu,
        fun h => absurd h hu, fun hr => ?rest⟩
      case now => rw [ht, tgTick_now]
      case cycles => rw [ht, tgTick_cycles]; exact aGet_cyclesAfter_all s s.cycles n
      case reg =>
        rw [ht, tgTick_of_no_runs, if_neg fun h => hu h.1]
        · rfl
        · exact hr
      case rest =>
        rw [ht, tgTick_of_no_runs]
        · exact ⟨rfl, rfl, rfl, rfl, rfl, rfl, rfl, rfl, rfl, rfl⟩
        · exact hr
  · intro x
    rw [tgTick_of_one_run hr]
    exact ⟨fun hu hp => if_pos ⟨hu, hp⟩, fun hn => if_neg hn⟩

end Sys2Proof.Machine
end

section
/-!
Bring-up (Chapter 16, with R34 and R466 to R468): what each command answers at its step.
-/

namespace Sys2Proof.Machine
open Sys2Proof

section
variable {s : State}

/-! ### Power, the reset input and the reset of the package (R34, R437, R466-R468) -/

theorem aonPowerOn_gives (s : State) : Gives .aonPowerOn s ((aonFresh s).setDom .hub false 0) := rfl

theorem hubEn_done (s : State) : exec .hubEn s = done s
    (if s.aonUp = true ∧ s.hubEn = false ∧ s.boot = 1 ∧ (s.pwrState ≠ 4 ∨ s.pwrTarget = 0) then
      ({ s with hubEn := true } : State).emit .pin [0, 1] else s) :=
  congrArg (done s) (by simp only [Bool.and_eq_true, Bool.or_eq_true, Bool.not_eq_true', decide_eq_true_eq, and_assoc])

theorem pwrGoodAssert_gives (he : s.hubEn = true) (hg : s.pwrGood = false) :
    Gives .pwrGoodAssert s ({ s with pwrGood := true } : State).hubGo :=
  gives_of_done_eq rfl (if_pos (by simp [he, hg]))

theorem resetInput_eq (s : State) : s.resetInput = inputReset s := by
  simp [State.resetInput, inputReset]

theorem resetN_release_gives (s : State) : Gives (.resetN false) s ({ s with rstIn := false } : State).hubGo := rfl
theorem resetN_assert_gives (s : State) : Gives (.resetN true) s (inputReset { s with rstIn := true }) :=
  gives_of_done_eq rfl (resetInput_eq _)
theorem pwrGoodFall_gives (hg : s.pwrGood = true) : Gives .pwrGoodFall s (inputReset { s with pwrGood := false }) :=
  gives_of_done_eq rfl ((if_pos hg).trans (resetInput_eq _))

theorem packageReset_gives (hd : s.resetDue = true) :
    Gives .packageReset s ({ s.packageDown false with boot := if s.hubEn then 2 else 1 } : State).hubGo :=
  gives_of_done_eq rfl (if_neg (by simp [hd]))

/-! ### Step 3 (R453-R456) -/

/-- What the root of trust finds of image `i`, given what it finds now. -/
def State.imgFound (s : State) (a b : Option ImgHdr) (i : Nat) : Option ImgHdr := s.imgFind i (if i = 0 then a else b)
/-- The state with what it has found of both kept. -/
def State.imgsKept (s : State) (a b : Option ImgHdr) : State := { s with hdrs := [(0, s.imgFound a b 0), (1, s.imgFound a b 1)] }

/-- The two images are the active one and the other. -/
theorem imgOk_active_and_other {img : Nat → Option ImgHdr} (h0 : s.imgOk 0 (img 0) = false) (h1 : s.imgOk 1 (img 1) = false) (n : Nat) :
    s.imgOk (n % 2) (img (n % 2)) = false ∧ s.imgOk (1 - n % 2) (img (1 - n % 2)) = false := by
  obtain h | h := Nat.mod_two_eq_zero_or_one n <;> simp [h, h0, h1]

theorem firmwareLoad_boot_done (a b : Option ImgHdr) (hr : s.running .hub false = true) (hb : s.boot = 3) :
    exec (.firmwareLoad a b) s = done s ((s.imgsKept a b).bootLoad (s.imgFound a b)) :=
  congrArg (done s) ((if_neg (by simp [hr])).trans (if_pos hb))

theorem bootLoad_active {img : Nat → Option ImgHdr} {h : ImgHdr} (hi : img (s.bootRec.active % 2) = some h)
    (hok : s.imgOk (s.bootRec.active % 2) (some h) = true) (hs : readsSchema h s.settingsNow = true) :
    s.bootLoad img =
      let run : State := { s.fwRun (s.bootRec.active % 2) h s.bootRec.trial false with trialWait := s.bootRec.trial }
      ({ (run.writeModes s.settingsNow).freeTraps with boot := 4 } : State).setRf .hub .licStatus 0 1 0 2 := by
  simp only [State.bootLoad, hi, hok, hs, if_true]

theorem bootLoad_refused {img : Nat → Option ImgHdr} (h0 : s.imgOk 0 (img 0) = false) (h1 : s.imgOk 1 (img 1) = false) :
    s.bootLoad img = s.recoveryCode := by
  obtain ⟨ha, hb⟩ := imgOk_active_and_other h0 h1 s.bootRec.active
  simp only [State.bootLoad, ha, hb, Bool.false_eq_true, if_false]

theorem firmwareLoad_live_done (a b : Option ImgHdr) {h : ImgHdr} (hr : s.running .hub false = true) (hb : s.boot ≠ 3) (hl : s.liveNext = true)
    (hi : s.imgFound a b (s.bootRec.active % 2) = some h) (hok : s.imgOk (s.bootRec.active % 2) (some h) = true) :
    exec (.firmwareLoad a b) s = done s ((s.imgsKept a b).liveStart (s.bootRec.active % 2) h) := by
  refine congrArg (done s) ((if_neg (by simp [hr])).trans ((if_neg hb).trans ((if_pos hl).trans ?_)))
  change s.imgFind (s.bootRec.active % 2) (if s.bootRec.active % 2 = 0 then a else b) = some h at hi
  dsimp only
  rw [hi]
  exact if_pos hok

theorem liveStart_reads {i : Nat} {h : ImgHdr} (hs : readsSchema h s.settingsNow = true) :
    s.liveStart i h = ({ ({ s with liveNext := false } : State).fwRun i h true true with liveWait := true } : State).freeTraps :=
  if_pos hs

/-! ### Step 4 and the verification of an install (R446-R449) -/

theorem licenceVerify_step_gives (pcie : List (Nat × (Nat × Nat))) (mrc : List (Nat × List (Nat × Nat))) (hb : s.boot = 4)
    (hr : s.running .hub false = true) :
    let t := (List.range 4).foldl (fun x p => x.pcieTrain p (aFind pcie p)) (slotsTried (s.setRf .hub .licStatus 0 1 0 0))
    Gives (.licenceVerify pcie mrc) s { t.mrcTrainAll mrc with boot := if t.licensed = true then 5 else 7 } := by
  refine gives_of_done_eq rfl ?_
  rw [if_neg (by simp [hr]), if_neg (by simp [hb])]
  rfl

theorem licenceVerify_install_done (pcie : List (Nat × (Nat × Nat))) (mrc : List (Nat × List (Nat × Nat))) {m : Mbx} {k : Nat}
    (hb : s.boot ≠ 4) (hr : s.running .hub false = true) (hw : s.licWait = some (m, k)) :
    exec (.licenceVerify pcie mrc) s = done s (s.licFinish m k mrc) :=
  congrArg (done s) ((if_neg (by simp [hr])).trans ((if_pos hb).trans (by rw [hw])))

/-! ### Steps 5 and 6 (R438, R443, R484) -/

theorem fitted_eq (s : State) (i : Nat) : s.fitted i = !decide (i ∈ s.fuse.unfitted) := by simp [State.fitted]

theorem mcPowerUp_gives (hb : s.boot = 5) :
    let t := allCds.foldl (fun x n =>
      if 3 + n.val ∈ s.fuse.unfitted then (x.setDom (.cd n) false 4).setDom (.cd n) true 4
      else if x.dom (.cd n) false = 0 then x.powerUp (.cd n) false else x) s
    let u := [(0 : Fin 2), 1].foldl (fun x k => if 1 + k.val ∈ s.fuse.unfitted then x.setDom (.hd k) false 4 else x) t
    Gives .mcPowerUp s { u with boot := 6 } := by
  refine gives_of_done_eq rfl ?_
  rw [if_neg (by simp [hb])]
  simp only [fitted_eq, Bool.not_eq_true', decide_eq_false_iff_not, ite_not]

theorem stackInit_done {k : Nat} (bad : List Nat) (hk : k < 8) (h6 : 6 ≤ s.boot) (h9 : s.boot ≤ 9)
    (hr : s.running (.cd (cdOf (k / 2))) false = true) (hy : s.ready (40 + k) = false) (h10 : 10 + k ∈ s.rails) (h18 : 18 + k ∈ s.rails)
    (h26 : 26 + k ∈ s.rails) (hp : aFind s.pchKeep (64 * k) = none) :
    exec (.stackInit k bad) s = done s
      (let t := ((List.range 64).filter fun i => decide (s.pch (64 * k + i) = s.stackPhase k)).foldl
        (fun t i => t.pchInit (64 * k + i) (bad.contains i)) s
      if s.stackPhase k ≠ 0 ∧ t.stackPhase k = 0 then t.setReady (40 + k) 1 else t) := by
  have hd : s.dom (.cd (cdOf (k / 2))) false = 2 := by
    simp only [State.running, Bool.and_eq_true, decide_eq_true_eq] at hr
    exact hr.1.1.1
  refine congrArg (done s) (if_neg ?_)
  simp [hk, h6, h9, hd, hy, h10, h18, h26, hp]

theorem pchInit_off {p : Nat} (bad : Bool) (h : s.pch p = 0) : s.pchInit p bad = s.movePch p 1 := by
  simp only [State.pchInit, h]
theorem pchInit_train {p : Nat} (bad : Bool) (h : s.pch p = 1) (hn : ∀ e ∈ s.retEnts, e.p ≠ p) :
    s.pchInit p bad = s.movePch p (if bad = true then 0 else 2) := by
  have hf : (s.retEnts.find? fun e => decide (e.p = p)) = none := by simpa using hn
  simp only [State.pchInit, h, hf]
theorem pchInit_retired {p : Nat} (bad : Bool) (h : s.pch p = 1) {e : RetEnt} (hf : (s.retEnts.find? fun e => decide (e.p = p)) = some e) :
    s.pchInit p bad = ((s.movePch p 6).setRf (.cd (pchDie p)) .memPchState (pchIdx p) 12 8 e.k).setBurSt (burrOfPch p) 6 := by
  simp only [State.pchInit, h, hf]
theorem pchInit_test {p : Nat} (bad : Bool) (h : s.pch p = 2) : s.pchInit p bad = (s.fillPch p false).enterOnline p := by
  simp only [State.pchInit, h]

/-! ### Steps 7 to 9 (R437, R440, R441, R444, R445) -/

theorem hostRelease_gives {k : Fin 2} {f : Nat} (hb : s.boot = 6) (hf : s.firstStack = some f) (hn : k.val ∉ s.released)
    (hd : s.dom (.hd k) false = 0) (hl : ∃ l ∈ hostLinks k, s.linkUp l.1 = true) :
    let t := if s.hostImg = true then s else s.hostLoad f
    Gives (.hostRelease k) s (({ t with released := t.released ++ [k.val] } : State).powerUp (.hd k) false) := by
  have hl' : ((hostLinks k).any fun l => s.linkUp l.1) = true := by simpa using hl
  refine gives_of_done_eq rfl ?_
  rw [hf]
  exact if_neg (by simp [hb, hn, hd, hl'])

theorem tilePowerUp_gives (bad : SelfTest) (hb : s.boot = 6) (hm : s.mcEnded = true) (h0 : s.hostEnded 0 = true) (h1 : s.hostEnded 1 = true) :
    Gives (.tilePowerUp bad) s (allCds.foldl (fun x n => if x.tileWaits n = true then x.powerUp (.cd n) true else x)
      (({ s with boot := 8, selfBad := bad } : State).chanTest .hub bad.chans)) :=
  gives_of_done_eq rfl (if_neg (by simp [hb, hm, h0, h1]))

theorem topologyCheck_gives (ids heights : List (Nat × Nat))
    (h : s.boot = 7 ∨ (s.boot = 8 ∧ s.allEnded = true) ∨ (s.boot = 9 ∧ s.topoDue = true)) :
    let r := s.topoResult ids heights
    let t := (s.setRf .hub .hubReady 0 63 62 r.1).setRf .hub .hubReady 0 61 56 r.2
    let u := if r.1 = 1 then t else t.raise .hub 12 r.2
    let v := if r.1 = 3 then u else u.orderReason 0 0
    Gives (.topologyCheck ids heights) s { v with boot := 9, topoDue := false, resetBusy := false } :=
  gives_of_done_eq rfl (if_pos h)

end

/-- Settles O56: each step of bring-up under its guard. -/
theorem bringUpSteps : Obligations.BringUpSteps := by
  refine ⟨aonPowerOn_gives, ?hubEn, fun _ => pwrGoodAssert_gives, ?input, fun _ => packageReset_gives, ?load, ?verify, ?install,
    fun _ => mcPowerUp_gives, ?stack, ?pch, fun _ _ _ => hostRelease_gives, fun bad _ => tilePowerUp_gives bad,
    fun ids heights _ => topologyCheck_gives ids heights⟩
  case hubEn =>
    intro s may
    exact ⟨fun h => gives_of_done_eq (hubEn_done s) (if_pos h), fun h => gives_of_done_eq (hubEn_done s) (if_neg h)⟩
  case input => exact fun s => ⟨resetN_release_gives s, resetN_assert_gives s, pwrGoodFall_gives⟩
  case load =>
    intro s a b hr img t i
    refine ⟨fun h hb hi hok hs => ?_, fun hb h0 h1 => ?_, fun h hb hl hi hok hs => ?_⟩
    · exact gives_of_done_eq (firmwareLoad_boot_done a b hr hb) (bootLoad_active (s := t) hi hok hs)
    · exact gives_of_done_eq (firmwareLoad_boot_done a b hr hb) (bootLoad_refused (s := t) h0 h1)
    · exact gives_of_done_eq (firmwareLoad_live_done a b hr hb hl hi hok) (liveStart_reads (s := t) hs)
  case verify => exact fun s pcie mrc => licenceVerify_step_gives pcie mrc
  case install =>
    intro s m k pcie mrc hb hr hw t l
    exact ⟨fun h => gives_of_done_eq (licenceVerify_install_done pcie mrc hb hr hw) (if_pos h),
      fun h => gives_of_done_eq (licenceVerify_install_done pcie mrc hb hr hw) (if_neg h)⟩
  case stack =>
    intro k bad s hk h6 h9 hr hy h10 h18 h26 hp ph t
    have hd := stackInit_done bad hk h6 h9 hr hy h10 h18 h26 hp
    exact ⟨fun h0 h1 => gives_of_done_eq hd (if_pos ⟨h0, h1⟩), fun h => gives_of_done_eq hd (if_neg (by tauto))⟩
  case pch =>
    exact fun p bad s => ⟨pchInit_off bad, pchInit_train bad, fun h e he => pchInit_retired bad h he, pchInit_test bad⟩

end Sys2Proof.Machine
end

section
/-!
Blocks and groups on a tile (Chapter 03): what an issue leaves alone, where control flow sends the lanes of a group, when a block
barrier opens, and what a block starts with.
-/

namespace Sys2Proof.Machine
open Sys2Proof

/-! ### Issue -/

section
variable {s : State} {g : GroupRef} {o : TOp} {c : TCtx}

/-- Everything that the front of a group says. -/
theorem frontOf_some (h : s.frontOf g = some c) :
    c.t = g.tileRef ∧ c.gi = g.grp ∧ (s.tile g.tileRef).block? g.bid = some c.b ∧ c.b.st = .running
      ∧ c.b.group? g.grp = some c.g ∧ c.act = c.g.active c.pc := by
  unfold State.frontOf at h
  dsimp only at h
  split at h
  · cases h
  split at h
  · cases h
  split at h
  · cases h
  next hst =>
  split at h
  · cases h
  split at h
  · cases h
  split at h
  · cases h
  cases h
  refine ⟨rfl, rfl, ‹_›, not_not.mp hst, ‹_›, rfl⟩

theorem frontOf_of_issueAt (h : s.issueAt g o = some c) : s.frontOf g = some c := by
  unfold State.issueAt at h
  split at h
  · cases h
  · split at h
    · cases h; assumption
    · cases h

/-- An issue stores the group with both issue counts advanced. -/
theorem putGroup_of_issueAt (h : s.issueAt g o = some c) {gr : Group} (hi : gr.issued = c.g.issued) :
    s.putGroup c gr = afterIssue s g c gr := by
  obtain ⟨ht, hg, -⟩ := frontOf_some (frontOf_of_issueAt h)
  rw [State.putGroup, afterIssue, ht, hg, hi]

theorem groupOp_of_issueAt (h : s.issueAt g o = some c) {f : TCtx → Group → Group}
    (hi : (f c (movedOn c)).issued = c.g.issued) : s.groupOp g o f = afterIssue s g c (f c (movedOn c)) := by
  simp only [State.groupOp, h]
  exact putGroup_of_issueAt h hi

end

theorem withIdx_getElem? {α : Type} (l : List α) (i : Nat) : (withIdx l)[i]? = l[i]?.map fun x => (i, x) := by
  by_cases h : i < l.length <;> simp [withIdx, h]
@[simp] theorem withIdx_length {α : Type} (l : List α) : (withIdx l).length = l.length := by simp [withIdx]

/-! ### Registers after a write of several words -/

/-- The widths of register operands (R118). -/
def IsRegWidth (w : Nat) : Prop := w = 32 ∨ w = 64 ∨ w = 128

theorem rv_wvw (l : Lane) {w : Nat} (n d x k : Nat) (hw : IsRegWidth w) :
    (l.wvw n d w x).rv n k = regAfter n d w x k (l.rv n k) := by
  by_cases hk : d ≤ k
  · obtain ⟨j, rfl⟩ := Nat.exists_eq_add_of_le hk
    obtain rfl | rfl | rfl := hw
    · rcases j with _ | j <;> simp [Lane.wvw, regAfter, rv_wv]
    · rcases j with _ | _ | j <;> simp [Lane.wvw, regAfter, rv_wv]
    · rcases j with _ | _ | _ | _ | j <;> simp [Lane.wvw, regAfter, rv_wv]
  · have hne (i : Nat) : d + i ≠ k := by omega
    obtain rfl | rfl | rfl := hw <;> simp [Lane.wvw, regAfter, rv_wv, hk, hne, show d ≠ k from hne 0]

theorem wvw_frame (l : Lane) (n d w x : Nat) : { l with v := (l.wvw n d w x).v } = l.wvw n d w x := by
  have h (l : Lane) (k x : Nat) : l.wv n k x = { l with v := (l.wv n k x).v } := (wv_frame l n k x).symm
  unfold Lane.wvw
  split
  · rw [h _ (d + 3), h _ (d + 2), h _ (d + 1), h _ d]
  · split
    · rw [h _ (d + 1), h _ d]
    · exact (h l d x).symm

theorem writes_wvw (c : TCtx) (l : Lane) {w : Nat} (d x : Nat) (hw : IsRegWidth w) : Writes c d w x l (l.wvw c.b.nregs d w x) :=
  ⟨(wvw_frame l c.b.nregs d w x).symm, fun k => rv_wvw l c.b.nregs d x k hw⟩

/-! ### Control flow (R91, R92, R136) -/

/-- The lanes of a group after a control-flow instruction: executing lanes go where `f` sends them, other active ones to the next
instruction. -/
def TCtx.flowLanes (c : TCtx) (f : TCtx → Lane → Lane) : List Lane :=
  (withIdx c.g.lanes).map fun x =>
    if c.exe.contains x.1 then f c x.2 else if c.act.contains x.1 then { x.2 with pc := x.2.pc + 8 } else x.2
/-- The lanes of a group after its arrival at the barrier: the active ones wait for this arrival's opening. -/
def TCtx.barLanes (c : TCtx) : List Lane :=
  (withIdx c.g.lanes).map fun x =>
    if c.act.contains x.1 then { x.2 with pc := x.2.pc + 8, atBar := c.g.arrived + 1 } else x.2

theorem flowLanes_getElem? (c : TCtx) (f : TCtx → Lane → Lane) (i : Nat) :
    (c.flowLanes f)[i]? = c.g.lanes[i]?.map fun l =>
      if i ∈ c.exe then f c l else if i ∈ c.act then { l with pc := l.pc + 8 } else l := by
  simp [TCtx.flowLanes, withIdx_getElem?, Function.comp_def]
theorem barLanes_getElem? (c : TCtx) (i : Nat) :
    c.barLanes[i]? = c.g.lanes[i]?.map fun l =>
      if i ∈ c.act then { l with pc := l.pc + 8, atBar := c.g.arrived + 1 } else l := by
  simp [TCtx.barLanes, withIdx_getElem?, Function.comp_def]

theorem flowOp_of_issueAt {s : State} {g : GroupRef} {o : TOp} {c : TCtx} (h : s.issueAt g o = some c) (f : TCtx → Lane → Lane) :
    s.flowOp g o f = afterIssue s g c { c.g with lanes := c.flowLanes f } := by
  simp only [State.flowOp, h]
  exact putGroup_of_issueAt (gr := { c.g with lanes := c.flowLanes f }) h rfl

/-- A control-flow command that ends with `last` on the group's flow sends its executing lanes where the flow does. -/
theorem flowRow_of_flowOp {mk : GroupRef → Instr} {op : TOp} {f : TCtx → Lane → Lane} {P : TCtx → Lane → Lane → Prop}
    {last : GroupRef → State → State} (he : ∀ g s, exec (mk g) s = done s (last g (s.flowOp g op f))) (hf : ∀ c l, P c l (f c l)) :
    FlowRow mk op P last := by
  intro g s c h
  refine ⟨c.flowLanes f, gives_of_done_eq (he g s) (by rw [flowOp_of_issueAt h]), by simp [TCtx.flowLanes], fun i l hl => ?_⟩
  refine ⟨_, by rw [flowLanes_getElem?, hl]; rfl, fun hi => ?_, fun hi ha => ?_, fun hi ha => ?_⟩
  · simpa [hi] using hf c l
  · simp [hi, ha]
  · simp [hi, ha]

/-- BAR: the group has arrived once more, its active lanes wait, and the barrier opens where it is due. -/
theorem bar_gives {s : State} {g : GroupRef} {c : TCtx} (h : s.issueAt g .bar = some c) :
    Gives (.bar g) s
      ((afterIssue s g c { c.g with arrived := c.g.arrived + 1, lanes := c.barLanes }).openBarrier g.tileRef g.bid) := by
  refine gives_of_done_eq rfl ?_
  simp only [h]
  exact congrArg (State.openBarrier · g.tileRef g.bid)
    (putGroup_of_issueAt (gr := { c.g with arrived := c.g.arrived + 1, lanes := c.barLanes }) h rfl)

/-- Settles O9: each command is one flow of the group's lanes, and BAR an arrival. -/
theorem controlFlowResults : Obligations.ControlFlowResults := by
  refine ⟨?bra, ?jmp, ?call, ?exit, ?bar⟩
  case bra => exact flowRow_of_flowOp (fun _ _ => rfl) fun _ _ => rfl
  case jmp => exact flowRow_of_flowOp (fun _ _ => rfl) fun _ _ => rfl
  case call =>
    refine flowRow_of_flowOp (fun _ _ => rfl) fun c l => ⟨rfl, ?_⟩
    have hl : (l.wvw c.b.nregs (wD c.w) 64 (c.pc + 8).toNat).pc = l.pc := by rw [← wvw_frame]
    rw [← hl]
    exact writes_wvw c l _ _ (.inr (.inl rfl))
  case exit => exact flowRow_of_flowOp (fun _ _ => rfl) fun _ _ => rfl
  case bar =>
    intro g s c h
    exact ⟨c.barLanes, bar_gives h, fun i l hl => by rw [barLanes_getElem?, hl]; rfl⟩

/-! ### The block barrier (R92) -/

theorem openBarrier_of_unsettled {s : State} {t : TileRef} {bid : Nat} (h : ∃ m ∈ (s.tile t).opsOf bid, m.settled = false) :
    s.openBarrier t bid = s := by
  have hn : ((s.tile t).opsOf bid).all MOp.settled = false := by simpa using h
  unfold State.openBarrier
  split
  · rw [hn]; rfl
  · rfl

theorem openOnce_isSome (b : Block) :
    (b.openOnce).isSome = true ↔ (∃ g ∈ b.groups, g.ended = false) ∧ ∀ g ∈ b.groups, g.ended = false → 0 < g.arrived := by
  unfold Block.openOnce
  dsimp only
  split
  next h => simpa [or_iff_not_imp_left] using h
  next h => simpa [or_iff_not_imp_left] using h

/-- A group after an opening: one arrival less, and its lanes wait for one opening less. -/
def Group.opened (g : Group) : Group :=
  if g.ended then g
  else { g with arrived := g.arrived - 1, lanes := g.lanes.map fun l => { l with atBar := l.atBar - 1 } }

theorem openOnce_groups {b b' : Block} (h : b.openOnce = some b') : b'.groups = b.groups.map Group.opened := by
  unfold Block.openOnce at h
  dsimp only at h
  split at h
  · cases h; rfl
  · cases h

theorem opened_of_ended {g : Group} (h : g.ended = true) : g.opened = g := if_pos h
theorem opened_of_arrived {g : Group} (h : g.ended = false) (ha : 0 < g.arrived) :
    g.opened.arrived + 1 = g.arrived ∧ g.opened.u = g.u ∧
      ∀ (j : Nat) (l : Lane), g.lanes[j]? = some l → g.opened.lanes[j]? = some { l with atBar := l.atBar - 1 } := by
  rw [show g.opened = _ from if_neg (by simp [h])]
  exact ⟨Nat.sub_add_cancel ha, rfl, fun j l hl => by simp [hl]⟩

/-- Settles O10: an opening is defined exactly where all have arrived, and maps every group of the block. -/
theorem barrierOpensWhenAllHaveArrived : Obligations.BarrierOpensWhenAllHaveArrived := by
  refine ⟨fun _ _ _ => openBarrier_of_unsettled, fun b => ⟨openOnce_isSome b, fun b' hb => ?_⟩⟩
  have harr := ((openOnce_isSome b).mp (by rw [hb]; rfl)).2
  have hg := openOnce_groups hb
  refine ⟨by rw [hg, List.length_map], fun i g hi => ⟨g.opened, by rw [hg, List.getElem?_map, hi]; rfl, ?_⟩⟩
  split
  next he => exact opened_of_ended he
  next he => exact opened_of_arrived (by simpa using he) (harr g (List.mem_of_getElem? hi) (by simpa using he))

/-! ### The frame of register instructions -/

/-- An effect on the block of a group alone: nothing outside the tiles, no other tile and no other block of the group's own. -/
def OnlyBlock (g : GroupRef) (s e : State) : Prop :=
  e = { s with tiles := e.tiles } ∧ (∀ u, u ≠ g.tileRef → e.tile u = s.tile u) ∧
    ∀ b, b ≠ g.bid → (e.tile g.tileRef).block? b = (s.tile g.tileRef).block? b

section
variable {s e e' : State} {g : GroupRef}

theorem OnlyBlock.refl (g : GroupRef) (s : State) : OnlyBlock g s s := ⟨rfl, fun _ _ => rfl, fun _ _ => rfl⟩
theorem OnlyBlock.trans (h : OnlyBlock g s e) (h' : OnlyBlock g e e') : OnlyBlock g s e' := by
  obtain ⟨hs, ht, hb⟩ := h
  obtain ⟨hs', ht', hb'⟩ := h'
  exact ⟨by rw [hs', hs], fun u hu => (ht' u hu).trans (ht u hu), fun b hne => (hb' b hne).trans (hb b hne)⟩

theorem OnlyBlock.ite {p : Prop} [Decidable p] (h : OnlyBlock g s e) (h' : OnlyBlock g s e') : OnlyBlock g s (if p then e else e') := by
  split
  · exact h
  · exact h'

theorem setBlock_onlyBlock {b : Block} (hb : b.bid = g.bid) : OnlyBlock g s (s.setBlock g.tileRef b) :=
  ⟨rfl, fun _ hu => tile_setTile_ne _ _ hu, fun i hi => by
    rw [State.setBlock, tile_setTile_same, block?_setBlock_ne (by rw [hb]; exact hi.symm)]⟩

theorem putGroup_onlyBlock {o : TOp} {c : TCtx} (h : s.issueAt g o = some c) (gr : Group) : OnlyBlock g s (s.putGroup c gr) := by
  obtain ⟨ht, -, hb, -⟩ := frontOf_some (frontOf_of_issueAt h)
  rw [State.putGroup, ht]
  exact setBlock_onlyBlock (block?_bid (x := s.tile g.tileRef) (b := c.b) hb)

theorem laneOp_onlyBlock (s : State) (g : GroupRef) (o : TOp) (f : TCtx → Nat → Lane → Lane) : OnlyBlock g s (s.laneOp g o f) := by
  unfold State.laneOp
  split
  · exact .refl g s
  next h => exact putGroup_onlyBlock h _
theorem groupOp_onlyBlock (s : State) (g : GroupRef) (o : TOp) (f : TCtx → Group → Group) : OnlyBlock g s (s.groupOp g o f) := by
  unfold State.groupOp
  split
  · exact .refl g s
  next h => exact putGroup_onlyBlock h _
theorem flowOp_onlyBlock (s : State) (g : GroupRef) (o : TOp) (f : TCtx → Lane → Lane) : OnlyBlock g s (s.flowOp g o f) := by
  unfold State.flowOp
  split
  · exact .refl g s
  next h => exact putGroup_onlyBlock h _

theorem tryOpen_bid (b : Block) (n : Nat) : (b.tryOpen n).bid = b.bid := by
  induction n generalizing b with
  | zero => rfl
  | succ n ih =>
    unfold Block.tryOpen
    split
    · rfl
    · split
      next b' hb =>
        rw [ih]
        unfold Block.openOnce at hb
        dsimp only at hb
        split at hb
        · cases hb; rfl
        · cases hb
      · rfl
theorem openBarrier_onlyBlock (s : State) (g : GroupRef) : OnlyBlock g s (s.openBarrier g.tileRef g.bid) := by
  unfold State.openBarrier
  split
  next b hb =>
    split
    · exact setBlock_onlyBlock ((tryOpen_bid b 64).trans (block?_bid hb))
    · exact .refl g s
  · exact .refl g s

end

/-- A command of a group whose effect stays in the group's block. -/
def ActsOnBlock (mk : GroupRef → Instr) : Prop := ∀ g s, ∃ e, exec (mk g) s = done s e ∧ OnlyBlock g s e

theorem actsOnBlock_of_laneOp {mk : GroupRef → Instr} {o : TOp} (f : TCtx → Nat → Lane → Lane)
    (h : ∀ g s, exec (mk g) s = done s (s.laneOp g o f)) : ActsOnBlock mk := fun g s => ⟨_, h g s, laneOp_onlyBlock s g o f⟩
theorem actsOnBlock_of_groupOp {mk : GroupRef → Instr} {o : TOp} (f : TCtx → Group → Group)
    (h : ∀ g s, exec (mk g) s = done s (s.groupOp g o f)) : ActsOnBlock mk := fun g s => ⟨_, h g s, groupOp_onlyBlock s g o f⟩
theorem actsOnBlock_of_flowOp {mk : GroupRef → Instr} {o : TOp} (f : TCtx → Lane → Lane)
    (h : ∀ g s, exec (mk g) s = done s (s.flowOp g o f)) : ActsOnBlock mk := fun g s => ⟨_, h g s, flowOp_onlyBlock s g o f⟩

theorem actsOnBlock_of_mem_rows {α : Type} {l : List ((GroupRef → Instr) × α)} (h : ∀ r ∈ l, ActsOnBlock r.1) :
    ∀ mk ∈ l.map (fun r => r.1), ActsOnBlock mk := by
  intro mk hm
  obtain ⟨r, hr, rfl⟩ := List.mem_map.mp hm
  exact h r hr

theorem integerRows_actOnBlock : ∀ r ∈ integerRows, ActsOnBlock r.1 := by
  simp only [integerRows, List.forall_mem_cons, List.not_mem_nil, false_imp_iff, implies_true, and_true]
  repeat' apply And.intro
  all_goals exact actsOnBlock_of_laneOp _ fun _ _ => rfl
theorem formatRows_actOnBlock : ∀ r ∈ formatRows, ActsOnBlock r.1 := by
  simp only [formatRows, List.forall_mem_cons, List.not_mem_nil, false_imp_iff, implies_true, and_true]
  repeat' apply And.intro
  all_goals exact actsOnBlock_of_laneOp _ fun _ _ => rfl
theorem predicateRows_actOnBlock : ∀ r ∈ predicateRows, ActsOnBlock r.1 := by
  simp only [predicateRows, List.forall_mem_cons, List.not_mem_nil, false_imp_iff, implies_true, and_true]
  exact ⟨actsOnBlock_of_laneOp _ fun _ _ => rfl, actsOnBlock_of_laneOp _ fun _ _ => rfl⟩
theorem uniformRows_actOnBlock : ∀ r ∈ uniformRows, ActsOnBlock r.1 := by
  simp only [uniformRows, List.forall_mem_cons, List.not_mem_nil, false_imp_iff, implies_true, and_true]
  repeat' apply And.intro
  all_goals exact actsOnBlock_of_groupOp _ fun _ _ => rfl

theorem time_actsOnBlock : ActsOnBlock Instr.time := by
  refine fun g s => ⟨_, rfl, ?_⟩
  split
  · exact .refl g s
  · exact .ite (groupOp_onlyBlock s g _ _) (laneOp_onlyBlock s g _ _)
theorem vote_actsOnBlock : ActsOnBlock Instr.vote := by
  refine fun g s => ⟨_, rfl, ?_⟩
  split
  · exact .refl g s
  · exact .ite (groupOp_onlyBlock s g _ _) (laneOp_onlyBlock s g _ _)
theorem waitk_actsOnBlock : ActsOnBlock Instr.waitk := by
  refine fun g s => ⟨_, rfl, ?_⟩
  split
  · exact .refl g s
  · exact .ite (groupOp_onlyBlock s g _ _) (.refl g s)
theorem exit_actsOnBlock : ActsOnBlock Instr.exit := fun g s =>
  ⟨_, rfl, (flowOp_onlyBlock s g _ _).trans (openBarrier_onlyBlock _ g)⟩
theorem bar_actsOnBlock : ActsOnBlock Instr.bar := by
  refine fun g s => ⟨_, rfl, ?_⟩
  split
  · exact .refl g s
  next h => exact (putGroup_onlyBlock h _).trans (openBarrier_onlyBlock _ g)

theorem registerOnlyRows_actOnBlock : ∀ mk ∈ registerOnlyRows, ActsOnBlock mk := by
  simp only [registerOnlyRows, List.forall_mem_append, List.forall_mem_cons, List.not_mem_nil, false_imp_iff, implies_true, and_true]
  refine ⟨⟨⟨⟨actsOnBlock_of_mem_rows integerRows_actOnBlock, actsOnBlock_of_mem_rows formatRows_actOnBlock⟩,
    actsOnBlock_of_mem_rows predicateRows_actOnBlock⟩, actsOnBlock_of_mem_rows uniformRows_actOnBlock⟩,
    ?cvt, ?rnd, time_actsOnBlock, vote_actsOnBlock, ?rdlane, ?rdk, ?nop, ?bra, ?jmp, ?call,
    exit_actsOnBlock, bar_actsOnBlock, waitk_actsOnBlock⟩
  case cvt => exact actsOnBlock_of_laneOp _ fun _ _ => rfl
  case rnd => exact actsOnBlock_of_laneOp _ fun _ _ => rfl
  case rdlane => exact actsOnBlock_of_groupOp _ fun _ _ => rfl
  case rdk => exact actsOnBlock_of_laneOp _ fun _ _ => rfl
  case nop => exact actsOnBlock_of_laneOp _ fun _ _ => rfl
  case bra => exact actsOnBlock_of_flowOp _ fun _ _ => rfl
  case jmp => exact actsOnBlock_of_flowOp _ fun _ _ => rfl
  case call => exact actsOnBlock_of_flowOp _ fun _ _ => rfl

/-- An effect on the tiles alone, with no change of memory outstanding, is what the command leaves. -/
theorem commit_of_onlyBlock {s e : State} {g : GroupRef} (hj : s.journal = []) (h : OnlyBlock g s e) : s.commit e = e := by
  rw [h.1, State.commit, hj, Memory.applyAll, List.foldr_nil]

/-- Settles O11: each row is an issue of the group, with the openings of its own block's barrier after EXIT and BAR. -/
theorem registerInstructionsFrame : Obligations.RegisterInstructionsFrame := by
  intro mk hmk g s hj
  obtain ⟨e, he, h⟩ := registerOnlyRows_actOnBlock mk hmk g s
  exact ⟨e, by rw [he, done, commit_of_onlyBlock hj h], h⟩

/-! ### Loads (R109, R110, R132) -/

theorem szBits_isRegWidth (sz : Nat) : IsRegWidth (szBits sz) := by
  unfold szBits IsRegWidth
  split_ifs <;> simp
theorem atBits_isRegWidth (sz : Nat) : IsRegWidth (atBits sz) := by
  unfold atBits IsRegWidth
  split_ifs <;> simp

/-- The width of the destination of a load or atomic, and the value that a lane's answer leaves there. -/
def MOp.destBits (o : MOp) : Nat := if isAtomic o.op then atBits (wSZ o.word) else szBits (wSZ o.word)
def MOp.destVal (o : MOp) (v : Nat) : Nat := if isAtomic o.op then v else extend (wSZ o.word) v
/-- A group after one lane's answer of a load or atomic. -/
def MOp.laneBack (o : MOp) (n : Nat) (g : Group) (l : MLane) : Group :=
  match l.st, g.lanes[l.lane]? with
  | .done .ok v, some ln =>
    let ln' := if isAtomic o.op then ln.wvw n (wMD o.word) (atBits (wSZ o.word)) v
      else ln.wvw n (wMD o.word) (szBits (wSZ o.word)) (extend (wSZ o.word) v)
    { g with lanes := g.lanes.set l.lane ln' }
  | _, _ => g

theorem destBits_isRegWidth (o : MOp) : IsRegWidth o.destBits := by
  unfold MOp.destBits
  split
  · exact atBits_isRegWidth _
  · exact szBits_isRegWidth _

theorem wvw_dest (o : MOp) (n v : Nat) (ln : Lane) :
    (if isAtomic o.op then ln.wvw n (wMD o.word) (atBits (wSZ o.word)) v
      else ln.wvw n (wMD o.word) (szBits (wSZ o.word)) (extend (wSZ o.word) v)) = ln.wvw n (wMD o.word) o.destBits (o.destVal v) := by
  unfold MOp.destBits MOp.destVal
  split <;> rfl

/-- What a load or atomic leaves of its block: one answer after another. -/
theorem loadBack_eq {b : Block} {o : MOp} {g : Group} (hg : b.group? o.grp = some g)
    (ho : o.op = .ldg ∨ o.op = .ldl ∨ isAtomic o.op = true) :
    loadBack b o = b.setGroup o.grp (o.lanes.foldl (o.laneBack b.nregs) g) := by
  unfold loadBack
  rw [hg]
  dsimp only
  congr 1
  split
  next h => simp [h, isAtomic] at ho
  next h => simp [h, isAtomic] at ho
  next h => simp [h, isAtomic] at ho
  next h => simp [h, isAtomic] at ho
  next => rfl

section
variable (o : MOp) (n : Nat)

theorem laneBack_u (g : Group) (l : MLane) : (o.laneBack n g l).u = g.u := by
  unfold MOp.laneBack
  split <;> rfl
theorem laneBack_length (g : Group) (l : MLane) : (o.laneBack n g l).lanes.length = g.lanes.length := by
  unfold MOp.laneBack
  split <;> simp
theorem laneBack_lane_ne (g : Group) {l : MLane} {i : Nat} (h : l.lane ≠ i) : (o.laneBack n g l).lanes[i]? = g.lanes[i]? := by
  unfold MOp.laneBack
  split
  · exact List.getElem?_set_ne h
  · rfl
theorem laneBack_lane_ok {g : Group} {l : MLane} {v : Nat} {ln : Lane} (hs : l.st = .done .ok v) (hl : g.lanes[l.lane]? = some ln) :
    (o.laneBack n g l).lanes[l.lane]? = some (ln.wvw n (wMD o.word) o.destBits (o.destVal v)) := by
  obtain ⟨hlt, rfl⟩ := List.getElem?_eq_some_iff.mp hl
  simp [MOp.laneBack, hs, hlt, wvw_dest]
theorem laneBack_of_not_ok {g : Group} {l : MLane} (hs : ∀ v, l.st ≠ .done .ok v) : o.laneBack n g l = g := by
  unfold MOp.laneBack
  split
  next h _ => exact absurd h (hs _)
  · rfl

theorem foldl_laneBack_u (ls : List MLane) (g : Group) : (ls.foldl (o.laneBack n) g).u = g.u := by
  induction ls generalizing g with
  | nil => rfl
  | cons l ls ih => exact (ih _).trans (laneBack_u o n g l)
theorem foldl_laneBack_length (ls : List MLane) (g : Group) : (ls.foldl (o.laneBack n) g).lanes.length = g.lanes.length := by
  induction ls generalizing g with
  | nil => rfl
  | cons l ls ih => exact (ih _).trans (laneBack_length o n g l)
theorem foldl_laneBack_lane_ne {ls : List MLane} {i : Nat} (h : ∀ l ∈ ls, l.lane ≠ i) (g : Group) :
    (ls.foldl (o.laneBack n) g).lanes[i]? = g.lanes[i]? := by
  induction ls generalizing g with
  | nil => rfl
  | cons l ls ih =>
    rw [List.forall_mem_cons] at h
    exact (ih h.2 _).trans (laneBack_lane_ne o n g h.1)

/-- Each lane of the group has its own answer's value, or stays as it was. -/
theorem foldl_laneBack_lane {ls : List MLane} (hnd : (ls.map fun l => l.lane).Nodup) {g : Group} {i : Nat} {ln : Lane}
    (hi : g.lanes[i]? = some ln) :
    (∃ l v, l ∈ ls ∧ l.lane = i ∧ l.st = .done .ok v ∧
        (ls.foldl (o.laneBack n) g).lanes[i]? = some (ln.wvw n (wMD o.word) o.destBits (o.destVal v))) ∨
      ((∀ l ∈ ls, l.lane = i → ∀ v, l.st ≠ .done .ok v) ∧ (ls.foldl (o.laneBack n) g).lanes[i]? = some ln) := by
  induction ls generalizing g with
  | nil => exact .inr ⟨by simp, hi⟩
  | cons l ls ih =>
    simp only [List.map_cons, List.nodup_cons, List.mem_map, not_exists, not_and] at hnd
    obtain ⟨hnew, hnd⟩ := hnd
    by_cases hl : l.lane = i
    · subst hl
      have hrest := foldl_laneBack_lane_ne o n hnew (o.laneBack n g l)
      by_cases hs : ∃ v, l.st = .done .ok v
      · obtain ⟨v, hs⟩ := hs
        exact .inl ⟨l, v, List.mem_cons_self, rfl, hs, hrest.trans (laneBack_lane_ok o n hs hi)⟩
      · rw [not_exists] at hs
        refine .inr ⟨List.forall_mem_cons.mpr ⟨fun _ => hs, fun k hk h => absurd h (hnew k hk)⟩, hrest.trans ?_⟩
        rw [laneBack_of_not_ok o n hs, hi]
    · obtain ⟨k, v, hk, h⟩ | ⟨hno, h⟩ := ih hnd ((laneBack_lane_ne o n g hl).trans hi)
      · exact .inl ⟨k, v, List.mem_cons_of_mem l hk, h⟩
      · exact .inr ⟨List.forall_mem_cons.mpr ⟨fun h => absurd h hl, hno⟩, h⟩

end

/-- Settles O14, by induction on the answered lanes, which are all different. -/
theorem loadsWriteOnlyLanesThatReceivedOk : Obligations.LoadsWriteOnlyLanesThatReceivedOk := by
  intro b o g hg hnd ho W val
  have hlt := (List.getElem?_eq_some_iff.mp hg).1
  refine ⟨o.lanes.foldl (o.laneBack b.nregs) g, ?_, foldl_laneBack_length .., foldl_laneBack_u .., fun i ln hi => ?_⟩
  · simp [loadBack_eq hg ho, Block.group?, Block.setGroup, hlt]
  · obtain ⟨l, v, hl, hlane, hst, h⟩ | ⟨hno, h⟩ := foldl_laneBack_lane o b.nregs hnd hi
    · exact ⟨_, h, .inl ⟨l, v, hl, hlane, hst, (wvw_frame ..).symm, fun k => rv_wvw _ _ _ _ _ (destBits_isRegWidth o)⟩⟩
    · exact ⟨_, h, .inr ⟨hno, rfl⟩⟩

/-! ### New blocks (R88, Table 3-3) -/

section
variable (w : W64) (entry arg seed : W64) (seq tile : Nat)

theorem startGroups_length (n g : Nat) (slots : List (Nat × Nat)) : (startGroups w entry arg seed seq tile n g slots).length = n := by
  induction n generalizing g slots with
  | zero => rfl
  | succ n ih => simp [startGroups, ih]

/-- Group `j` of those that start at group `g`: its uniform registers, and its lanes by their number in the block. -/
theorem startGroups_getElem? {n g j : Nat} {slots : List (Nat × Nat)} {gr : Group}
    (h : (startGroups w entry arg seed seq tile n g slots)[j]? = some gr) :
    gr.ru 0 = arg ∧ gr.ru 2 = BitVec.ofNat 64 (lwSize w) ∧
      gr.lanes = (List.range (lwWidth w)).map fun i => startLane entry seed tile ((g + j) * lwWidth w + i) := by
  induction n generalizing g j slots with
  | zero => simp [startGroups] at h
  | succ n ih =>
    rw [startGroups] at h
    cases j with
    | zero =>
      rw [List.getElem?_cons_zero, Option.some.injEq] at h
      subst h
      exact ⟨rfl, rfl, rfl⟩
    | succ j =>
      have := ih (by simpa using h)
      rwa [show g + 1 + j = g + (j + 1) by omega] at this

end

theorem startLane_rv_zero (entry seed : W64) (tile v0 : Nat) {n : Nat} (hn : 0 < n) : (startLane entry seed tile v0).rv n 0 = v0 % 2 ^ 32 := by
  simp [startLane, Lane.rv, hn, aGet, aFind]
theorem startLane_rv_pos (entry seed : W64) (tile v0 n : Nat) {k : Nat} (hk : 0 < k) : (startLane entry seed tile v0).rv n k = 0 := by
  simp [startLane, Lane.rv, aGet, aFind, hk.ne]

/-- Settles O17: group `j` of a new block is the `j`-th that starts, and its lane `i` the thread of number `j * width + i`. -/
theorem newBlockRegisters : Obligations.NewBlockRegisters := by
  intro l tile slots j i gr ln b
  refine ⟨startGroups_length .., rfl, rfl, fun hj => ?_⟩
  obtain ⟨h0, h2, hl⟩ := startGroups_getElem? _ _ _ _ _ _ hj
  refine ⟨by simp [hl], h0, h2, fun hi => ?_⟩
  rw [hl, List.getElem?_map, Option.map_eq_some_iff] at hi
  obtain ⟨m, hm, rfl⟩ := hi
  obtain ⟨-, rfl⟩ := List.getElem?_eq_some_iff.mp hm
  refine ⟨rfl, rfl, rfl, fun hn => ?_, fun k hk => startLane_rv_pos _ _ _ _ _ hk⟩
  rw [startLane_rv_zero _ _ _ _ hn, List.getElem_range, Nat.zero_add]

end Sys2Proof.Machine
end

section
/-!
Fetch and the issue of memory instructions (Chapters 03 and 04): how a fetch ends, what a memory instruction sends out or performs as
it issues, and what a fence waits for.
-/

namespace Sys2Proof.Machine
open Sys2Proof

/-! ### Fetch and undefined encodings (R111, R113, R115, R116, R137) -/

section
variable {s : State} {g : GroupRef}

/-- The first error of a block is its halt record. -/
theorem haltBlock_of_not_halted {t : TileRef} {bid : Nat} {b : Block} (hb : (s.tile t).block? bid = some b) (hh : b.halt = none)
    (r : HaltRec) : s.haltBlock t bid r = (s.setBlock t { b with st := .halted, halt := some r }).haltTell t bid := by
  simp only [State.haltBlock, hb, hh]

theorem undefinedEncoding_gives {c : TCtx} (h : s.frontOf g = some c) (hd : tdecode c.w = none) (hh : c.b.halt = none) :
    Gives (.undefinedEncoding g) s ((s.setBlock g.tileRef { c.b with
      st := .halted, halt := some ⟨c.b.issued, .perm, 7, g.grp, maskOf c.act, c.pc, c.w, 0, false⟩ }).haltTell g.tileRef g.bid) := by
  obtain ⟨-, -, hb, -, -, hact⟩ := frontOf_some h
  refine gives_of_done_eq rfl ?_
  simp only [h, hd, Option.isNone_none, if_true, State.haltFront, haltBlock_of_not_halted hb hh, hact]

section
variable {b : Block} {gr : Group} {pc : W64} (hf : s.fetchAt g = some (b, gr, pc))
include hf

theorem instructionFetch_misaligned_gives (st : Status) (ha : pc.toNat % 8 ≠ 0) :
    Gives (.instructionFetch g 0 st) s (s.haltFront g b gr pc .perm 6 pc) := by
  refine gives_of_done_eq rfl ?_
  simp [hf, ha]

theorem instructionFetch_failed_gives (ahead : Nat) {st : Status} (ha : pc.toNat % 8 = 0)
    (hl : (s.tile g.tileRef).iline b.ctx pc = none) (h0 : st ≠ .ok) (hx : st ≠ .xlat) :
    Gives (.instructionFetch g ahead st) s (if ahead = 0 then s.haltFront g b gr pc st 6 pc else s) := by
  refine gives_of_done_eq rfl ?_
  simp [hf, ha, hl, h0, hx]

theorem instructionFetch_ok_gives {ahead : Nat} {s1 : State} {pa il : Nat} {l : CLine} (ha : pc.toNat % 8 = 0)
    (hl : ahead = 0 → (s.tile g.tileRef).iline b.ctx pc = none)
    (hx : s.xlate (.tile g.tileRef) b.ctx b.pl 3 ((pc.toNat / 128 * 128 + 128 * ahead) % 2 ^ 64) = .ok (.ok pa il, s1))
    (hc : s1.region pa ≠ .control) (hp : s1.region pa ≠ .pcie) (hline : s1.line (tileAgent g.tileRef) (pa / 128) = some l) :
    Gives (.instructionFetch g ahead .ok) s ((s1.touchLine (tileAgent g.tileRef) (pa / 128) false).setTile g.tileRef
      ((s1.tile g.tileRef).icPut ⟨b.ctx, (pc.toNat / 128 * 128 + 128 * ahead) % 2 ^ 64 / 128, l.data, l.pois⟩)) := by
  have hnone : (if decide (ahead = 0) = true then (s.tile g.tileRef).iline b.ctx pc else none) = none := by simpa using hl
  have haligned : (decide (ahead = 0) && decide (pc.toNat % 8 ≠ 0)) = false := by simp [ha]
  refine gives_of_done_eq rfl ?_
  -- The regions are kept abstract, or the kernel evaluates the region of an address that it does not know.
  obtain ⟨R, hR⟩ : ∃ R, R = State.region := ⟨_, rfl⟩
  rw [← hR] at hc hp ⊢
  simp only [hf, haligned, hnone, hx, hline, Bool.false_eq_true, reduceCtorEq, ne_eq, not_true_eq_false, if_false]

end
end

/-- Settles O12: each way that a fetch ends, and an undefined encoding. -/
theorem fetchAndUndefinedEncoding : Obligations.FetchAndUndefinedEncoding :=
  ⟨fun _ _ _ => undefinedEncoding_gives, fun _ _ _ _ _ _ _ _ _ _ hf => instructionFetch_ok_gives hf,
    fun _ ahead _ _ _ _ _ hf => instructionFetch_failed_gives hf ahead, fun _ st _ _ _ _ hf => instructionFetch_misaligned_gives hf st⟩

/-! ### Memory instructions as they issue (R95, R99, R107, R133, R135) -/

theorem foldl_eq_self {α β : Type} {f : β → α → β} {b : β} {l : List α} (h : ∀ x ∈ l, f b x = b) : l.foldl f b = b := by
  induction l with
  | nil => rfl
  | cons x l ih =>
    rw [List.forall_mem_cons] at h
    rw [List.foldl_cons, h.1, ih h.2]

section
variable {s : State} {g : GroupRef} {op : TOp} {c : TCtx}

/-- The block of a group that has issued. -/
theorem block?_afterIssue (h : s.issueAt g op = some c) (gr : Group) :
    ((afterIssue s g c gr).tile g.tileRef).block? g.bid =
      some { c.b.setGroup g.grp { gr with issued := c.g.issued + 1 } with issued := c.b.issued + 1 } := by
  obtain ⟨-, -, hb, -⟩ := frontOf_some (frontOf_of_issueAt h)
  rw [afterIssue, State.setBlock, tile_setTile_same]
  exact block?_setBlock_same hb (block?_bid (x := s.tile g.tileRef) (b := c.b) hb)

theorem memOp_global (h : s.issueAt g op = some c) (hloc : isLoc op c.w = false) (hne : opLanes c op ≠ [])
    (hcan : ∀ l ∈ opLanes c op, l.addr % opBytes op c.w = 0 ∨ canonical l.addr = true) :
    s.memOp g op = (memIssued s g c op ((opLanes c op).map fun l =>
      if l.addr % opBytes op c.w = 0 then l else { l with st := .done .perm 0 })).pump g.tileRef := by
  have ht : c.t = g.tileRef := (frontOf_some (frontOf_of_issueAt h)).1
  have hput : s.putGroup c { c.g with lanes := c.lanes fun _ l => l } = afterIssue s g c (movedOn c) := putGroup_of_issueAt h rfl
  have hemp : (opLanes c op).isEmpty = false := by simpa using hne
  have hlog (f : State → MLane → State) (s : State) :
      (opLanes c op).foldl (fun s l => if l.addr % opBytes op c.w ≠ 0 ∧ canonical l.addr = false then f s l else s) s = s :=
    foldl_eq_self fun l hl => if_neg fun ⟨ha, hc⟩ => (hcan l hl).elim ha (by simp [hc])
  unfold State.memOp
  simp only [h, hput, hemp, ht, block?_afterIssue h, hloc, Bool.false_eq_true, if_false, hlog, ite_not]
  rfl

theorem memOp_local (h : s.issueAt g op = some c) (hloc : isLoc op c.w = true) (hne : opLanes c op ≠ []) :
    s.memOp g op =
      (let s1 := afterIssue s g c (movedOn c)
       let b1 := { c.b.setGroup g.grp { movedOn c with issued := c.g.issued + 1 } with issued := c.b.issued + 1 }
       let r := localLanes op c.w (opLanes c op) b1
       let x := (s1.tile g.tileRef).setBlock r.2
       s1.setTile g.tileRef { x with ops := x.ops ++ [newOp s1 g c op r.1], nextOp := x.nextOp + 1 }) := by
  have ht : c.t = g.tileRef := (frontOf_some (frontOf_of_issueAt h)).1
  have hput : s.putGroup c { c.g with lanes := c.lanes fun _ l => l } = afterIssue s g c (movedOn c) := putGroup_of_issueAt h rfl
  have hemp : (opLanes c op).isEmpty = false := by simpa using hne
  unfold State.memOp
  simp only [h, hput, hemp, ht, block?_afterIssue h, hloc, Bool.false_eq_true, if_false, if_true]
  rfl

/-- FENCE stands among its group's outstanding instructions. -/
theorem fence_gives (h : s.issueAt g .fence = some c) : Gives (.fence g) s ((memIssued s g c .fence []).pump g.tileRef) := by
  have ht : c.t = g.tileRef := (frontOf_some (frontOf_of_issueAt h)).1
  refine gives_of_done_eq rfl ?_
  simp only [h, ht, groupOp_of_issueAt (f := fun _ gr => gr) h rfl]
  rfl

/-- No outstanding fence of the group keeps back what issues (R104). -/
theorem fenceBars_of_issueAt (h : s.issueAt g op = some c) :
    ∀ m ∈ (s.tile g.tileRef).groupOps g.bid g.grp, m.op = .fence → fenceBars m.word op = false := by
  obtain ⟨-, -, -, -, -, -, -, -, -, -, hmay, -⟩ := issueAt_some h
  simp only [Tile.mayIssue, Bool.and_eq_true, List.all_eq_true] at hmay
  obtain ⟨⟨-, hfence⟩, -⟩ := hmay
  intro m hm hop
  simpa [hop] using hfence m hm

end

/-- A command that issues a memory instruction. -/
def IssuesMem (mk : GroupRef → Instr) (op : TOp) : Prop := ∀ g s, exec (mk g) s = done s (s.memOp g op)

theorem globalRow_of_issuesMem {mk : GroupRef → Instr} {op : TOp} (he : IssuesMem mk op) : GlobalRow mk op :=
  fun g s _ h hloc hne hcan => gives_of_done_eq (he g s) (memOp_global h hloc hne hcan)
theorem localRow_of_issuesMem {mk : GroupRef → Instr} {op : TOp} (he : IssuesMem mk op) : LocalRow mk op :=
  fun g s _ h hloc hne => gives_of_done_eq (he g s) (memOp_local h hloc hne)

theorem atomicRows_issueMem : ∀ r ∈ atomicRows, IssuesMem r.1 r.2 := by
  simp only [atomicRows, List.forall_mem_cons, List.not_mem_nil, false_imp_iff, implies_true, and_true]
  repeat' apply And.intro
  all_goals exact fun _ _ => rfl

/-! ### Fences (R104, R286) -/

/-- A lane's answer has come. -/
def LState.isDone : LState → Bool
  | .done _ _ => true
  | _ => false
theorem isDone_iff (x : LState) : x.isDone = true ↔ ∃ st v, x = .done st v := by cases x <;> simp [LState.isDone]
theorem answered_iff_all_isDone (m : MOp) : (m.lanes.all fun l => l.st.isDone) = true ↔ m.answered := by
  simp only [List.all_eq_true, isDone_iff, MOp.answered]

/-- What the condition of a fence asks of the older accesses of its group, of the write buffer and of the misses. -/
theorem fenceMet_iff (x : Tile) (f : MOp) :
    let old (m : MOp) : Prop := m ∈ x.groupOps f.bid f.grp ∧ m.seq < f.seq
    x.fenceMet f = true ↔ (∀ m, old m → isStore m.op = true ∨ m.answered)
      ∧ (wf f.word 50 49 ≠ 0 → ∀ m, old m → m.settled = true) ∧ (2 ≤ wf f.word 48 47 → wf f.word 50 49 ≠ 0 → x.wb = [])
      ∧ (2 ≤ wf f.word 48 47 → wf f.word 50 49 ≠ 1 → (∀ m ∈ x.fills, f.oid < m.oid) ∧
        ∀ m ∈ x.ops, f.oid ≤ m.oid ∨ ∀ l ∈ m.lanes, l.st ≠ .stall) := by
  intro old
  change (List.all _ (fun m : MOp => isStore m.op || m.lanes.all fun l => l.st.isDone) && _ && _ && _) = true ↔ _
  rw [Bool.and_eq_true, Bool.and_eq_true, Bool.and_eq_true, and_assoc, and_assoc]
  refine and_congr ?older (and_congr ?released (and_congr ?drained ?filled))
  case older =>
    simp only [List.all_eq_true, List.mem_filter, decide_eq_true_eq, Bool.or_eq_true, ← answered_iff_all_isDone, old]
  case released =>
    simp only [Bool.or_eq_true, decide_eq_true_eq, List.all_eq_true, List.mem_filter, or_iff_not_imp_left, ne_eq, old]
  case drained =>
    simp only [Bool.or_eq_true, Bool.not_eq_true', decide_eq_true_eq, decide_eq_false_iff_not, List.isEmpty_iff,
      or_iff_not_imp_left, not_not, Classical.not_imp, and_imp, ne_eq]
  case filled =>
    simp only [Bool.or_eq_true, Bool.and_eq_true, Bool.not_eq_true', decide_eq_true_eq, decide_eq_false_iff_not, List.all_eq_true,
      or_iff_not_imp_left, not_not, Classical.not_imp, and_imp, ne_eq]

section
variable (x : Tile)

/-- A fence of the tile whose condition holds. -/
def Tile.fenceEnds (x : Tile) (o : MOp) : Prop := o ∈ x.ops ∧ o.op = .fence ∧ x.fenceMet o = true
/-- Whether a fence ends that empties the L1: an acquire at device or system scope. -/
def Tile.l1Empties (x : Tile) : Prop := ∃ o, x.fenceEnds o ∧ wf o.word 50 49 ≠ 1 ∧ 2 ≤ wf o.word 48 47

/-- The fences that end leave the outstanding instructions, and the L1 is empty where one of them is a wide acquire. -/
theorem endFences_cases :
    x.endFences.ops = x.ops.filter (fun o => !(decide (o.op = .fence) && x.fenceMet o)) ∧
      (x.l1Empties → x.endFences.l1 = []) ∧ (¬ x.l1Empties → x.endFences = { x with ops := x.endFences.ops }) := by
  have hiff : (x.ops.any fun o => decide (o.op = .fence) && x.fenceMet o && decide (wf o.word 50 49 ≠ 1) &&
      decide (2 ≤ wf o.word 48 47)) = true ↔ x.l1Empties := by
    simp [Tile.l1Empties, Tile.fenceEnds, and_assoc]
  unfold Tile.endFences
  dsimp only
  split
  next h => exact ⟨rfl, fun _ => rfl, fun hn => absurd (hiff.mp h) hn⟩
  next h => exact ⟨rfl, fun he => absurd (hiff.mpr he) h, fun _ => rfl⟩

theorem mem_endFences_ops (o : MOp) : o ∈ x.endFences.ops ↔ o ∈ x.ops ∧ ¬ x.fenceEnds o := by
  rw [(endFences_cases x).1, List.mem_filter]
  refine and_congr_right fun ho => ?_
  simp [Tile.fenceEnds, ho, or_iff_not_imp_left]

end

/-- Settles O13: the rows by what `memOp` does, and the fences by their condition. -/
theorem threadMemoryInstructions : Obligations.ThreadMemoryInstructions := by
  refine ⟨⟨?ldg, ?stg, ?ldu, ?prf, ?ldl, ?stl, fun r hr => ?atomic⟩, fun _ _ _ => fence_gives,
    fun _ _ _ _ => fenceBars_of_issueAt, fenceMet_iff, fun x => ⟨mem_endFences_ops x, (endFences_cases x).2⟩⟩
  case ldg => exact globalRow_of_issuesMem fun _ _ => rfl
  case stg => exact globalRow_of_issuesMem fun _ _ => rfl
  case ldu => exact globalRow_of_issuesMem fun _ _ => rfl
  case prf => exact globalRow_of_issuesMem fun _ _ => rfl
  case ldl => exact localRow_of_issuesMem fun _ _ => rfl
  case stl => exact localRow_of_issuesMem fun _ _ => rfl
  case atomic => exact ⟨globalRow_of_issuesMem (atomicRows_issueMem r hr), localRow_of_issuesMem (atomicRows_issueMem r hr)⟩

end Sys2Proof.Machine
end

section
/-!
Completion of memory instructions, fills, stores and walks, and the blocks of a tile (Chapters 03, 10 and 11): what the memory side
answers to a tile, how blocks are placed, and how they end.
-/

namespace Sys2Proof.Machine
open Sys2Proof

/-! ### Answered instructions and L1 fills (R99, R100, R109, R284, R291) -/

section
variable {s : State} {t : TileRef}

theorem memoryResponse_gives {oid : Nat} {st : Status} {o : MOp} {s1 : State}
    (hs : (if st = .xlat then s else (s.pump t).atomicsGo t oid st) = s1) (hop : s1.op? t oid = some o) (hf : o.op ≠ .fence)
    (ha : o.answered) : Gives (.memoryResponse t oid st) s ((s1.completeOp t o).pump t) := by
  have hdone := (answered_iff_all_isDone o).mpr ha
  refine gives_of_done_eq rfl ?_
  rw [hs]
  dsimp only
  rw [hop]
  exact if_pos ⟨hf, hdone⟩

/-- A fill that fails answers the waiting lanes with its status. -/
theorem l1Fill_failed_gives {f : Fill} {r : List Fill} {st : Status} (hfill : (s.tile t).fills = f :: r) (h0 : st ≠ .ok)
    (hx : st ≠ .xlat) :
    Gives (.l1Fill t st) s (((s.setTile t
      { s.tile t with fills := r, ops := answerLanes (s.tile t) (waitsFor f.line) fun _ _ => .done st 0 }).unstall t).pump t) := by
  refine gives_of_done_eq rfl ?_
  simp only [hfill, hx, if_false]
  exact if_pos h0

/-- A tile whose waiting lanes a line has answered. -/
def Tile.filled (x : Tile) (f : Fill) (r : List Fill) (l : CLine) : Tile :=
  { x with fills := r, ops := answerLanes x (waitsFor f.line) (lineAnswer l) }
/-- A tile after a fill: the line is installed where the miss asked for it and no half is poisoned. -/
def Tile.afterFill (x : Tile) (f : Fill) (r : List Fill) (l : CLine) : Tile :=
  if f.install && decide (l.pois = 0) then (x.filled f r l).l1Install f.line (x.withStores f.line l.data) else x.filled f r l

theorem l1Fill_ok_gives {f : Fill} {r : List Fill} {l : CLine} (hfill : (s.tile t).fills = f :: r)
    (hline : s.line (tileAgent t) f.line = some l) :
    Gives (.l1Fill t .ok) s
      ((((s.touchLine (tileAgent t) f.line f.strm).setTile t ((s.tile t).afterFill f r l)).unstall t).pump t) := by
  refine gives_of_done_eq rfl ?_
  simp only [hfill, hline]
  rfl

/-- An installation changes the L1 alone, and the line is there. -/
theorem l1Install_eq (x : Tile) (line : Nat) (d : Line) :
    x.l1Install line d = { x with l1 := (x.l1Install line d).l1, trees := (x.l1Install line d).trees } := rfl
theorem l1Install_holds (x : Tile) (line : Nat) (d : Line) : ∃ e ∈ (x.l1Install line d).l1, e.line = line ∧ e.data = d := by
  unfold Tile.l1Install Tile.touch
  exact ⟨_, List.mem_append_right _ (List.mem_singleton_self _), rfl, rfl⟩

theorem afterFill_eq (x : Tile) (f : Fill) (r : List Fill) (l : CLine) :
    x.afterFill f r l = { x.filled f r l with l1 := (x.afterFill f r l).l1, trees := (x.afterFill f r l).trees } := by
  unfold Tile.afterFill
  split
  · exact l1Install_eq _ _ _
  · rfl
theorem afterFill_installs (x : Tile) {f : Fill} (r : List Fill) {l : CLine} (hi : f.install = true) (hp : l.pois = 0) :
    ∃ e ∈ (x.afterFill f r l).l1, e.line = f.line ∧ e.data = x.withStores f.line l.data := by
  rw [Tile.afterFill, if_pos (by simp [hi, hp])]
  exact l1Install_holds _ _ _
theorem afterFill_l1_kept (x : Tile) {f : Fill} (r : List Fill) {l : CLine} (h : f.install = false ∨ l.pois ≠ 0) :
    (x.afterFill f r l).l1 = x.l1 := by
  have hn : (f.install && decide (l.pois = 0)) = false := by
    obtain h | h := h <;> simp [h]
  rw [Tile.afterFill, hn]
  rfl

/-! ### The write buffer (R287, R290, R291) -/

/-- The first element that a test accepts is the one that changes. -/
theorem lUpd_append_cons {α : Type} {p : α → Bool} {f : α → α} {a b : List α} {e : α} (ha : ∀ x ∈ a, p x = false) (he : p e = true) :
    lUpd p f (a ++ e :: b) = a ++ f e :: b := by
  induction a with
  | nil => exact if_pos he
  | cons x a ih =>
    rw [List.forall_mem_cons] at ha
    rw [List.cons_append, lUpd, ha.1, if_neg Bool.false_ne_true, ih ha.2, List.cons_append]

theorem writeBufferDrain_sends_gives {a b : List WbEnt} {e : WbEnt} (hwb : (s.tile t).wb = a ++ e :: b) (ha : ∀ x ∈ a, x.sent = true)
    (he : e.sent = false) (hn : a.length + (b.filter fun x => x.sent).length < 4) :
    Gives (.writeBufferDrain t) s (s.setTile t { s.tile t with wb := a ++ { e with sent := true } :: b }) := by
  have hcount : ((s.tile t).wb.filter fun e => e.sent).length < 4 := by
    rwa [hwb, List.filter_append, List.filter_eq_self.mpr ha, List.filter_cons_of_neg (by simp [he]), List.length_append]
  refine gives_of_done_eq rfl ?_
  dsimp only
  rw [if_pos hcount, hwb, lUpd_append_cons (fun x hx => by simp [ha x hx]) (by simp [he])]

theorem writeBufferDrain_full_gives (h : 4 ≤ ((s.tile t).wb.filter fun e => e.sent).length) : Gives (.writeBufferDrain t) s s :=
  gives_of_done_eq rfl (if_neg (by omega))

theorem touchLine_tiles (s : State) (a pa : Nat) (strm : Bool) : (s.touchLine a pa strm).tiles = s.tiles := by
  unfold State.touchLine
  split
  · split <;> rfl
  · rfl

theorem writeBufferAck_gives {e : WbEnt} {r : List WbEnt} {l : CLine} (hwb : (s.tile t).wb = e :: r) (hs : e.sent = true)
    (hil : e.il ≠ 3) (hline : s.line (tileAgent t) e.line = some l) (hl : 2 ≤ l.st) :
    Gives (.writeBufferAck t .ok) s
      ((((s.setLine (tileAgent t) e.line { (l.put e.mask e.data).1 with st := 3 }).touchLine (tileAgent t) e.line e.strm).setTile t
        { s.tile t with
          wb := r
          ops := answerLanes (s.tile t) (fun o m => e.who.contains (o.oid, m.lane))
            fun _ m => .done (if halfRefused l e (m.pa % 128 / 64) then .pois else .ok) 0 }).pump t) := by
  have htile (c : CLine) :
      ((s.setLine (tileAgent t) e.line c).touchLine (tileAgent t) e.line e.strm).tile t = s.tile t := by
    rw [State.tile, touchLine_tiles]; rfl
  have hst : ¬ l.st < 2 := by omega
  refine gives_of_done_eq rfl ?_
  simp only [hwb, hs, hil, hline, hst, htile, Bool.not_true, Bool.false_eq_true, reduceCtorEq, ne_eq, not_true_eq_false, or_self, if_false]
  rfl

/-! ### Walks of a tile (R318, R320) -/

/-- A walk of the tile for the page of an address. -/
def walkOf (t : TileRef) (va : Nat) (w : Walk) : Bool := decide (w.who = .tile t) && decide (w.va / 2 ^ 16 = va / 2 ^ 16)

section
variable {va : Nat} {w : Walk} {s1 : State} (hw : s.walks.find? (walkOf t va) = some w)
include hw

theorem walkReadReturn_down_gives {lv tb : Nat}
    (hstep : s.walkStep (.tile t) w.ctx w.pl w.typ w.va w.level w.table = .ok (.down lv tb, s1)) :
    Gives (.walkReadReturn t va .ok) s { s1 with walks := lUpd (walkOf t va) (fun v => { v with level := lv, table := tb }) s1.walks } := by
  refine gives_of_done_eq rfl ?_
  split
  next h => cases hw.symm.trans h
  next h =>
    cases hw.symm.trans h
    rw [if_neg (not_not.mpr rfl), hstep]
    rfl

theorem walkReadReturn_ends_gives {pa il : Nat}
    (hstep : s.walkStep (.tile t) w.ctx w.pl w.typ w.va w.level w.table = .ok (.isOver (.ok pa il), s1)) :
    Gives (.walkReadReturn t va .ok) s
      ((s1.tiles.filter fun e => decide (e.1.die = t.die)).foldl (fun s e => s.pump e.1) { s1 with walks := lDrop (walkOf t va) s1.walks }) := by
  refine gives_of_done_eq rfl ?_
  split
  next h => cases hw.symm.trans h
  next h =>
    cases hw.symm.trans h
    rw [if_neg (not_not.mpr rfl), hstep]
    rfl

end
end

/-- Settles O15: each answer of the memory side, and the walks. -/
theorem tileMemoryCompletions : Obligations.TileMemoryCompletions := by
  refine ⟨fun _ _ _ _ _ => memoryResponse_gives rfl, ⟨fun t s f r l hfill hline => ?fill, fun _ _ _ _ _ => l1Fill_failed_gives⟩,
    ⟨fun _ _ _ _ _ => writeBufferDrain_sends_gives, fun _ _ => writeBufferDrain_full_gives, fun _ _ _ _ _ => writeBufferAck_gives⟩,
    fun _ _ _ _ _ _ _ hw => walkReadReturn_down_gives hw, fun _ _ _ _ _ _ _ hw => walkReadReturn_ends_gives hw⟩
  case fill =>
    refine ⟨((s.tile t).afterFill f r l).l1, ((s.tile t).afterFill f r l).trees, ?_, afterFill_installs _ r, afterFill_l1_kept _ r⟩
    have h := l1Fill_ok_gives hfill hline
    rwa [afterFill_eq] at h

/-! ### Placing and ending blocks (R82, R88, R91, R94, R114, R428) -/

/-- New work abandons at most an attempt to enter a power state. -/
theorem newWork_tiles (s : State) (d : Die) (k : Nat) : (s.newWork d k).tiles = s.tiles := by
  unfold State.newWork
  split
  · split <;> rfl
  · rfl
theorem newWork_launches (s : State) (d : Die) (k : Nat) : (s.newWork d k).launches = s.launches := by
  unfold State.newWork
  split
  · split <;> rfl
  · rfl

/-- A launch that has tiles left to place on goes on waiting. -/
theorem launchLess_of_left (s : State) (l : Launch) {left : List Nat} (h : left ≠ []) (f : Launch → Launch) :
    s.launchLess l left f =
      { s with launches := s.launches.map fun y => if y.die = l.die ∧ y.seq = l.seq then f { y with todo := left } else y } :=
  if_neg (by simpa using h)

section
variable {t : TileRef} {seq : Nat} {s : State} {l : Launch}
  (hl : s.launches.find? (fun l => decide (l.die = t.die) && decide (l.seq = seq) && l.todo.contains (s.localIndex t)) = some l)
  (hr : s.running (.cd t.die) true = true) (h0 : s.inN0 = true) (hq : s.rf (.cd t.die) .cqCfg l.queue 23 21 ≠ 3)
  (hp : s.preempted.contains (t.die.val, l.ctx) = false) (hleft : (l.todo.filter fun k => decide (k ≠ s.localIndex t)) ≠ [])
include hl hr h0 hq hp

/-- A launch that may place goes by the tile: its Weir, then its room. -/
theorem blockPlace_done : exec (.blockPlace t seq) s = done s
    (let left := l.todo.filter fun k => decide (k ≠ s.localIndex t)
     if s.tileShut t then s.launchLess l left fun y => { y with st := Status.first y.st .unav }
     else if fitsWith (s.tile t).blocks l.word then
       ((s.setTile t { s.tile t with
          blocks := (s.tile t).blocks ++ [newBlock l (s.tileIndex t) (s.tile t).slots], icache := [] }).newWork (.cd t.die) 1).launchLess
         l left fun y => { y with live := y.live ++ [(t.die.val, t.tile)] }
     else s) := by
  refine gives_of_done_eq rfl ?_
  simp only [hl, hr, h0, hp]
  exact if_pos (by simpa using hq)

include hleft

theorem blockPlace_shut_gives (hs : s.tileShut t = true) :
    Gives (.blockPlace t seq) s { s with launches := s.launches.map fun y => if y.die = l.die ∧ y.seq = l.seq then
      { y with todo := l.todo.filter fun k => decide (k ≠ s.localIndex t), st := Status.first y.st .unav } else y } := by
  refine gives_of_done_eq (blockPlace_done hl hr h0 hq hp) ?_
  dsimp only
  rw [if_pos hs, launchLess_of_left _ _ hleft]

theorem blockPlace_fits_acts (hs : s.tileShut t = false) (hf : fitsWith (s.tile t).blocks l.word = true) :
    Acts (.blockPlace t seq) s fun u =>
      u.tile t = { s.tile t with blocks := (s.tile t).blocks ++ [newBlock l (s.tileIndex t) (s.tile t).slots], icache := [] }
      ∧ (∀ v, v ≠ t → u.tile v = s.tile v)
      ∧ u.launches = s.launches.map (fun y => if y.die = l.die ∧ y.seq = l.seq then
          { y with todo := l.todo.filter fun k => decide (k ≠ s.localIndex t), live := y.live ++ [(t.die.val, t.tile)] } else y) := by
  refine ⟨_, blockPlace_done hl hr h0 hq hp, ?_⟩
  dsimp only
  rw [if_neg (by simp [hs]), if_pos hf, launchLess_of_left _ _ hleft]
  have ht (x : Tile) := newWork_tiles (s.setTile t x) (.cd t.die) 1
  exact ⟨(congrArg (aGet · Tile.empty t) (ht _)).trans (tile_setTile_same s t _),
    fun v hv => (congrArg (aGet · Tile.empty v) (ht _)).trans (tile_setTile_ne s _ hv),
    congrArg (List.map _) (newWork_launches (s.setTile t _) (.cd t.die) 1)⟩

end

theorem blockEnd_gives {b : BlockRef} {s : State} {k : Block} (hb : (s.tile b.tileRef).block? b.bid = some k) (hr : k.st = .running)
    (he : ∀ g ∈ k.groups, g.ended = true) (hops : (s.tile b.tileRef).opsOf b.bid = []) (hwb : (s.tile b.tileRef).wb = [])
    (hd : ∀ d ∈ (s.tile b.tileRef).mx ++ (s.tile b.tileRef).vx, d.bid ≠ b.bid) :
    Gives (.blockEnd b) s ((s.setTile b.tileRef ((s.tile b.tileRef).dropBlock b.bid)).launchEnd b.tileRef b.bid .ok) := by
  have hgroups : k.groups.all Group.ended = true := List.all_eq_true.mpr he
  have hdesc : ((s.tile b.tileRef).mx ++ (s.tile b.tileRef).vx).any (fun d => decide (d.bid = b.bid)) = false :=
    List.any_eq_false.mpr fun d hmem => by simpa using hd d hmem
  refine gives_of_done_eq rfl ?_
  simp only [hb]
  exact if_pos (by simp only [hr, hgroups, hops, hwb, hdesc]; rfl)

/-- Settles O16: a launch on a tile with room, on a tile that is shut, and the end of a block. -/
theorem blockPlaceAndBlockEnd : Obligations.BlockPlaceAndBlockEnd :=
  ⟨fun _ _ _ _ hl hr h0 hs hf hq hp hleft => blockPlace_fits_acts hl hr h0 hq hp hleft hs hf,
    fun _ _ _ _ hl hr h0 hs hq hp hleft => blockPlace_shut_gives hl hr h0 hq hp hleft hs, fun _ _ _ => blockEnd_gives⟩

end Sys2Proof.Machine
end

section
/-!
The thread instructions that compute on registers, and the issue of descriptors to the engines (Chapters 04 to 06): what a lane
instruction leaves in each lane, the arithmetic of the integer operations, votes, and the counters that completions advance.
-/

namespace Sys2Proof.Machine
open Sys2Proof

/-! ### Lane instructions (R117, R118) -/

section
variable {s : State} {g : GroupRef} {o : TOp} {c : TCtx}

theorem laneOp_of_issueAt (h : s.issueAt g o = some c) (f : TCtx → Nat → Lane → Lane) :
    s.laneOp g o f = afterIssue s g c { c.g with lanes := c.lanes (f c) } := by
  simp only [State.laneOp, h]
  exact putGroup_of_issueAt (gr := { c.g with lanes := c.lanes (f c) }) h rfl

/-- Only active lanes execute (R117). -/
theorem mem_act_of_mem_exe (h : s.issueAt g o = some c) {i : Nat} (hi : i ∈ c.exe) : i ∈ c.act := by
  obtain ⟨-, -, -, -, -, -, -, -, hexe, -⟩ := issueAt_some h
  rw [hexe] at hi
  exact (List.mem_filter.mp hi).1

/-- A lane after an instruction whose function leaves the program counter alone. -/
theorem lanes_lanePost (h : s.issueAt g o = some c) {f : Nat → Lane → Lane} {eff : Nat → Lane → Lane → Prop} {i : Nat} {l : Lane}
    (hl : c.g.lanes[i]? = some l) (hpc : (f i l).pc = l.pc) (heff : eff i l (f i l)) :
    ∃ l', (c.lanes f)[i]? = some l' ∧ LanePost c eff i l l' := by
  refine ⟨_, by rw [lanes_get, hl]; rfl, fun hact => ?inactive, fun hact => ?active⟩
  case inactive =>
    have hexe : i ∉ c.exe := fun hi => hact (mem_act_of_mem_exe h hi)
    simp [hact, hexe]
  case active =>
    by_cases hexe : i ∈ c.exe
    · have hsame : { f i l with pc := l.pc } = f i l := by rw [← hpc]
      simpa [hact, hexe, hpc, hsame] using heff
    · simp [hact, hexe]

end

/-- A command that computes `f` on each executing lane is a lane instruction of effect `eff`, where `f` has that effect on the lanes of
the group and leaves their program counters alone. -/
theorem laneRow_of_laneOp {mk : GroupRef → Instr} {op : TOp} {f : TCtx → Nat → Lane → Lane} {eff : TCtx → Nat → Lane → Lane → Prop}
    (he : ∀ g s, exec (mk g) s = done s (s.laneOp g op f))
    (hf : ∀ c i l, c.g.lanes[i]? = some l → (f c i l).pc = l.pc ∧ eff c i l (f c i l)) : LaneRow mk op eff := by
  intro g s c h
  refine ⟨c.lanes (f c), gives_of_done_eq (he g s) (laneOp_of_issueAt h f), lanes_length c _, fun i l hl => ?_⟩
  obtain ⟨hpc, heff⟩ := hf c i l hl
  exact lanes_lanePost h hl hpc heff

@[simp] theorem wvw_pc (l : Lane) (n d w x : Nat) : (l.wvw n d w x).pc = l.pc := by rw [← wvw_frame]

theorem isRegWidth_tw (c : TCtx) : IsRegWidth c.tw := by
  unfold TCtx.tw typeBits
  split
  · exact .inr (.inl rfl)
  · exact .inl rfl
theorem isRegWidth_cvtBits (f : Nat) : IsRegWidth (cvtBits f) := by
  unfold cvtBits
  split
  · exact .inr (.inl rfl)
  · exact .inl rfl

/-- A command that puts `f` into the destination of its type is the row of a value that `f` equals on the group's lanes. -/
theorem valueRow_of_put {mk : GroupRef → Instr} {op : TOp} {f val : TCtx → Nat → Lane → Nat}
    (he : ∀ g s, exec (mk g) s = done s (s.laneOp g op fun c i l => c.put l (f c i l)))
    (hv : ∀ c i l, c.g.lanes[i]? = some l → f c i l = val c i l) : ValueRow (mk, op, val) :=
  laneRow_of_laneOp he fun c i l hl =>
    ⟨wvw_pc l _ _ _ _, hv c i l hl ▸ writes_wvw c l (dstOf c) (f c i l) (isRegWidth_tw c)⟩

/-! ### Integer arithmetic (R122, R123, Table 2-8) -/

section
variable (t : ITy) (a b n : Nat)

/-- The pattern of a value is the pattern that it was read from. -/
theorem unsignedBits_val : unsignedBits t.width (t.val a) = a % 2 ^ t.width := by
  have hmod : t.val a % ((2 ^ t.width : Nat) : Int) = ((a % 2 ^ t.width : Nat) : Int) := by
    unfold ITy.val signed
    split
    · dsimp only
      split <;> simp
    · simp
  rw [unsignedBits, hmod, Int.toNat_natCast]

/-- A signed number of `w` bits lies in its range. -/
theorem signed_bounds (w x : Nat) : -((2 ^ (w - 1) : Nat) : Int) ≤ signed w x ∧ signed w x < ((2 ^ (w - 1) : Nat) : Int) := by
  have hlt : x % 2 ^ w < 2 ^ w := Nat.mod_lt _ (Nat.two_pow_pos w)
  have hw : 2 ^ w ≤ 2 * 2 ^ (w - 1) := by
    rw [← Nat.pow_succ']
    exact Nat.pow_le_pow_right (by decide) (by omega)
  unfold signed
  dsimp only
  split <;> omega

/-- A number in a range of `2 ^ m` either way, shifted right by `m` places or more, is its sign. -/
theorem ediv_two_pow_of_le {x : Int} {m n : Nat} (hlo : -((2 ^ m : Nat) : Int) ≤ x) (hhi : x < ((2 ^ m : Nat) : Int)) (hmn : m ≤ n) :
    x / ((2 ^ n : Nat) : Int) = if x < 0 then -1 else 0 := by
  have hpow : ((2 ^ m : Nat) : Int) ≤ ((2 ^ n : Nat) : Int) := Int.ofNat_le.mpr (Nat.pow_le_pow_right (by decide) hmn)
  split
  · exact Int.ediv_eq_neg_one_of_neg_of_le (by assumption) (by omega)
  · exact Int.ediv_eq_zero_of_lt (by omega) (by omega)

/-- A left shift multiplies, whatever the count. -/
theorem iShl_eq : iShl t a n = a * 2 ^ n % 2 ^ t.width := by
  unfold iShl
  split
  next h => exact (Nat.mod_eq_zero_of_dvd (Dvd.dvd.mul_left (Nat.pow_dvd_pow 2 h) a)).symm
  next => rw [Nat.shiftLeft_eq]

/-- A right shift divides, rounding down, whatever the count. -/
theorem iShr_eq : iShr t a n = unsignedBits t.width (t.val a / ((2 ^ n : Nat) : Int)) := by
  unfold iShr
  split
  next hs =>
    obtain ⟨hlo, hhi⟩ := signed_bounds t.width a
    have hv : t.val a = signed t.width a := if_pos hs
    by_cases hn : n ≤ t.width - 1
    · rw [min_eq_left hn]
    · rw [min_eq_right (by omega), hv, ediv_two_pow_of_le hlo hhi le_rfl, ediv_two_pow_of_le hlo hhi (by omega)]
  next hs =>
    have hlt : a % 2 ^ t.width < 2 ^ t.width := Nat.mod_lt _ (Nat.two_pow_pos _)
    have hq : a % 2 ^ t.width / 2 ^ n < 2 ^ t.width := (Nat.div_le_self _ _).trans_lt hlt
    rw [unsignedBits, show t.val a = _ from if_neg hs, ← Int.natCast_div, ← Int.natCast_mod, Int.toNat_natCast, Nat.mod_eq_of_lt hq]
    split
    next h => exact (Nat.div_eq_of_lt (hlt.trans_le (Nat.pow_le_pow_right (by decide) h))).symm
    next => rw [Nat.shiftRight_eq_div_pow]

theorem iRem_eq : iRem t a b = if t.val b = 0 then a % 2 ^ t.width else t.fit false (Int.tmod (t.val a) (t.val b)) := by
  have h : t.val a - Int.tdiv (t.val a) (t.val b) * t.val b = Int.tmod (t.val a) (t.val b) := by
    rw [Int.tmod_def, Int.mul_comm]
  rw [iRem, h]
  rfl

theorem iMin_eq : iMin t a b = unsignedBits t.width (min (t.val a) (t.val b)) := by
  unfold iMin
  split
  next h => rw [min_eq_right h.le, unsignedBits_val]
  next h => rw [min_eq_left (not_lt.mp h), unsignedBits_val]
theorem iMax_eq : iMax t a b = unsignedBits t.width (max (t.val a) (t.val b)) := by
  unfold iMax
  split
  next h => rw [max_eq_right h.le, unsignedBits_val]
  next h => rw [max_eq_left (not_lt.mp h), unsignedBits_val]

end

/-- Settles O5: each row puts its operation's result, and the shifts, remainder, minimum and maximum are the exact ones. -/
theorem integerInstructionResults : Obligations.IntegerInstructionResults := by
  simp only [Obligations.IntegerInstructionResults, integerRows, List.forall_mem_cons, List.not_mem_nil, false_imp_iff, implies_true,
    and_true]
  refine ⟨?mov, ?add, ?sub, ?mul, ?mulhi, ?mad, ?div, ?rem, ?and, ?or, ?xor, ?shl, ?shr, ?minmax, ?bitop⟩
  case rem => exact valueRow_of_put (fun _ _ => rfl) fun c _ l _ => iRem_eq c.ity (c.a l) (c.bOp l)
  case shl => exact valueRow_of_put (fun _ _ => rfl) fun c _ l _ => iShl_eq c.ity (c.a l) (c.bOp l % 2 ^ 32)
  case shr => exact valueRow_of_put (fun _ _ => rfl) fun c _ l _ => iShr_eq c.ity (c.a l) (c.bOp l % 2 ^ 32)
  case minmax =>
    refine valueRow_of_put (fun _ _ => rfl) fun c _ l _ => ?_
    rw [iMin_eq, iMax_eq, apply_ite (unsignedBits c.ity.width)]
  case mov | add | sub | mul | mulhi | mad | div | and | or | xor | bitop => exact valueRow_of_put (fun _ _ => rfl) fun _ _ _ _ => rfl

/-- Settles O6: each row puts its operation's result. -/
theorem formatInstructionResults : Obligations.FormatInstructionResults := by
  simp only [Obligations.FormatInstructionResults, formatRows, List.forall_mem_cons, List.not_mem_nil, false_imp_iff, implies_true,
    and_true]
  refine ⟨?fadd, ?fsub, ?fmul, ?ffma, ?fminmax, ?fdiv, ?fun1, ?fun2, ?lmul, ?ldiv, ?lpow, ?lroot, ?ladd, ?lminmax, ?sel, ?shfl⟩
  case shfl => exact valueRow_of_put (fun _ _ => rfl) fun _ _ _ hl => hl ▸ rfl
  case fadd | fsub | fmul | ffma | fminmax | fdiv | fun1 | fun2 | lmul | ldiv | lpow | lroot | ladd | lminmax | sel =>
    exact valueRow_of_put (fun _ _ => rfl) fun _ _ _ _ => rfl

/-! ### Predicates, conversions and draws (R73, R124, R130, R141) -/

@[simp] theorem wp_pc (l : Lane) (d : Nat) (x : Bool) : (l.wp d x).pc = l.pc := rfl
theorem setsPred_wp (l : Lane) (d : Nat) (x : Bool) : SetsPred d x l (l.wp d x) := ⟨rfl, rp_wp l d x⟩

/-- A register written is a result of 32 bits. -/
theorem wv_eq_wvw (l : Lane) (n d x : Nat) : l.wv n d x = l.wvw n d 32 x := rfl

theorem draws_wvw (c : TCtx) (l : Lane) {w : Nat} (d x : Nat) (gen : W64) (hw : IsRegWidth w) :
    Draws c d w x gen l (({ l with gen := gen } : Lane).wvw c.b.nregs d w x) :=
  ⟨(wvw_frame { l with gen := gen } c.b.nregs d w x).symm, fun k => rv_wvw { l with gen := gen } c.b.nregs d x k hw⟩

/-- A row whose executing lanes set a predicate. -/
def PredicateRow (r : (GroupRef → Instr) × TOp × (TCtx → Lane → Nat × Bool)) : Prop :=
  LaneRow r.1 r.2.1 fun c _ l l' => SetsPred (r.2.2 c l).1 (r.2.2 c l).2 l l'

theorem predicateRow_of_wp {mk : GroupRef → Instr} {op : TOp} {f : TCtx → Lane → Lane} {r : TCtx → Lane → Nat × Bool}
    (he : ∀ g s, exec (mk g) s = done s (s.laneOp g op fun c _ l => f c l)) (hf : ∀ c l, f c l = l.wp (r c l).1 (r c l).2) :
    PredicateRow (mk, op, r) :=
  laneRow_of_laneOp he fun c _ l _ => by
    rw [hf]
    exact ⟨wp_pc l _ _, setsPred_wp l _ _⟩

theorem predicateRows_set : ∀ r ∈ predicateRows, PredicateRow r := by
  simp only [predicateRows, List.forall_mem_cons, List.not_mem_nil, false_imp_iff, implies_true, and_true]
  refine ⟨?setp, ?plop⟩
  case setp =>
    refine predicateRow_of_wp (fun _ _ => rfl) fun c l => ?_
    dsimp only
    split <;> rfl
  case plop => exact predicateRow_of_wp (fun _ _ => rfl) fun _ _ => rfl

/-- CVT in one lane (R130). -/
def cvtLane (c : TCtx) (l : Lane) : Lane :=
  let df := Format.ofId (wf c.w 50 47)
  let sf := Format.ofId (wf c.w 46 43)
  let x := c.opnd l (wUA c.w) (wA c.w) (cvtBits (wf c.w 46 43)) % 2 ^ sf.bits
  let m := wf c.w 42 41
  let draws := decide (m = 2) && cvtDrawsLog sf df x 0 0
  let d := if draws then genDraw 16 l.gen else (0, l.gen)
  let mode : RMode := match m with | 1 => .rtz | 2 => .sr d.1 | _ => .rne
  ({ l with gen := d.2 }).wvw c.b.nregs (wD c.w) (cvtBits (wf c.w 50 47)) (convert sf df mode x 0 0)

theorem cvtLane_post (c : TCtx) (l : Lane) : CvtPost c l (cvtLane c l) := by
  have hw := isRegWidth_cvtBits (wf c.w 50 47)
  unfold CvtPost cvtLane
  dsimp only
  split
  next hm =>
    simp only [hm, decide_true, Bool.true_and]
    split
    · exact draws_wvw c l _ _ _ hw
    · exact writes_wvw c l _ _ hw
  next hm =>
    split
    next h1 => simpa [h1] using writes_wvw c l _ _ hw
    next h1 => simpa [hm, h1] using writes_wvw c l _ _ hw

theorem cvtLane_pc (c : TCtx) (l : Lane) : (cvtLane c l).pc = l.pc := wvw_pc _ _ _ _ _

theorem rndLane_pc (c : TCtx) (l : Lane) : (rndLane c l).pc = l.pc := by
  unfold rndLane
  dsimp only [wv_eq_wvw]
  split <;> simp

theorem rndLane_post (c : TCtx) (l : Lane) : RndPost c l (rndLane c l) := by
  have h32 : IsRegWidth 32 := .inl rfl
  have h64 : IsRegWidth 64 := .inr (.inl rfl)
  unfold RndPost rndLane
  generalize wf c.w 50 48 = kind
  rcases kind with _ | _ | _ | _ | _ | _ | _ | kind
  · exact draws_wvw c l _ _ _ h32
  · exact draws_wvw c l _ _ _ h64
  · exact draws_wvw c l _ _ _ h32
  · exact draws_wvw c l _ _ _ h64
  · exact draws_wvw c l _ _ _ h32
  · exact setsPred_wp _ _ _
  · rfl
  · exact writes_wvw c l _ _ h64

/-- Settles O7: each row by what its function does to one lane. -/
theorem predicateConvertAndRandomResults : Obligations.PredicateConvertAndRandomResults := by
  refine ⟨predicateRows_set, ?cvt, ?rnd, ?rdk, ?nop⟩
  case cvt => exact laneRow_of_laneOp (f := fun c _ l => cvtLane c l) (fun _ _ => rfl) fun c _ l _ => ⟨cvtLane_pc c l, cvtLane_post c l⟩
  case rnd => exact laneRow_of_laneOp (fun _ _ => rfl) fun c _ l _ => ⟨rndLane_pc c l, rndLane_post c l⟩
  case rdk =>
    exact laneRow_of_laneOp (fun _ _ => rfl) fun c _ l _ => ⟨wvw_pc l _ _ 32 _, writes_wvw c l _ _ (.inl rfl)⟩
  case nop => exact laneRow_of_laneOp (fun _ _ => rfl) fun _ _ _ _ => ⟨rfl, rfl⟩

/-! ### Instructions that a group executes once (R119, R138, R139, R141, R144) -/

theorem uniformRow_of_uput {mk : GroupRef → Instr} {op : TOp} {f val : TCtx → Nat}
    (he : ∀ g s, exec (mk g) s = done s (s.groupOp g op fun c gr => c.uput gr (f c))) (hv : ∀ c, f c = val c) :
    UniformRow mk op (fun c => wf c.w 47 42) (fun c => val c % 2 ^ c.tw) := fun g s c h =>
  gives_of_done_eq (he g s) (by rw [groupOp_of_issueAt (f := fun c gr => c.uput gr (f c)) h rfl, TCtx.uput, hv])

theorem uniformRows_give : ∀ r ∈ uniformRows, UniformRow r.1 r.2.1 (fun c => wf c.w 47 42) (fun c => r.2.2 c % 2 ^ c.tw) := by
  simp only [uniformRows, List.forall_mem_cons, List.not_mem_nil, false_imp_iff, implies_true, and_true]
  refine ⟨?umov, ?uadd, ?usub, ?umul, ?uand, ?uor, ?ushl, ?ushr⟩
  case ushl => exact uniformRow_of_uput (fun _ _ => rfl) fun c => iShl_eq c.ity c.uaOp (c.ubOp % 2 ^ 32)
  case ushr => exact uniformRow_of_uput (fun _ _ => rfl) fun c => iShr_eq c.ity c.uaOp (c.ubOp % 2 ^ 32)
  case umov | uadd | usub | umul | uand | uor => exact uniformRow_of_uput (fun _ _ => rfl) fun _ => rfl

theorem testBit_foldl_maskOf (l : List Nat) (m i : Nat) :
    (l.foldl (fun m i => if nbit m i then m else m + 2 ^ i) m).testBit i = (m.testBit i || decide (i ∈ l)) := by
  induction l generalizing m with
  | nil => simp
  | cons j l ih =>
    have hset : (if nbit m j then m else m + 2 ^ j).testBit i = (m.testBit i || decide (i = j)) := by
      rw [nbit_eq]
      split
      next h => by_cases hij : i = j <;> simp_all
      next h => rw [testBit_add_clear _ _ _ (by simpa using h), Bool.or_comm]
    rw [List.foldl_cons, ih, hset]
    simp [Bool.or_assoc]

/-- A lane mask has the bits of its lanes. -/
theorem testBit_maskOf (l : List Nat) (i : Nat) : (maskOf l).testBit i = decide (i ∈ l) := by
  simp [maskOf, testBit_foldl_maskOf]

/-- A lane's vote: its predicate A. -/
def TCtx.vote (c : TCtx) (i : Nat) : Bool := match c.g.lanes[i]? with | some l => l.rp (wA c.w) | none => false

theorem vote_iff (c : TCtx) (i : Nat) : c.vote i = true ↔ ∃ l, c.g.lanes[i]? = some l ∧ l.rp (wA c.w) = true := by
  unfold TCtx.vote
  cases c.g.lanes[i]? <;> simp

section
variable {s : State} {g : GroupRef} {c : TCtx}

theorem rdlane_gives (h : s.issueAt g .rdlane = some c) (hne : c.exe ≠ []) :
    Gives (.rdlane g) s (afterIssue s g c ((movedOn c).wu (wD c.w)
      (match c.g.lanes[wC c.w % c.b.width]? with | some q => q.rvw c.b.nregs (wA c.w) c.tw | none => 0))) := by
  have hexe : c.exe.isEmpty = false := by simpa using hne
  refine gives_of_done_eq rfl ?_
  rw [groupOp_of_issueAt h (by rw [hexe]; rfl), hexe]
  rfl

theorem ballot_gives (h : s.issueAt g .vote = some c) (hne : c.exe ≠ []) (hsub : wSub c.w = 0) :
    Gives (.vote g) s (afterIssue s g c ((movedOn c).wu (wD c.w) (maskOf (c.exe.filter c.vote)))) := by
  have hexe : c.exe.isEmpty = false := by simpa using hne
  refine gives_of_done_eq rfl ?_
  simp only [h, hsub, if_true]
  rw [groupOp_of_issueAt h (by rw [hexe]; rfl), hexe]
  rfl

/-- The outcome of a vote of any or all. -/
def TCtx.voteOutcome (c : TCtx) : Bool := if wSub c.w = 1 then c.exe.any c.vote else c.exe.all c.vote

theorem voteOutcome_iff : c.voteOutcome = true ↔
    if wSub c.w = 1 then ∃ j ∈ c.exe, ∃ q, c.g.lanes[j]? = some q ∧ q.rp (wA c.w) = true
    else ∀ j ∈ c.exe, ∃ q, c.g.lanes[j]? = some q ∧ q.rp (wA c.w) = true := by
  unfold TCtx.voteOutcome
  split
  · simp only [List.any_eq_true, vote_iff]
  · simp only [List.all_eq_true, vote_iff]

theorem voteOutcome_gives (h : s.issueAt g .vote = some c) (hsub : wSub c.w ≠ 0) :
    Gives (.vote g) s (afterIssue s g c { c.g with lanes := c.lanes fun _ l => l.wp (wD c.w) c.voteOutcome }) := by
  refine gives_of_done_eq rfl ?_
  simp only [h, hsub, if_false]
  exact laneOp_of_issueAt h fun c' _ l => l.wp (wD c'.w) c.voteOutcome

/-- What TIME reads: the package timestamp, or the tile clock count of the group's die. -/
def timeRead (s : State) (g : GroupRef) (c : TCtx) : Nat :=
  if wf c.w 50 48 = 0 then s.now.toNat else (aGet s.cycles 0 g.die.val).toNat

theorem time_uniform_gives (h : s.issueAt g .time = some c) (hu : wb c.w 47 = true) :
    Gives (.time g) s (afterIssue s g c ((movedOn c).wu (wD c.w) (timeRead s g c))) := by
  refine gives_of_done_eq rfl ?_
  simp only [h, hu, if_true]
  exact groupOp_of_issueAt (f := fun c gr => gr.wu (wD c.w) (timeRead s g c)) h rfl

theorem time_lanes_gives (h : s.issueAt g .time = some c) (hu : wb c.w 47 = false) :
    Gives (.time g) s
      (afterIssue s g c { c.g with lanes := c.lanes fun _ l => l.wvw c.b.nregs (wD c.w) 64 (timeRead s g c) }) := by
  refine gives_of_done_eq rfl ?_
  simp only [h, hu, Bool.false_eq_true, if_false]
  exact laneOp_of_issueAt h fun c _ l => l.wvw c.b.nregs (wD c.w) 64 (timeRead s g c)

/-- A counter has reached a value where their difference, as a signed number, is not negative (R139). -/
theorem reached_iff (k v : W32) : reached k v = true ↔ 0 ≤ (k - v).toInt := by
  have hmsb : (k - v).getLsbD 31 = (k - v).msb := (BitVec.msb_eq_getLsbD_last _).symm
  rw [reached, hmsb, BitVec.msb_eq_toInt]
  simp

theorem waitk_gives (h : s.issueAt g .waitk = some c) :
    let v : Nat := if wb c.w 47 then (c.g.ru (wA c.w)).toNat else wf c.w 23 8
    Gives (.waitk g) s
      (if 0 ≤ ((c.b.k[wf c.w 50 48]?.getD 0) - BitVec.ofNat 32 v).toInt then afterIssue s g c (movedOn c) else s) := by
  refine gives_of_done_eq rfl ?_
  simp only [h, reached_iff, groupOp_of_issueAt (f := fun _ gr => gr) h rfl]

end

/-- Settles O8: the uniform rows put their results, and the others by what each does once for the group. -/
theorem groupInstructionResults : Obligations.GroupInstructionResults := by
  refine ⟨uniformRows_give, fun _ _ _ => rdlane_gives, ?ballot, ?outcome, ?time, fun _ _ _ => waitk_gives⟩
  case ballot =>
    intro g s c h hne hsub
    exact ⟨_, ballot_gives h hne hsub, fun i => by simp only [testBit_maskOf, decide_eq_true_eq, List.mem_filter, vote_iff]⟩
  case outcome =>
    intro g s c h hsub
    refine ⟨_, voteOutcome_gives h hsub, fun i l hl => ?_⟩
    obtain ⟨l', hl', hpost⟩ := lanes_lanePost (f := fun _ l => l.wp (wD c.w) c.voteOutcome)
      (eff := fun _ l l' => SetsPred (wD c.w) c.voteOutcome l l') h hl (wp_pc l _ _) (setsPred_wp l _ _)
    exact ⟨l', c.voteOutcome, hl', hpost, voteOutcome_iff⟩
  case time =>
    intro g s c h
    dsimp only
    split
    next hu => exact time_uniform_gives h hu
    next hu =>
      exact ⟨_, time_lanes_gives h (by simpa using hu), fun i l hl =>
        lanes_lanePost h hl (wvw_pc l _ _ _ _) (writes_wvw c l _ _ (.inr (.inl rfl)))⟩

/-! ### Descriptors and block counters (R138, R142, R143, R165-R167, R197, R198) -/

theorem mxi_gives {s : State} {g : GroupRef} {c : TCtx} (h : s.issueAt g .mxi = some c) :
    Gives (.mxi g) s
      (if (s.tile g.tileRef).settled g.bid g.grp = true ∧ ((s.tile g.tileRef).queued (s.tile g.tileRef).mx).length < 8 then
        (let u := afterIssue s g c (movedOn c)
         u.setTile g.tileRef { u.tile g.tileRef with mx := (u.tile g.tileRef).mx ++ [descOf c c.b.mxBad] })
      else s) := by
  have ht : c.t = g.tileRef := (frontOf_some (frontOf_of_issueAt h)).1
  refine gives_of_done_eq rfl ?_
  simp only [h, ht, groupOp_of_issueAt (f := fun _ gr => gr) h rfl]

theorem vxi_gives {s : State} {g : GroupRef} {c : TCtx} (h : s.issueAt g .vxi = some c) :
    Gives (.vxi g) s
      (if (s.tile g.tileRef).settled g.bid g.grp = true ∧ ((s.tile g.tileRef).queued (s.tile g.tileRef).vx).length < 8 then
        (let u := afterIssue s g c (movedOn c)
         let b1 := { c.b.setGroup g.grp { movedOn c with issued := c.g.issued + 1 } with issued := c.b.issued + 1, vxUsed := true }
         u.setTile g.tileRef { (u.tile g.tileRef).setBlock b1 with vx := (u.tile g.tileRef).vx ++ [descOf c c.b.vxBad] })
      else s) := by
  have ht : c.t = g.tileRef := (frontOf_some (frontOf_of_issueAt h)).1
  refine gives_of_done_eq rfl ?_
  simp only [h, ht, groupOp_of_issueAt (f := fun _ gr => gr) h rfl, block?_afterIssue h]
  rfl

/-- A descriptor that has left its queue advances its block's counter, and its status is told or halts the block. -/
theorem descDone_of_block {s : State} {t : TileRef} {d : Desc} {b : Block} (hb : (s.tile t).block? d.bid = some b) (st : Status)
    (access tag : Nat) : s.descDone t d st access tag =
      (let u := s.setBlock t (countUp b d)
       if st = .ok ∨ st = .abrt then u.haltTell t d.bid
       else u.haltBlock t d.bid ⟨d.seq, st, access, d.grp, 0, d.pc, BitVec.ofNat 64 tag, b.younger d.grp d.gseq, false⟩) := by
  simp only [State.descDone, hb]
  rfl

section
variable {t : TileRef} {s : State} {d : Desc} {r : List Desc} {b : Block} {st : Status}

theorem mxCounterIncrement_gives (hq : (s.tile t).queued (s.tile t).mx = d :: r) (hb : (s.tile t).block? d.bid = some b)
    (hfin : d.fin = some st) :
    let u := (s.setTile t { s.tile t with mx := takeDesc (s.tile t).mx d }).setBlock t (countUp b d)
    Gives (.mxCounterIncrement t) s (if st = .ok ∨ st = .abrt then u.haltTell t d.bid
      else u.haltBlock t d.bid ⟨d.seq, st, 8, d.grp, 0, d.pc, BitVec.ofNat 64 (mxTag d.words), b.younger d.grp d.gseq, false⟩) := by
  refine gives_of_done_eq rfl ?_
  simp only [hq, hb, hfin]
  exact descDone_of_block (by rw [tile_setTile_same]; exact hb) st 8 (mxTag d.words)

theorem vxCounterIncrement_gives (hq : (s.tile t).queued (s.tile t).vx = d :: r) (hb : (s.tile t).block? d.bid = some b)
    (hfin : d.fin = some st) :
    let u := (s.setTile t { s.tile t with vx := takeDesc (s.tile t).vx d }).setBlock t (countUp b d)
    Gives (.vxCounterIncrement t) s (if st = .ok ∨ st = .abrt then u.haltTell t d.bid
      else u.haltBlock t d.bid ⟨d.seq, st, 9, d.grp, 0, d.pc, BitVec.ofNat 64 (vxTag d.words), b.younger d.grp d.gseq, false⟩) := by
  refine gives_of_done_eq rfl ?_
  simp only [hq, hb, hfin]
  exact descDone_of_block (by rw [tile_setTile_same]; exact hb) st 9 (vxTag d.words)

end

/-- Settles O22: an engine takes a descriptor behind those in flight, and one that has ended advances its block's counter. -/
theorem engineIssueAndCounters : Obligations.EngineIssueAndCounters :=
  ⟨⟨fun _ _ _ => mxi_gives, fun _ _ _ => vxi_gives⟩,
    fun _ _ _ _ _ _ => mxCounterIncrement_gives, fun _ _ _ _ _ _ => vxCounterIncrement_gives⟩

end Sys2Proof.Machine
end

section
/-!
The Millstone and the vector engine (Chapters 05 and 06): what one K-chunk leaves in every accumulator element, and what a step of an
engine does with its oldest descriptor, the refused ones included.
-/

namespace Sys2Proof.Machine
open Sys2Proof

/-! ### Places of a region (R160) -/

theorem mem_region {m n : Nat} {p : Nat × Nat} : p ∈ region m n ↔ p.1 < m ∧ p.2 < n := by
  obtain ⟨i, j⟩ := p
  simp [region]

theorem mxN_le (d : Nat) : mxN d ≤ 64 := Nat.succ_le_of_lt (Nat.mod_lt _ (Nat.two_pow_pos _))

/-! ### Accumulator elements (R151) -/

/-- Element `(m, n)` of accumulator tile `j` once `x` has been put at `(m, n)` by descriptor `d`, where it was `old`. -/
def accElem (d x j old : Nat) : Nat :=
  if mxFa d = .pf64 then (if j = mxAcc d + 1 then pfLo x % 2 ^ 32 else if j = mxAcc d then pfHi x % 2 ^ 32 else old)
  else if j = mxAcc d then x % 2 ^ 32 else old

theorem accElem_accElem (d x j old : Nat) : accElem d x j (accElem d x j old) = accElem d x j old := by
  unfold accElem
  split_ifs <;> rfl

/-- A row holds at most 64 elements, so that different places have different keys. -/
theorem accAt_setAcc (b : Block) (i j x m m' : Nat) {n n' : Nat} (hn : n < 64) (hn' : n' < 64) :
    (b.setAcc i m n x).accAt j m' n' = if i = j ∧ m = m' ∧ n = n' then x % 2 ^ 32 else b.accAt j m' n' := by
  have hkey : (i, 64 * m + n) = (j, 64 * m' + n') ↔ i = j ∧ m = m' ∧ n = n' := by
    rw [Prod.mk.injEq]
    omega
  simp only [Block.accAt, Block.setAcc, aGet_aSet, hkey]

theorem accAt_accPut (b : Block) (d x j m m' : Nat) {n n' : Nat} (hn : n < 64) (hn' : n' < 64) :
    (b.accPut d m n x).accAt j m' n' = if m = m' ∧ n = n' then accElem d x j (b.accAt j m' n') else b.accAt j m' n' := by
  unfold Block.accPut accElem
  by_cases hplace : m = m' ∧ n = n'
  · obtain ⟨rfl, rfl⟩ := hplace
    split <;> simp [accAt_setAcc, hn, eq_comm]
  · split <;> simp [accAt_setAcc, hn, hn', hplace]

/-- Puts whose values do not depend on what was put before: each place of the list takes its own, every other stays. -/
theorem accAt_foldl_accPut (d : Nat) (v : Nat × Nat → Nat) (j : Nat) {q : Nat × Nat} (hq : q.2 < 64) {l : List (Nat × Nat)}
    (hl : ∀ p ∈ l, p.2 < 64) (b : Block) :
    (l.foldl (fun a p => a.accPut d p.1 p.2 (v p)) b).accAt j q.1 q.2 =
      if q ∈ l then accElem d (v q) j (b.accAt j q.1 q.2) else b.accAt j q.1 q.2 := by
  induction l generalizing b with
  | nil => simp
  | cons p l ih =>
    rw [List.forall_mem_cons] at hl
    rw [List.foldl_cons, ih hl.2, accAt_accPut b d (v p) j p.1 q.1 hl.1 hq]
    by_cases hpq : p = q
    · subst hpq
      simp [accElem_accElem]
    · simp [← Prod.ext_iff, hpq, Ne.symm hpq]

theorem accPut_frame (b : Block) (d m n x : Nat) : ∃ acc, b.accPut d m n x = { b with acc := acc } := by
  unfold Block.accPut
  split <;> exact ⟨_, rfl⟩

theorem foldl_accPut_frame (d : Nat) (v : Nat × Nat → Nat) (l : List (Nat × Nat)) (b : Block) :
    ∃ acc, l.foldl (fun a p => a.accPut d p.1 p.2 (v p)) b = { b with acc := acc } := by
  induction l generalizing b with
  | nil => exact ⟨_, rfl⟩
  | cons p l ih =>
    obtain ⟨acc, hput⟩ := accPut_frame b d p.1 p.2 (v p)
    rw [List.foldl_cons, hput]
    exact ih _

theorem mxChunk_frame (b : Block) (d chunk : Nat) : mxChunk b d chunk = { b with acc := (mxChunk b d chunk).acc } := by
  obtain ⟨acc, hacc⟩ : ∃ acc, mxChunk b d chunk = { b with acc := acc } := foldl_accPut_frame d _ _ b
  rw [hacc]

/-- Settles O18: the elements of the region are put at different places, each from the block as it was before the chunk. -/
theorem mmaChunkChangesOnlyItsRegion : Obligations.MmaChunkChangesOnlyItsRegion := by
  refine fun b d chunk => ⟨mxChunk_frame b d chunk, fun j m n hn => ?_⟩
  have hcols : ∀ p ∈ region (mxM d) (mxN d), p.2 < 64 := fun p hp => (mem_region.1 hp).2.trans_le (mxN_le d)
  rw [mxChunk, accAt_foldl_accPut d _ j (q := (m, n)) hn hcols]
  simp only [mem_region, accElem, Bool.and_eq_true, decide_eq_true_eq]

/-! ### A step of the Millstone (R154, R160, R167, Table 5-4) -/

theorem aFind_filter_key {κ α : Type} [DecidableEq κ] (p : κ → Bool) (m : AMap κ α) (i : κ) :
    aFind (m.filter fun e => p e.1) i = if p i = true then aFind m i else none := by
  induction m with
  | nil => simp [aFind]
  | cons e r ih =>
    by_cases hi : e.1 = i
    · subst hi
      cases hp : p e.1 <;> simp [hp, aFind, ih]
    · cases hp : p e.1 <;> simp [hp, aFind, ih, hi]

section
variable {s : State} {t : TileRef} {opc : Nat} {d : Desc} {b : Block}

theorem mxRow_of_ready (h : MxReady s t opc d b) (f : Block → Desc → Block × Desc) :
    s.mxRow t opc f = mxAfter s t (f b { d with checked := true }).1 (f b { d with checked := true }).2 := by
  obtain ⟨hfront, hblock, hrun, hopc, hready, hcheck⟩ := h
  have hpass : (!d.checked && !s.mxCheck t.die b d.words) = false := by
    rcases hcheck with hcheck | hcheck <;> simp [hcheck]
  simp [State.mxRow, mxAfter, hfront, hblock, hrun, hopc, hready, hpass]

/-- A descriptor that fails its check: it ends with PERM, the later ones of its block with ABRT, and its block takes no more. -/
theorem mxRow_of_refused (hfront : mxFront (s.tile t) (s.tile t).mx = some d) (hblock : (s.tile t).block? d.bid = some b)
    (hrun : s.running (.cd t.die) true = true) (hnew : d.checked = false) (hcheck : s.mxCheck t.die b d.words = false)
    (hready : (s.tile t).mxReady d = true) (hopc : mxOpc d.words = opc) (f : Block → Desc → Block × Desc) :
    s.mxRow t opc f = s.setTile t { (s.tile t).setBlock { b with mxBad := true } with mx := failFrom (s.tile t).mx d } := by
  simp [State.mxRow, hfront, hblock, hrun, hopc, hready, hnew, hcheck]

theorem mma_gives (n : Nat) (h : MxReady s t 1 d b) :
    let k := mxK d.words / 32
    let m := min n (k - d.prog)
    Gives (.mma t n) s (mxAfter s t ((upFrom d.prog m).foldl (fun b c => mxChunk b d.words c) b)
      { d with checked := true, prog := d.prog + m, fin := if d.prog + m = k then some .ok else none }) :=
  gives_of_done_eq rfl (mxRow_of_ready h _)

theorem accLoad_gives (h : MxReady s t 2 d b) :
    let w := if mxFa d.words = .pf64 then 8 else 4
    Gives (.accLoad t) s (mxAfter s t ((region (mxM d.words) (mxN d.words)).foldl (fun a p =>
      a.accPut d.words p.1 p.2 (b.lrd (mxAAddr d.words + p.1 * mxAStride d.words + w * p.2) w)) b)
      { d with checked := true, fin := some .ok }) :=
  gives_of_done_eq rfl (mxRow_of_ready h _)

theorem accStore_gives (h : MxReady s t 3 d b) :
    let w := if mxFa d.words = .pf64 then 8 else 4
    Gives (.accStore t) s (mxAfter s t ((region (mxM d.words) (mxN d.words)).foldl (fun a p =>
      a.lwr (mxAAddr d.words + p.1 * mxAStride d.words + w * p.2) w (b.accGet d.words p.1 p.2)) b)
      { d with checked := true, fin := some .ok }) :=
  gives_of_done_eq rfl (mxRow_of_ready h _)

/-- A tile without entries reads 0 everywhere, and the others keep theirs (R153). -/
theorem accZero_gives (h : MxReady s t 4 d b) :
    ∃ b' : Block, Gives (.accZero t) s (mxAfter s t b' { d with checked := true, fin := some .ok })
      ∧ b' = { b with acc := b'.acc } ∧ ∀ j m n, b'.accAt j m n = if j = mxAcc d.words then 0 else b.accAt j m n := by
  refine ⟨_, gives_of_done_eq rfl (mxRow_of_ready h _), rfl, fun j m n => ?_⟩
  have hfind := aFind_filter_key (fun k => decide (k.1 ≠ mxAcc d.words)) b.acc (j, 64 * m + n)
  refine (congrArg (Option.getD · 0) hfind).trans ?_
  by_cases hj : j = mxAcc d.words <;> simp [hj, Block.accAt, aGet]

theorem millstone_refuses (n : Nat) (hfront : mxFront (s.tile t) (s.tile t).mx = some d)
    (hblock : (s.tile t).block? d.bid = some b) (hrun : s.running (.cd t.die) true = true) (hnew : d.checked = false)
    (hcheck : s.mxCheck t.die b d.words = false) (hready : (s.tile t).mxReady d = true) :
    let u := s.setTile t { (s.tile t).setBlock { b with mxBad := true } with mx := failFrom (s.tile t).mx d }
    (mxOpc d.words = 1 → Gives (.mma t n) s u) ∧ (mxOpc d.words = 2 → Gives (.accLoad t) s u)
      ∧ (mxOpc d.words = 3 → Gives (.accStore t) s u) ∧ (mxOpc d.words = 4 → Gives (.accZero t) s u) :=
  have hrow {opc} (h : mxOpc d.words = opc) (f) := mxRow_of_refused hfront hblock hrun hnew hcheck hready h f
  ⟨fun h => gives_of_done_eq rfl (hrow h _), fun h => gives_of_done_eq rfl (hrow h _),
    fun h => gives_of_done_eq rfl (hrow h _), fun h => gives_of_done_eq rfl (hrow h _)⟩

/-! ### A step of the vector engine (R178, R180, R182) -/

theorem vxRow_of_ready (h : VxReady s t opc d b) (f : Block → Desc → Block × Desc) :
    s.vxRow t opc f = vxAfter s t (f b { d with checked := true }).1 (f b { d with checked := true }).2 := by
  obtain ⟨hfront, hblock, hrun, hopc, hcheck⟩ := h
  have hpass : (!d.checked && !s.vxCheck t.die b d.words) = false := by
    rcases hcheck with hcheck | hcheck <;> simp [hcheck]
  simp [State.vxRow, vxAfter, hfront, hblock, hrun, hopc, hpass]

theorem vxRow_of_refused (hfront : mxFront (s.tile t) (s.tile t).vx = some d) (hblock : (s.tile t).block? d.bid = some b)
    (hrun : s.running (.cd t.die) true = true) (hnew : d.checked = false) (hcheck : s.vxCheck t.die b d.words = false)
    (hopc : vxOpc d.words = opc) (f : Block → Desc → Block × Desc) :
    s.vxRow t opc f = s.setTile t { (s.tile t).setBlock { b with vxBad := true } with vx := failFrom (s.tile t).vx d } := by
  simp [State.vxRow, hfront, hblock, hrun, hopc, hnew, hcheck]

theorem vxPairs_of_ready (n : Nat) (h : VxReady s t opc d b) (row : Block → Nat → List Nat → Nat → Block → Block) :
    s.vxPairs t opc n row = vxAfter s t
      ((pairRows (vxM d.words) d.prog (min n (vxTotal d.words - d.prog))).foldl (fun a m => row b d.words (vxVecOf b d) m a) b)
      (vxDone b d n) :=
  vxRow_of_ready h _

/-- A command that goes pair by pair through its region, where its descriptor has what the command looks for in it. -/
theorem vxPairsRow_of_exec {mk : TileRef → Nat → Instr} {ok : Nat → Prop} {row : Block → Nat → Nat → Block → Block}
    (h : ∀ t n s d, mxFront (s.tile t) (s.tile t).vx = some d → ok d.words →
      exec (mk t n) s = done s (s.vxPairs t opc n fun b w _ => row b w)) : VxPairsRow mk opc ok row :=
  fun t n s d _ hready hok => gives_of_done_eq (h t n s d hready.1 hok) (vxPairs_of_ready n hready _)

theorem vxRand_gives (n : Nat) (h : VxReady s t 0x40 d b) :
    let r := (pairRows (vxM d.words) d.prog (min n (vxTotal d.words - d.prog))).foldl
      (fun a m => vxRandRow b d.words (vxVecOf b d) m a) (b, d.odd)
    Gives (.vxRand t n) s (vxAfter s t r.1 { vxDone b d n with odd := r.2 }) :=
  gives_of_done_eq rfl (vxRow_of_ready h _)

/-! ### Transposition and reductions (R184, R187, R188) -/

theorem exec_vxCopy_transposed (n : Nat) (hfront : mxFront (s.tile t) (s.tile t).vx = some d) (hsub : vxSub d.words = 1) :
    exec (.vxCopy t n) s = done s (s.vxRow t 0x07 fun b d =>
      ((region (vxM d.words) (vxN d.words)).foldl (fun a p =>
        if vxWritten b d.words p.2 p.1 then a.vwr (vxT d.words) (vxXd d.words) p.2 p.1 (b.vrd (vxT d.words) (vxXa d.words) p.1 p.2)
        else a) b, { d with fin := some .ok })) := by
  change execVxCopy t n s = _
  simp only [execVxCopy, hfront, hsub, if_true]

theorem exec_vxCopy_elementwise (n : Nat) (hfront : mxFront (s.tile t) (s.tile t).vx = some d) (hsub : vxSub d.words ≠ 1) :
    exec (.vxCopy t n) s = done s (s.vxMap t 0x07 n fun _ a _ _ => a) := by
  change execVxCopy t n s = _
  simp only [execVxCopy, hfront, hsub, if_false]

theorem vxCopy_transposed_gives (n : Nat) (h : VxReady s t 0x07 d b) (hsub : vxSub d.words = 1) :
    Gives (.vxCopy t n) s (vxAfter s t ((region (vxM d.words) (vxN d.words)).foldl (fun a p =>
      if vxWritten b d.words p.2 p.1 then a.vwr (vxT d.words) (vxXd d.words) p.2 p.1 (b.vrd (vxT d.words) (vxXa d.words) p.1 p.2)
      else a) b) { d with checked := true, fin := some .ok }) :=
  gives_of_done_eq (exec_vxCopy_transposed n h.1 hsub) (vxRow_of_ready h _)

theorem exec_vxReduce_rows (n : Nat) (hfront : mxFront (s.tile t) (s.tile t).vx = some d) (hmode : vxBmode d.words = 0) :
    exec (.vxReduce t n) s = done s (s.vxPairs t 0x30 n fun b d _ m a => redWrite b d m 0 (redRow b d m id) a) := by
  change execVxReduce t n s = _
  simp only [execVxReduce, hfront, hmode]

theorem vxReduce_columns_gives (n : Nat) (h : VxReady s t 0x30 d b) (hmode : vxBmode d.words = 1) :
    let w := d.words
    Gives (.vxReduce t n) s (vxAfter s t ((List.range (vxN w)).foldl (fun a n =>
      redWrite b w 0 n (reduceAll (vxT w) (vxSub w) ((List.range (vxM w)).map fun m =>
        redLeaf (vxT w) (vxSub w) (b.vrd (vxT w) (vxXa w) m n) m)) a) b) { d with checked := true, fin := some .ok }) := by
  refine gives_of_done_eq rfl ?_
  simp only [h.1, hmode]
  exact vxRow_of_ready h _

theorem vxReduce_all_gives (n : Nat) (h : VxReady s t 0x30 d b) (hmode : 2 ≤ vxBmode d.words) :
    let w := d.words
    Gives (.vxReduce t n) s (vxAfter s t (redWrite b w 0 0 (reduceAll (vxT w) (vxSub w) ((List.range (vxM w)).map fun m =>
      redRow b w m fun n => 64 * m + n)) b) { d with checked := true, fin := some .ok }) := by
  refine gives_of_done_eq rfl ?_
  simp only [h.1]
  split
  next h0 => omega
  next h1 => omega
  next => exact vxRow_of_ready h _

theorem exec_vxRow_of_vxMap {i : Instr} {n : Nat} {f : Nat → Nat → Nat → Nat → Nat} (h : exec i s = done s (s.vxMap t opc n f)) :
    ∃ g, exec i s = done s (s.vxRow t opc g) := by
  unfold State.vxMap State.vxPairs at h
  exact ⟨_, h⟩

/-- Every element-wise command is one step of the engine under its operation code; VX_COPY is so in both its forms. -/
theorem exec_vxMapRows (n : Nat) (hfront : mxFront (s.tile t) (s.tile t).vx = some d) :
    ∀ r ∈ vxMapRows, ∃ f, exec (r.1 t n) s = done s (s.vxRow t r.2.1 f) := by
  have hcopy : ∃ f, exec (.vxCopy t n) s = done s (s.vxRow t 0x07 f) := by
    by_cases hsub : vxSub d.words = 1
    · exact ⟨_, exec_vxCopy_transposed n hfront hsub⟩
    · exact exec_vxRow_of_vxMap (exec_vxCopy_elementwise n hfront hsub)
  simp only [vxMapRows, List.forall_mem_cons]
  refine ⟨?_, hcopy, ?_, ?_, ?_, ?_, ?_, ?_, ?_, ?_, ?_, ?_, ?_, ?_, by simp⟩ <;> exact exec_vxRow_of_vxMap rfl

theorem vxMapRows_refuses {r} (hr : r ∈ vxMapRows) (n : Nat)
    (hfront : mxFront (s.tile t) (s.tile t).vx = some d) (hblock : (s.tile t).block? d.bid = some b)
    (hrun : s.running (.cd t.die) true = true) (hnew : d.checked = false) (hcheck : s.vxCheck t.die b d.words = false)
    (hopc : vxOpc d.words = r.2.1) :
    Gives (r.1 t n) s (s.setTile t { (s.tile t).setBlock { b with vxBad := true } with vx := failFrom (s.tile t).vx d }) := by
  obtain ⟨f, hf⟩ := exec_vxMapRows n hfront r hr
  exact gives_of_done_eq hf (vxRow_of_refused hfront hblock hrun hnew hcheck hopc f)

end

/-- Settles O21: each command is a step of its engine on the descriptor in front, carried out where it passes its check and refused
where it does not. -/
theorem engineOperations : Obligations.EngineOperations :=
  ⟨⟨fun _ n _ _ _ => mma_gives n, fun _ _ _ _ => accLoad_gives, fun _ _ _ _ => accStore_gives, fun _ _ _ _ => accZero_gives⟩,
    ⟨vxPairsRow_of_exec fun _ _ _ _ _ _ => rfl, vxPairsRow_of_exec fun _ _ _ _ _ _ => rfl,
      vxPairsRow_of_exec fun _ _ _ _ _ _ => rfl, vxPairsRow_of_exec fun _ _ _ _ _ _ => rfl,
      vxPairsRow_of_exec fun _ _ _ _ _ _ => rfl, vxPairsRow_of_exec fun _ n _ _ => exec_vxReduce_rows n,
      fun _ n _ _ _ => vxRand_gives n, fun _ n _ _ _ => vxCopy_transposed_gives n, fun _ n _ _ _ => vxReduce_columns_gives n,
      fun _ n _ _ _ => vxReduce_all_gives n⟩,
    fun _ n _ _ _ => millstone_refuses n, fun _ hr _ n _ _ _ => vxMapRows_refuses hr n⟩

end Sys2Proof.Machine
end

section
/-!
The vector engine (Chapter 06): what an element-wise operation leaves in every element of every buffer, and what GEN_GET and GEN_SET
move between the lane generators and local memory.
-/

namespace Sys2Proof.Machine
open Sys2Proof

/-! ### What a fold leaves at one place -/

/-- A fold whose step `p` changes what `R` observes by `e`, whose other steps leave it, and where `e` twice is `e` once. -/
theorem observe_foldl {α β γ : Type} [BEq α] [LawfulBEq α] {g : β → α → β} {R : β → γ} {e : γ → γ} {p : α} {l : List α}
    (hsame : ∀ b, R (g b p) = e (R b)) (hother : ∀ b, ∀ q ∈ l, q ≠ p → R (g b q) = R b) (htwice : ∀ x, e (e x) = e x) (b : β) :
    R (l.foldl g b) = if p ∈ l then e (R b) else R b := by
  induction l generalizing b with
  | nil => simp
  | cons q l ih =>
    rw [List.foldl_cons, ih fun b q hq => hother b q (List.mem_cons_of_mem _ hq)]
    by_cases hq : q = p
    · subst hq
      simp [hsame, htwice]
    · simp [hother b q List.mem_cons_self hq, Ne.symm hq]

/-! ### Elements of the buffers (R176, R183) -/

/-- A row of a buffer holds 64 elements, so that different places have different keys. -/
theorem bufAt_setBuf {n n' : Nat} (hn : n < 64) (hn' : n' < 64) (b : Block) (i x m m' v : Nat) :
    (b.setBuf i m n v).bufAt x m' n' = if i = x ∧ m = m' ∧ n = n' then v % 2 ^ 32 else b.bufAt x m' n' := by
  have hkey : (i, 64 * m + n) = (x, 64 * m' + n') ↔ i = x ∧ m = m' ∧ n = n' := by
    rw [Prod.mk.injEq]
    omega
  simp only [Block.bufAt, Block.setBuf, aGet_aSet, hkey]
  split <;> simp

/-- An element of buffer `x`, which was `old`, once `v` has been written as type `ty` at its place of buffer `xd`. -/
def bufElem (ty : Format) (xd x v old : Nat) : Nat :=
  if ty = .pf64 then (if x = xd + 1 then pfLo v % 2 ^ 32 else if x = xd then pfHi v % 2 ^ 32 else old)
  else if x = xd then (if ty = .ln16 then v % 2 ^ 16 else v % 2 ^ 32) else old

theorem bufElem_bufElem (ty : Format) (xd x v old : Nat) : bufElem ty xd x v (bufElem ty xd x v old) = bufElem ty xd x v old := by
  unfold bufElem
  split_ifs <;> rfl

/-- The three layouts of an element: a pair of buffers, the low 16 bits of one, all 32 bits of one. -/
theorem vwr_eq (b : Block) (ty : Format) (x m n v : Nat) : b.vwr ty x m n v =
    if ty = .pf64 then (b.setBuf x m n (pfHi v)).setBuf (x + 1) m n (pfLo v)
    else if ty = .ln16 then b.setBuf x m n (v % 2 ^ 16) else b.setBuf x m n v := by
  cases ty <;> rfl

theorem bufAt_vwr (b : Block) (ty : Format) (xd x m m' v : Nat) {n n' : Nat} (hn : n < 64) (hn' : n' < 64) :
    (b.vwr ty xd m n v).bufAt x m' n' =
      if m = m' ∧ n = n' then bufElem ty xd x v (b.bufAt x m' n') else b.bufAt x m' n' := by
  rw [vwr_eq]
  unfold bufElem
  by_cases hplace : m = m' ∧ n = n'
  · obtain ⟨rfl, rfl⟩ := hplace
    have hlow : v % 2 ^ 16 % 2 ^ 32 = v % 2 ^ 16 := Nat.mod_eq_of_lt (by omega)
    simp only [eq_comm (a := x), and_self, if_true, apply_ite (Block.bufAt · x m n), bufAt_setBuf hn hn, and_true, hlow]
    split_ifs <;> rfl
  · split_ifs <;> simp [bufAt_setBuf hn hn', hplace]

theorem vwr_frame (b : Block) (ty : Format) (x m n v : Nat) : b.vwr ty x m n v = { b with bufs := (b.vwr ty x m n v).bufs } := by
  rw [vwr_eq]
  split_ifs <;> rfl

theorem vxN_le (d : Nat) : vxN d ≤ 64 := Nat.succ_le_of_lt (Nat.mod_lt _ (Nat.two_pow_pos _))

/-! ### An element-wise operation (R178, R182, R183) -/

/-- The places that an operation writes in some rows, in the order in which it goes through them. -/
def vxPlaces (b : Block) (d : Nat) (rows : List Nat) : List (Nat × Nat) :=
  rows.flatMap fun m => ((List.range (vxN d)).filter (vxWritten b d m)).map (m, ·)

theorem mem_vxPlaces {b : Block} {d : Nat} {rows : List Nat} {m j : Nat} :
    (m, j) ∈ vxPlaces b d rows ↔ m ∈ rows ∧ j < vxN d ∧ vxWritten b d m j = true := by
  simp [vxPlaces]

/-- Row by row and in each row element by element is place by place. -/
theorem foldl_vxCols (b : Block) (d : Nat) (rows : List Nat) (g : Block → Nat × Nat → Block) (a : Block) :
    rows.foldl (fun a m => vxCols b d m a fun j a => g a (m, j)) a = (vxPlaces b d rows).foldl g a := by
  simp only [vxPlaces, vxCols, List.foldl_flatMap, List.foldl_map, List.foldl_filter]

theorem bufAt_foldl_vwr (ty : Format) (xd x : Nat) (v : Nat × Nat → Nat) {m j : Nat} (hj : j < 64) {l : List (Nat × Nat)}
    (hl : ∀ p ∈ l, p.2 < 64) (b : Block) :
    (l.foldl (fun a p => a.vwr ty xd p.1 p.2 (v p)) b).bufAt x m j =
      if (m, j) ∈ l then bufElem ty xd x (v (m, j)) (b.bufAt x m j) else b.bufAt x m j := by
  refine observe_foldl (R := fun a : Block => a.bufAt x m j) (p := (m, j)) (fun a => ?_) (fun a p hp hne => ?_)
    (bufElem_bufElem ty xd x _) b
  · simp [bufAt_vwr, hj]
  · rw [bufAt_vwr a ty xd x p.1 m (v p) (hl p hp) hj, if_neg fun h => hne (Prod.ext h.1 h.2)]

theorem foldl_vwr_frame (ty : Format) (xd : Nat) (v : Nat × Nat → Nat) (l : List (Nat × Nat)) (b : Block) :
    ∃ bufs, l.foldl (fun a p => a.vwr ty xd p.1 p.2 (v p)) b = { b with bufs := bufs } := by
  refine List.foldlRecOn (motive := fun a : Block => ∃ bufs, a = { b with bufs := bufs }) l _ ⟨b.bufs, rfl⟩ ?_
  rintro _ ⟨bufs, rfl⟩ p -
  exact ⟨_, vwr_frame _ ty xd p.1 p.2 (v p)⟩

theorem mem_pairRows {m first n i : Nat} : i ∈ pairRows m first n ↔ i < m ∧ 2 * first ≤ i ∧ i < 2 * (first + n) := by
  simp only [pairRows, upFrom, List.mem_filter, List.mem_map, List.mem_range, decide_eq_true_eq]
  constructor
  · rintro ⟨⟨k, hk, rfl⟩, hm⟩
    omega
  · rintro ⟨hm, hlo, hhi⟩
    exact ⟨⟨i - 2 * first, by omega, by omega⟩, hm⟩

theorem vxNow_iff {d : Desc} {n m : Nat} :
    vxNow d n m = true ↔ m ∈ pairRows (vxM d.words) d.prog (min n (vxTotal d.words - d.prog)) := by
  simp only [mem_pairRows, vxNow, Bool.and_eq_true, decide_eq_true_eq, and_assoc]

/-- What an element-wise operation of code `opc` and function `f` gives for a place, from the operands in `b` (R182, R185). -/
def vxValue (opc : Nat) (f : Nat → Nat → Nat → Nat → Nat) (b : Block) (w : Nat) (vec : List Nat) (p : Nat × Nat) : Nat :=
  f w (b.vrd (vxT w) (vxXa w) p.1 p.2) (vxB b w vec p.1 p.2)
    (if opc = 0x19 then b.bufAt (vxXc w) p.1 p.2 else b.vrd (vxT w) (vxXc w) p.1 p.2)

/-- The places that a step of `n` row pairs writes. -/
def vxStepPlaces (b : Block) (d : Desc) (n : Nat) : List (Nat × Nat) :=
  vxPlaces b d.words (pairRows (vxM d.words) d.prog (min n (vxTotal d.words - d.prog)))

theorem mem_vxStepPlaces {b : Block} {d : Desc} {n m j : Nat} : (m, j) ∈ vxStepPlaces b d n ↔
    (vxNow d n m && decide (j < vxN d.words) && vxWritten b d.words m j) = true := by
  simp only [vxStepPlaces, mem_vxPlaces, ← vxNow_iff, Bool.and_eq_true, decide_eq_true_eq, and_assoc]

theorem vxMap_of_ready {s : State} {t : TileRef} {opc : Nat} {d : Desc} {b : Block} (n : Nat) (h : VxReady s t opc d b)
    (f : Nat → Nat → Nat → Nat → Nat) :
    s.vxMap t opc n f = vxAfter s t ((vxStepPlaces b d n).foldl (fun a p => a.vwr (if opc = 0x18 then .u32 else vxT d.words)
      (vxXd d.words) p.1 p.2 (vxValue opc f b d.words (vxVecOf b d) p)) b) (vxDone b d n) := by
  rw [vxStepPlaces, ← foldl_vxCols]
  exact vxPairs_of_ready n h _

/-- A command that is an element-wise operation where its descriptor has what the command looks for in it. -/
theorem vxMapRow_of_exec {mk : TileRef → Nat → Instr} {opc : Nat} {f : Nat → Nat → Nat → Nat → Nat}
    (h : ∀ t n s d, mxFront (s.tile t) (s.tile t).vx = some d → (opc = 0x07 → vxSub d.words = 0) →
      exec (mk t n) s = done s (s.vxMap t opc n f)) : VxMapRow mk opc f := by
  intro t n s d b hready hsub
  refine ⟨_, gives_of_done_eq (h t n s d hready.1 hsub) (vxMap_of_ready n hready f), ?_, fun x m j hj => ?_⟩
  · obtain ⟨bufs, hbufs⟩ := foldl_vwr_frame (if opc = 0x18 then .u32 else vxT d.words) (vxXd d.words)
      (vxValue opc f b d.words (vxVecOf b d)) (vxStepPlaces b d n) b
    rw [hbufs]
  · have hcols : ∀ p ∈ vxStepPlaces b d n, p.2 < 64 := by
      intro p hp
      obtain ⟨-, hcol, -⟩ := mem_vxPlaces.1 hp
      exact hcol.trans_le (vxN_le _)
    rw [bufAt_foldl_vwr _ _ x _ hj hcols]
    simp only [mem_vxStepPlaces, Bool.eq_false_iff, ite_not]
    rfl

/-- Settles O19: each command is a fold over the places that its step writes, each place from the operands as they were before. -/
theorem vectorElementResults : Obligations.VectorElementResults := by
  unfold Obligations.VectorElementResults
  simp only [vxMapRows, List.forall_mem_cons]
  refine ⟨?_, vxMapRow_of_exec fun _ n _ _ hfront hsub => exec_vxCopy_elementwise n hfront (by simp [hsub]),
    ?_, ?_, ?_, ?_, ?_, ?_, ?_, ?_, ?_, ?_, ?_, ?_, by simp⟩ <;> exact vxMapRow_of_exec fun _ _ _ _ _ _ => rfl

/-! ### Words of local memory (R94, R95) -/

theorem leNat_map_ofNat (n x : Nat) : leNat ((List.range n).map fun i => BitVec.ofNat 8 (x / 256 ^ i)) = x % 256 ^ n := by
  induction n generalizing x with
  | zero => simp [leNat, Nat.mod_one]
  | succ n ih =>
    have hrest := ih (x / 256)
    simp only [Nat.div_div_eq_div_mul] at hrest
    simp [List.range_succ_eq_map, leNat, Function.comp_def, hrest, Nat.pow_succ', Nat.mod_mul]

theorem aGet_lput (m : AMap Nat Byte) (v : Byte) (off n x a : Nat) : aGet (lput m off n x) v a =
    if off ≤ a ∧ a < off + n then BitVec.ofNat 8 (x / 256 ^ (a - off)) else aGet m v a := by
  induction n generalizing m off x with
  | zero => rw [lput, if_neg (by omega)]
  | succ n ih =>
    rw [lput, ih, aGet_aSet]
    rcases Nat.lt_trichotomy a off with hlt | rfl | hgt
    · rw [if_neg (by omega), if_neg (by omega), if_neg (by omega)]
    · rw [if_neg (by omega), if_pos rfl, if_pos (by omega), Nat.sub_self, Nat.pow_zero, Nat.div_one]
    · have hsub : a - off = a - (off + 1) + 1 := by omega
      simp only [hsub, Nat.pow_succ', Nat.div_div_eq_div_mul, hgt.ne, if_false, Nat.succ_le_of_lt hgt, hgt.le, true_and]
      simp only [Nat.add_assoc, Nat.add_comm 1 n]

theorem lrd_lwr_same (b : Block) (off : Nat) {n x : Nat} (hx : x < 256 ^ n) : (b.lwr off n x).lrd off n = x := by
  have hbytes : (List.range n).map (fun i => aGet (lput b.lmem off n x) 0 (off + i)) =
      (List.range n).map fun i => BitVec.ofNat 8 (x / 256 ^ i) := by
    refine List.map_congr_left fun i hi => ?_
    have hin := List.mem_range.1 hi
    rw [aGet_lput, if_pos (by omega), Nat.add_sub_cancel_left]
  rw [Block.lrd, Block.lwr, hbytes, leNat_map_ofNat, Nat.mod_eq_of_lt hx]

theorem lrd_lwr_disjoint (b : Block) {off n off' n' : Nat} (x : Nat) (h : off' + n' ≤ off ∨ off + n ≤ off') :
    (b.lwr off n x).lrd off' n' = b.lrd off' n' := by
  unfold Block.lrd Block.lwr
  refine congrArg leNat (List.map_congr_left fun i hi => ?_)
  have hin := List.mem_range.1 hi
  rw [aGet_lput, if_neg (by omega)]

/-! ### The states of the lane generators (R195) -/

/-- A block with the 128 lane states in its local memory, 8 bytes each from `a`. -/
def genStored (b : Block) (a : Nat) : Block :=
  (List.range 128).foldl (fun c l => c.lwr (a + 8 * l) 8 (b.lanegen[l]?.getD 1).toNat) b

theorem genStored_frame (b : Block) (a : Nat) : ∃ m, genStored b a = { b with lmem := m } := by
  refine List.foldlRecOn (motive := fun c : Block => ∃ m, c = { b with lmem := m }) _ _ ⟨b.lmem, rfl⟩ ?_
  rintro _ ⟨m, rfl⟩ l -
  exact ⟨_, rfl⟩

/-- The places of different lanes do not meet, so that each keeps its own state. -/
theorem lrd_genStored (b : Block) (a : Nat) {l : Nat} (hl : l < 128) :
    (genStored b a).lrd (a + 8 * l) 8 = (b.lanegen[l]?.getD 1).toNat := by
  refine (observe_foldl (R := fun c : Block => c.lrd (a + 8 * l) 8) (p := l) (e := fun _ => (b.lanegen[l]?.getD 1).toNat)
    (fun c => ?_) (fun c k _ hk => ?_) (fun _ => rfl) b).trans (if_pos (List.mem_range.2 hl))
  · exact lrd_lwr_same c _ (b.lanegen[l]?.getD 1).isLt
  · exact lrd_lwr_disjoint c _ (by omega)

theorem lrd_genStored_outside (b : Block) {a i n : Nat} (h : i + n ≤ a ∨ a + 1024 ≤ i) : (genStored b a).lrd i n = b.lrd i n := by
  refine List.foldlRecOn (motive := fun c : Block => c.lrd i n = b.lrd i n) _ _ rfl fun c hc l hl => ?_
  have hlane := List.mem_range.1 hl
  rw [lrd_lwr_disjoint c _ (by omega), hc]

section
variable {s : State} {t : TileRef} {d : Desc} {b : Block} (h : VxReady s t 0x41 d b)
include h

theorem genGet_gives (hsub : vxSub d.words = 0) :
    Gives (.genGet t) s (vxAfter s t (genStored b (vxAddr d.words)) { d with checked := true, fin := some .ok }) := by
  have hexec : exec (.genGet t) s =
      done s (s.vxRow t 0x41 fun b d => (genStored b (vxAddr d.words), { d with fin := some .ok })) := by
    change execGenGet t s = _
    simp only [execGenGet, h.1, hsub, ne_eq, not_true, if_false, genStored]
  exact gives_of_done_eq hexec (by rw [vxRow_of_ready h])

theorem genSet_gives (hsub : vxSub d.words ≠ 0) :
    Gives (.genSet t) s (vxAfter s t
      { b with lanegen := (List.range 128).map fun l => genLoad (BitVec.ofNat 64 (b.lrd (vxAddr d.words + 8 * l) 8)) }
      { d with checked := true, fin := some .ok }) := by
  refine gives_of_done_eq rfl ?_
  simp only [h.1, hsub, if_false]
  exact vxRow_of_ready h _

end

/-- Settles O20: GEN_GET's 128 words do not overlap, and GEN_SET builds its 128 states from the words at the same places. -/
theorem generatorStateMoves : Obligations.GeneratorStateMoves := by
  refine ⟨fun t s d b h hsub => ⟨_, genGet_gives h hsub, ?_, fun l hl => lrd_genStored b _ hl, fun a ha => ?_⟩,
    fun t s d b h hsub => ⟨_, genSet_gives h hsub, rfl, by simp, fun l hl => ?_⟩⟩
  · obtain ⟨m, hm⟩ := genStored_frame b (vxAddr d.words)
    rw [hm]
  · exact lrd_genStored_outside b ha
  · rw [List.getElem?_map, List.getElem?_range hl]
    rfl

end Sys2Proof.Machine
end

section
/-!
Burrs (Chapter 07): what the end of a program leaves of a Burr and its registers, the element that a unit of MV writes, the halt of a
failing operation, and what each Burr command answers under its guard.
-/

namespace Sys2Proof.Machine
open Sys2Proof

/-! ### Scratch (R16) -/

theorem rd_wr_same (u : BurrU) (off n x : Nat) : (u.wr off n x).rd off n = x % 256 ^ n := by
  have hbytes : (List.range n).map (fun i => aGet (lput u.scratch off n x) 0 (off + i)) =
      (List.range n).map fun i => BitVec.ofNat 8 (x / 256 ^ i) := by
    refine List.map_congr_left fun i hi => ?_
    have hin := List.mem_range.1 hi
    rw [aGet_lput, if_pos (by omega), Nat.add_sub_cancel_left]
  rw [BurrU.rd, BurrU.wr, hbytes, leNat_map_ofNat]

theorem rd_wr_disjoint (u : BurrU) {off n off' n' : Nat} (x : Nat) (h : off' + n' ≤ off ∨ off + n ≤ off') :
    (u.wr off n x).rd off' n' = u.rd off' n' := by
  unfold BurrU.rd BurrU.wr
  refine congrArg leNat (List.map_congr_left fun i hi => ?_)
  have hin := List.mem_range.1 hi
  rw [aGet_lput, if_neg (by omega)]

/-! ### Programs and registers of a Burr (R219, R220, Table 7-8) -/

/-- A status fits four bits (Table 0-6). -/
theorem code_mod (st : Status) : st.code % 2 ^ 4 = st.code := by cases st <;> rfl

section
variable (s : State) (b : BurrRef) (st : Status) (next : Nat)

@[simp] theorem burr_setBurr_same (u : BurrU) : (s.setBurr b u).burr b = u := aGet_aSet_same _ _ _ _
theorem burr_setBurr_ne {c : BurrRef} (u : BurrU) (h : c.key ≠ b.key) : (s.setBurr b u).burr c = s.burr c :=
  aGet_aSet_ne _ _ _ h.symm

/-- A program that runs: it leaves the Burr with its read-ahead, its accesses are given up, and its launch counts it. -/
theorem burrEnd_of_running {p : BProg} (h : (s.burr b).run = some p) : s.burrEnd b st next =
    ((((s.setBurr b { s.burr b with run := none, ra := [], snap := [], pausing := false }).setRf b.cdie .burState b.idx 11 8
      st.code).setBurSt b next).giveUp fun r => decide (r = s.reqId (.burr b.key))).burrCount p.home p.lid b st := by
  simp only [State.burrEnd, h]

theorem burrEnd_of_idle (h : (s.burr b).run = none) : s.burrEnd b st next = s.setBurSt b next := by
  simp only [State.burrEnd, h]

theorem burSt_burrEnd {next : Nat} (hn : next < 8) : (s.burrEnd b st next).burSt b = next := by
  have hset (t : State) : (t.setBurSt b next).burSt b = next :=
    (State.rf_setRf_same t _ _ _ next (by decide)).trans (Nat.mod_eq_of_lt hn)
  cases h : (s.burr b).run with
  | none => rw [burrEnd_of_idle s b st next h, hset]
  | some p => rw [burrEnd_of_running s b st next h]; exact hset _

theorem burr_burrEnd_of_running {p : BProg} (h : (s.burr b).run = some p) :
    (s.burrEnd b st next).burr b = { s.burr b with run := none, ra := [], snap := [], pausing := false } := by
  rw [burrEnd_of_running s b st next h]
  exact burr_setBurr_same s b _

theorem run_burrEnd : ((s.burrEnd b st next).burr b).run = none := by
  cases h : (s.burr b).run with
  | none => rw [burrEnd_of_idle s b st next h]; exact h
  | some p => rw [burr_burrEnd_of_running s b st next h]

/-- The status of the program that has ended stands in BUR_STATE. -/
theorem status_burrEnd {p : BProg} (h : (s.burr b).run = some p) : (s.burrEnd b st next).rf b.cdie .burState b.idx 11 8 = st.code := by
  rw [burrEnd_of_running s b st next h]
  exact ((State.rf_setRf_disjoint _ _ _ _ next (by decide)).trans (State.rf_setRf_same _ _ _ _ st.code (by decide))).trans
    (code_mod st)

theorem reg_burrEnd (d : Die) {n : RegName} (i : Nat) (hn : n ≠ .burState) : (s.burrEnd b st next).reg d n i = s.reg d n i := by
  have hset (t : State) (hi lo v : Nat) : (t.setRf b.cdie .burState b.idx hi lo v).reg d n i = t.reg d n i :=
    State.reg_setRf_ne t _ _ _ fun h => hn h.2.1.symm
  cases h : (s.burr b).run with
  | none => rw [burrEnd_of_idle s b st next h]; exact hset _ _ _ _
  | some p => rw [burrEnd_of_running s b st next h]; exact (hset _ _ _ _).trans (hset _ _ _ _)

theorem burrDropPend_of_none (h : (s.burr b).pend = none) : s.burrDropPend b = s := by
  simp only [State.burrDropPend, h]
theorem burrDropPend_of_some {p : BProg} (h : (s.burr b).pend = some p) : s.burrDropPend b =
    ((s.setBurr b { s.burr b with pend := none }).setRf b.cdie .burState b.idx 4 4 0).burrCount p.home p.lid b .abrt := by
  simp only [State.burrDropPend, h]

theorem burr_burrDropPend : (s.burrDropPend b).burr b = { s.burr b with pend := none } := by
  cases h : (s.burr b).pend with
  | none => rw [burrDropPend_of_none s b h, ← h]
  | some p => rw [burrDropPend_of_some s b h]; exact burr_setBurr_same s b _

/-- Of BUR_STATE, the flag of the pending program alone changes. -/
theorem rf_burrDropPend {hi lo : Nat} (h : hi < 4 ∨ 4 < lo) :
    (s.burrDropPend b).rf b.cdie .burState b.idx hi lo = s.rf b.cdie .burState b.idx hi lo := by
  cases hp : (s.burr b).pend with
  | none => rw [burrDropPend_of_none s b hp]
  | some p => rw [burrDropPend_of_some s b hp]; exact State.rf_setRf_disjoint _ _ _ _ 0 h

theorem reg_burrDropPend (d : Die) {n : RegName} (i : Nat) (hn : n ≠ .burState) : (s.burrDropPend b).reg d n i = s.reg d n i := by
  cases hp : (s.burr b).pend with
  | none => rw [burrDropPend_of_none s b hp]
  | some p => rw [burrDropPend_of_some s b hp]; exact State.reg_setRf_ne _ _ _ _ fun h => hn h.2.1.symm

theorem burSt_burrStop {next : Nat} (hn : next < 8) : (s.burrStop b next).burSt b = next :=
  (rf_burrDropPend _ b (by decide)).trans (burSt_burrEnd s b .abrt hn)

theorem reg_burrStop (d : Die) {n : RegName} (i : Nat) (hn : n ≠ .burState) : (s.burrStop b next).reg d n i = s.reg d n i :=
  (reg_burrDropPend _ b d i hn).trans (reg_burrEnd s b .abrt next d i hn)

end

/-! ### A unit of MV (R213) -/

theorem unitMv_of_row {b : BurrRef} {p : BProg} {reads : List Disturb} {o r a : Nat} {s t : State} {row : List (Nat × Int)}
    (h : s.burrRow b p reads o r = .ok (.ok, a, row, t)) :
    unitMv b p reads o r s = .ok (t.setBurr b ((t.burr b).wr (boSy o + 4 * r) 4
      (burrDot (if boAcc o then (t.burr b).rd (boSy o + 4 * r) 4 else 0) (rowProds o row ((t.burr b).halves (boSx o) (boK o)))))) := by
  simp only [unitMv, h]

/-- Settles O23: the unit stores four bytes, which read back as the result, and every byte beside them stays. -/
theorem burrMvWritesOneElement : Obligations.BurrMvWritesOneElement := by
  refine fun b p reads o r a s t row hrow => ⟨_, unitMv_of_row hrow, rfl, fun c hc => burr_setBurr_ne t b _ hc, ?_, fun off hoff => ?_⟩
  · rw [burr_setBurr_same]
    exact rd_wr_same _ _ 4 _
  · rw [burr_setBurr_same]
    exact rd_wr_disjoint _ _ (by omega)

/-! ### A failing operation (R220) -/

/-- The fault record of an operation that fails, kept while it is VALID (Table 7-8). -/
def State.burrRecorded (s : State) (b : BurrRef) (st : Status) (ca : Nat) : State :=
  let f := s.reg b.cdie .burFault b.idx
  if f.getLsbD 0 then s
  else s.setReg b.cdie .burFault b.idx
    (setFld (setFld (setFld (setFld f 63 32 (ca % 2 ^ 32)) 31 28 st.code) 27 20 (s.burIdx b)) 0 0 1)

theorem burrFail_eq (s : State) (b : BurrRef) (st : Status) (ca : Nat) :
    s.burrFail b st ca = ((s.burrRecorded b st ca).burrEnd b st 4).burrDropPend b := rfl

theorem burr_burrRecorded (s : State) (b : BurrRef) (st : Status) (ca : Nat) : (s.burrRecorded b st ca).burr b = s.burr b := by
  unfold State.burrRecorded
  dsimp only
  split <;> rfl

theorem burrRecorded_of_valid {s : State} {b : BurrRef} (h : s.rf b.cdie .burFault b.idx 0 0 = 1) (st : Status) (ca : Nat) :
    s.burrRecorded b st ca = s :=
  if_pos ((getLsbD_of_fld_bit h).trans (by decide))

/-- The fields of a new record: VALID, the channel address, the status and the operation's index. -/
theorem burrRecorded_fields {s : State} {b : BurrRef} (h : s.rf b.cdie .burFault b.idx 0 0 = 0) (st : Status) {ca : Nat}
    (hca : ca < 2 ^ 32) :
    let t := s.burrRecorded b st ca
    t.rf b.cdie .burFault b.idx 0 0 = 1 ∧ t.rf b.cdie .burFault b.idx 63 32 = ca ∧ t.rf b.cdie .burFault b.idx 31 28 = st.code ∧
      t.rf b.cdie .burFault b.idx 27 20 = s.burIdx b := by
  have hnew : (s.reg b.cdie .burFault b.idx).getLsbD 0 = false := (getLsbD_of_fld_bit h).trans (by decide)
  have hidx : s.burIdx b % 2 ^ 8 = s.burIdx b := Nat.mod_mod _ _
  simp only [State.burrRecorded, hnew, Bool.false_eq_true, if_false, State.rf, State.reg_setReg_same]
  refine ⟨?valid, ?address, ?status, ?index⟩
  case valid => exact fld_setFld_same _ _ (by decide)
  case address =>
    rw [fld_setFld_disjoint _ _ (by decide), fld_setFld_disjoint _ _ (by decide), fld_setFld_disjoint _ _ (by decide),
      fld_setFld_same _ _ (by decide), Nat.mod_mod, Nat.mod_eq_of_lt hca]
  case status =>
    rw [fld_setFld_disjoint _ _ (by decide), fld_setFld_disjoint _ _ (by decide), fld_setFld_same _ _ (by decide)]
    exact code_mod st
  case index =>
    rw [fld_setFld_disjoint _ _ (by decide), fld_setFld_same _ _ (by decide)]
    exact hidx

theorem reg_burrFail_burFault (s : State) (b : BurrRef) (st : Status) (ca : Nat) :
    (s.burrFail b st ca).reg b.cdie .burFault b.idx = (s.burrRecorded b st ca).reg b.cdie .burFault b.idx :=
  (reg_burrDropPend _ b _ _ (by decide)).trans (reg_burrEnd _ b st 4 _ _ (by decide))

/-- Settles O24: the record is written or kept, then the program ends with its status in HALTED, and the pending one is dropped. -/
theorem burrFailureHalts : Obligations.BurrFailureHalts := by
  intro s b st ca p hrun hca t
  have hrun' : ((s.burrRecorded b st ca).burr b).run = some p := (congrArg BurrU.run (burr_burrRecorded s b st ca)).trans hrun
  have ht : t = ((s.burrRecorded b st ca).burrEnd b st 4).burrDropPend b := burrFail_eq s b st ca
  have hfault : t.reg b.cdie .burFault b.idx = (s.burrRecorded b st ca).reg b.cdie .burFault b.idx := reg_burrFail_burFault s b st ca
  refine ⟨?state, ?status, ?run, ?pend, fun hvalid => ?kept, fun hnew => ?fresh⟩
  case state => rw [ht]; exact (rf_burrDropPend _ b (by decide)).trans (burSt_burrEnd _ b st (by decide))
  case status => rw [ht, rf_burrDropPend _ b (by decide), status_burrEnd _ b st 4 hrun']
  case run => rw [ht, burr_burrDropPend]; exact run_burrEnd _ b st 4
  case pend => rw [ht, burr_burrDropPend]
  case kept => rw [hfault, burrRecorded_of_valid hvalid]
  case fresh =>
    simp only [State.rf, hfault]
    exact burrRecorded_fields hnew st hca

/-! ### Operations, one unit at a time (R211, R212, R220, R221, Table 7-4) -/

section
variable {s t : State} {b : BurrRef} {opc : Nat} {p : BProg} {o : Nat}

theorem burrFront_of_runs (h : BurrRuns s b opc p o) : s.burrFront b opc = some (p, o) := by
  obtain ⟨hrun, hop, hup, hst, hopc, hidx⟩ := h
  simp [State.burrFront, hrun, hop, hup, hst, hopc, hidx]

variable (unit : BProg → Nat → Nat → State → UnitRes)

theorem burrOp_of_refused (h : BurrRuns s b opc p o) (hc : burrCheck p.hdr o b.idx = false) :
    s.burrOp b opc 1 unit = s.burrFail b .perm 0 := by
  simp [State.burrOp, burrFront_of_runs h, hc]

theorem burrOp_of_no_unit (h : BurrRuns s b opc p o) (hc : burrCheck p.hdr o b.idx = true) (hu : boUnits o ≤ s.burRow b) :
    s.burrOp b opc 1 unit = (s.setBurr b { s.burr b with ra := [] }).burrGoTo b p (s.burIdx b + 1) := by
  simp [State.burrOp, burrFront_of_runs h, hc, burrGo, hu, Nat.le_succ_of_le hu]

section
variable (h : BurrReady s b opc p o) (hu : s.burRow b < boUnits o)
include h hu

theorem burrOp_of_unit_ok (ht : unit p o (s.burRow b) s = .ok t) : s.burrOp b opc 1 unit = unitAfter s t b p o (s.burRow b) := by
  simp [State.burrOp, burrFront_of_runs h.1, h.2, burrGo, Nat.not_le.2 hu, ht, unitAfter]

theorem burrOp_of_unit_wait {w : Wait} (ht : unit p o (s.burRow b) s = .wait w) : s.burrOp b opc 1 unit = s.await w := by
  simp [State.burrOp, burrFront_of_runs h.1, h.2, burrGo, Nat.not_le.2 hu, ht]

theorem burrOp_of_unit_fail {st : Status} {ca : Nat} (ht : unit p o (s.burRow b) s = .fail st ca t) :
    s.burrOp b opc 1 unit = t.burrFail b st ca := by
  simp [State.burrOp, burrFront_of_runs h.1, h.2, burrGo, Nat.not_le.2 hu, ht]

end

end

/-- A row that carries out its operation by units, one of them at a time, answers each of the unit's outcomes. -/
theorem burrUnitRow_of_exec {mk : BurrRef → List Disturb → Instr} {opc : Nat}
    {unit : BurrRef → BProg → List Disturb → Nat → Nat → State → UnitRes}
    (he : ∀ b reads s, exec (mk b reads) s = done s (s.burrOp b opc 1 fun p o r => unit b p reads o r)) : BurrUnitRow mk opc unit := by
  refine ⟨fun b reads s p o h => ⟨fun hc => ?_, fun hc hu => ?_⟩, fun b reads s p o h hu => ?_⟩
  · exact gives_of_done_eq (he b reads s) (burrOp_of_refused _ h hc)
  · exact gives_of_done_eq (he b reads s) (burrOp_of_no_unit _ h hc hu)
  · cases ht : unit b p reads o (s.burRow b) s with
    | ok t => exact gives_of_done_eq (he b reads s) (burrOp_of_unit_ok _ h hu ht)
    | wait w => exact gives_of_done_eq (he b reads s) (burrOp_of_unit_wait _ h hu ht)
    | fail st ca t => exact gives_of_done_eq (he b reads s) (burrOp_of_unit_fail _ h hu ht)

/-! ### GATE (R224) -/

/-- The gate is open where the count less IMM, as a signed 16-bit value, is not negative. -/
theorem gateOpen_iff {g i : Nat} (hg : g < 65536) :
    0 ≤ (BitVec.ofNat 16 g - BitVec.ofNat 16 i).toInt ↔ (g + 65536 - i % 65536) % 65536 < 32768 := by
  have hval : (BitVec.ofNat 16 g - BitVec.ofNat 16 i).toNat = (g + 65536 - i % 65536) % 65536 := by
    rw [BitVec.toNat_sub, BitVec.toNat_ofNat, BitVec.toNat_ofNat]
    omega
  rw [← hval, BitVec.toInt_eq_toNat_cond]
  split <;> omega

/-- A Burr that runs an operation is at none of the conditions under which it does nothing. -/
theorem not_idle_of_runs {s : State} {b : BurrRef} {opc : Nat} {p : BProg} {o : Nat} (h : BurrRuns s b opc p o) :
    ¬ ((s.running b.cdie false = false ∨ ¬ s.burSt b = 1 ∧ ¬ s.burSt b = 2) ∨ 64 ≤ b.idx) := by
  obtain ⟨-, -, hup, hst, -, hidx⟩ := h
  rintro ((hdown | hno) | hfar)
  · exact Bool.noConfusion (hup.symm.trans hdown)
  · exact hst.elim hno.1 hno.2
  · exact Nat.not_le.2 hidx hfar

section
variable {s : State} {b : BurrRef} {p : BProg} {o : Nat} (h : BurrReady s b 10 p o) (n : Nat) (reads : List Disturb)
include h

theorem gate_open_gives (hopen : 0 ≤ (BitVec.ofNat 16 (s.burGate b) - BitVec.ofNat 16 (boImm o)).toInt) :
    Gives (.gate b n reads) s (s.burrGoTo b p (s.burIdx b + 1)) := by
  have hgoes := not_idle_of_runs h.1
  obtain ⟨⟨hrun, hop, -, -, hopc, -⟩, hcheck⟩ := h
  have hlt : s.burGate b < 65536 := Nat.mod_lt _ (by decide)
  refine gives_of_done_eq rfl ?_
  simp [hrun, hop, hgoes, hopc, hcheck, (gateOpen_iff hlt).1 hopen]

variable (hshut : (BitVec.ofNat 16 (s.burGate b) - BitVec.ofNat 16 (boImm o)).toInt < 0)
include hshut

theorem gate_draining_gives (hd : p.draining = true) : Gives (.gate b n reads) s (s.burrEnd b .abrt 0) := by
  have hgoes := not_idle_of_runs h.1
  obtain ⟨⟨hrun, hop, -, -, hopc, -⟩, hcheck⟩ := h
  have hlt : s.burGate b < 65536 := Nat.mod_lt _ (by decide)
  refine gives_of_done_eq rfl ?_
  simp [hrun, hop, hgoes, hopc, hcheck, mt (gateOpen_iff hlt).2 (Int.not_le.2 hshut), hd]

/-- Without a block to read ahead a shut gate waits. -/
theorem gate_waiting_gives (hd : p.draining = false) : Gives (.gate b 0 reads) s (s.setBurSt b 2) := by
  have hgoes := not_idle_of_runs h.1
  obtain ⟨⟨hrun, hop, -, -, hopc, -⟩, hcheck⟩ := h
  have hlt : s.burGate b < 65536 := Nat.mod_lt _ (by decide)
  refine gives_of_done_eq rfl ?_
  simp [hrun, hop, hgoes, hopc, hcheck, mt (gateOpen_iff hlt).2 (Int.not_le.2 hshut), hd, State.readAhead]
  split <;> rfl

end

/-! ### Launches (R218-R220, R230) -/

section
variable {die : Fin 4} {id : Nat} {s : State} {l : BLaunch} {c : Cmd}

/-- No Burr of a launch that is new is gone; one that a pause has returned is delivered all the same. -/
theorem launch_served (h : c.started = true ∨ ∀ b ∈ burrsOf die l.todo, s.burGone b = false) :
    ¬ ((!c.started && (burrsOf die l.todo).any fun b => s.burGone b) = true) := by
  obtain hstarted | hall := h
  · simp [hstarted]
  · simpa using fun _ => hall

section
variable (hl : s.blaunch? die id = some l) (hc : s.cmd? die id = some c) (htodo : l.todo ≠ 0) (hup : s.running (.cd die) true = true)
  (hq : s.rf (.cd die) .cqCfg c.queue 23 21 ≠ 3) (hctx : s.preempted.contains (die.val, l.ctx) = false)
  (hfirst : s.blaunchBefore die id c.queue = false)

include htodo hup hq hctx hfirst in
/-- Nothing holds the launch back. -/
theorem launch_due : ¬ (l.todo = 0 ∨ s.running (.cd die) true = false ∨ s.rf (.cd die) .cqCfg c.queue 23 21 = 3 ∨
    s.preempted.contains (die.val, l.ctx) = true ∨ s.blaunchBefore die id c.queue = true) := by
  rw [hup, hctx, hfirst]
  simp [htodo, hq]

include hl hc htodo hup hq hctx hfirst

theorem burrLaunchDeliver_unav_gives (hnew : c.started = false) (hgone : ∃ b ∈ burrsOf die l.todo, s.burGone b = true) :
    Gives (.burrLaunchDeliver die id) s
      (({ s with blaunches := s.blaunches.filter fun x => decide (¬ (x.die = die ∧ x.id = id)) }.cmdStart c).cmdFin die id
        .unav 0 (BitVec.ofNat 64 (bhTag l.hdr))) := by
  refine gives_of_done_eq rfl ?_
  rw [hl, hc]
  exact (if_neg (launch_due htodo hup hq hctx hfirst)).trans (if_pos (by simpa [hnew] using hgone))

variable (hserved : c.started = true ∨ ∀ b ∈ burrsOf die l.todo, s.burGone b = false)
include hserved

theorem burrLaunchDeliver_gives (hfree : ∀ b ∈ burrsOf die l.todo, (s.burr b).pend = none) :
    Gives (.burrLaunchDeliver die id) s (if c.started then delivered s l die else (delivered s l die).cmdStart c) := by
  refine gives_of_done_eq rfl ?_
  rw [hl, hc]
  refine ((if_neg (launch_due htodo hup hq hctx hfirst)).trans (if_neg (launch_served hserved))).trans
    ((if_pos (by simpa using hfree)).trans ?_)
  cases c.started <;> rfl

theorem burrLaunchDeliver_waits_gives (hfull : ∃ b ∈ burrsOf die l.todo, (s.burr b).pend ≠ none) :
    Gives (.burrLaunchDeliver die id) s s := by
  refine gives_of_done_eq rfl ?_
  rw [hl, hc]
  refine ((if_neg (launch_due htodo hup hq hctx hfirst)).trans (if_neg (launch_served hserved))).trans (if_neg ?_)
  simpa using hfull

end

theorem burrProgramStart_gives {b : BurrRef} {p : BProg} (hrun : (s.burr b).run = none) (hpend : (s.burr b).pend = some p)
    (hup : s.running b.cdie false = true) (hst : s.burSt b = 0 ∨ s.burSt b = 4) (hidx : b.idx < 64) (hthere : s.burrAbsent b = false) :
    Gives (.burrProgramStart b) s
      ((((s.setBurr b { s.burr b with run := some p, pend := none, ra := [] }).setRf b.cdie .burState b.idx 4 4 0).setRf
        b.cdie .burState b.idx 47 36 p.ctx).burrGoTo b p 0) := by
  refine gives_of_done_eq rfl ?_
  simp [hrun, hpend, hup, hst, hidx, hthere]

theorem burrLaunchComplete_gives (hl : s.blaunch? die id = some l) (hleft : l.left = 0) (htodo : l.todo = 0) (hloud : l.quiet = false)
    (hprod : s.prodHeld (.cd die) 0 = false) (hup : s.running (.cd die) true = true) (hc : s.cmd? die id = some c) :
    Gives (.burrLaunchComplete die id) s
      ({ s with blaunches := s.blaunches.filter fun x => decide (¬ (x.die = die ∧ x.id = id)) }.completeCmd
        { c with info := l.bad, tag := BitVec.ofNat 64 (bhTag l.hdr) } l.st) := by
  refine gives_of_done_eq rfl ?_
  simp [hl, hleft, htodo, hloud, hprod, hup, hc]

end

/-! ### Feeds (R222) -/

/-- A feed that is still to reach a Burr, and another one, is not over there. -/
theorem feed_left {todo i : Nat} (h : nbit todo i = true) (hne : todo ≠ 2 ^ i) : todo - 2 ^ i ≠ 0 := by
  have hle : 2 ^ i ≤ todo := Nat.ge_two_pow_of_testBit (nbit_eq todo i ▸ h)
  omega

theorem burrFeedArrive_gives {b : BurrRef} {id : Nat} {s t : State} {f : Feed} {l : List Byte}
    (hf : s.feeds.find? (fun f => decide (f.die = b.die) && decide (f.id = id)) = some f) (hbit : nbit f.todo b.idx = true)
    (hidx : b.idx < 64) (hup : s.running b.cdie false = true) (hne : f.todo ≠ 2 ^ b.idx)
    (hread : s.vaSpan (.cp b.die) f.ctx f.pl ((f.src.toNat + b.idx * f.stride.toNat) % 2 ^ 64) f.len = .ok (.ok, l, t)) :
    let r := feedWords (t.burrBusyOp b) f.off (fours f.len l) (t.burr b) t.free
    let f1 := { f with todo := f.todo - 2 ^ b.idx, st := Status.first f.st .ok }
    let u := ({ t.setBurr b r.1 with free := r.2 } : State).setRf b.cdie .burState b.idx 63 48 ((t.burGate b + 1) % 65536)
    Gives (.burrFeedArrive b id) s
      (({ u with feeds := u.feeds.map fun x => if x.die = f.die ∧ x.id = id then f1 else x } : State).burrHold b) := by
  intro r f1 u
  have hdue : ¬ (nbit f.todo b.idx = false ∨ 64 ≤ b.idx ∨ s.running b.cdie false = false) := by
    rw [hbit, hup]
    simp [hidx]
  refine gives_of_done_eq rfl ?_
  rw [hf]
  refine (if_neg hdue).trans ?_
  dsimp only
  rw [hread]
  exact if_neg (feed_left hbit hne)

/-! ### Writes of BUR_STATE (R232) -/

section
variable {w : Wr} {n : Fin 4} {s t : State} (hdie : w.die = .cd n)
  (hstore : s.ctlStore w.die .burState w.idx w.pl w.ctx w.val = (.ok, t))
include hdie hstore

theorem burrDisable_gives (hen : w.val.getLsbD 0 = false) : Gives (.burrDisable w) s
    ((if t.burSt ⟨n, w.idx % 64⟩ = 6 then t else t.burrStop ⟨n, w.idx % 64⟩ 5).answer .ok 0) := by
  refine gives_of_done_eq rfl ((if_neg (Bool.eq_false_iff.1 hen)).trans ?_)
  rw [hstore, hdie]

theorem burrEnable_gives (hen : w.val.getLsbD 0 = true) : Gives (.burrEnable w) s
    ((if t.burSt ⟨n, w.idx % 64⟩ = 5 then t.setBurSt ⟨n, w.idx % 64⟩ 0 else t).answer .ok 0) := by
  refine gives_of_done_eq rfl ((if_neg (by simp [hen])).trans ?_)
  rw [hstore, hdie]

end

/-- Settles O25: an operation's units, the gate, and what each of the other rows answers under its guard. -/
theorem burrOperations : Obligations.BurrOperations := by
  refine ⟨⟨?mv, ?mvt, ?score, ?wsum, ?append, ?axpy, ?reduce, ?copy, ?fill, ?gate⟩, ?deliver, ?start, ?complete, ?feed, ?write⟩
  case gate =>
    intro b n reads s p o h
    exact ⟨gate_open_gives h n reads, fun hshut => ⟨gate_draining_gives h n reads hshut, gate_waiting_gives h reads hshut⟩⟩
  case deliver =>
    intro die id s l c hl hc htodo hup hq hctx hfirst
    exact ⟨burrLaunchDeliver_unav_gives hl hc htodo hup hq hctx hfirst, burrLaunchDeliver_gives hl hc htodo hup hq hctx hfirst,
      burrLaunchDeliver_waits_gives hl hc htodo hup hq hctx hfirst⟩
  case start => exact fun b s p => burrProgramStart_gives
  case complete => exact fun die id s l c => burrLaunchComplete_gives
  case feed => exact fun b id s t f l => burrFeedArrive_gives
  case write => exact fun w n s t hdie hstore => ⟨burrDisable_gives hdie hstore, burrEnable_gives hdie hstore⟩
  all_goals exact burrUnitRow_of_exec fun _ _ _ => rfl

end Sys2Proof.Machine
end

section
/-!
Retirement of a pseudo-channel (Chapter 09): the entry that a retirement makes and the registers that its start leaves.
-/

namespace Sys2Proof.Machine
open Sys2Proof

/-! ### The entry (R279, Table 9-19) -/

/-- The bands that an entry releases fit its field. -/
theorem donorBands_lt (f : Fuse) {k : Nat} (hk : k ≤ 16) : donorBands f.bands k < 2 ^ 8 := by
  have hbands : f.bands ≤ 32768 := by unfold Fuse.bands; split <;> decide
  have hden : 497 ≤ 513 - k := by omega
  calc donorBands f.bands k ≤ (f.bands + (513 - k) - 1) / 497 := Nat.div_le_div_left hden (by decide)
    _ < 2 ^ 8 := by omega

/-- The fields of a retirement entry (Table 9-19): pseudo-channel, base band and band count. -/
theorem retireEntry_fields {p base m : Nat} (hp : p < 512) (hb : base < 2 ^ 16) (hm : m < 2 ^ 8) :
    let e : W64 := BitVec.ofNat 64 (2 ^ 63 + p * 2 ^ 32 + base * 2 ^ 16 + m)
    fld e 63 63 = 1 ∧ fld e 40 32 = p ∧ fld e 30 16 = base % 2 ^ 15 ∧ fld e 7 0 = m := by
  have hval : (BitVec.ofNat 64 (2 ^ 63 + p * 2 ^ 32 + base * 2 ^ 16 + m)).toNat = 2 ^ 63 + p * 2 ^ 32 + base * 2 ^ 16 + m := by
    rw [BitVec.toNat_ofNat]
    omega
  simp only [fld, hval, Nat.shiftRight_eq_div_pow]
  omega

/-! ### The start of a relayout (R234, R280) -/

section
variable (s : State) (d : Die) {n : RegName} (i : Nat)

theorem reg_newWork (d' : Die) (block : Nat) (hn : n ≠ .pwrStateStatus) : (s.newWork d' block).reg d n i = s.reg d n i := by
  unfold State.newWork
  split
  · split
    · exact State.reg_setRf_ne _ _ _ _ fun h => hn h.2.1.symm
    · rfl
  · rfl

theorem reg_tgEnd (r : TgRun) (st : Nat) (ho : n ≠ .hubOrderStatus) (ht : n ≠ .tgStatus) : (s.tgEnd r st).reg d n i = s.reg d n i :=
  (State.reg_setRf_ne _ _ _ _ fun h => ht h.2.1.symm).trans (State.reg_setReg_ne _ _ fun h => ho h.2.1.symm)

/-- Beside the state of the pseudo-channel only what the end of a generator's run writes can change. -/
theorem reg_movePch (p st : Nat) (ho : n ≠ .hubOrderStatus) (ht : n ≠ .tgStatus) :
    (s.movePch p st).reg d n i = (s.setPch p st).reg d n i :=
  List.foldlRecOn (motive := fun t : State => t.reg d n i = (s.setPch p st).reg d n i) _ _ rfl
    fun t h r _ => (reg_tgEnd t d i r 3 ho ht).trans h

end

/-- What a retirement that begins does first: its entry, and MEM_RETIRE_CTRL with USABLE, the cursor and RESULT. -/
def State.retireEntered (s : State) (p base m : Nat) : State :=
  let t := s.setReg .hub .memRetireEntry s.retCount (BitVec.ofNat 64 (2 ^ 63 + p * 2 ^ 32 + base * 2 ^ 16 + m))
  ((t.setRf .hub .memRetireCtrl 0 63 48 base).setRf .hub .memRetireCtrl 0 47 32 0).retResult 1

/-- What it does then: the pseudo-channel goes to RELAYOUT, and its Burr is retired. -/
def State.pchRetired (s : State) (p : Nat) : State :=
  ((s.movePch p 5).burrRetire (burrOfPch p)).newWork (.cd (pchDie p)) 7

theorem retireGo_begins {s : State} {p m base : Nat} (hm : donorBands s.fuse.bands (s.retCount + 1) = m) (hbase : s.usable - m = base)
    (hmode : ∀ b, base ≤ b → b < base + m → s.bandMode b = 0) (hk : s.retCount + 1 ≤ 16) (hpch : s.pch p = 3 ∨ s.pch p = 4)
    (hrun : s.running (.cd (pchDie p)) false = true) (hpwr : s.pwrTarget = 0) :
    s.retireGo p = (s.retireEntered p base m).pchRetired p := by
  subst hm hbase
  have hbands (base m : Nat) (hmode : ∀ b, base ≤ b → b < base + m → s.bandMode b = 0) :
      ¬ ((upFrom base m).any fun b => decide (s.bandMode b ≠ 0)) = true := by
    simp only [upFrom, List.any_eq_true, List.mem_map, List.mem_range, decide_eq_true_eq]
    rintro ⟨_, ⟨j, hj, rfl⟩, hne⟩
    exact hne (hmode _ (Nat.le_add_right _ _) (Nat.add_lt_add_left hj _))
  have hstate : ¬ ((s.pch p ≠ 3 ∧ s.pch p ≠ 4) ∨ s.running (.cd (pchDie p)) false = false ∨ s.pwrTarget ≠ 0) := by
    rintro (⟨h3, h4⟩ | hstop | htarget)
    · exact hpch.elim h3 h4
    · exact Bool.noConfusion (hrun.symm.trans hstop)
    · exact htarget hpwr
  exact ((if_neg (hbands _ _ hmode)).trans (if_neg (Nat.not_lt.2 hk))).trans (if_neg hstate)

section
variable (s : State) {p : Nat}

theorem retireEntered_entry {base m : Nat} (hp : p < 512) (hb : base < 2 ^ 16) (hm : m < 2 ^ 8) :
    let t := s.retireEntered p base m
    t.rf .hub .memRetireEntry s.retCount 63 63 = 1 ∧ t.rf .hub .memRetireEntry s.retCount 40 32 = p ∧
      t.rf .hub .memRetireEntry s.retCount 30 16 = base % 2 ^ 15 ∧ t.rf .hub .memRetireEntry s.retCount 7 0 = m := by
  have hreg : (s.retireEntered p base m).reg .hub .memRetireEntry s.retCount =
      BitVec.ofNat 64 (2 ^ 63 + p * 2 ^ 32 + base * 2 ^ 16 + m) := by
    simp only [State.retireEntered, State.retResult]
    rw [State.reg_setRf_ne _ _ _ _ (by simp), State.reg_setRf_ne _ _ _ _ (by simp), State.reg_setRf_ne _ _ _ _ (by simp),
      State.reg_setReg_same]
  simp only [State.rf, hreg]
  exact retireEntry_fields hp hb hm

theorem retireEntered_ctrl {base : Nat} (m : Nat) (hb : base < 2 ^ 16) :
    let t := s.retireEntered p base m
    t.usable = base ∧ t.rf .hub .memRetireCtrl 0 28 26 = 1 ∧ t.cursor = 0 := by
  refine ⟨?usable, ?result, ?cursor⟩
  case usable =>
    simp only [State.usable, State.retireEntered, State.retResult]
    rw [State.rf_setRf_disjoint _ _ _ _ _ (by decide), State.rf_setRf_disjoint _ _ _ _ _ (by decide),
      State.rf_setRf_same _ _ _ _ _ (by decide), Nat.mod_eq_of_lt hb]
  case result => exact State.rf_setRf_same _ _ _ _ 1 (by decide)
  case cursor =>
    simp only [State.cursor, State.retireEntered, State.retResult]
    rw [State.rf_setRf_disjoint _ _ _ _ _ (by decide), State.rf_setRf_same _ _ _ _ _ (by decide)]
    rfl

/-- Registers that are not of a Burr, of a generator's run or of power states stay as the change of state leaves them. -/
theorem reg_pchRetired (d : Die) {n : RegName} (i : Nat) (hw : n ≠ .pwrStateStatus) (hb : n ≠ .burState) (ho : n ≠ .hubOrderStatus)
    (ht : n ≠ .tgStatus) : (s.pchRetired p).reg d n i = (s.setPch p 5).reg d n i :=
  calc (s.pchRetired p).reg d n i
    _ = ((s.movePch p 5).burrStop (burrOfPch p) 6).reg d n i := reg_newWork _ _ _ _ _ hw
    _ = (s.movePch p 5).reg d n i := reg_burrStop _ _ _ _ _ hb
    _ = (s.setPch p 5).reg d n i := reg_movePch _ _ _ _ _ ho ht

theorem pch_pchRetired : (s.pchRetired p).pch p = 5 :=
  (congrArg (fld · 3 0) (reg_pchRetired s _ _ (by decide) (by decide) (by decide) (by decide))).trans
    (State.rf_setRf_same _ _ _ _ 5 (by decide))

theorem rf_pchRetired_entry (k hi lo : Nat) : (s.pchRetired p).rf .hub .memRetireEntry k hi lo = s.rf .hub .memRetireEntry k hi lo :=
  congrArg (fld · hi lo) ((reg_pchRetired s _ _ (by decide) (by decide) (by decide) (by decide)).trans
    (State.reg_setRf_ne _ _ _ _ (by simp)))
theorem rf_pchRetired_ctrl (hi lo : Nat) : (s.pchRetired p).rf .hub .memRetireCtrl 0 hi lo = s.rf .hub .memRetireCtrl 0 hi lo :=
  congrArg (fld · hi lo) ((reg_pchRetired s _ _ (by decide) (by decide) (by decide) (by decide)).trans
    (State.reg_setRf_ne _ _ _ _ (by simp)))

theorem burSt_pchRetired : (s.pchRetired p).burSt (burrOfPch p) = 6 :=
  (congrArg (fld · 7 5) (reg_newWork _ _ _ _ _ (by decide))).trans (burSt_burrStop (s.movePch p 5) (burrOfPch p) (by decide))

end

/-- Settles O29: nothing refuses the retirement, so that its entry is made first, and then the pseudo-channel and its Burr leave service,
which touches no register of the hub's retirement. -/
theorem retirementBegins : Obligations.RetirementBegins := by
  intro s p hp k m base hmode hk hpch hrun hpwr t
  have ht : t = (s.retireEntered p base m).pchRetired p := retireGo_begins rfl rfl hmode hk hpch hrun hpwr
  have husable : s.usable < 2 ^ 16 := Nat.mod_lt _ (by decide)
  have hbase : base < 2 ^ 16 := lt_of_le_of_lt (Nat.sub_le _ _) husable
  obtain ⟨hvalid, hchan, hfirst, hcount⟩ := retireEntered_entry s hp hbase (donorBands_lt s.fuse hk)
  obtain ⟨hbands, hresult, hcursor⟩ := retireEntered_ctrl s (p := p) m hbase
  rw [ht, State.usable, State.cursor]
  simp only [rf_pchRetired_entry, rf_pchRetired_ctrl]
  exact ⟨hvalid, hchan, hfirst, hcount, hbands, hresult, hcursor, pch_pchRetired _, burSt_pchRetired _⟩

end Sys2Proof.Machine
end

section
/-!
Pre-emption (Chapter 12): what a write of CQ_PREEMPT answers for each of its operations, and the image of a stopped block.
-/

namespace Sys2Proof.Machine
open Sys2Proof

/-! ### Writes of CQ_PREEMPT (R356) -/

section
variable {w : Wr} {n : Fin 4} {s t u : State} {op : Nat} {f : State → Fin 4 → PreOp → Except Wait State} (c : Instr)
  (hdie : w.die = .cd n) (hop : fld w.val 55 52 = op)
  (hstore : (s.touch w.die .cqPreempt).ctlStore w.die .cqPreempt 0 w.pl w.ctx w.val = (.ok, t))
include hdie hop hstore

theorem preWrite_of_busy (hbusy : s.rf w.die .cqPreempt 0 63 63 = 1) : s.preWrite w c op f = s.answer .busy 0 := by
  rw [hdie] at hstore hbusy
  simp [State.preWrite, hdie, hop, hstore, hbusy]

variable (hfree : s.rf w.die .cqPreempt 0 63 63 = 0)
include hfree

theorem preWrite_of_ok (hf : f (t.setRf w.die .cqPreempt 0 63 63 1) n ⟨op, fld w.val 11 0, fld w.val 23 12, [], 0, 0, .ok⟩ = .ok u) :
    s.preWrite w c op f = u.answer .ok 0 := by
  rw [hdie] at hstore hfree hf
  simp [State.preWrite, hdie, hop, hstore, hfree, hf]

theorem preWrite_of_wait {e : Wait}
    (hf : f (t.setRf w.die .cqPreempt 0 63 63 1) n ⟨op, fld w.val 11 0, fld w.val 23 12, [], 0, 0, .ok⟩ = .error e) :
    s.preWrite w c op f = s.await e := by
  rw [hdie] at hstore hfree hf
  simp [State.preWrite, hdie, hop, hstore, hfree, hf]

end

/-- A row that takes its write by the register gives each of the answers of its operation. -/
theorem preRow_of_exec {mk : Wr → Instr} {op : Nat} {f : Wr → State → Fin 4 → PreOp → Except Wait State}
    {g : State → Fin 4 → PreOp → Except Wait State} (he : ∀ w s, exec (mk w) s = done s (s.preWrite w (mk w) op (f w)))
    (hg : ∀ w n t o, w.die = .cd n → f w t n o = g t n o) : PreRow mk op g := by
  intro w n s t hdie hop hstore
  refine ⟨fun hbusy => gives_of_done_eq (he w s) (preWrite_of_busy _ hdie hop hstore hbusy), fun hfree => ?_⟩
  have hfg := hg w n (t.setRf w.die .cqPreempt 0 63 63 1) ⟨op, fld w.val 11 0, fld w.val 23 12, [], 0, 0, .ok⟩ hdie
  cases hr : g (t.setRf w.die .cqPreempt 0 63 63 1) n ⟨op, fld w.val 11 0, fld w.val 23 12, [], 0, 0, .ok⟩ with
  | ok u => exact gives_of_done_eq (he w s) (preWrite_of_ok _ hdie hop hstore hfree (hfg.trans hr))
  | error e => exact gives_of_done_eq (he w s) (preWrite_of_wait _ hdie hop hstore hfree (hfg.trans hr))

/-! ### The image of a stopped block (R356) -/

section
variable {b : BlockRef} {s u : State} {o : PreOp} {k : Block} {e : Nat × Nat × Nat} {st : Status}
  (hpre : s.pre? b.tileRef.die = some o) (hop : o.op = 1) (hblock : (s.tile b.tileRef).block? b.bid = some k) (hstop : k.st = .stopping)
  (hdone : (s.tile b.tileRef).stopped b.bid = true) (hup : s.running (.cd b.tileRef.die) true = true)
  (hdue : o.todo.find? (fun e => decide (e.1 = b.tileRef.tile) && decide (e.2.1 = b.bid)) = some e)
  (hput : s.putPieces (.tile b.tileRef) o.sctx (s.imgLevel b.tileRef.die o.sctx)
    (va57 (s.rf (.cd b.tileRef.die) .cqPreemptArea 0 56 0) + 0x200000 * e.2.2)
    (imagePieces (s.tile b.tileRef) k ((s.tile b.tileRef).mx.filter fun d => decide (d.bid = b.bid))
      ((s.tile b.tileRef).vx.filter fun d => decide (d.bid = b.bid))) = .ok (st, u))
include hpre hop hblock hstop hdone hup hdue hput

/-- A failed write leaves the block retained. -/
theorem blockImageWritten_retained_gives (hst : st ≠ .ok) : Gives (.blockImageWritten b) s
    (((u.setBlock b.tileRef { k with st := .retained }).setPre b.tileRef.die
      { o with todo := o.todo.filter fun z => decide (z ≠ e), retained := o.retained + 1, st := Status.first o.st st }).preGo
        b.tileRef.die) := by
  refine gives_of_done_eq rfl ?_
  simp only [hpre, hblock, hdue, hput]
  exact if_neg (by simp [hop, hstop, hdone, hup])

/-- A block whose image is written leaves its tile, and what its image does not hold is kept beside it. -/
theorem blockImageWritten_saved_gives (hst : st = .ok) :
    let t := b.tileRef
    let x := s.tile t
    let mx := x.mx.filter fun d => decide (d.bid = b.bid)
    let vx := x.vx.filter fun d => decide (d.bid = b.bid)
    let va := va57 (s.rf (.cd t.die) .cqPreemptArea 0 56 0) + 0x200000 * e.2.2
    let pa := match u.xlate (.tile t) o.sctx (s.imgLevel t.die o.sctx) 1 va with | .ok (.ok pa _, _) => pa | _ => 0
    let y := u.tile t
    let u1 := u.setTile t { y.dropBlock b.bid with
      mx := y.mx.filter fun d => decide (d.bid ≠ b.bid), vx := y.vx.filter fun d => decide (d.bid ≠ b.bid) }
    let side : PreSide := ⟨pa, o.ctx, b.bid, t, k.pl, k.lanegen, k.vxUsed, k.issued, k.groups.map fun g => g.issued, mx, vx⟩
    let u2 : State := { u1 with
      preImgs := u1.preImgs ++ [⟨t.die, o.ctx, t.tile, va⟩]
      preSides := (u1.preSides.filter fun p => decide (p.pa ≠ pa)) ++ [side] }
    Gives (.blockImageWritten b) s
      ((u2.setPre t.die { o with todo := o.todo.filter fun z => decide (z ≠ e), saved := o.saved + 1 }).preGo t.die) := by
  intro t x mx vx va pa y u1 side u2
  have hother : (fun d : Desc => !decide (d.bid = b.bid)) = fun d => decide (d.bid ≠ b.bid) :=
    funext fun d => (decide_not (p := d.bid = b.bid)).symm
  refine gives_of_done_eq rfl ?_
  simp only [hpre, hblock, hdue, hput, hst, hother]
  exact if_neg (by simp [hop, hstop, hdone, hup])

end

/-- Settles O45: each operation is its row's function behind the write of the register, and a stopped block is saved or retained. -/
theorem preemptionOperations : Obligations.PreemptionOperations := by
  refine ⟨?preempt, ?resume, ?restore, ?bsave, ?brestore, ?release, ?kill, ?image⟩
  case preempt => exact preRow_of_exec (fun _ _ => rfl) fun _ _ _ _ _ => rfl
  case resume => exact preRow_of_exec (fun _ _ => rfl) fun _ _ _ _ _ => rfl
  case release => exact preRow_of_exec (fun _ _ => rfl) fun _ _ _ _ _ => rfl
  case restore =>
    refine preRow_of_exec (fun _ _ => rfl) fun w n t o hdie => ?_
    rw [hdie]
    dsimp only
    split_ifs <;> rfl
  case bsave =>
    refine preRow_of_exec (fun _ _ => rfl) fun w n t o hdie => ?_
    rw [hdie]
    dsimp only
    generalize State.burrSaves _ _ _ _ _ _ = r
    cases r <;> rfl
  case kill =>
    refine preRow_of_exec (fun _ _ => rfl) fun w n t o _ => ?_
    dsimp only
    generalize State.smpKills _ _ _ = r
    cases r <;> rfl
  case brestore =>
    refine preRow_of_exec (fun _ _ => rfl) fun w n t o hdie => ?_
    rw [hdie]
    dsimp only
    generalize va57 (t.rf (.cd n) .cqPreemptBarea 0 56 0) = base
    generalize (if (t.burrImgsFor n o.ctx base).isEmpty = true then t.burrScan n o base (List.range 64)
      else .ok (t.burrImgsFor n o.ctx base, t)) = r
    cases r with
    | error e => rfl
    | ok l =>
      dsimp only [Except.bind]
      generalize State.burrLoads _ _ _ _ _ _ = r
      cases r <;> rfl
  case image =>
    intro b s o k e st u t x mx vx va hpre hop hblock hstop hdone hup hdue hput
    exact ⟨blockImageWritten_retained_gives hpre hop hblock hstop hdone hup hdue hput,
      blockImageWritten_saved_gives hpre hop hblock hstop hdone hup hdue hput⟩

end Sys2Proof.Machine
end

section
/-!
Token samplers (Chapter 08): the choice of greedy sampling, the registers that a start leaves, and what each command of a
sampler answers under its guard.
-/

namespace Sys2Proof.Machine
open Sys2Proof

/-! ### Greedy sampling (R244, log 20) -/

/-- `e` is the greatest entry of `x`, the one of the lowest index among its equals. -/
def GreatestEntry (e : Nat × Nat) (x : List (Nat × Nat)) : Prop :=
  e ∈ x ∧ ∀ f ∈ x, ordKey f.2 < ordKey e.2 ∨ (ordKey f.2 = ordKey e.2 ∧ e.1 ≤ f.1)

section
variable {x : List (Nat × Nat)} {e f : Nat × Nat}

theorem greatestEntry_singleton (e : Nat × Nat) : GreatestEntry e [e] :=
  ⟨List.mem_singleton_self e, fun _ hf => .inr (List.eq_of_mem_singleton hf ▸ ⟨rfl, Nat.le_refl _⟩)⟩

/-- A larger entry displaces the greatest one. -/
theorem greatestEntry_append_of_lt (h : GreatestEntry e x) (hlt : ordKey e.2 < ordKey f.2) : GreatestEntry f (x ++ [f]) := by
  obtain ⟨-, hmax⟩ := h
  refine ⟨by simp, fun g hg => ?_⟩
  obtain hx | hf := List.mem_append.1 hg
  · have hge := hmax g hx
    exact .inl (by omega)
  · exact .inr (List.eq_of_mem_singleton hf ▸ ⟨rfl, Nat.le_refl _⟩)

/-- An entry that is no larger and comes later leaves the greatest one. -/
theorem greatestEntry_append_of_le (h : GreatestEntry e x) (hle : ordKey f.2 ≤ ordKey e.2) (hidx : e.1 < f.1) :
    GreatestEntry e (x ++ [f]) := by
  obtain ⟨hmem, hmax⟩ := h
  refine ⟨List.mem_append_left _ hmem, fun g hg => ?_⟩
  obtain hx | hf := List.mem_append.1 hg
  · exact hmax g hx
  · obtain rfl := List.eq_of_mem_singleton hf
    exact hle.lt_or_eq.imp_right fun heq => ⟨heq, hidx.le⟩

end

theorem topK_append_singleton (k : Nat) (x : List (Nat × Nat)) (f : Nat × Nat) :
    topK k (x ++ [f]) = (candPut f (topK k x)).take k := by simp [topK]

/-- The first candidate of a scan in the order of the indices is the greatest entry. -/
theorem topK_one_greatest {x : List (Nat × Nat)} (hne : x ≠ []) (hsorted : x.Pairwise fun e f => e.1 < f.1) :
    ∃ e, topK 1 x = [e] ∧ GreatestEntry e x := by
  induction x using List.reverseRecOn with
  | nil => exact absurd rfl hne
  | append_singleton x f ih =>
    obtain ⟨hx, -, hlast⟩ := List.pairwise_append.1 hsorted
    rw [topK_append_singleton]
    rcases eq_or_ne x [] with rfl | hxne
    · exact ⟨f, rfl, greatestEntry_singleton f⟩
    · obtain ⟨e, htop, he⟩ := ih hxne hx
      rw [htop, candPut]
      split
      next hlt => exact ⟨f, rfl, greatestEntry_append_of_lt he hlt⟩
      next hnlt => exact ⟨e, rfl, greatestEntry_append_of_le he (not_lt.1 hnlt) (hlast e he.1 f (by simp))⟩

theorem smpResult_greedy {d : Nat} {x : List (Nat × Nat)} {e : Nat × Nat} (hd : sdInvt d = 0) (htop : topK 1 x = [e]) :
    smpResult d x = ⟨e.1, 0x3F800000, 0x3F800000, e.2, 0x3F800000, 1, 1, 0, .ok⟩ := by
  simp only [smpResult, htop, hd, if_true]

theorem smpResult_nil (d : Nat) :
    smpResult d [] = ⟨0xFFFFFFFF, 0x7FC00000, 0x7FC00000, 0x7FC00000, 0x7FC00000, 0, 0, 0, .ok⟩ := rfl

/-! ### Delivery (R238, R241, R253) -/

section
variable {die : Fin 4} {id desc : Nat} {s t : State} {c : Cmd} {u : SmpRef} {st : Status} (h : SmpDeliverable s die id c)
  (hu : s.smpPick c = some u) (hdesc : s.smpDesc die c = .ok (st, desc, t))
include h hu hdesc

/-- A command that may be delivered goes by the unit it is for, and then by what its descriptor reads as. -/
theorem samplerDeliver_done : exec (.samplerDeliver die id) s = done s
    (let gone := decide (s.smpSt u = 4) || !s.smpEn u
     let t1 := if c.started then t else t.cmdStart c
     if !gone && !s.smpFree u then s
     else if gone then t1.smpTell u (smpJob c id desc) .unav (smpFail .unav)
     else if st ≠ .ok then t1.smpTell u { smpJob c id desc with desc := 0 } st (smpFail st)
     else if !t1.smpCheck die desc then t1.smpTell u (smpJob c id desc) .perm (smpFail .perm)
     else
       let t2 := (t1.newWork (.cd die) 5).smpBegin u
       (t2.setSmp u { t2.smp u with pend := some (smpJob c id desc) }).setSmpPend u 1) := by
  obtain ⟨hc, hop, hfin, hhas, hup, hctx, hq⟩ := h
  refine gives_of_done_eq rfl ?_
  simp only [hc, hu, hdesc]
  exact if_neg (by simpa [hop, hfin, hhas, hup, hq] using hctx)

theorem samplerDeliver_gone_gives (hgone : s.smpSt u = 4 ∨ s.smpEn u = false) : Gives (.samplerDeliver die id) s
    ((if c.started then t else t.cmdStart c).smpTell u (smpJob c id desc) .unav (smpFail .unav)) := by
  have hg : (decide (s.smpSt u = 4) || !s.smpEn u) = true := by simpa using hgone
  exact gives_of_done_eq (samplerDeliver_done h hu hdesc) (by rw [hg]; rfl)

variable (hserves : ¬ (s.smpSt u = 4 ∨ s.smpEn u = false))
include hserves

theorem samplerDeliver_waits_gives (hfull : s.smpFree u = false) : Gives (.samplerDeliver die id) s s :=
  gives_of_done_eq (samplerDeliver_done h hu hdesc) (if_pos (by simpa [hfull] using hserves))

variable (hfree : s.smpFree u = true)
include hfree

/-- A unit that serves and has a place takes the descriptor, or ends its command with what is wrong with it. -/
theorem samplerDeliver_done_of_free : exec (.samplerDeliver die id) s = done s
    (let t1 := if c.started then t else t.cmdStart c
     if st ≠ .ok then t1.smpTell u { smpJob c id desc with desc := 0 } st (smpFail st)
     else if !t1.smpCheck die desc then t1.smpTell u (smpJob c id desc) .perm (smpFail .perm)
     else
       let t2 := (t1.newWork (.cd die) 5).smpBegin u
       (t2.setSmp u { t2.smp u with pend := some (smpJob c id desc) }).setSmpPend u 1) := by
  have hg : (decide (s.smpSt u = 4) || !s.smpEn u) = false := by simpa using hserves
  exact gives_of_done_eq (samplerDeliver_done h hu hdesc) (by rw [hg, hfree]; rfl)

theorem samplerDeliver_unread_gives (hst : st ≠ .ok) : Gives (.samplerDeliver die id) s
    ((if c.started then t else t.cmdStart c).smpTell u { smpJob c id desc with desc := 0 } st (smpFail st)) :=
  gives_of_done_eq (samplerDeliver_done_of_free h hu hdesc hserves hfree) (if_pos hst)

theorem samplerDeliver_refused_gives (hst : st = .ok) (hcheck : (if c.started then t else t.cmdStart c).smpCheck die desc = false) :
    Gives (.samplerDeliver die id) s
      ((if c.started then t else t.cmdStart c).smpTell u (smpJob c id desc) .perm (smpFail .perm)) :=
  gives_of_done_eq (samplerDeliver_done_of_free h hu hdesc hserves hfree)
    ((if_neg (not_not.2 hst)).trans (if_pos (by rw [hcheck]; rfl)))

theorem samplerDeliver_taken_gives (hst : st = .ok) (hcheck : (if c.started then t else t.cmdStart c).smpCheck die desc = true) :
    Gives (.samplerDeliver die id) s
      (let t2 := ((if c.started then t else t.cmdStart c).newWork (.cd die) 5).smpBegin u
       (t2.setSmp u { t2.smp u with pend := some (smpJob c id desc) }).setSmpPend u 1) :=
  gives_of_done_eq (samplerDeliver_done_of_free h hu hdesc hserves hfree)
    ((if_neg (not_not.2 hst)).trans (if_neg (by rw [hcheck]; decide)))

end

/-! ### Start (R238, Table 8-8) -/

section
variable (s : State) (u : SmpRef)

@[simp] theorem smp_setSmp_same (x : SmpU) : (s.setSmp u x).smp u = x := aGet_aSet_same _ _ _ _
@[simp] theorem smp_commit (s' : State) : (s.commit s').smp u = s'.smp u := rfl
@[simp] theorem rf_commit (s' : State) (d : Die) (n : RegName) (i hi lo : Nat) : (s.commit s').rf d n i hi lo = s'.rf d n i hi lo := rfl
@[simp] theorem smpSt_commit (s' : State) : (s.commit s').smpSt u = s'.smpSt u := rfl

/-- A unit at the start of a descriptor: the job moves to the running place, and SMP_STATE shows it with no logit scanned. -/
def State.smpStarted (s : State) (u : SmpRef) (j : SmpJob) : State :=
  ((((s.setSmp u { s.smp u with run := some j, pend := none }).setSmpPend u 0).setSmpSt u 1).setRf (.cd u.die) .smpState u.unit 48 37
    j.ctx).setRf (.cd u.die) .smpState u.unit 36 16 0

variable {s u} {j : SmpJob}

theorem smpBegin_of_idle (hrun : (s.smp u).run = none) (hpend : (s.smp u).pend = some j) (hup : s.running (.cd u.die) true = true)
    (hst : s.smpSt u = 0) (hunit : u.unit < 4) : s.smpBegin u = s.smpStarted u j := by
  simp only [State.smpBegin, hrun, hpend]
  exact if_pos (by simp [hup, hst, hunit])

theorem smp_smpStarted : (s.smpStarted u j).smp u = ⟨some j, none⟩ := smp_setSmp_same s u _

theorem smpSt_smpStarted : (s.smpStarted u j).smpSt u = 1 :=
  ((State.rf_setRf_disjoint _ _ _ _ 0 (by decide)).trans (State.rf_setRf_disjoint _ _ _ _ j.ctx (by decide))).trans
    (State.rf_setRf_same _ _ _ _ 1 (by decide))

theorem ctx_smpStarted : (s.smpStarted u j).rf (.cd u.die) .smpState u.unit 48 37 = j.ctx % 4096 :=
  (State.rf_setRf_disjoint _ _ _ _ 0 (by decide)).trans (State.rf_setRf_same _ _ _ _ j.ctx (by decide))

theorem pos_smpStarted : (s.smpStarted u j).rf (.cd u.die) .smpState u.unit 36 16 = 0 :=
  State.rf_setRf_same _ _ _ _ 0 (by decide)

theorem samplerStart_acts (hrun : (s.smp u).run = none) (hpend : (s.smp u).pend = some j) (hup : s.running (.cd u.die) true = true)
    (hst : s.smpSt u = 0) (hunit : u.unit < 4) : Acts (.samplerStart u) s fun t =>
      (t.smp u).run = some j ∧ (t.smp u).pend = none ∧ t.smpSt u = 1
        ∧ t.rf (.cd u.die) .smpState u.unit 48 37 = j.ctx % 4096 ∧ t.rf (.cd u.die) .smpState u.unit 36 16 = 0 := by
  have hgives : Gives (.samplerStart u) s (s.smpStarted u j) := gives_of_done_eq rfl (smpBegin_of_idle hrun hpend hup hst hunit)
  refine ⟨_, hgives, ?_⟩
  simp [smp_smpStarted, smpSt_smpStarted, ctx_smpStarted, pos_smpStarted]

end

/-! ### The running descriptor -/

section
variable {s : State} {u : SmpRef} {opc : Nat} {sts : List Nat} {j : SmpJob}

theorem smpFront_eq_some : s.smpFront u opc sts = some j ↔
    (s.smp u).run = some j ∧ s.running (.cd u.die) true = true ∧ s.smpSt u ∈ sts ∧ sdOpc j.desc = opc ∧ u.unit < 4 ∧
      s.prodHeld (.cd u.die) (64 + u.unit) = false := by
  unfold State.smpFront
  cases hrun : (s.smp u).run with
  | none => simp
  | some k =>
    simp only [Option.ite_none_right_eq_some, Option.some.injEq, Bool.and_eq_true, List.contains_iff_mem, decide_eq_true_eq,
      Bool.not_eq_true']
    constructor
    · rintro ⟨⟨⟨⟨⟨hup, hst⟩, hopc⟩, hunit⟩, hheld⟩, rfl⟩
      exact ⟨rfl, hup, hst, hopc, hunit, hheld⟩
    · rintro ⟨rfl, hup, hst, hopc, hunit, hheld⟩
      exact ⟨⟨⟨⟨⟨hup, hst⟩, hopc⟩, hunit⟩, hheld⟩, rfl⟩

theorem smpSt_of_smpFront {st : Nat} (h : s.smpFront u opc [st] = some j) : s.smpSt u = st :=
  List.mem_singleton.1 (smpFront_eq_some.1 h).2.2.1

theorem smpFront_mono {sts' : List Nat} (h : s.smpFront u opc sts = some j) (hsub : sts ⊆ sts') : s.smpFront u opc sts' = some j := by
  obtain ⟨hrun, hup, hst, hrest⟩ := smpFront_eq_some.1 h
  exact smpFront_eq_some.2 ⟨hrun, hup, hsub hst, hrest⟩

end

/-! ### SMP_SAMPLE (R242, R243, R247) -/

section
variable {u : SmpRef} {n : Nat} {s t : State} {j : SmpJob}

theorem smpSample_scan_gives {l : List Byte} (h : s.smpFront u 1 [1] = some j)
    (hread : s.vaSpan (.sampler u.key) j.ctx j.pl (sdLaddr j.desc + sdElem j.desc * j.pos)
      (sdElem j.desc * min n (sdN j.desc - j.pos)) = .ok (.ok, l, t)) :
    let j1 := smpScanned j (min n (sdN j.desc - j.pos)) l
    let t1 := (t.setSmp u { t.smp u with run := some j1 }).setRf (.cd u.die) .smpState u.unit 36 16 j1.pos
    Gives (.smpSample u n) s (if j1.pos = sdN j.desc then t1.setSmpSt u 2 else t1) := by
  have hscanning : s.smpSt u ≠ 2 := smpSt_of_smpFront h ▸ by decide
  refine gives_of_done_eq rfl ?_
  simp only [smpFront_mono h (sts' := [1, 2]) (by simp), if_neg hscanning, hread]
  rfl

theorem smpSample_record_gives (h : s.smpFront u 1 [2] = some j) (hend : s.smpEnd u j (smpResult j.desc j.x) = .ok t) :
    Gives (.smpSample u n) s t := by
  refine gives_of_done_eq rfl ?_
  simp only [smpFront_mono h (sts' := [1, 2]) (by simp), if_pos (smpSt_of_smpFront h), hend, orStay]

/-! ### SMP_HOST (R251, R253) -/

theorem smpHost_copy_gives {t1 : State} {l : List Byte} (h : s.smpFront u 2 [1] = some j) (hcopy : sdCopy j.desc = true)
    (hleft : j.pos < sdN j.desc)
    (hread : s.vaSpan (.sampler u.key) j.ctx j.pl (sdLaddr j.desc + sdElem j.desc * j.pos)
      (sdElem j.desc * min n (sdN j.desc - j.pos)) = .ok (.ok, l, t))
    (hwrite : t.vaPut (.sampler u.key) j.ctx j.pl (sdHbuf j.desc + 64 + sdElem j.desc * j.pos) l = .ok (.ok, t1)) :
    Gives (.smpHost u n) s ((t1.setSmp u { t1.smp u with run := some { j with pos := j.pos + min n (sdN j.desc - j.pos) } }).setRf
      (.cd u.die) .smpState u.unit 36 16 (j.pos + min n (sdN j.desc - j.pos))) := by
  refine gives_of_done_eq rfl ?_
  simp only [h, hcopy, if_true, if_pos hleft, hread, hwrite]

/-- The state after HOST_SAMPLE is posted, where a descriptor asks for it (R251). -/
def State.hostNotified (t : State) (u : SmpRef) (j : SmpJob) : State :=
  if sdNotify j.desc = true then t.post (.cd u.die) (64 + u.unit) (t.cqEq u.die j.queue)
      (eventBytes 4 .ok j.ctx (t.reqId (.sampler u.key)) j.queue (BitVec.ofNat 64 (sdTag j.desc)) t.now
        (natBytes 4 (sdHseq j.desc) ++ natBytes 4 (sdN j.desc) ++ natBytes 8 (sdHbuf j.desc))) else t

section
variable (h : s.smpFront u 2 [1] = some j) (hcopied : sdCopy j.desc = false ∨ sdN j.desc ≤ j.pos)
  (hpresent : s.hostPresent u j = .ok (.ok, t))
include h hcopied hpresent

/-- A HOST with nothing left to copy presents its request, and waits or goes back to the command processor. -/
theorem smpHost_present_done : exec (.smpHost u n) s = done s
    (let t1 := t.hostNotified u j
     if t1.preempted.contains (u.die.val, j.ctx) then ((t1.setSmp u { t1.smp u with run := none }).setSmpSt u 0).smpReturn u j true
     else t1.setSmpSt u 3) := by
  have hnothing : ¬ j.pos < if sdCopy j.desc = true then sdN j.desc else 0 := by
    obtain hno | hall := hcopied
    · simp [hno]
    · split <;> omega
  refine gives_of_done_eq rfl ?_
  simp only [h, if_neg hnothing, hpresent]
  rfl

theorem smpHost_waits_gives (hctx : (t.hostNotified u j).preempted.contains (u.die.val, j.ctx) = false) :
    Gives (.smpHost u n) s ((t.hostNotified u j).setSmpSt u 3) :=
  gives_of_done_eq (smpHost_present_done h hcopied hpresent) (if_neg (Bool.eq_false_iff.1 hctx))

theorem smpHost_returned_gives (hctx : (t.hostNotified u j).preempted.contains (u.die.val, j.ctx) = true) :
    Gives (.smpHost u n) s ((((t.hostNotified u j).setSmp u { (t.hostNotified u j).smp u with run := none }).setSmpSt u 0).smpReturn
      u j true) :=
  gives_of_done_eq (smpHost_present_done h hcopied hpresent) (if_pos hctx)

end

/-! ### HOST_POLL and HOST_TIMEOUT (R251, R252) -/

section
variable {v : State} (h : s.smpFront u 2 [3] = some j)
include h

section
variable (hnone : s.hostAnswer u j = .ok (none, t))
include hnone

theorem hostPoll_unanswered_gives : Gives (.hostPoll u) s t :=
  gives_of_done_eq rfl (by simp only [h, hnone])

theorem hostTimeout_unanswered_gives (hlimit : sdHtimeout j.desc ≠ 0) (hend : t.smpEnd u j (smpFail .tout) = .ok v) :
    Gives (.hostTimeout u) s v :=
  gives_of_done_eq rfl (by simp only [h, if_neg hlimit, hnone, hend, orStay])

end

variable {r : SmpRec} (hsome : s.hostAnswer u j = .ok (some r, t)) (hend : t.smpEnd u j r = .ok v)
include hsome hend

theorem hostPoll_answered_gives : Gives (.hostPoll u) s v :=
  gives_of_done_eq rfl (by simp only [h, hsome, hend, orStay])

theorem hostTimeout_answered_gives (hlimit : sdHtimeout j.desc ≠ 0) : Gives (.hostTimeout u) s v :=
  gives_of_done_eq rfl (by simp only [h, if_neg hlimit, hsome, hend, orStay])

end

end

/-! ### Writes of SMP_STATE (R254) -/

section
variable {w : Wr} {n : Fin 4} {s t : State} (hdie : w.die = .cd n)
  (hstore : (s.touch w.die .smpState).ctlStore w.die .smpState w.idx w.pl w.ctx w.val = (.ok, t))
include hdie hstore

theorem samplerDisable_gives (hen : w.val.getLsbD 0 = false) {v : State} (hstop : t.smpStop ⟨n, w.idx % 4⟩ = .ok v) :
    Gives (.samplerDisable w) s
      ((if (v.smp ⟨n, w.idx % 4⟩).run.isNone then v.setSmpSt ⟨n, w.idx % 4⟩ 4 else v).answer .ok 0) := by
  refine gives_of_done_eq rfl ((if_neg (Bool.eq_false_iff.1 hen)).trans ?_)
  rw [hstore, hdie]
  dsimp only
  rw [hstop]

theorem samplerEnable_gives (hen : w.val.getLsbD 0 = true) : Gives (.samplerEnable w) s
    ((if t.smpSt ⟨n, w.idx % 4⟩ = 4 then t.setSmpSt ⟨n, w.idx % 4⟩ 0 else t).answer .ok 0) := by
  refine gives_of_done_eq rfl ((if_neg (by rw [hen]; decide)).trans ?_)
  rw [hstore, hdie]

end

/-- Settles O26: what each row of a sampler answers under its guard, and the greatest entry as the greedy sample. -/
theorem samplerOperations : Obligations.SamplerOperations := by
  refine ⟨?deliver, ?start, ?scan, ?record, ?copy, ?present, ?unanswered, ?answered, ?writes, ?greedy⟩
  case deliver =>
    intro die id desc s t c u st h hu hdesc t1 gone
    exact ⟨samplerDeliver_gone_gives h hu hdesc,
      fun hserves hfree => ⟨samplerDeliver_taken_gives h hu hdesc hserves hfree, samplerDeliver_refused_gives h hu hdesc hserves hfree,
        samplerDeliver_unread_gives h hu hdesc hserves hfree⟩,
      samplerDeliver_waits_gives h hu hdesc⟩
  case start => exact fun u s j => samplerStart_acts
  case scan => exact fun u n s t j l => smpSample_scan_gives
  case record => exact fun u n s t j => smpSample_record_gives
  case copy => exact fun u n s t t1 j l => smpHost_copy_gives
  case present =>
    exact fun u n s t j h hcopied hpresent => ⟨smpHost_waits_gives h hcopied hpresent, smpHost_returned_gives h hcopied hpresent⟩
  case unanswered =>
    exact fun u s t j h hnone =>
      ⟨hostPoll_unanswered_gives h hnone, fun hlimit v => hostTimeout_unanswered_gives h hnone hlimit⟩
  case answered =>
    exact fun u s t v j r h hsome hend => ⟨hostPoll_answered_gives h hsome hend, hostTimeout_answered_gives h hsome hend⟩
  case writes =>
    exact fun w n s t hdie hstore =>
      ⟨fun hen v => samplerDisable_gives hdie hstore hen, samplerEnable_gives hdie hstore⟩
  case greedy =>
    intro d x hd hne hsorted
    obtain ⟨e, htop, hmem, hmax⟩ := topK_one_greatest hne hsorted
    exact ⟨e, hmem, smpResult_greedy hd htop, hmax⟩

/-- Settles O27: without an entry there is no first candidate, and the end of the scan takes the record of R245. -/
theorem sampleWithoutEntries : Obligations.SampleWithoutEntries := by
  intro u n s t j h hx hend
  refine smpSample_record_gives h ?_
  rw [hx, smpResult_nil]
  exact hend

end Sys2Proof.Machine
end

section
/-!
Writes of lines (Chapter 09): which bytes a write under a mask puts, half by half, and what it leaves of the other blocks.
-/

namespace Sys2Proof.Machine
open Sys2Proof

/-! ### Bytes put one after the other -/

/-- Byte `base + i` written with `f i`, for each `i` below `n` that `p` selects. -/
def State.wrWhere (s : State) (base n : Nat) (p : Nat → Bool) (f : Nat → Byte) : State :=
  (List.range n).foldl (fun t i => if p i then t.wrKey (base + i) (f i) else t) s

theorem rdKey_wrKey (s : State) (a k : Nat) (b : Byte) : (s.wrKey a b).rdKey k = if a = k then b else s.rdKey k := by
  by_cases h : a = k <;> simp [State.rdKey, State.wrKey, Memory.look, h]

theorem wrWhere_succ (s : State) (base n : Nat) (p : Nat → Bool) (f : Nat → Byte) :
    s.wrWhere base (n + 1) p f =
      if p n then (s.wrWhere base n p f).wrKey (base + n) (f n) else s.wrWhere base n p f := by
  simp only [State.wrWhere, List.range_succ, List.foldl_append, List.foldl_cons, List.foldl_nil]

theorem wrWhere_none (s : State) (base n : Nat) (f : Nat → Byte) : s.wrWhere base n (fun _ => false) f = s := by
  simp [State.wrWhere]

theorem rdKey_wrWhere_outside (s : State) {base n k : Nat} (p : Nat → Bool) (f : Nat → Byte) (hk : k < base ∨ base + n ≤ k) :
    (s.wrWhere base n p f).rdKey k = s.rdKey k := by
  induction n with
  | zero => rfl
  | succ n ih =>
    rw [wrWhere_succ]
    split
    · rw [rdKey_wrKey, if_neg (by omega), ih (by omega)]
    · exact ih (by omega)

theorem rdKey_wrWhere_inside (s : State) (base : Nat) {n j : Nat} (p : Nat → Bool) (f : Nat → Byte) (hj : j < n) :
    (s.wrWhere base n p f).rdKey (base + j) = if p j then f j else s.rdKey (base + j) := by
  induction n with
  | zero => omega
  | succ n ih =>
    rw [wrWhere_succ]
    obtain hlt | rfl := Nat.lt_succ_iff_lt_or_eq.1 hj
    · split
      · rw [rdKey_wrKey, if_neg (by omega), ih hlt]
      · exact ih hlt
    · rw [apply_ite (State.rdKey · (base + j)), rdKey_wrKey, if_pos rfl, rdKey_wrWhere_outside s p f (.inr (Nat.le_refl _))]

/-! ### Blocks that a change does not touch -/

/-- No decoded read and no poison changes but those of block `blk`. -/
def OtherBlocksStay (blk : Nat) (s t : State) : Prop :=
  ∀ b, b ≠ blk → aFind t.answers b = aFind s.answers b ∧ t.poisoned b = s.poisoned b

theorem otherBlocksStay_wrWhere (blk : Nat) (s : State) (base n : Nat) (p : Nat → Bool) (f : Nat → Byte) :
    OtherBlocksStay blk s (s.wrWhere base n p f) := by
  intro b hb
  induction n with
  | zero => exact ⟨rfl, rfl⟩
  | succ n ih =>
    rw [wrWhere_succ]
    split <;> exact ih

theorem poisoned_setPoison_ne (s : State) {blk b : Nat} (v : Bool) (hb : b ≠ blk) : (s.setPoison blk v).poisoned b = s.poisoned b := by
  have hlisted : (s.setPoison blk v).poison.contains b = s.poison.contains b := by
    unfold State.setPoison
    dsimp only
    split_ifs <;> simp [hb]
  exact congrArg (· != s.poisonBase.contains (b / 2 ^ 24)) hlisted

theorem rdKey_overwritten (s : State) (blk : Nat) : (s.overwritten blk).rdKey = s.rdKey := rfl

theorem otherBlocksStay_erase (blk : Nat) (s : State) : OtherBlocksStay blk s { s with answers := aErase s.answers blk } :=
  fun _ hb => ⟨(aFind_aErase _ _ _).trans (if_neg hb.symm), rfl⟩

theorem OtherBlocksStay.overwritten {blk : Nat} {s t : State} (h : OtherBlocksStay blk s t) :
    OtherBlocksStay blk s (t.overwritten blk) := fun b hb =>
  ⟨((aFind_aErase _ _ _).trans (if_neg hb.symm)).trans (h b hb).1, (poisoned_setPoison_ne t false hb).trans (h b hb).2⟩

/-! ### A half of a line (R267-R269) -/

/-- The bits of a mask for the bytes of a half. -/
def halfMask (mask half : Nat) : Nat := mask / 2 ^ (64 * half) % 2 ^ 64

theorem nbit_halfMask (mask : Nat) {half j : Nat} (hj : j < 64) : nbit (halfMask mask half) j = mask.testBit (64 * half + j) := by
  rw [nbit_eq, halfMask, Nat.testBit_mod_two_pow, Nat.testBit_div_two_pow, Nat.add_comm]
  simp [hj]

/-- What byte `j` of a half reads as after a write of the line under a mask. -/
def State.halfByte (s : State) (l : Loc) (mask : Nat) (d : Line) (half j : Nat) : Byte :=
  if halfMask mask half = 2 ^ 64 - 1 then lineByte d (64 * half + j)
  else if halfMask mask half = 0 then s.rdKey (l.key + 64 * half + j)
  else match aFind s.answers (l.blk + half) with
    | some (some x) => if mask.testBit (64 * half + j) = true then lineByte d (64 * half + j) else x.extractLsb' (8 * j) 8
    | some none => s.rdKey (l.key + 64 * half + j)
    | none =>
      if mask.testBit (64 * half + j) = true ∧ s.poisoned (l.blk + half) = false then lineByte d (64 * half + j)
      else s.rdKey (l.key + 64 * half + j)

section
variable (s : State) (l : Loc) (mask : Nat) (d : Line) (half : Nat)

theorem writeHalf_of_uncovered (hm : halfMask mask half = 0) : s.writeHalf l mask d half = (s, false) := if_pos hm

theorem writeHalf_of_covered (hm : halfMask mask half = 2 ^ 64 - 1) : s.writeHalf l mask d half =
    ((s.wrWhere (l.key + 64 * half) 64 (fun _ => true) fun j => lineByte d (64 * half + j)).overwritten (l.blk + half), false) :=
  (if_neg fun h => absurd (hm.symm.trans h) (by decide)).trans ((if_pos hm).trans rfl)

variable {mask half} (h0 : halfMask mask half ≠ 0) (hall : halfMask mask half ≠ 2 ^ 64 - 1)
include h0 hall

theorem writeHalf_of_read {x : BitVec 512} (hread : aFind s.answers (l.blk + half) = some (some x)) :
    s.writeHalf l mask d half =
      ((s.wrWhere (l.key + 64 * half) 64 (fun _ => true) fun j =>
        if nbit (halfMask mask half) j then lineByte d (64 * half + j) else x.extractLsb' (8 * j) 8).overwritten (l.blk + half),
        false) := by
  refine (if_neg h0).trans ((if_neg hall).trans ?_)
  rw [hread]
  rfl

theorem writeHalf_of_lost (hread : aFind s.answers (l.blk + half) = some none) :
    s.writeHalf l mask d half = ({ s with answers := aErase s.answers (l.blk + half) }, true) := by
  refine (if_neg h0).trans ((if_neg hall).trans ?_)
  rw [hread]

theorem writeHalf_of_poisoned (hread : aFind s.answers (l.blk + half) = none) (hpois : s.poisoned (l.blk + half) = true) :
    s.writeHalf l mask d half = (s, true) := by
  refine (if_neg h0).trans ((if_neg hall).trans ?_)
  rw [hread]
  exact if_pos hpois

theorem writeHalf_of_stored (hread : aFind s.answers (l.blk + half) = none) (hpois : s.poisoned (l.blk + half) = false) :
    s.writeHalf l mask d half =
      (s.wrWhere (l.key + 64 * half) 64 (nbit (halfMask mask half)) fun j => lineByte d (64 * half + j), false) := by
  refine (if_neg h0).trans ((if_neg hall).trans ?_)
  rw [hread]
  exact if_neg (Bool.eq_false_iff.1 hpois)

end

/-- What a write of a half does: it puts bytes of the half, each as `halfByte` tells, and touches no other block. -/
def HalfWritten (s : State) (l : Loc) (mask : Nat) (d : Line) (half : Nat) (t : State) : Prop := ∃ p f,
  t.rdKey = (s.wrWhere (l.key + 64 * half) 64 p f).rdKey ∧ OtherBlocksStay (l.blk + half) s t ∧
    ∀ j, j < 64 → (if p j then f j else s.rdKey (l.key + 64 * half + j)) = s.halfByte l mask d half j

section
variable {s t : State} {l : Loc} {mask : Nat} {d : Line} {half : Nat}

theorem halfWritten_of_bytes_stay (ht : t.rdKey = s.rdKey) (hstay : OtherBlocksStay (l.blk + half) s t)
    (hhalf : ∀ j, s.halfByte l mask d half j = s.rdKey (l.key + 64 * half + j)) : HalfWritten s l mask d half t :=
  ⟨fun _ => false, fun _ => 0, by rw [wrWhere_none, ht], hstay, fun j _ => (if_neg Bool.false_ne_true).trans (hhalf j).symm⟩

theorem halfWritten_of_some {p : Nat → Bool} {f : Nat → Byte}
    (hhalf : ∀ j, j < 64 → s.halfByte l mask d half j = if p j then f j else s.rdKey (l.key + 64 * half + j)) :
    HalfWritten s l mask d half (s.wrWhere (l.key + 64 * half) 64 p f) :=
  ⟨p, f, rfl, otherBlocksStay_wrWhere _ s _ 64 _ _, fun j hj => (hhalf j hj).symm⟩

theorem halfWritten_of_all {f : Nat → Byte} (hhalf : ∀ j, j < 64 → s.halfByte l mask d half j = f j) :
    HalfWritten s l mask d half ((s.wrWhere (l.key + 64 * half) 64 (fun _ => true) f).overwritten (l.blk + half)) :=
  ⟨fun _ => true, f, rdKey_overwritten _ _, (otherBlocksStay_wrWhere _ s _ 64 _ _).overwritten,
    fun j hj => (if_pos rfl).trans (hhalf j hj).symm⟩

end

theorem writeHalf_halfWritten (s : State) (l : Loc) (mask : Nat) (d : Line) (half : Nat) :
    HalfWritten s l mask d half (s.writeHalf l mask d half).1 := by
  have hstay : OtherBlocksStay (l.blk + half) s s := fun _ _ => ⟨rfl, rfl⟩
  by_cases hall : halfMask mask half = 2 ^ 64 - 1
  · rw [writeHalf_of_covered s l mask d half hall]
    exact halfWritten_of_all fun _ _ => if_pos hall
  by_cases h0 : halfMask mask half = 0
  · rw [writeHalf_of_uncovered s l mask d half h0]
    exact halfWritten_of_bytes_stay rfl hstay fun _ => (if_neg hall).trans (if_pos h0)
  match hread : aFind s.answers (l.blk + half) with
  | some (some x) =>
    rw [writeHalf_of_read s l d h0 hall hread]
    refine halfWritten_of_all fun j hj => ?_
    simp only [State.halfByte, if_neg hall, if_neg h0, hread, nbit_halfMask mask hj]
  | some none =>
    rw [writeHalf_of_lost s l d h0 hall hread]
    refine halfWritten_of_bytes_stay rfl (otherBlocksStay_erase _ s) fun j => ?_
    simp only [State.halfByte, if_neg hall, if_neg h0, hread]
  | none =>
    cases hpois : s.poisoned (l.blk + half) with
    | true =>
      rw [writeHalf_of_poisoned s l d h0 hall hread hpois]
      refine halfWritten_of_bytes_stay rfl hstay fun j => ?_
      simp only [State.halfByte, if_neg hall, if_neg h0, hread, hpois, Bool.true_eq_false, and_false, if_false]
    | false =>
      rw [writeHalf_of_stored s l d h0 hall hread hpois]
      dsimp only
      refine halfWritten_of_some fun j hj => ?_
      simp only [State.halfByte, if_neg hall, if_neg h0, hread, hpois, nbit_halfMask mask hj, and_true]

section
variable (s : State) (l : Loc) (mask : Nat) (d : Line) (half : Nat)

theorem rdKey_writeHalf_outside {k : Nat} (hk : k < l.key + 64 * half ∨ l.key + 64 * half + 64 ≤ k) :
    (s.writeHalf l mask d half).1.rdKey k = s.rdKey k := by
  obtain ⟨p, f, hbytes, -, -⟩ := writeHalf_halfWritten s l mask d half
  exact (congrFun hbytes k).trans (rdKey_wrWhere_outside s p f hk)

theorem rdKey_writeHalf_inside {j : Nat} (hj : j < 64) :
    (s.writeHalf l mask d half).1.rdKey (l.key + 64 * half + j) = s.halfByte l mask d half j := by
  obtain ⟨p, f, hbytes, -, hhalf⟩ := writeHalf_halfWritten s l mask d half
  exact ((congrFun hbytes _).trans (rdKey_wrWhere_inside s _ p f hj)).trans (hhalf j hj)

theorem writeHalf_otherBlocksStay : OtherBlocksStay (l.blk + half) s (s.writeHalf l mask d half).1 := by
  obtain ⟨p, f, -, hstay, -⟩ := writeHalf_halfWritten s l mask d half
  exact hstay

/-- The first half's write leaves what the second half's finds. -/
theorem halfByte_writeHalf_zero (j : Nat) : (s.writeHalf l mask d 0).1.halfByte l mask d 1 j = s.halfByte l mask d 1 j := by
  obtain ⟨hread, hpois⟩ := writeHalf_otherBlocksStay s l mask d 0 (l.blk + 1) (by omega)
  have hbyte := rdKey_writeHalf_outside s l mask d 0 (k := l.key + 64 * 1 + j) (by omega)
  simp only [State.halfByte, hread, hpois, hbyte]

end

/-! ### A line -/

theorem rdKey_errRec (s : State) (p blk kind : Nat) : (s.errRec p blk kind).rdKey = s.rdKey := by
  unfold State.errRec
  dsimp only
  split <;> rfl

section
variable (s : State) (l : Loc) (mask : Nat) (d : Line)

/-- The records of errors leave the bytes of the two halves' writes. -/
theorem rdKey_writeLine : (s.writeLine l mask d).1.rdKey = ((s.writeHalf l mask d 0).1.writeHalf l mask d 1).1.rdKey := by
  unfold State.writeLine
  dsimp only
  split_ifs <;> simp only [rdKey_errRec]

theorem rdKey_writeLine_outside {k : Nat} (hk : k < l.key ∨ l.key + 128 ≤ k) : (s.writeLine l mask d).1.rdKey k = s.rdKey k := by
  rw [rdKey_writeLine, rdKey_writeHalf_outside _ _ _ _ _ (by omega), rdKey_writeHalf_outside _ _ _ _ _ (by omega)]

theorem rdKey_writeLine_inside {half j : Nat} (hhalf : half < 2) (hj : j < 64) :
    (s.writeLine l mask d).1.rdKey (l.key + 64 * half + j) = s.halfByte l mask d half j := by
  rw [rdKey_writeLine]
  obtain rfl | rfl : half = 0 ∨ half = 1 := by omega
  · rw [rdKey_writeHalf_outside _ _ _ _ _ (by omega), rdKey_writeHalf_inside s l mask d 0 hj]
  · rw [rdKey_writeHalf_inside _ l mask d 1 hj, halfByte_writeHalf_zero]

end

/-- Settles O34: each half takes what the mask and its decoded read give, and the second half finds its block as the first left it. -/
theorem lineWritesChangeOnlyTheirBytes : Obligations.LineWritesChangeOnlyTheirBytes := by
  intro s l mask d _ t
  refine ⟨fun k hk => rdKey_writeLine_outside s l mask d hk, fun i hi => ?_⟩
  have hbyte := rdKey_writeLine_inside s l mask d (half := i / 64) (j := i % 64) (by omega) (by omega)
  have hsplit : 64 * (i / 64) + i % 64 = i := Nat.div_add_mod i 64
  simp only [State.halfByte, Nat.add_assoc, hsplit] at hbyte
  exact hbyte

end Sys2Proof.Machine
end

section
/-!
Memory controllers (Chapter 09): what each command of a controller, a generator or the retirement answers under its guard.
-/

namespace Sys2Proof.Machine
open Sys2Proof

/-! ### Reads through the decoder (R266-R271) -/

/-- What a controller's read leaves for each outcome of the decoder (R266, R267). -/
def State.readDecoded (s : State) (d : Disturb) : EccOut → State
  | .clean => s.ctlAnswer d.p d.blk .ok (readOf s d [])
  | .fix f => (s.noteCorrected d.p).ctlAnswer d.p d.blk .ok (readOf s d f)
  | .poisoned => s.ctlAnswer d.p d.blk .pois 0
  | .uncor => s.addReread d.p d.blk 1

/-- What the one re-read leaves: a block that is lost again is poisoned, unless a write of the whole block has come since (R269, R271). -/
def State.rereadDecoded (s : State) (d : Disturb) (r : Reread) : EccOut → State
  | .clean => ((rereadTaken s d).noteCorrected d.p).rereadAnswer r .ok (readOf s d [])
  | .fix f => ((rereadTaken s d).noteCorrected d.p).rereadAnswer r .ok (readOf s d f)
  | .poisoned => (rereadTaken s d).rereadAnswer r .pois 0
  | .uncor => (if r.late = true then (rereadTaken s d).noteUncor d.p d.blk r.kind
      else (rereadTaken s d).notePoisoned d.p d.blk r.kind).rereadAnswer r .pois 0

/-- What the scrubber's read leaves; a write that came between drops its write-back (R270). -/
def State.scrubDecoded (s : State) (d : Disturb) (crossed : Bool) : EccOut → State
  | .clean => s
  | .poisoned => s
  | .fix f => if crossed then s.noteCorrected d.p else (s.noteCorrected d.p).writeBlock d.p d.blk (readOf s d f)
  | .uncor => s.addReread d.p d.blk 2

section
variable {s : State} {d : Disturb}

theorem controllerReadComplete_gives (hctl : s.ctlWorks d.p = true) (hblk : d.blk < s.blocks) :
    Gives (.controllerReadComplete d) s (s.readDecoded d (decodeOf s d)) :=
  gives_of_done_eq rfl ((if_neg (by simp [hctl, hblk])).trans rfl)

theorem uncorrectableReread_gives {r : Reread}
    (hr : s.rereads.find? (fun r => decide (r.p = d.p) && decide (r.blk = d.blk)) = some r) :
    Gives (.uncorrectableReread d) s (s.rereadDecoded d r (decodeOf s d)) :=
  gives_of_done_eq rfl (by rw [hr]; rfl)

theorem scrubRead_gives (crossed : Bool) (hrun : s.running (.cd (pchDie d.p)) false = true) (hpch : s.pch d.p = 3 ∨ s.pch d.p = 4)
    (hpos : aGet s.scrubPos 0 d.p = d.blk) :
    Gives (.scrubRead d crossed) s ((s.scrubDecoded d crossed (decodeOf s d)).scrubNext d.p) :=
  gives_of_done_eq rfl ((if_neg (by obtain h | h := hpch <;> simp [hrun, h, hpos])).trans rfl)

end

/-! ### Band modes, counts, refresh, retraining, threshold clears (R260, R264, R272, R278) -/

section
variable {s : State}

theorem bandModeWrite_gives {w : Wr} (hg : s.gate .hub .memBandMode w.pl w.ctx = .ok) (hidx : w.idx < s.fuse.bands / 32) :
    Gives (.bandModeWrite w) s ((s.setReg .hub .memBandMode w.idx
      (bandWord s.usable w.idx (s.reg .hub .memBandMode w.idx) w.val)).answer .ok 0) := by
  refine gives_of_done_eq rfl ?_
  rw [hg]
  exact if_pos hidx

theorem inDieCorrectionReport_gives {p : Nat} (n : Nat) (hrun : s.running (.cd (pchDie p)) false = true) :
    Gives (.inDieCorrectionReport p n) s (s.setReg (.cd (pchDie p)) .memIdieCnt (pchIdx p)
      (cntAdd (s.reg (.cd (pchDie p)) .memIdieCnt (pchIdx p)) n)) :=
  gives_of_done_eq rfl (if_pos hrun)

theorem refresh_gives {p bank : Nat} (hrun : s.running (.cd (pchDie p)) false = true)
    (hbank : bank < if s.fuse.high16 then 64 else 48) :
    Gives (.refresh p bank) s { s with refreshed := aSet s.refreshed (p, bank) s.now } :=
  gives_of_done_eq rfl (if_pos (by simp [hrun, hbank]))

section
variable {die : Fin 4} {ch : Nat} (hch : ch < 64) (hrun : s.running (.cd die) false = true)
include hch hrun

theorem channelRetrain_trained_gives :
    let p := 128 * die.val + 2 * ch
    Gives (.channelRetrain die ch true) s { s with trcCnt := aSet (aSet s.trcCnt p 0) (p + 1) 0 } := by
  refine gives_of_done_eq rfl ?_
  simp only [Nat.mod_eq_of_lt hch, hrun]
  rfl

theorem channelRetrain_failed_gives :
    let p := 128 * die.val + 2 * ch
    Gives (.channelRetrain die ch false) s
      (((s.retrainFail p).retrainFail (p + 1)).raise (.cd die) (if ch < 32 then 0x26 else 0x27) ch) := by
  have hsource : (if ch < 32 then 0x26 else 0x27) = 0x26 + ch / 32 := by split <;> omega
  refine gives_of_done_eq rfl ?_
  simp only [Nat.mod_eq_of_lt hch, hrun, hsource]
  rfl

end

theorem pchThresholdClear_gives {w : Wr} {n : Fin 4} {t : State} (hdie : w.die = .cd n)
    (hstore : s.ctlStore w.die .memPchState w.idx w.pl w.ctx w.val = (.ok, t)) :
    let p := 128 * n.val + w.idx % 128
    let old := s.rf w.die .memPchState w.idx 7 5
    let new := t.rf w.die .memPchState w.idx 7 5
    let u := t.restartCounts p ((old - new) * 32)
    Gives (.pchThresholdClear w) s ((if old ≠ 0 ∧ new = 0 ∧ s.pch p = 4 then u.enterOnline p else u).answer .ok 0) := by
  refine gives_of_done_eq rfl ?_
  rw [hstore, hdie]
  rfl

/-! ### Generator runs (R275-R277) -/

section
variable {w : Wr} {n : Fin 4} (hdie : w.die = .cd n) (hg : s.gate w.die .tgCtrl w.pl w.ctx = .ok)
include hdie hg

section
variable (hstart : fld w.val 0 0 = 1) (habort : fld w.val 1 1 = 0) (hfree : s.tgRunOf n (s.tgUnit w) = none)
include hstart habort hfree

/-- A START of a generator without a run is refused or begins a run. -/
theorem tgStart_done : exec (.tgStart w) s = done s (
    if s.tgRefused (tgOf s w n) then (s.setRf w.die .tgStatus (s.tgUnit w) 18 16 4).answer .ok 0
    else
      let t := (s.setRf w.die .tgStatus (s.tgUnit w) 15 0 0).setRf w.die .tgStatus (s.tgUnit w) 18 16 1
      ({ t with tgRuns := t.tgRuns ++ [tgOf s w n] } : State).orderSettle.answer .ok 0) := by
  have hgo : ¬ (fld w.val 0 0 = 0 ∨ fld w.val 1 1 = 1) := by simp [hstart, habort]
  have hidle : ¬ (s.tgRunOf n (s.tgUnit w)).isSome = true := by simp [hfree]
  refine gives_of_done_eq rfl ?_
  rw [hg, tgOf, hdie]
  exact (if_neg hgo).trans (if_neg hidle)

theorem tgStart_refused_gives (hbad : s.tgRefused (tgOf s w n) = true) :
    Gives (.tgStart w) s ((s.setRf w.die .tgStatus (s.tgUnit w) 18 16 4).answer .ok 0) :=
  gives_of_done_eq (tgStart_done hdie hg hstart habort hfree) (if_pos hbad)

theorem tgStart_begun_gives (hgood : s.tgRefused (tgOf s w n) = false) :
    Gives (.tgStart w) s
      (let t := (s.setRf w.die .tgStatus (s.tgUnit w) 15 0 0).setRf w.die .tgStatus (s.tgUnit w) 18 16 1
       ({ t with tgRuns := t.tgRuns ++ [tgOf s w n] } : State).orderSettle.answer .ok 0) :=
  gives_of_done_eq (tgStart_done hdie hg hstart habort hfree) (if_neg (Bool.eq_false_iff.1 hgood))

end

theorem tgAbort_gives (k : Nat) (reads : List Disturb) {r : TgRun} (habort : fld w.val 1 1 = 1)
    (hr : s.tgRunOf n (s.tgUnit w) = some r) :
    Gives (.tgAbort w k reads) s
      (((State.tgDo (if r.passes = 0 then k else min k (r.total - 1 - r.pos)) r reads s).tgEnd r 3).answer .ok 0) := by
  refine gives_of_done_eq rfl ?_
  rw [hg, hdie]
  refine (if_neg (by simp [habort])).trans ?_
  rw [hr]

end

theorem tgRunDone_gives {die : Fin 4} {ch : Nat} (reads : List Disturb) {r : TgRun} (hr : s.tgRunOf die ch = some r)
    (hfinite : r.passes ≠ 0) (hrun : s.running (.cd die) false = true) :
    Gives (.tgRunDone die ch reads) s ((State.tgDo (r.total - r.pos) r reads s).tgEnd r 2) := by
  refine gives_of_done_eq rfl ?_
  rw [hr]
  exact if_neg (by simp [hfinite, hrun])

/-! ### Retirement and relayout (R280, R281) -/

theorem retireGo_gives {w : Wr} (hg : s.gate .hub .memRetireCtrl w.pl w.ctx = .ok) (hgo : w.val.getLsbD 25 = true)
    (hidle : s.relayout = false) :
    Gives (.retireGo w) s
      (((s.setRf .hub .memRetireCtrl 0 24 16 (fld w.val 24 16)).retireGo (fld w.val 24 16)).answer .ok 0) := by
  refine gives_of_done_eq rfl ?_
  rw [hg]
  exact (if_neg (by simp [hgo])).trans (if_neg (by simp [hidle]))

/-- The directory's keys of the lines of the region that is copied next. -/
def regionLines (s : State) (e : RetEnt) : List Nat := (upFrom (e.band s.cursor * 256) 256).map fun i => e.p * 2 ^ 23 + i

section
variable {e : RetEnt} (reads : List Disturb) (hlayout : s.relayout = true) (hlast : s.retEnts.getLast? = some e)
  (hup : ∀ n : Fin 4, s.running (.cd n) false = true ∧ s.lostMem.contains n.val = false)
include hup

/-- The guard of a copy: every memory-controller domain is there with its contents. -/
theorem relayoutCopy_guard : ¬ (allCds.any fun n => !s.running (.cd n) false || s.lostMem.contains n.val) = true := by
  rw [List.any_eq_true]
  rintro ⟨n, -, hdown⟩
  obtain ⟨hrun, hfilled⟩ := hup n
  rw [hrun, hfilled] at hdown
  cases hdown

include hlayout hlast

theorem relayoutCopy_recall_gives (hcopy : ∃ l ∈ regionLines s e, s.ent l ≠ none) :
    Gives (.relayoutCopy reads) s (s.recallFor (regionLines s e)) := by
  refine gives_of_done_eq rfl ?_
  rw [hlayout, hlast]
  refine (if_neg (relayoutCopy_guard hup)).trans (if_pos ?_)
  obtain ⟨l, hl, hne⟩ := hcopy
  exact List.any_eq_true.2 ⟨l, hl, Option.isSome_iff_ne_none.2 hne⟩

theorem relayoutCopy_region_gives (hlines : ∀ l ∈ regionLines s e, s.ent l = none ∧ s.busyLine l = false)
    (hblocks : ∀ r ∈ s.rereads, r.p = e.p → r.blk / 512 ≠ e.band s.cursor) :
    let j := s.cursor
    let b := e.band j
    let d := e.donor (s.retEnts.map fun x => x.p) j
    let t := (List.range 512).foldl (fun x i => x.copyBlock e.p d.2 (512 * b) (512 * d.1) reads i) s
    let t : State := { t with dir := t.dir.filter fun x => decide (¬ (locP x.1 = d.2 ∧ x.1 % 2 ^ 23 / 256 = d.1)) }
    let u := t.setRf .hub .memRetireCtrl 0 47 32 (j + 1)
    Gives (.relayoutCopy reads) s (if s.fuse.bands - e.m ≤ j + 1 then u.relayoutDone e else u) := by
  have hnone : ¬ ((regionLines s e).any fun l => (s.ent l).isSome) = true := by
    rw [List.any_eq_true]
    rintro ⟨l, hl, hsome⟩
    rw [(hlines l hl).1] at hsome
    cases hsome
  have hquiet : ¬ ((regionLines s e).any s.busyLine ||
      s.rereads.any fun r => decide (r.p = e.p ∧ r.blk / 512 = e.band s.cursor)) = true := by
    simp only [Bool.or_eq_true, List.any_eq_true, decide_eq_true_eq]
    rintro (⟨l, hl, hbusy⟩ | ⟨r, hr, hp, hblk⟩)
    · exact Bool.noConfusion ((hlines l hl).2.symm.trans hbusy)
    · exact hblocks r hr hp hblk
  refine gives_of_done_eq rfl ?_
  rw [hlayout, hlast]
  exact (if_neg (relayoutCopy_guard hup)).trans ((if_neg hnone).trans (if_neg hquiet))

end

end

/-- Settles O28: each command's effect under its guard, the reads by what the decoder finds. -/
theorem memoryControllerCommands : Obligations.MemoryControllerCommands := by
  refine ⟨⟨?read, ?reread, ?scrub⟩, ?band, ?inDie, ?refresh, ?retrain, ?clear, ?generator, ?runDone, ?retire, ?relayout⟩
  case read =>
    intro d s hctl hblk
    have h := controllerReadComplete_gives hctl hblk
    generalize decodeOf s d = o at h ⊢
    cases o <;> exact h
  case reread =>
    intro d s r hr
    have h := uncorrectableReread_gives hr
    generalize decodeOf s d = o at h ⊢
    cases o <;> exact h
  case scrub =>
    intro d crossed s hrun hpch hpos
    have h := scrubRead_gives crossed hrun hpch hpos
    generalize decodeOf s d = o at h ⊢
    cases o <;> exact h
  case band => exact fun w s => bandModeWrite_gives
  case inDie => exact fun p n s => inDieCorrectionReport_gives n
  case refresh => exact fun p bank s => refresh_gives
  case retrain =>
    exact fun die ch s hch hrun => ⟨channelRetrain_trained_gives hch hrun, channelRetrain_failed_gives hch hrun⟩
  case clear => exact fun w n s t => pchThresholdClear_gives
  case generator =>
    exact fun w n s hdie hg =>
      ⟨fun hstart habort hfree =>
        ⟨tgStart_refused_gives hdie hg hstart habort hfree, tgStart_begun_gives hdie hg hstart habort hfree⟩,
      fun k reads r => tgAbort_gives hdie hg k reads⟩
  case runDone => exact fun die ch reads s r => tgRunDone_gives reads
  case retire => exact fun w s => retireGo_gives
  case relayout =>
    exact fun reads s e hlayout hlast hup =>
      ⟨relayoutCopy_recall_gives reads hlayout hlast hup, relayoutCopy_region_gives reads hlayout hlast hup⟩

end Sys2Proof.Machine
end

section
/-!
Agents marked down and up (Chapter 10): what the homes of each die hold of an agent afterwards.
-/

namespace Sys2Proof.Machine
open Sys2Proof

/-! ### Bits of the mask of the hub's homes -/

/-- The mask with bit `a` set. -/
theorem nbit_add_unless_set (x a b : Nat) : nbit (if nbit x a then x else x + 2 ^ a) b = (decide (b = a) || nbit x b) := by
  cases h : nbit x a with
  | true => by_cases hb : b = a <;> simp [hb, h]
  | false => simpa only [nbit_eq, Bool.false_eq_true, if_false] using testBit_add_clear x a b (nbit_eq x a ▸ h)

/-- The mask with bit `a` cleared. -/
theorem nbit_sub_if_set (x a b : Nat) : nbit (if nbit x a then x - 2 ^ a else x) b = (!decide (b = a) && nbit x b) := by
  cases h : nbit x a with
  | false => by_cases hb : b = a <;> simp [hb, h]
  | true =>
    rw [nbit_eq] at h
    obtain ⟨q, rfl⟩ : ∃ q, x = q + 2 ^ a := ⟨x - 2 ^ a, (Nat.sub_add_cancel (Nat.ge_two_pow_of_testBit h)).symm⟩
    have hclear : q.testBit a = false := by simpa [Nat.add_comm q, Nat.testBit_two_pow_add_eq] using h
    rw [if_pos rfl, Nat.add_sub_cancel, nbit_eq, nbit_eq, testBit_add_clear q a b hclear]
    by_cases hb : b = a <;> simp [hb, hclear]

/-- A register with one bit written. -/
theorem getLsbD_setFld_bit (x : W64) {a : Nat} (v b : Nat) (ha : a < 64) :
    (setFld x a a v).getLsbD b = if b = a then v.testBit 0 else x.getLsbD b := by
  rw [getLsbD_setFld]
  by_cases hb : b = a
  · subst hb
    simp [ha]
  · rw [if_neg (by omega), if_neg hb]

/-! ### Homes that treat an agent as down (R306, R307) -/

theorem homeDie_of_cxl {p : Nat} (h : isCxlP p = true) : homeDie p = .hub := if_pos h
theorem homeDie_of_pch {p : Nat} (h : isCxlP p = false) : homeDie p = .cd (pchDie p) := if_neg (Bool.eq_false_iff.1 h)

theorem isDown_of_cxl {s : State} {p : Nat} (h : isCxlP p = true) (a : Nat) : s.isDown p a = nbit s.cxlDown a := if_pos h
theorem isDown_of_pch {s : State} {p : Nat} (h : isCxlP p = false) (a : Nat) :
    s.isDown p a = (s.reg (.cd (pchDie p)) .memDirAgentDown 0).getLsbD a := if_neg (Bool.eq_false_iff.1 h)

/-- A die that has homes: the hub or a compute die. -/
def HasHomes (d : Die) : Prop := d = .hub ∨ ∃ n, d = .cd n

section
variable (s : State) {a : Nat} (p b : Nat)

/-- A mark on one die reaches the homes of that die, and only this agent's bit. -/
theorem isDown_markDownOn {d : Die} (hd : HasHomes d) (ha : a < 35) :
    (s.markDownOn d a).isDown p b = (decide (homeDie p = d ∧ b = a) || s.isDown p b) := by
  obtain rfl | ⟨n, rfl⟩ := hd <;> cases hp : isCxlP p
  case inl.true =>
    rw [isDown_of_cxl hp, isDown_of_cxl hp, homeDie_of_cxl hp]
    exact (nbit_add_unless_set s.cxlDown a b).trans (by simp)
  case inl.false =>
    rw [isDown_of_pch hp, isDown_of_pch hp, homeDie_of_pch hp]
    simp [State.markDownOn, State.reg]
  case inr.true =>
    rw [isDown_of_cxl hp, isDown_of_cxl hp, homeDie_of_cxl hp]
    simp [State.markDownOn]
  case inr.false =>
    rw [isDown_of_pch hp, isDown_of_pch hp, homeDie_of_pch hp]
    by_cases hn : n = pchDie p
    · subst hn
      rw [State.markDownOn, State.reg_setReg_same, getLsbD_setFld_bit _ _ _ (by omega)]
      by_cases hb : b = a <;> simp [hb]
    · simp [State.markDownOn, State.reg_setReg, hn, Ne.symm hn]

theorem isDown_foldl_markDownOn {ds : List Die} (hds : ∀ d ∈ ds, HasHomes d) (ha : a < 35) :
    (ds.foldl (fun x d => x.markDownOn d a) s).isDown p b = (decide (homeDie p ∈ ds ∧ b = a) || s.isDown p b) := by
  induction ds generalizing s with
  | nil => simp
  | cons d ds ih =>
    rw [List.forall_mem_cons] at hds
    rw [List.foldl_cons, ih _ hds.2, isDown_markDownOn s p b hds.1 ha, ← Bool.or_assoc]
    congr 1
    by_cases hb : b = a <;> simp [hb, Bool.or_comm]

theorem txns_markDownOn (d : Die) : (s.markDownOn d a).txns = s.txns := by cases d <;> rfl

theorem endComps_of_no_txns {s : State} (d : Die) (a : Nat) (h : s.txns = []) : s.endComps d a = s := by
  simp [State.endComps, h]

theorem mem_allCds (n : Fin 4) : n ∈ allCds := by
  revert n
  decide

/-- The home of every location stands on a die that a mark reaches. -/
theorem mem_homeDies (p : Nat) : homeDie p ∈ Die.hub :: allCds.map Die.cd := by
  cases hp : isCxlP p with
  | true => simp [homeDie_of_cxl hp]
  | false =>
    rw [homeDie_of_pch hp]
    exact List.mem_cons_of_mem _ (List.mem_map_of_mem (mem_allCds _))

theorem hasHomes_of_mem {d : Die} (h : d ∈ Die.hub :: allCds.map Die.cd) : HasHomes d := by
  obtain rfl | h := List.mem_cons.1 h
  · exact .inl rfl
  · obtain ⟨n, -, rfl⟩ := List.mem_map.1 h
    exact .inr ⟨n, rfl⟩

/-- With no transaction running, marking an agent down changes what the homes hold of it, and nothing else. -/
theorem isDown_markDown {s : State} (htxns : s.txns = []) (ha : a < 35) :
    (s.markDown a).isDown p b = (decide (b = a) || s.isDown p b) := by
  have hquiet (ds : List Die) : (ds.foldl (fun x d => x.markDownOn d a) s).txns = [] := by
    induction ds using List.reverseRecOn with
    | nil => exact htxns
    | append_singleton ds d ih => rwa [List.foldl_append, List.foldl_cons, List.foldl_nil, txns_markDownOn]
  rw [State.markDown, foldl_eq_self fun d _ => endComps_of_no_txns d a (hquiet _),
    isDown_foldl_markDownOn s p b (fun d => hasHomes_of_mem) ha]
  simp [mem_homeDies p]

/-! ### Agents marked up -/

/-- The end of an agent's mark on the homes of one compute die. -/
def State.clearDownOn (s : State) (a : Nat) (d : Fin 4) : State :=
  s.setReg (.cd d) .memDirAgentDown 0 (setFld (s.reg (.cd d) .memDirAgentDown 0) a a 0)

/-- The marks of the agents on the homes of a compute die, after one of them has ended on some dies. -/
theorem getLsbD_foldl_clearDownOn (ds : List (Fin 4)) (n : Fin 4) (ha : a < 35) :
    ((ds.foldl (fun x d => x.clearDownOn a d) s).reg (.cd n) .memDirAgentDown 0).getLsbD b =
      (!decide (n ∈ ds ∧ b = a) && (s.reg (.cd n) .memDirAgentDown 0).getLsbD b) := by
  induction ds generalizing s with
  | nil => simp
  | cons d ds ih =>
    rw [List.foldl_cons, ih, State.clearDownOn, State.reg_setReg]
    by_cases hn : d = n
    · subst hn
      rw [if_pos ⟨rfl, rfl, rfl⟩, getLsbD_setFld_bit _ _ _ (by omega)]
      by_cases hb : b = a <;> simp [hb]
    · simp [hn, Ne.symm hn]

theorem cxlDown_foldl_clearDownOn (ds : List (Fin 4)) : (ds.foldl (fun x d => x.clearDownOn a d) s).cxlDown = s.cxlDown := by
  induction ds generalizing s with
  | nil => rfl
  | cons d ds ih => exact ih _

theorem isDown_markUp (ha : a < 35) : (s.markUp a).isDown p b = (!decide (b = a) && s.isDown p b) := by
  cases hp : isCxlP p with
  | true =>
    rw [isDown_of_cxl hp, isDown_of_cxl hp, ← nbit_sub_if_set, ← cxlDown_foldl_clearDownOn s allCds (a := a)]
    rfl
  | false =>
    rw [isDown_of_pch hp, isDown_of_pch hp]
    refine (getLsbD_foldl_clearDownOn s b allCds (pchDie p) ha).trans ?_
    simp [mem_allCds]

end

/-- Settles O33: a mark, and its end, reach the homes of every die and only the agent's own bit. -/
theorem downAgentsAreDownEverywhere : Obligations.DownAgentsAreDownEverywhere := by
  refine ⟨fun s a p ha htxns => ?_, fun s a p ha => ?_⟩
  · simp only [isDown_markDown p _ htxns ha]
    exact ⟨by simp, fun b _ hb => by simp [hb]⟩
  · simp only [isDown_markUp s p _ ha]
    exact ⟨by simp, fun b _ hb => by simp [hb]⟩

end Sys2Proof.Machine
end

section
/-!
Caching agents and non-caching requesters (Chapter 10): what a request that is made now is, and what each message that reaches a
requester leaves.
-/

namespace Sys2Proof.Machine
open Sys2Proof

/-! ### Requests (R297, R299-R301) -/

section
variable {s : State} {r : Req}

theorem request_of_new (h : s.findReq r.who r.pa = none) {allowed : Bool} (hallowed : allowed = true) :
    s.request r allowed = requested s r := by
  unfold State.request
  rw [h]
  exact if_pos hallowed

end

section
variable (s : State) (a pa who pb : Nat)

@[simp] theorem mayAsk_dropLine : (s.dropLine a pa).mayAsk who pb = s.mayAsk who pb := rfl

theorem lineSt_dropLine : (s.dropLine a pa).lineSt a pa = 0 := by
  simp [State.lineSt, State.line, State.dropLine, aFind_aErase]

variable {s a pa}

theorem hostLeft_of_host (hhost : isHost a = true) (hst : s.lineSt a pa ≤ 2) : s.hostLeft a pa = s.dropLine a pa :=
  if_pos (by simp [hhost, hst])

theorem hostLeft_of_not_host (hhost : isHost a = false) : s.hostLeft a pa = s := if_neg (by simp [hhost])

end

section
variable {a : AgentReq} {s : State}

/-- A read request asks once the copy of a host die has left. -/
theorem readRequest_of_asks (k : ReqKind) (h : Asks s a fun st => st = 0 ∨ (isHost a.agent = true ∧ st ≤ 2)) :
    s.readRequest a k = requested (s.hostLeft a.agent (a.pa / 128)) ((s.hostLeft a.agent (a.pa / 128)).askReq a k 0 0) := by
  obtain ⟨hnone, hmay, hst⟩ := h
  unfold State.readRequest
  rw [if_pos (by rw [hnone]; rfl)]
  cases hhost : isHost a.agent with
  | true =>
    rw [hostLeft_of_host hhost (by omega)]
    exact request_of_new hnone (by simp [hmay, lineSt_dropLine])
  | false =>
    rw [hostLeft_of_not_host hhost]
    exact request_of_new hnone (by simpa [hmay, hhost] using hst)

theorem upg_gives (h : Asks s a fun st => st = 1) : Gives (.upg a) s (requested s (s.askReq a .upg 0 0)) := by
  obtain ⟨hnone, hmay, hst⟩ := h
  exact gives_of_done_eq rfl (request_of_new hnone (by simp [hmay, hst]))

/-- The line that an ITOM is for: another agent's own, or the cluster's full entry. -/
theorem itom_done {d l : Line} (hsrc : (if a.agent < 32 then s.fullEntry a.agent (a.pa / 128) else some d) = some l) :
    exec (.itom a d) s = done s
      (let t := if (s.findReq a.agent (a.pa / 128)).isNone && decide (s.lineSt a.agent (a.pa / 128) = 2)
        then s.hostLeft a.agent (a.pa / 128) else s
       t.request (t.askReq a .itom fullMask l)
        (t.mayAsk a.agent (a.pa / 128) && decide (t.lineSt a.agent (a.pa / 128) ≤ 1))) :=
  gives_of_done_eq (i := .itom a d) rfl (by simp only [hsrc])

theorem itom_gives {d l : Line} (h : Asks s a fun st => st ≤ 1)
    (hsrc : (if a.agent < 32 then s.fullEntry a.agent (a.pa / 128) else some d) = some l) :
    Gives (.itom a d) s (requested s (s.askReq a .itom fullMask l)) := by
  obtain ⟨hnone, hmay, hst⟩ := h
  have hstays : ¬ ((s.findReq a.agent (a.pa / 128)).isNone && decide (s.lineSt a.agent (a.pa / 128) = 2)) = true := by
    simp only [Bool.and_eq_true, decide_eq_true_eq]
    omega
  refine gives_of_done_eq (itom_done hsrc) ?_
  rw [if_neg hstays]
  exact request_of_new hnone (by simp [hmay, hst])

theorem itom_host_gives {d : Line} (h : Asks s a fun st => st = 2) (hhost : isHost a.agent = true) :
    Gives (.itom a d) s (requested (s.dropLine a.agent (a.pa / 128))
      ((s.dropLine a.agent (a.pa / 128)).askReq a .itom fullMask d)) := by
  obtain ⟨hnone, hmay, hst⟩ := h
  have hagent : a.agent = 32 ∨ a.agent = 33 := of_decide_eq_true hhost
  refine gives_of_done_eq (itom_done (if_neg (by omega))) ?_
  rw [if_pos (by simp [hnone, hst]), hostLeft_of_host hhost hst.le]
  exact request_of_new hnone (by simp [hmay, lineSt_dropLine])

end

section
variable {a : NcReq} {s : State} (h : s.findReq (64 + a.req) (a.pa / 128) = none)
include h

theorem rdNc_gives : Gives (.rdNc a) s (requested s (ncReq a .rdNc 0 0 none none)) :=
  gives_of_done_eq rfl (request_of_new h rfl)

theorem atNc_gives (op : AtOp) : Gives (.atNc a op) s (requested s (ncReq a .atNc 0 0 none (some op))) :=
  gives_of_done_eq rfl (request_of_new h rfl)

theorem wrNc_gives {mask : Nat} (d : Line) {stash : Option Nat} (hmask : mask < 2 ^ 128) (hstash : ∀ x, stash = some x → x < 35) :
    Gives (.wrNc a mask d stash) s (requested s (ncReq a .wrNc mask d stash none)) := by
  have hid : stash.map (fun x => x % 35) = stash := by
    cases stash with
    | none => rfl
    | some x => exact congrArg some (Nat.mod_eq_of_lt (hstash x rfl))
  refine gives_of_done_eq rfl ?_
  rw [Nat.mod_eq_of_lt hmask, hid]
  exact request_of_new h rfl

end

/-! ### Forwards (R298) -/

/-- What an owner keeps of a line that it has forwarded. -/
def State.keepAfter (k : MsgKind) (s : State) (a pa : Nat) (l : CLine) : State :=
  match k with
  | .fwdS => s.setLine a pa { l with st := 1 }
  | .fwdX => s.dropLine a pa
  | _ => s.setLine a pa l

theorem whoDie_stillHeld (s : State) (a pa : Nat) (wrote : Bool) (who : Nat) : (s.stillHeld a pa wrote).2.whoDie who = s.whoDie who := by
  unfold State.stillHeld
  split
  · split
    · dsimp only
      split <;> rfl
    · rfl
  · rfl

section
variable {k : MsgKind} (grant : MsgKind) {a pa : Nat} {wrote : Bool} {d : Line} {s : State} {m : Msg} (h : Waits s k a pa m)
include h

theorem forwardAt_of_agentDown (hup : s.agentUp a = false) :
    s.forwardAt k grant a pa wrote d = fwdAckTo a m (s.takeMsg k a pa) (Msg.plain .fwdAck a pa) := by
  unfold State.forwardAt
  rw [h]
  exact if_pos (by rw [hup]; rfl)

variable (hup : s.agentUp a = true)
include hup

theorem forwardAt_of_held {l0 : CLine} (hline : ((s.takeMsg k a pa).stillHeld a pa wrote).1 = some l0)
    (hst : 2 ≤ (heldLine a l0 wrote d).st) :
    let l := heldLine a l0 wrote d
    s.forwardAt k grant a pa wrote d =
      (fwdAckTo a m (fwdLineTo a pa m grant ((s.takeMsg k a pa).stillHeld a pa wrote).2 l.data l.pois)
        { Msg.plain .fwdAck a pa with
          held := true, dirty := decide (l.st = 3) && decide (k = .fwdS), data := l.data, pois := l.pois }).keepAfter k a pa l := by
  unfold State.forwardAt fwdLineTo
  rw [h, whoDie_stillHeld]
  refine (if_neg (by rw [hup]; decide)).trans ?_
  dsimp only
  rw [hline]
  exact (if_neg (by omega)).trans (by cases k <;> rfl)

theorem forwardAt_of_buffered {x : Line × Nat} (hline : ((s.takeMsg k a pa).stillHeld a pa wrote).1 = none)
    (hbuf : aFind s.wbuf (a, pa) = some x) :
    s.forwardAt k grant a pa wrote d =
      fwdAckTo a m (fwdLineTo a pa m grant ((s.takeMsg k a pa).stillHeld a pa wrote).2 x.1 x.2)
        { Msg.plain .fwdAck a pa with dirty := true, data := x.1, pois := x.2 } := by
  unfold State.forwardAt fwdLineTo
  rw [h, whoDie_stillHeld]
  refine (if_neg (by rw [hup]; decide)).trans ?_
  dsimp only
  rw [hline, hbuf]
  rfl

theorem forwardAt_of_gone
    (hgone : (((s.takeMsg k a pa).stillHeld a pa wrote).1 = none ∧ aFind s.wbuf (a, pa) = none) ∨
      ∃ l0, ((s.takeMsg k a pa).stillHeld a pa wrote).1 = some l0 ∧ (heldLine a l0 wrote d).st ≤ 1) :
    s.forwardAt k grant a pa wrote d =
      fwdAckTo a m ((s.takeMsg k a pa).stillHeld a pa wrote).2 (Msg.plain .fwdAck a pa) := by
  unfold State.forwardAt
  rw [h]
  refine (if_neg (by rw [hup]; decide)).trans ?_
  dsimp only
  obtain ⟨hline, hbuf⟩ | ⟨l0, hline, hst⟩ := hgone
  · rw [hline, hbuf]
    rfl
  · rw [hline]
    exact if_pos hst

end

theorem forwardRow {mk : Nat → Nat → Bool → Line → Instr} {k grant : MsgKind}
    (hmk : ∀ a pa wrote d s, exec (mk a pa wrote d) s = done s (s.forwardAt k grant a pa wrote d)) :
    ForwardRow mk k grant (State.keepAfter k) := by
  intro a pa wrote d s m h
  refine ⟨fun hup => ?_, fun hup => ⟨fun l0 hline hst => ?_, fun hline x hbuf => ?_, fun hgone => ?_⟩⟩ <;>
    refine gives_of_done_eq (hmk a pa wrote d s) ?_
  · exact forwardAt_of_agentDown grant h hup
  · exact forwardAt_of_held grant h hup hline hst
  · exact forwardAt_of_buffered grant h hup hline hbuf
  · exact forwardAt_of_gone grant h hup hgone

/-! ### Invalidations, recalls and stashes (R298, R300) -/

section
variable {a pa : Nat} {s : State} {m : Msg}

theorem inv_gives (h : Waits s .inv a pa m) :
    Gives (.inv a pa) s (((s.takeMsg .inv a pa).dropLine a pa).ackTo m (Msg.plain .ack a pa)) := by
  refine gives_of_done_eq rfl ?_
  rw [h]

theorem pushS_gives {v : State} (h : Waits s .pushS a pa m) (hup : s.agentUp a = true)
    (hinstall : (s.takeMsg .pushS a pa).install a pa 1 m.data m.pois false = some v) :
    Gives (.pushS a pa) s (v.ackTo m (Msg.plain .ack a pa)) := by
  refine gives_of_done_eq rfl ?_
  rw [h]
  refine (if_neg (by rw [hup]; decide)).trans ?_
  rw [hinstall]

section
variable {wrote : Bool} {d : Line} (h : Waits s .recall a pa m)
include h

theorem recall_down_gives (hup : s.agentUp a = false) :
    Gives (.recall a pa wrote d) s (((s.takeMsg .recall a pa).dropLine a pa).ackTo m (Msg.plain .ack a pa)) := by
  refine gives_of_done_eq rfl ?_
  rw [h]
  exact if_pos (by rw [hup]; rfl)

variable (hup : s.agentUp a = true)
include hup

theorem recall_held_gives {l0 : CLine} (hline : s.line a pa = some l0) :
    let l := if 2 ≤ l0.st then heldLine a l0 wrote d else l0
    Gives (.recall a pa wrote d) s (((s.takeMsg .recall a pa).dropLine a pa).ackTo m
      (if l.st = 3 then { Msg.plain .ack a pa with dirty := true, data := l.data, pois := l.pois } else Msg.plain .ack a pa)) := by
  refine gives_of_done_eq rfl ?_
  rw [h]
  refine (if_neg (by rw [hup]; decide)).trans ?_
  rw [hline]
  exact (apply_ite _ _ _ _).symm

theorem recall_buffered_gives {x : Line × Nat} (hline : s.line a pa = none) (hbuf : aFind s.wbuf (a, pa) = some x) :
    Gives (.recall a pa wrote d) s (((s.takeMsg .recall a pa).dropLine a pa).ackTo m
      { Msg.plain .ack a pa with dirty := true, data := x.1, pois := x.2 }) := by
  refine gives_of_done_eq rfl ?_
  rw [h]
  refine (if_neg (by rw [hup]; decide)).trans ?_
  rw [hline, hbuf]

theorem recall_gone_gives (hline : s.line a pa = none) (hbuf : aFind s.wbuf (a, pa) = none) :
    Gives (.recall a pa wrote d) s (((s.takeMsg .recall a pa).dropLine a pa).ackTo m (Msg.plain .ack a pa)) := by
  refine gives_of_done_eq rfl ?_
  rw [h]
  refine (if_neg (by rw [hup]; decide)).trans ?_
  rw [hline, hbuf]

end

end

/-! ### Grants (R301) -/

/-- The contents that a grant installs, and the state that they are taken from. -/
def State.grantSource (s : State) (k : MsgKind) (a pa : Nat) (m : Msg) (r : Req) : (Line × Nat) × State :=
  let u := s.takeMsg k a pa
  match k, s.line a pa with
  | .gntX, some l => (if r.kind = ReqKind.itom then (r.data, 0) else (l.data, l.pois), u)
  | .gntX, none => if r.kind = ReqKind.itom then ((r.data, 0), u) else ((u.takeLine.1, 0), u.takeLine.2)
  | _, _ => ((m.data, m.pois), u)

/-- A grant is installed from its source, or waits for room. -/
def State.installGrant (s : State) (k : MsgKind) (st a pa : Nat) (m : Msg) (r : Req) (x : (Line × Nat) × State) : State :=
  match x.2.install a pa st x.1.1 x.1.2 r.strm with
  | some v => (v.dropReq a pa).compFor m
  | none => s.msgWaits k a pa

section
variable {k : MsgKind} {a pa : Nat} {s : State} {m : Msg} {r : Req}

theorem installGrant_of_some {st : Nat} {x : (Line × Nat) × State} {v : State}
    (h : x.2.install a pa st x.1.1 x.1.2 r.strm = some v) : s.installGrant k st a pa m r x = (v.dropReq a pa).compFor m := by
  unfold State.installGrant
  rw [h]

theorem grantSource_of_data (hk : k ≠ .gntX) : s.grantSource k a pa m r = ((m.data, m.pois), s.takeMsg k a pa) := by
  unfold State.grantSource
  split <;> trivial

theorem grantSource_of_itom (hkind : r.kind = .itom) : s.grantSource .gntX a pa m r = ((r.data, 0), s.takeMsg .gntX a pa) := by
  unfold State.grantSource
  cases s.line a pa <;> simp [hkind]

section
variable (hkind : r.kind ≠ .itom)
include hkind

theorem grantSource_of_line {l : CLine} (hline : s.line a pa = some l) :
    s.grantSource .gntX a pa m r = ((l.data, l.pois), s.takeMsg .gntX a pa) := by
  unfold State.grantSource
  rw [hline]
  exact congrArg (·, s.takeMsg .gntX a pa) (if_neg hkind)

theorem grantSource_of_no_line (hline : s.line a pa = none) :
    s.grantSource .gntX a pa m r = (((s.takeMsg .gntX a pa).takeLine.1, 0), (s.takeMsg .gntX a pa).takeLine.2) := by
  unfold State.grantSource
  rw [hline]
  exact if_neg hkind

end

variable (h : Waits s k a pa m) (hreq : s.findReq a pa = some r) (hphase : r.phase = .home) (hperm : m.st ≠ .perm)
  (hunav : m.st ≠ .unav) (hup : s.agentUp a = true)
include h hreq hphase hperm hunav hup

/-- A grant that answers the request of a running agent is installed from its source. -/
theorem grantAt_of_awaited (st : Nat) : s.grantAt k st a pa = s.installGrant k st a pa m r (s.grantSource k a pa m r) := by
  unfold State.grantAt
  rw [h]
  dsimp only
  rw [hreq]
  exact (if_neg (not_not.2 hphase)).trans ((if_neg (by simp [hperm, hunav])).trans ((if_neg (by rw [hup]; decide)).trans rfl))

theorem grantAt_of_installed {st : Nat} {x : (Line × Nat) × State} {v : State} (hsrc : s.grantSource k a pa m r = x)
    (hinstall : x.2.install a pa st x.1.1 x.1.2 r.strm = some v) : s.grantAt k st a pa = (v.dropReq a pa).compFor m := by
  rw [grantAt_of_awaited h hreq hphase hperm hunav hup, hsrc, installGrant_of_some hinstall]

end

theorem grantRow {mk : Nat → Nat → Instr} {k : MsgKind} {st : Nat}
    (hmk : ∀ a pa s, exec (mk a pa) s = done s (s.grantAt k st a pa)) (hk : k ≠ .gntX) : GrantRow mk k st :=
  fun a pa s _ _ _ h hreq hphase hperm hunav hup hinstall => gives_of_done_eq (hmk a pa s)
    (grantAt_of_installed h hreq hphase hperm hunav hup (grantSource_of_data hk) hinstall)

section
variable {a pa : Nat} {s v : State} {m : Msg} {r : Req}

theorem gntX_gives (h : Waits s .gntX a pa m) (hreq : s.findReq a pa = some r) (hphase : r.phase = .home) (hperm : m.st ≠ .perm)
    (hunav : m.st ≠ .unav) (hup : s.agentUp a = true)
    (hitom : r.kind = .itom → (s.takeMsg .gntX a pa).install a pa 3 r.data 0 r.strm = some v)
    (hheld : r.kind ≠ .itom → ∀ l, s.line a pa = some l → (s.takeMsg .gntX a pa).install a pa 3 l.data l.pois r.strm = some v)
    (hleft : r.kind ≠ .itom → s.line a pa = none →
      (s.takeMsg .gntX a pa).takeLine.2.install a pa 3 (s.takeMsg .gntX a pa).takeLine.1 0 r.strm = some v) :
    Gives (.gntX a pa) s ((v.dropReq a pa).compFor m) := by
  refine gives_of_done_eq rfl ?_
  have hinstalled {x : (Line × Nat) × State} := grantAt_of_installed (x := x) (st := 3) (v := v) h hreq hphase hperm hunav hup
  by_cases hkind : r.kind = .itom
  · exact hinstalled (grantSource_of_itom hkind) (hitom hkind)
  · cases hline : s.line a pa with
    | some l => exact hinstalled (grantSource_of_line hkind hline) (hheld hkind l hline)
    | none => exact hinstalled (grantSource_of_no_line hkind hline) (hleft hkind hline)

end

/-! ### Final responses, refusals and time-outs (R292, R300, R303, R308) -/

theorem ncAnswerRow {mk : Nat → Nat → Instr} {k : MsgKind} (hmk : ∀ req pa s, exec (mk req pa) s = done s (s.ncAnswer k req pa)) :
    NcAnswerRow mk k := by
  intro req pa s m r h hreq hphase
  refine gives_of_done_eq (hmk req pa s) ?_
  unfold State.ncAnswer
  dsimp only
  rw [h]
  dsimp only
  rw [hreq]
  exact if_pos hphase

section
variable {who pa : Nat} {s : State} {m : Msg} {r : Req}

theorem wbAck_gives (h : Waits s .wbAck who pa m) :
    Gives (.wbAck who pa) s { s.takeMsg .wbAck who pa with wbuf := aErase s.wbuf (who, pa) } := by
  refine gives_of_done_eq rfl ?_
  rw [h]
  rfl

theorem nack_gives (h : Waits s .nack who pa m) (hreq : s.findReq who pa = some r) (hphase : r.phase = .nacked) :
    Gives (.nack who pa) s ((s.takeMsg .nack who pa).setReq { r with phase := .backoff, nacks := r.nacks + 1 }) := by
  refine gives_of_done_eq rfl ?_
  rw [h]
  dsimp only
  rw [hreq]
  exact if_pos hphase

theorem nackRetry_gives (hreq : s.findReq who pa = some r) (hphase : r.phase = .backoff) :
    Gives (.nackRetry who pa) s ({ s with sentNo := s.sentNo + 1 }.setReq { s.sendReq r with
      phase := .sent, kind := if r.kind = ReqKind.upg ∧ s.lineSt who pa ≠ 1 then ReqKind.rdX else r.kind }) := by
  refine gives_of_done_eq rfl ?_
  rw [hreq]
  exact if_pos hphase

theorem requestTimeout_gives (hreq : s.findReq who pa = some r) :
    let u := (s.dropReq who pa).bufResp r .tout 0 0
    Gives (.requestTimeout who pa) s (if 64 ≤ who then { u with ncLast := some ⟨who, pa, .tout, 0, 0⟩ } else u) := by
  refine gives_of_done_eq rfl ?_
  rw [hreq]

end

/-- Settles O31: the requests that are made now, and each message by its row of Table 10-4 at its requester. -/
theorem coherenceAtRequesters : Obligations.CoherenceAtRequesters := by
  refine ⟨⟨?reads, fun a s => upg_gives, ?itom, fun a d s h hhost => itom_host_gives h hhost, ?noncaching⟩,
    forwardRow fun _ _ _ _ _ => rfl, forwardRow fun _ _ _ _ _ => rfl, forwardRow fun _ _ _ _ _ => rfl,
    fun a pa s m => inv_gives, ?recalls, fun a pa s v m => pushS_gives,
    grantRow (fun _ _ _ => rfl) (by decide), grantRow (fun _ _ _ => rfl) (by decide), grantRow (fun _ _ _ => rfl) (by decide), ?gntX,
    ncAnswerRow fun _ _ _ => rfl, ncAnswerRow fun _ _ _ => rfl, fun a pa s m => wbAck_gives,
    fun who pa s m r => nack_gives, fun who pa s r => nackRetry_gives, fun who pa s r => requestTimeout_gives⟩
  case reads =>
    exact fun a s h => ⟨gives_of_done_eq rfl (readRequest_of_asks .rdS h), gives_of_done_eq rfl (readRequest_of_asks .rdX h)⟩
  case itom =>
    exact fun a d s h => ⟨fun hagent => itom_gives h (if_neg (Nat.not_lt.2 hagent)),
      fun hagent l hfull => itom_gives h ((if_pos hagent).trans hfull)⟩
  case noncaching =>
    exact fun a mask d stash op s h hmask hstash => ⟨rdNc_gives h, wrNc_gives h d hmask hstash, atNc_gives h op⟩
  case recalls =>
    refine fun a pa wrote d s m h => ⟨recall_down_gives h, fun hup => ⟨fun l0 => recall_held_gives h hup, fun hline => ?_⟩⟩
    cases hbuf : aFind s.wbuf (a, pa) with
    | some x => exact recall_buffered_gives h hup hline hbuf
    | none => exact recall_gone_gives h hup hline hbuf
  case gntX =>
    exact fun a pa s v m r h hreq hphase hperm hunav hup ⟨hitom, hheld, hleft⟩ =>
      gntX_gives h hreq hphase hperm hunav hup hitom hheld hleft

end Sys2Proof.Machine
end

section
/-!
Homes (Chapter 10): what each message that reaches a home leaves, and its tokens, time-outs and down agents.
-/

namespace Sys2Proof.Machine
open Sys2Proof

/-! ### Answers and completions (R296, R298, R299) -/

theorem answerRow {mk : Nat → Nat → Instr} {k : MsgKind} (hmk : ∀ a pa s, exec (mk a pa) s = done s (s.answerAt k a pa)) :
    AnswerRow mk k := by
  intro a pa s m t h hawaits t1 u
  refine gives_of_done_eq (hmk a pa s) ?_
  unfold State.answerAt
  rw [h]
  dsimp only
  rw [hawaits]
  exact if_congr List.isEmpty_iff rfl rfl

section
variable {a pa : Nat} {s : State} {m : Msg}

theorem comp_gives {t : Txn} (h : Waits s .comp a pa m)
    (hdue : s.txns.find? (fun t => decide (t.req.pa = pa) && decide (t.req.who = a) && t.compDue) = some t) :
    let u := (s.takeMsg .comp a pa).putTxn { t with compDue := false }
    Gives (.comp a pa) s (if t.phase = .comp then State.endTxn homeFuel u t.loc else u) := by
  refine gives_of_done_eq rfl ?_
  rw [h]
  dsimp only
  rw [hdue]

/-! ### Evictions (R292, R299) -/

theorem wb_arrives_gives (d : Line) (h : Waits s .wb a pa m) :
    Gives (.wb a pa d) s ((s.takeMsg .wb a pa).evictAt a pa m.route true m.data m.pois) := by
  refine gives_of_done_eq rfl ?_
  rw [h]

theorem cleanEvict_arrives_gives (h : Waits s .cleanEvict a pa m) :
    Gives (.cleanEvict a pa) s ((s.takeMsg .cleanEvict a pa).evictAt a pa m.route false 0 0) := by
  refine gives_of_done_eq rfl ?_
  rw [h]

section
variable (hhost : isHost a = true) (hup : s.agentUp a = true)
include hhost hup

theorem wb_host_gives (d : Line) {l : CLine} (hnone : s.findMsg .wb a pa = none) (hline : s.line a pa = some l) (hst : 2 ≤ l.st)
    (hroom : s.wbufRoom a = true) :
    Gives (.wb a pa d) s
      ({ s.dropLine a pa with wbuf := aSet s.wbuf (a, pa) (d, hostPois l d) }.evictAt a pa (s.homeRoute a pa) true d (hostPois l d)) := by
  refine gives_of_done_eq rfl ?_
  rw [hnone]
  dsimp only
  rw [hline]
  exact if_pos (by simp [hhost, hup, hst, hroom])

theorem cleanEvict_host_gives (hnone : s.findMsg .cleanEvict a pa = none) (hst : s.lineSt a pa = 1 ∨ s.lineSt a pa = 2) :
    Gives (.cleanEvict a pa) s ((s.dropLine a pa).evictAt a pa (s.homeRoute a pa) false 0 0) := by
  refine gives_of_done_eq rfl ?_
  rw [hnone]
  exact if_pos (by simpa [hhost, hup] using hst)

end

end

/-! ### Tokens (R304) -/

theorem tokenExpire_gives {who pa : Nat} {s : State} {k : Token}
    (hk : s.tokens.find? (fun k => decide (k.who = who) && decide (s.msgLoc pa = k.loc)) = some k) (hfree : s.busyLine k.loc = false) :
    Gives (.tokenExpire who pa) s
      (({ s with tokens := s.tokens.filter (fun x => x ≠ k) } : State).dirCount (locP k.loc) .memDirTokenCnt) := by
  refine gives_of_done_eq rfl ?_
  rw [hk]
  exact if_neg (by rw [hfree]; decide)

/-! ### Time-outs (R305) -/

/-- The hub's homes count nothing. -/
theorem dirCount_of_hub {p : Nat} (h : homeDie p = .hub) (s : State) (n : RegName) : s.dirCount p n = s := by
  cases hp : isCxlP p with
  | true => exact if_pos hp
  | false => rw [homeDie_of_pch hp] at h; cases h

/-- The state after the homes of die `d` mark the holders that have not answered down, with the line that they were asked for
poisoned. -/
def State.timedOut (s : State) (d : Die) (t : Txn) : State :=
  t.left.foldl (fun x a => (x.markDownOn d a).endComps d a)
    (s.poisonLine (locOfLine (if t.phase = .recall then t.vict else t.loc)))

/-- What MEM_DIR_TOUT_REC records of a time-out (Table 10-11). -/
def State.toutRec (s : State) (t : Txn) (pa : Nat) : Nat :=
  2 ^ 63 + t.left.foldl min 63 * 2 ^ 57 + s.snoopCode t * 2 ^ 54 + (if t.phase = .recall then t.vpa else pa) % 2 ^ 45

/-- A transaction that goes on without the answers that are missing. -/
def Txn.givenUp (t : Txn) : Txn := { t with left := [], pois := t.pois || decide (t.phase ≠ .recall) }

section
variable {pa : Nat} {s : State} {t : Txn}
  (hfind : s.txns.find? (fun t => decide (t.req.pa = pa) && !t.left.isEmpty) = some t)
include hfind

theorem homeTimeout_hub_gives (hd : homeDie (locP t.loc) = .hub) : Gives (.homeTimeout pa) s
    (State.answered homeFuel (((s.timedOut .hub t).raise .hub 0x4B (t.left.foldl min 63)).putTxn t.givenUp) t.givenUp) := by
  refine gives_of_done_eq rfl ?_
  rw [hfind]
  simp only [dirCount_of_hub hd, hd, decide_true, Bool.or_true, if_true]
  rfl

theorem homeTimeout_cd_gives {n : Fin 4} (hd : homeDie (locP t.loc) = .cd n)
    (hvalid : (s.reg (.cd n) .memDirToutRec 0).getLsbD 63 = false) : Gives (.homeTimeout pa) s
    (State.answered homeFuel (((((s.timedOut (.cd n) t).setReg (.cd n) .memDirToutRec 0 (BitVec.ofNat 64 (s.toutRec t pa))).dirCount
      (locP t.loc) .memDirToutCnt).raise (.cd n) 0x30 (t.left.foldl min 63)).putTxn t.givenUp) t.givenUp) := by
  refine gives_of_done_eq rfl ?_
  rw [hfind]
  simp only [hd, hvalid, reduceCtorEq, decide_false, Bool.or_false, Bool.false_eq_true, if_false]
  rfl

end

/-! ### Down agents (R306, R307) -/

section
variable {a : Nat} {s : State} (ha : a < 35)
include ha

theorem agentMarkDown_gives (hdom : s.agentDom a = false) : Gives (.agentMarkDown a) s (s.markDown a) :=
  gives_of_done_eq rfl (if_pos (by simp [ha, hdom]))

theorem agentMarkUp_gives (hup : s.agentUp a = true) (hlinked : s.agentLinked a = true) (hswept : s.swept a = true) :
    Gives (.agentMarkUp a) s (s.markUp a) :=
  gives_of_done_eq rfl (if_pos (by simp [ha, hup, hlinked, hswept]))

end

theorem directorySweep_gives {die : Die} {s : State} (hup : s.running die false = true) :
    Gives (.directorySweep die) s (s.sweep die) := gives_of_done_eq rfl (if_pos hup)

/-- Settles O32: each message by its row of Table 10-4 at its home, and the home's own events. -/
theorem coherenceMessagesAtHomes : Obligations.CoherenceMessagesAtHomes := by
  refine ⟨answerRow fun _ _ _ => rfl, answerRow fun _ _ _ => rfl, fun a pa s m t => comp_gives, fun a pa d s m => wb_arrives_gives d,
    ?wbHost, fun a pa s m => cleanEvict_arrives_gives, ?cleanEvictHost, fun who pa s k => tokenExpire_gives, ?timeout, ?marks,
    fun die s => directorySweep_gives⟩
  case wbHost => exact fun a pa d s l hnone hhost hup hline hst hroom => wb_host_gives hhost hup d hnone hline hst hroom
  case cleanEvictHost => exact fun a pa s hnone hhost hup hst => cleanEvict_host_gives hhost hup hnone hst
  case timeout =>
    intro pa s t d hfind hd
    refine ⟨fun hhub => ?_, fun n hcd hvalid => ?_⟩
    · subst hhub
      exact homeTimeout_hub_gives hfind hd
    · subst hcd
      exact homeTimeout_cd_gives hfind hd hvalid
  case marks => exact fun a s ha => ⟨agentMarkDown_gives ha, agentMarkUp_gives ha⟩

end Sys2Proof.Machine
end

section
/-!
The first reader of a line (Chapter 10): a request of a line that no directory entry names, from its requester to the grant.
-/

namespace Sys2Proof.Machine
open Sys2Proof

/-! ### A line that its agent does not hold -/

theorem aErase_of_aFind_none {κ α : Type} [DecidableEq κ] {m : AMap κ α} {i : κ} (h : aFind m i = none) : aErase m i = m := by
  induction m with
  | nil => rfl
  | cons e r ih =>
    by_cases he : e.1 = i
    · simp [aFind, he] at h
    · have hr : aErase r i = r := ih (by simpa [aFind, he] using h)
      exact (List.filter_cons_of_pos (by simpa using he)).trans (congrArg (e :: ·) hr)

theorem hostLeft_of_no_line {s : State} {a pa : Nat} (h : s.line a pa = none) : s.hostLeft a pa = s := by
  unfold State.hostLeft State.dropLine
  rw [aErase_of_aFind_none h]
  exact ite_self s

theorem agent_lt_of_mayAsk {s : State} {a pa : Nat} (h : s.mayAsk a pa = true) : a < 35 := by
  simp only [State.mayAsk, Bool.and_eq_true, decide_eq_true_eq] at h
  omega

theorem whoDie_of_agent (s : State) {a : Nat} (h : a < 35) : s.whoDie a = agentDie a := if_pos (by omega)

/-! ### What requests, transactions, entries and messages do not touch -/

/-- A state with other requests, messages, transactions and directory entries: all that the grant to a first reader changes. -/
def State.withTraffic (s : State) (reqs : List Req) (sentNo : Nat) (txns : List Txn) (dir : AMap Nat DirEnt) (net : List Msg) :
    State := { s with reqs := reqs, sentNo := sentNo, txns := txns, dir := dir, net := net }

/-- What `State.homeAt` computes, as a function: applied to a state, the kernel would first work out the region. -/
theorem homeAt_unfold : @State.homeAt = delta% @State.homeAt := rfl

/-- The REASON of a home's check (R314, R366). -/
def State.checkReason (s : State) (l : Loc) (rid ctx pl typ il pa : Nat) : Nat :=
  if rid / 4096 = 8 then s.rpReason (repIdx (homeDie l.p)) typ pa else s.homeReason l ctx pl typ il pa

theorem homeCheck_eq_none {s : State} {l : Loc} {rid ctx pl typ il pa off : Nat} :
    s.homeCheck l rid ctx pl typ il pa off = none ↔ s.checkReason l rid ctx pl typ il pa = 0 := by
  simp [State.homeCheck, State.checkReason]

section
variable (s : State) (q : List Req) (k : Nat) (x : List Txn) (d : AMap Nat DirEnt) (m : List Msg)

theorem region_withTraffic (pa : Nat) : (s.withTraffic q k x d m).region pa = s.region pa := rfl
theorem reach_withTraffic (a b : Die) : (s.withTraffic q k x d m).reach a b = s.reach a b := rfl
theorem isDown_withTraffic (p a : Nat) : (s.withTraffic q k x d m).isDown p a = s.isDown p a := rfl
theorem isBurr_withTraffic (pa : Nat) : (s.withTraffic q k x d m).isBurr pa = s.isBurr pa := rfl
theorem linkUp_withTraffic : (s.withTraffic q k x d m).linkUp = s.linkUp := rfl
theorem linePoison_withTraffic (l : Loc) : (s.withTraffic q k x d m).linePoison l = s.linePoison l := rfl
theorem checkReason_withTraffic (l : Loc) (rid ctx pl typ il pa : Nat) :
    (s.withTraffic q k x d m).checkReason l rid ctx pl typ il pa = s.checkReason l rid ctx pl typ il pa := rfl
theorem homeAt_withTraffic (pa : Nat) : (s.withTraffic q k x d m).homeAt pa = s.homeAt pa := by
  rw [homeAt_unfold]
  beta_reduce
  rw [region_withTraffic]
  cases s.region pa <;> rfl

end

section
variable (s : State) (t : Txn)

theorem net_putTxn : (s.putTxn t).net = s.net := by unfold State.putTxn; split <;> rfl
theorem dir_putTxn : (s.putTxn t).dir = s.dir := by unfold State.putTxn; split <;> rfl
theorem cl_putTxn : (s.putTxn t).cl = s.cl := by unfold State.putTxn; split <;> rfl
theorem journal_putTxn : (s.putTxn t).journal = s.journal := by unfold State.putTxn; split <;> rfl

end

theorem putTxn_of_no_txns {s : State} (h : s.txns = []) (t : Txn) : s.putTxn t = { s with txns := [t] } := by
  unfold State.putTxn
  rw [h]
  rfl

/-! ### The request at its home (R29, R297, R303, R311) -/

/-- Whether a request between two dies was sent before a place in the order of sending, and has not arrived (R29). -/
def State.sentBefore (s : State) (src dst : Die) (n : Nat) (r : Req) : Bool :=
  decide (r.phase = .sent) && decide (r.stamp < n) && decide (s.whoDie r.who = src) && decide (s.lineHome r.pa = dst)

/-- What is sent later does not hold back what was sent before it. -/
theorem ahead_append_req (s : State) (src dst : Die) {n : Nat} (k : Nat) {x : Req} (h : n ≤ x.stamp) :
    ({ s with reqs := s.reqs ++ [x], sentNo := k } : State).ahead src dst n = s.ahead src dst n := by
  have hlast : s.sentBefore src dst n x = false := by simp [State.sentBefore, Nat.not_lt.2 h]
  have hreqs : (s.reqs ++ [x]).any (s.sentBefore src dst n) = s.reqs.any (s.sentBefore src dst n) := by
    simp [List.any_append, hlast]
  exact congrArg (fun b => s.ordered && decide (src ≠ dst) &&
    ((s.net.any fun m => decide (m.src = src ∧ m.dst = dst ∧ m.stamp < n) && !m.arrived) || b)) hreqs

theorem locP_line {l : Loc} (h : locOfLine l.line = l) : locP l.line = l.p := congrArg Loc.p h

/-- What `State.homeRequest` computes, as a function: applied to a state, the kernel would first work out the home of the line. -/
theorem homeRequest_unfold : @State.homeRequest = delta% @State.homeRequest := rfl

/-- The transaction that a home opens for a request. -/
def Req.opened (r : Req) (loc : Nat) : Txn :=
  ⟨loc, { r with phase := .home }, .way, [], 0, 0, 0, none, false, r.kind.caching, false, false⟩

theorem busyLine_of_no_txns {s : State} (h : s.txns = []) (loc : Nat) : s.busyLine loc = false := by simp [State.busyLine, h]

theorem settle_of_no_entry {s : State} {loc : Nat} (h : s.ent loc = none) : s.settle loc = s := by
  unfold State.settle
  rw [h]

section
variable {s : State} {r : Req} {l : Loc} (htokens : s.tokens = [])
include htokens

theorem homeRequest_of_open (hhome : s.homeAt (128 * r.pa) = .at l) (hreach : s.reach (s.whoDie r.who) (homeDie l.p) = true)
    (hdown : s.isDown l.p r.who = false) (hahead : s.ahead (s.whoDie r.who) (homeDie l.p) r.stamp = false)
    (hrereads : s.rereads = []) (htxns : s.txns = []) : s.homeRequest r = s.acceptReq r l := by
  have hread : s.rereading l = false := by simp [State.rereading, hrereads]
  have hheld : s.heldBack r.who l.line = false := by simp [State.heldBack, busyLine_of_no_txns htxns, htxns, htokens]
  rw [homeRequest_unfold]
  dsimp only
  rw [hhome]
  dsimp only
  rw [if_neg (by simp [hreach, hdown]), if_neg (by simp [hahead]), if_neg (by simp [hread]), if_neg (by simp [hheld])]

theorem acceptReq_of_no_entry (hcheck : s.homeCheck l r.id r.ctx r.pl r.typ r.il (128 * r.pa) r.off = none)
    (hburr : s.isBurr (128 * r.pa) = false) (hent : s.ent l.line = none) :
    s.acceptReq r l =
      State.goTxn homeFuel ((s.setReq { r with phase := .home }).putTxn (r.opened l.line)) (r.opened l.line) := by
  have hkeep : s.tokens.filter (fun k => ¬ (k.loc = l.line ∧ k.who = r.who)) = s.tokens := by rw [htokens]; rfl
  have hstays : (s.setReq { r with phase := .home }).ent l.line = none := hent
  unfold State.acceptReq
  dsimp only
  rw [hcheck]
  refine (if_neg (by simp [hburr])).trans ?_
  rw [hkeep, settle_of_no_entry hent, hstays]
  rfl

end

/-! ### The transaction at its home (Table 10-5) -/

section
variable {s : State} {t : Txn} (n : Nat)

/-- A transaction whose set is empty takes way 0. -/
theorem goTxn_of_empty_set (hneeds : t.needs = true) (hent : s.ent t.loc = none) (hset : s.dirSet t.loc = [])
    (hothers : ∀ x ∈ s.txns, x.loc = t.loc) : State.goTxn (n + 1) s t = State.actTxn n s { t with way := 0 } := by
  rw [State.goTxn]
  refine (if_pos (by rw [hneeds, hent]; rfl)).trans ?_
  rw [hset, List.filter_eq_nil_iff.2 fun x hx => by simp [hothers x hx]]
  rfl

theorem actTxn_rdS_of_no_entry (hpushing : t.pushing = false) (hkind : t.req.kind = .rdS) (hent : s.ent t.loc = none)
    (hburr : s.isBurr (128 * t.req.pa) = false) : State.actTxn (n + 1) s t = State.finishTxn n (s.grantOwner t .dataE) t := by
  rw [State.actTxn]
  refine (if_neg (by simp [hpushing])).trans ?_
  simp only [hent, hkind, hburr]
  rfl

theorem finishTxn_of_up (hdue : t.compDue = true) (hdown : s.isDown (locP t.loc) t.req.who = false) :
    State.finishTxn (n + 1) s t = s.putTxn { t with phase := .comp, left := [] } := by
  rw [State.finishTxn]
  exact (if_neg (by simp [hdue])).trans (if_neg (by simp [hdown]))

end

/-! ### The grant (R28, R266, R297) -/

/-- A message put on its way. -/
def State.sentOut (s : State) (m : Msg) : State := s.withTraffic s.reqs (s.sentNo + 1) s.txns s.dir (s.net ++ [m])

theorem respond_of_up {s : State} (src dst : Die) {route : List Nat} (m : Msg) (hup : route.all s.linkUp = true) :
    s.respond src dst route m = s.sentOut { m with
      src := src, dst := dst, route := if src = dst then [] else route.reverse, stamp := s.sentNo } := by
  refine if_pos ?_
  split
  · rfl
  · rwa [List.all_reverse]

theorem homeLine_of_clean {s : State} {l : Loc} (hanswers : s.answers = []) (hpois : s.linePoison l = 0) :
    s.homeLine l = (s.memLine l, 0, s) := by
  unfold State.homeLine
  rw [hanswers, hpois]
  rfl

theorem setHolders_of_no_entry {s : State} {t : Txn} (hent : s.ent t.loc = none) (st owner sharers : Nat) :
    s.setHolders t st owner sharers = s.setEnt t.loc ⟨t.way, 0, st, owner, sharers, t.req.pa⟩ := by
  unfold State.setHolders
  rw [hent]

/-- The grant of a line from memory with ownership, as it goes over the request's route reversed. -/
def State.grantMsg (s : State) (t : Txn) : Msg :=
  { Msg.plain .dataE t.req.who t.req.pa with
    data := s.memLine (locOfLine t.loc), ctx := t.req.ctx, src := homeDie (locP t.loc), dst := s.whoDie t.req.who,
    route := if homeDie (locP t.loc) = s.whoDie t.req.who then [] else t.req.route.reverse, stamp := s.sentNo }

/-- A state after an ownership that no entry named before is granted: the entry, and the grant on its way. -/
def State.firstGranted (s : State) (t : Txn) : State :=
  s.withTraffic s.reqs (s.sentNo + 1) s.txns (aSet s.dir t.loc ⟨t.way, 0, 2, t.req.who, 0, t.req.pa⟩) (s.net ++ [s.grantMsg t])

theorem ent_firstGranted (s : State) (t : Txn) : (s.firstGranted t).ent t.loc = some ⟨t.way, 0, 2, t.req.who, 0, t.req.pa⟩ :=
  (aFind_aSet ..).trans (if_pos rfl)

section
variable {s : State} {t : Txn} (hent : s.ent t.loc = none) (hanswers : s.answers = [])
  (hpois : s.linePoison (locOfLine t.loc) = 0) (hfine : t.pois = false) (hup : t.req.route.all s.linkUp = true)
include hent hanswers hpois hfine hup

theorem grantOwner_dataE_of_no_entry : s.grantOwner t .dataE = s.firstGranted t := by
  have hread : (s.setEnt t.loc ⟨t.way, 0, 2, t.req.who, 0, t.req.pa⟩).homeLine (locOfLine t.loc) =
      (s.memLine (locOfLine t.loc), 0, s.setEnt t.loc ⟨t.way, 0, 2, t.req.who, 0, t.req.pa⟩) :=
    homeLine_of_clean hanswers hpois
  unfold State.grantOwner
  dsimp only
  rw [if_neg (by simp), if_neg (by decide), setHolders_of_no_entry hent, State.grantMem, hread, hfine]
  exact respond_of_up _ _ _ hup

theorem goTxn_of_first_reader (hset : s.dirSet t.loc = []) (hothers : ∀ x ∈ s.txns, x.loc = t.loc) (hkind : t.req.kind = .rdS)
    (hpushing : t.pushing = false) (hway : t.way = 0) (hdue : t.compDue = true) (hburr : s.isBurr (128 * t.req.pa) = false)
    (hdown : s.isDown (locP t.loc) t.req.who = false) (n : Nat) :
    State.goTxn (n + 3) s t = (s.firstGranted t).putTxn { t with phase := .comp, left := [] } := by
  have hneeds : t.needs = true := by simp [Txn.needs, hkind]
  have hsame : { t with way := 0 } = t := by rw [← hway]
  rw [goTxn_of_empty_set _ hneeds hent hset hothers, hsame, actTxn_rdS_of_no_entry _ hpushing hkind hent hburr,
    grantOwner_dataE_of_no_entry hent hanswers hpois hfine hup]
  exact finishTxn_of_up n hdue hdown

end

/-! ### From the request to the grant -/

/-- A request that its requester has just made. -/
def State.asked (s : State) (r : Req) : State := s.withTraffic (s.reqs ++ [r]) (s.sentNo + 1) s.txns s.dir s.net

/-- The state in which the home acts on the request, no other transaction running. -/
def State.opened (s : State) (r : Req) (loc : Nat) : State :=
  s.withTraffic ((s.asked r).setReq { r with phase := .home }).reqs (s.sentNo + 1) [r.opened loc] s.dir s.net

theorem readRequest_of_no_line {a : AgentReq} {s : State} (k : ReqKind) (h : Asks s a fun st => st = 0)
    (hline : s.line a.agent (a.pa / 128) = none) :
    s.readRequest a k = (s.asked (s.sendReq (s.askReq a k 0 0))).homeRequest (s.sendReq (s.askReq a k 0 0)) := by
  obtain ⟨hnone, hmay, hst⟩ := h
  rw [readRequest_of_asks k ⟨hnone, hmay, .inl hst⟩, hostLeft_of_no_line hline]
  rfl

section
variable {s : State} {r : Req} {l : Loc} (hent : s.ent l.line = none) (hburr : s.isBurr (128 * r.pa) = false)
  (hdown : s.isDown l.p r.who = false)
include hent hburr hdown

/-- A request of a line that nothing else concerns is accepted, and opens the home's one transaction. -/
theorem homeRequest_asked (htxns : s.txns = []) (htokens : s.tokens = []) (hrereads : s.rereads = [])
    (hhome : s.homeAt (128 * r.pa) = .at l) (hreach : s.reach (s.whoDie r.who) (homeDie l.p) = true)
    (hahead : s.ahead (s.whoDie r.who) (homeDie l.p) r.stamp = false)
    (hcheck : s.homeCheck l r.id r.ctx r.pl r.typ r.il (128 * r.pa) r.off = none) :
    (s.asked r).homeRequest r = State.goTxn homeFuel (s.opened r l.line) (r.opened l.line) := by
  have hfirst : (s.asked r).ahead (s.whoDie r.who) (homeDie l.p) r.stamp = false :=
    (ahead_append_req s _ _ _ (Nat.le_refl r.stamp)).trans hahead
  have hpasses : (s.asked r).homeCheck l r.id r.ctx r.pl r.typ r.il (128 * r.pa) r.off = none :=
    homeCheck_eq_none.2 ((checkReason_withTraffic ..).trans (homeCheck_eq_none.1 hcheck))
  have hfree : ((s.asked r).setReq { r with phase := .home }).txns = [] := htxns
  have haccepted : (s.asked r).homeRequest r = (s.asked r).acceptReq r l :=
    homeRequest_of_open htokens ((homeAt_withTraffic ..).trans hhome) ((reach_withTraffic ..).trans hreach)
      ((isDown_withTraffic ..).trans hdown) hfirst hrereads htxns
  rw [haccepted, acceptReq_of_no_entry (s := s.asked r) htokens hpasses ((isBurr_withTraffic ..).trans hburr) hent,
    putTxn_of_no_txns hfree]
  rfl

/-- The home's one transaction grants the line and waits for COMP. -/
theorem goTxn_opened (hloc : locOfLine l.line = l) (hkind : r.kind = .rdS) (hanswers : s.answers = []) (hpois : s.linePoison l = 0)
    (hset : s.dirSet l.line = []) (hup : r.route.all s.linkUp = true) :
    State.goTxn homeFuel (s.opened r l.line) (r.opened l.line) =
      ((s.opened r l.line).firstGranted (r.opened l.line)).putTxn { r.opened l.line with phase := .comp, left := [] } := by
  have hclean : (s.opened r l.line).linePoison (locOfLine l.line) = 0 := by rw [hloc]; exact (linePoison_withTraffic ..).trans hpois
  have hthere : (s.opened r l.line).isDown (locP l.line) r.who = false := by
    rw [locP_line hloc]
    exact (isDown_withTraffic ..).trans hdown
  have hdue : (r.opened l.line).compDue = true := by rw [Req.opened, hkind]; rfl
  have hothers : ∀ x ∈ (s.opened r l.line).txns, x.loc = l.line := fun x hx => congrArg Txn.loc (List.eq_of_mem_singleton hx)
  exact goTxn_of_first_reader (s := s.opened r l.line) (t := r.opened l.line) hent hanswers hclean rfl
    ((congrArg r.route.all (linkUp_withTraffic ..)).trans hup) hset hothers hkind rfl rfl hdue
    ((isBurr_withTraffic ..).trans hburr) hthere 597

end

theorem grantMsg_opened (s : State) (r : Req) (loc : Nat) : (s.opened r loc).grantMsg (r.opened loc) =
    { Msg.plain .dataE r.who r.pa with
      data := s.memLine (locOfLine loc), ctx := r.ctx, src := homeDie (locP loc), dst := s.whoDie r.who,
      route := if homeDie (locP loc) = s.whoDie r.who then [] else r.route.reverse, stamp := s.sentNo + 1 } := rfl

/-- Settles O30: the request reaches a free line, takes way 0 of an empty set, and its transaction waits for COMP. -/
theorem firstReaderIsGrantedExclusive : Obligations.FirstReaderIsGrantedExclusive := by
  intro a s l hasks hline hhome hreach hahead hup hdown htxns htokens hset hent hburr hcheck hloc hpois hanswers hrereads hjournal
  have ⟨_, hmay, _⟩ := hasks
  have hagent : a.agent < 35 := agent_lt_of_mayAsk hmay
  have hdie : s.whoDie a.agent = agentDie a.agent := whoDie_of_agent s hagent
  let r := s.sendReq (s.askReq a .rdS 0 0)
  have hid : r.id = a.req := if_neg (by change ¬ 64 ≤ a.agent; omega)
  have haccepted : s.readRequest a .rdS = State.goTxn homeFuel (s.opened r l.line) (r.opened l.line) := by
    rw [readRequest_of_no_line .rdS hasks hline]
    exact homeRequest_asked hent hburr hdown htxns htokens hrereads hhome (hdie ▸ hreach) (hdie ▸ hahead) (hid ▸ hcheck)
  have hgranted := goTxn_opened (r := r) hent hburr hdown hloc rfl hanswers hpois hset hup
  have hgives := gives_of_done_eq (i := .rdS a) rfl (haccepted.trans hgranted)
  refine ⟨_, hgives, ?_, ?_, ?_, ?_⟩
  · rw [State.commit_net, net_putTxn]
    refine congrArg (s.net ++ [·]) ((grantMsg_opened s r l.line).trans ?_)
    rw [hloc, locP_line hloc, show s.whoDie r.who = agentDie a.agent from hdie]
    rfl
  · rw [State.ent, State.commit_dir, dir_putTxn]
    exact ent_firstGranted (s.opened r l.line) (r.opened l.line)
  · rw [State.commit_cl, cl_putTxn]
    rfl
  · rw [State.commit_mem, journal_putTxn]
    exact congrArg (Memory.applyAll s.mem) hjournal

end Sys2Proof.Machine
end

section
/-!
Translation and protection (Chapter 11): what an invalidation removes and keeps, and what the commands on the protection tables, their
replicas and their completions answer.
-/

namespace Sys2Proof.Machine
open Sys2Proof

/-! ### Removal of translations (R322, R323, R329) -/

section
variable (s : State) (p : Nat → Bool)

@[simp] theorem State.restartWalks_tlb : (s.restartWalks p).tlb = s.tlb := rfl
@[simp] theorem State.restartWalks_wcache : (s.restartWalks p).wcache = s.wcache := rfl

/-- A walk restarts with its own context, so the restarted walks are those whose context was covered. -/
theorem level_of_mem_restartWalks {w : Walk} (hw : w ∈ (s.restartWalks p).walks) (hp : p w.ctx = true) : w.level = 4 := by
  obtain ⟨v, -, rfl⟩ := List.mem_map.1 hw
  by_cases hv : p v.ctx = true
  · rw [if_pos hv]
  · rw [if_neg hv] at hp
    exact absurd hp hv

variable (scope ctx gid : Nat) (range : W64)

theorem mem_tlb_invalidate (e : TlbE) : e ∈ (s.invalidate scope ctx gid range).tlb ↔
    e ∈ s.tlb ∧ ¬ (s.invCtx scope ctx gid e.ctx = true ∧ (scope ≠ 0 ∨ tlbInRange e range = true)) := by
  simp only [State.invalidate, State.restartWalks_tlb, List.mem_filter]
  refine and_congr_right fun _ => ?_
  rw [Bool.not_eq_true', ← Bool.not_eq_true, Bool.and_eq_true, Bool.or_eq_true, decide_eq_true_eq]

theorem mem_wcache_invalidate (e : WcE) : e ∈ (s.invalidate scope ctx gid range).wcache ↔
    e ∈ s.wcache ∧ s.invCtx scope ctx gid e.ctx = false := by
  simp [State.invalidate, List.mem_filter]

theorem level_of_mem_invalidate {w : Walk} (hw : w ∈ (s.invalidate scope ctx gid range).walks)
    (hc : s.invCtx scope ctx gid w.ctx = true) : w.level = 4 := level_of_mem_restartWalks _ _ hw hc

end

/-- Settles O36: the caches are filtered by what the invalidation covers, and the covered walks restarted. -/
theorem invalidationRemovesExactlyWhatItCovers : Obligations.InvalidationRemovesExactlyWhatItCovers := by
  intro s scope ctx gid range
  exact ⟨mem_tlb_invalidate s scope ctx gid range, mem_wcache_invalidate s scope ctx gid range,
    fun _ => level_of_mem_invalidate s scope ctx gid range, rfl, rfl, rfl, rfl⟩

/-! ### Operations of CPT_CMD (R312, R324, R332) -/

/-- The level may start the operation, and may supply the staged entry where the operation writes one. -/
def State.cptAllowed (s : State) (w : Wr) (op : Nat) : Prop :=
  s.cptRight op w.pl w.ctx (fld w.val 11 0)
      (if op ≤ 8 then s.fdtMaster (fld w.val 47 30) else aGet s.cdt 0 (cdtOf (fld w.val 47 30)))
      ((s.cptStage (bankOf w.pl)).extractLsb' 0 16) = true ∧
    ¬ ((op = 1 ∨ op = 2) ∧ cptRefused (fld w.val 11 0) (s.cptStage (bankOf w.pl)) = true)

/-- The hub with operation `op` accepted: CPT_CMD is BUSY and shows the operands, and the command is the hub's. -/
def State.cptTaken (s : State) (w : Wr) (op : Nat) : State :=
  let bank := bankOf w.pl
  let frame := fld w.val 47 30
  let ctx := fld w.val 11 0
  { ((s.setRf .hub .cptCmd bank 47 30 frame).setRf .hub .cptCmd bank 11 0 ctx).setRf .hub .cptCmd bank 63 63 1 with
    hubCmd := some ⟨op, bank, ctx, frame, 0, 0, 0, 0, 0, false, []⟩ }

section
variable {w : Wr} {s : State} {op : Nat} (f : State → Nat → Nat → Nat → State)
  (hgate : s.gate .hub .cptCmd w.pl w.ctx = .ok) (hop : fld w.val 51 48 = op) (hdie : w.die = .hub)
include hgate hop hdie

theorem cptStart_of_not_allowed (h : ¬ s.cptAllowed w op) : s.cptStart w op f = s.cptRefuse (bankOf w.pl) .perm := by
  unfold State.cptStart
  rw [hgate]
  refine (if_neg (by simp [hop, hdie])).trans (ite_eq_left_iff.2 fun hright => ?_)
  rw [Bool.not_eq_true', Bool.not_eq_false] at hright
  exact if_pos (Classical.not_not.1 fun hentry => h ⟨hright, hentry⟩)

variable (h : s.cptAllowed w op)
include h

/-- An allowed operation waits for nothing but the hub. -/
theorem cptStart_of_allowed : s.cptStart w op f =
    if s.hubCmd.isSome then s.cptRefuse (bankOf w.pl) .busy
    else (f (s.cptTaken w op) (bankOf w.pl) (fld w.val 11 0) (fld w.val 47 30)).answer .ok 0 := by
  obtain ⟨hright, hentry⟩ := h
  unfold State.cptStart
  rw [hgate]
  refine (if_neg (by simp [hop, hdie])).trans ?_
  dsimp only
  rw [hright]
  exact if_neg hentry

theorem cptStart_of_busy (hbusy : s.hubCmd ≠ none) : s.cptStart w op f = s.cptRefuse (bankOf w.pl) .busy :=
  (cptStart_of_allowed f hgate hop hdie h).trans (if_pos (Option.isSome_iff_ne_none.2 hbusy))

theorem cptStart_of_idle (hidle : s.hubCmd = none) : s.cptStart w op f =
    (f (s.cptTaken w op) (bankOf w.pl) (fld w.val 11 0) (fld w.val 47 30)).answer .ok 0 :=
  (cptStart_of_allowed f hgate hop hdie h).trans (if_neg (by simp [hidle]))

end

theorem cptRow_of_exec {mk : Wr → Instr} {op : Nat} {f : State → Nat → Nat → Nat → State}
    (he : ∀ w s, exec (mk w) s = done s (s.cptStart w op f)) : CptRow mk op f := by
  intro w s hgate hop hdie
  exact ⟨fun h => gives_of_done_eq (he w s) (cptStart_of_not_allowed f hgate hop hdie h),
    fun h hbusy => gives_of_done_eq (he w s) (cptStart_of_busy f hgate hop hdie h hbusy),
    fun hidle h => gives_of_done_eq (he w s) (cptStart_of_idle f hgate hop hdie h hidle)⟩

/-- Each row is the shared start of an operation, with the row's own effect. -/
theorem cptRow_of_mem : ∀ r ∈ cptRows, CptRow r.1 r.2.1 r.2.2 := by
  simp only [cptRows, List.forall_mem_cons, List.not_mem_nil, false_imp_iff, implies_true, and_true]
  refine ⟨?_, ?_, ?_, ?_, ?_, ?_, ?_, ?_, ?_, ?_, ?_⟩
  all_goals exact cptRow_of_exec fun _ _ => rfl

/-! ### Replicas (R312, R313, R327, R366) -/

section
variable {rep i : Nat} {s : State} (hup : (if rep = 4 then s.running .hub false else s.running (.cd (cdOf rep)) false) = true)
include hup

/-- The range of a replica's number costs nothing where it is in range, so the update sees the domain that runs. -/
theorem replica_runs (hrep : rep ≤ 4) :
    (if rep = 4 then s.running .hub false else decide (rep < 4) && s.running (.cd (cdOf rep)) false) = true := by
  split_ifs at hup ⊢ with h4
  · exact hup
  · simpa [hup] using Nat.lt_of_le_of_ne hrep h4

theorem replicaUpdate_cpt_gives (hrep : rep ≤ 4) (hi : i < 4096) :
    Gives (.replicaUpdate rep 0 i) s { s with cptRep := aSet s.cptRep (rep, i) (s.cptMaster i) } :=
  gives_of_done_eq rfl ((if_neg (by rw [replica_runs hup hrep]; decide)).trans (if_pos hi))

theorem replicaUpdate_fdt_gives (hrep : rep ≤ 4) (hi : i < 2 ^ 18) :
    Gives (.replicaUpdate rep 1 i) s { s with fdtRep := aSet s.fdtRep (rep, i) (s.fdtMaster i) } :=
  gives_of_done_eq rfl ((if_neg (by rw [replica_runs hup hrep]; decide)).trans (if_pos hi))

theorem replicaUpdate_cdt_gives (hrep : rep = 4) (hi : i < 2 ^ 14) :
    Gives (.replicaUpdate rep 2 i) s { s with cdtRep := aSet s.cdtRep i (aGet s.cdt 0 i) } :=
  gives_of_done_eq rfl ((if_neg (by rw [replica_runs hup hrep.le]; decide)).trans (if_pos ⟨hrep, hi⟩))

end

/-! ### Completions (R323, R324, R329) -/

section
variable {s : State} {h : HubCmd}

/-- The operations other than WRITE_SYNC, SYNC, FDT_SYNC and CDT_SYNC sweep nothing. -/
theorem syncSweep_eq_none (hop : h.op ≠ 2 ∧ h.op ≠ 3 ∧ h.op ≠ 7 ∧ h.op ≠ 10) : s.syncSweep h = none := by
  simp [State.syncSweep, hop]

theorem syncSweep_of_context (hop : h.op = 2 ∨ h.op = 3) :
    s.syncSweep h = some (s.cptInStep h.ctx, s.invContext h.ctx, s.drains fun c => decide (c = h.ctx)) := by
  obtain hop | hop := hop <;> simp [State.syncSweep, hop]

theorem syncSweep_of_frame (hop : h.op = 7) :
    s.syncSweep h = some (s.fdtInStep h.frame, s.invSpan (h.frame * 2 ^ 21) (2 ^ 21), s.drains fun _ => true) := by
  simp [State.syncSweep, hop]

theorem syncSweep_of_deviceFrame (hop : h.op = 10) : s.syncSweep h =
    some (s.cdtInStep (cdtOf h.frame), s.invSpan (cdtBase (cdtOf h.frame)) (2 ^ 30), s.drains fun _ => true) := by
  simp [State.syncSweep, hop]

variable (hcmd : s.hubCmd = some h) (hrun : s.running .hub false = true)
include hcmd hrun

/-- A command of CPT_CMD that has swept waits for what it found under way. -/
theorem cptCommandComplete_swept_gives (hop : h.op ≤ 11) (hswept : h.swept = true) (hdrain : h.drain.any s.draining = false) :
    Gives .cptCommandComplete s (hubDone s h .cptCmd) := by
  refine gives_of_done_eq rfl ?_
  rw [hcmd]
  refine (if_neg (by simp [hrun, hop])).trans ((if_pos hswept).trans ?_)
  rw [hdrain]
  rfl

theorem cptCommandComplete_unsynced_gives (hop : h.op ≤ 11) (hswept : h.swept = false) (hsweep : s.syncSweep h = none) :
    Gives .cptCommandComplete s (hubDone s h .cptCmd) := by
  refine gives_of_done_eq rfl ?_
  rw [hcmd]
  refine (if_neg (by simp [hrun, hop])).trans ((if_neg (by simp [hswept])).trans ?_)
  rw [hsweep]
  rfl

theorem cptCommandComplete_syncs {ready : Bool} {t : State} {l : List Drain} (hop : h.op ≤ 11) (hswept : h.swept = false)
    (hsweep : s.syncSweep h = some (ready, t, l)) (hready : ready = true) : syncs s h t l := by
  refine gives_of_done_eq rfl ?_
  rw [hcmd]
  refine (if_neg (by simp [hrun, hop])).trans ((if_neg (by simp [hswept])).trans ?_)
  rw [hsweep, hready]
  rfl

theorem xltInvComplete_stream_gives (hop : h.op = 16) (hdrain : h.drain.any s.draining = false) (hbank : h.bank = 2) :
    Gives .xltInvComplete s ({ s with hubCmd := none }.cmdFin (cdOf h.die) h.cmd .ok 0 0) := by
  refine gives_of_done_eq rfl ?_
  rw [hcmd]
  exact (if_neg (by simp [hop, hrun, hdrain])).trans (if_pos hbank)

theorem xltInvComplete_register_gives (hop : h.op = 16) (hdrain : h.drain.any s.draining = false) (hbank : h.bank ≠ 2) :
    Gives .xltInvComplete s (hubDone s h .xltInvCmd) := by
  refine gives_of_done_eq rfl ?_
  rw [hcmd]
  exact (if_neg (by simp [hop, hrun, hdrain])).trans (if_neg hbank)

end

/-! ### XLT_INV (R322-R324, R332) -/

section
variable {w : Wr} {s : State} (hgate : s.gate .hub .xltInvCmd w.pl w.ctx = .ok) (hgo : w.val.getLsbD 12 = true) (hdie : w.die = .hub)
include hgate hgo hdie

theorem xltInv_perm_gives (hright : s.invRight w.pl w.ctx (fld w.val 49 48) (fld w.val 11 0) (fld w.val 47 40) = false) :
    Gives (.xltInv w) s ((s.setRf .hub .xltInvCmd (bankOf w.pl) 59 56 1).answer .perm 0) := by
  refine gives_of_done_eq rfl ?_
  rw [hgate]
  exact (if_neg (by simp [hgo, hdie])).trans (if_pos (by simp [hright]))

variable (hright : s.invRight w.pl w.ctx (fld w.val 49 48) (fld w.val 11 0) (fld w.val 47 40) = true)
include hright

theorem xltInv_busy_gives (hbusy : s.hubCmd ≠ none) :
    Gives (.xltInv w) s ((s.setRf .hub .xltInvCmd (bankOf w.pl) 59 56 8).answer .busy 0) := by
  refine gives_of_done_eq rfl ?_
  rw [hgate]
  exact (if_neg (by simp [hgo, hdie])).trans ((if_neg (by simp [hright])).trans (if_pos (Option.isSome_iff_ne_none.2 hbusy)))

theorem xltInv_accepted_gives (hidle : s.hubCmd = none) :
    let bank := bankOf w.pl
    let ctx := fld w.val 11 0
    let t := ((s.setRf .hub .xltInvCmd bank 49 40 (fld w.val 49 40)).setRf .hub .xltInvCmd bank 11 0 ctx).setRf .hub .xltInvCmd bank 63 63 1
    Gives (.xltInv w) s ((t.invStart
      ⟨16, bank, ctx, 0, fld w.val 49 48, fld w.val 47 40, s.reg .hub .xltInvAddr bank, 0, 0, true, []⟩).answer .ok 0) := by
  refine gives_of_done_eq rfl ?_
  rw [hgate]
  exact (if_neg (by simp [hgo, hdie])).trans ((if_neg (by simp [hright])).trans (if_neg (by simp [hidle])))

end

/-- Settles O35: CPT_CMD row by row, the replicas by their kind, the completions by what their command sweeps, and XLT_INV by its
refusals. -/
theorem protectionTableCommands : Obligations.ProtectionTableCommands := by
  refine ⟨cptRow_of_mem, ?replicas, ?completions, ?invalidations⟩
  case replicas =>
    intro rep i s hup hrep
    exact ⟨replicaUpdate_cpt_gives hup hrep, replicaUpdate_fdt_gives hup hrep, replicaUpdate_cdt_gives hup⟩
  case completions =>
    intro s h hcmd hrun
    refine ⟨fun hop hswept => ?unsynced, fun hop hswept => ?context, fun hop hswept => ?frame, fun hop hswept => ?device, ?swept,
      fun hop hdrain => ?inv⟩
    case unsynced => exact cptCommandComplete_unsynced_gives hcmd hrun (by omega) hswept (syncSweep_eq_none (by omega))
    case context => exact cptCommandComplete_syncs hcmd hrun (by omega) hswept (syncSweep_of_context hop)
    case frame => exact cptCommandComplete_syncs hcmd hrun (by omega) hswept (syncSweep_of_frame hop)
    case device => exact cptCommandComplete_syncs hcmd hrun (by omega) hswept (syncSweep_of_deviceFrame hop)
    case swept => exact cptCommandComplete_swept_gives hcmd hrun
    case inv => exact ⟨xltInvComplete_register_gives hcmd hrun hop hdrain, xltInvComplete_stream_gives hcmd hrun hop hdrain⟩
  case invalidations =>
    intro w s hgate hgo hdie
    exact ⟨xltInv_busy_gives hgate hgo hdie, xltInv_perm_gives hgate hgo hdie,
      fun hidle hright => xltInv_accepted_gives hgate hgo hdie hright hidle⟩

end Sys2Proof.Machine
end

section
/-!
The queue and memory (Chapters 00 and 95): a step takes the front command, and every command ends by committing its effect.
-/

namespace Sys2Proof.Machine
open Sys2Proof

/-- Settles O1: a step looks at nothing of the queue but its front. -/
theorem stepRunsTheFrontCommand : Obligations.StepRunsTheFrontCommand := by
  intro c rest s h
  rw [step, h]

/-- Settles O2: whatever its effect, a command ends with the queue that it began with and an empty journal. -/
theorem everyCommandAnswersANextState : Obligations.EveryCommandAnswersANextState := by
  intro i s
  obtain ⟨e, he⟩ := exec_done i s
  exact ⟨s.commit e, he, State.commit_pending s e, State.commit_journal s e⟩

/-- A step commits an effect on the state without its front command. -/
theorem step_commits (s : State) : ∃ e, step s = .next ({ s with pending := s.pending.tail }.commit e) := by
  cases hq : s.pending with
  | nil => exact ⟨s.tick, (emptyQueueIsATick.1 s hq).trans (by rw [State.commit, State.commit, hq, List.tail_nil])⟩
  | cons c rest =>
    obtain ⟨e, he⟩ := exec_done c { s with pending := rest }
    exact ⟨e, (stepRunsTheFrontCommand c rest s hq).trans he⟩

/-- Settles O3: the journal that a step performs keeps the canonical form. -/
theorem stepKeepsMemoryCanonical : Obligations.StepKeepsMemoryCanonical := by
  intro s t hwf _ ht
  obtain ⟨e, he⟩ := step_commits s
  obtain rfl : State.commit _ e = t := Host.Outcome.next.inj (he.symm.trans ht)
  exact ⟨Memory.applyAll_wf hwf e.journal, rfl, rfl⟩

end Sys2Proof.Machine
end

section
/-!
Access types (Table 0-5): the fields of a register lie apart, so that a walk over them acts on each as on it alone.
-/

namespace Sys2Proof.Machine
open Sys2Proof

/-- Bits cleared are those held less those both held and named. -/
theorem bitVec_sub_and {w : Nat} (a b : BitVec w) : a - (a &&& b) = a &&& ~~~b := by
  have hapart : (a &&& b) &&& (a &&& ~~~b) = 0#w := by ext i; simp; tauto
  have hsum : (a &&& b) + (a &&& ~~~b) = a := by
    rw [BitVec.add_eq_or_of_and_eq_zero _ _ hapart]
    ext i
    cases hb : b[i] <;> simp [hb]
  calc a - (a &&& b) = (a &&& b) + (a &&& ~~~b) - (a &&& b) := by rw [hsum]
    _ = a &&& ~~~b := by rw [BitVec.add_comm, BitVec.add_sub_cancel]

theorem fld_eq_extractLsb' {w : Nat} (x : BitVec w) (hi lo : Nat) : fld x hi lo = (x.extractLsb' lo (hi + 1 - lo)).toNat :=
  (BitVec.extractLsb'_toNat _ _ _).symm

theorem fld_lt {w : Nat} (x : BitVec w) (hi lo : Nat) : fld x hi lo < 2 ^ (hi + 1 - lo) := Nat.mod_lt _ (Nat.two_pow_pos _)

theorem fld_zero (hi lo : Nat) : fld (0 : W64) hi lo = 0 := by simp [fld]

/-- A write of 1s clears (W1C). -/
theorem fld_and_not (x y : W64) {hi lo : Nat} (h : hi < 64) :
    fld (x &&& ~~~y) hi lo = fld x hi lo - (fld x hi lo &&& fld y hi lo) := by
  have hnot : (~~~y).extractLsb' lo (hi + 1 - lo) = ~~~(y.extractLsb' lo (hi + 1 - lo)) := by
    ext i hi'
    have : lo + i < 64 := by omega
    simp [this]
  have hle : x.extractLsb' lo (hi + 1 - lo) &&& y.extractLsb' lo (hi + 1 - lo) ≤ x.extractLsb' lo (hi + 1 - lo) := by
    rw [BitVec.le_def, BitVec.toNat_and]
    exact Nat.and_le_left
  simp only [fld_eq_extractLsb']
  rw [BitVec.extractLsb'_and, hnot, ← bitVec_sub_and, BitVec.toNat_sub_of_le hle, BitVec.toNat_and]

/-- A write of 1s sets (W1S). -/
theorem fld_or (x y : W64) (hi lo : Nat) : fld (x ||| y) hi lo = fld x hi lo ||| fld y hi lo := by
  simp only [fld_eq_extractLsb', BitVec.extractLsb'_or, BitVec.toNat_or]

/-- Two fields share no bit. -/
abbrev RField.Apart (a b : RField) : Prop := a.hi < b.lo ∨ b.hi < a.lo

theorem RField.Apart.symm {a b : RField} (h : a.Apart b) : b.Apart a := Or.symm h

/-- In every table the fields lie apart. -/
theorem fields_apart (n : RegName) : (regInfo n).fields.Pairwise RField.Apart := by
  cases n <;> decide

/-- In every table the fields lie within their register. -/
theorem field_hi_lt (n : RegName) : ∀ f ∈ (regInfo n).fields, f.hi < 64 := by
  cases n <;> decide

section
variable {g : W64 → RField → W64} (hg : ∀ o f b, f.Apart b → fld (g o f) b.hi b.lo = fld o b.hi b.lo)
include hg

theorem fld_foldl_apart {b : RField} : ∀ (l : List RField) (o : W64), (∀ f ∈ l, f.Apart b) →
    fld (l.foldl g o) b.hi b.lo = fld o b.hi b.lo
  | [], _, _ => rfl
  | f :: l, o, h => (fld_foldl_apart l (g o f) fun x hx => h x (List.mem_cons_of_mem _ hx)).trans (hg o f b (h f List.mem_cons_self))

/-- A walk over fields that lie apart leaves each as its own step makes it of what it was. -/
theorem fld_foldl_mem {f : RField} {v : Nat → Nat} (hv : ∀ o, fld (g o f) f.hi f.lo = v (fld o f.hi f.lo)) :
    ∀ (l : List RField) (o : W64), l.Pairwise RField.Apart → f ∈ l → fld (l.foldl g o) f.hi f.lo = v (fld o f.hi f.lo)
  | a :: l, o, hp, hf => by
    obtain ⟨ha, hl⟩ := List.pairwise_cons.1 hp
    obtain rfl | hf := List.mem_cons.1 hf
    · exact (fld_foldl_apart hg l (g o f) fun b hb => (ha b hb).symm).trans (hv o)
    · exact (fld_foldl_mem hv l (g o a) hl hf).trans (congrArg v (hg o a f (ha f hf)))

end

/-- What an access type makes of a field that holds `o` and is written with `v`. -/
def RAcc.written (a : RAcc) (o v : Nat) : Nat :=
  match a with
  | .rw => v
  | .w1c => o - (o &&& v)
  | .w1s => o ||| v
  | _ => o

theorem fld_writeField (o val : W64) {f : RField} (h : f.hi < 64) :
    fld (writeField o val f) f.hi f.lo = f.acc.written (fld o f.hi f.lo) (fld val f.hi f.lo) := by
  have hlt := fun x : W64 => fld_lt x f.hi f.lo
  unfold writeField RAcc.written
  cases f.acc <;> simp only [fld_setFld_same _ _ h]
  case rw => exact Nat.mod_eq_of_lt (hlt val)
  case w1c => exact Nat.mod_eq_of_lt (Nat.lt_of_le_of_lt (Nat.sub_le _ _) (hlt o))
  case w1s => exact Nat.mod_eq_of_lt (Nat.or_lt_two_pow (hlt o) (hlt val))

theorem fld_writeField_apart (val : W64) (o : W64) (f b : RField) (h : f.Apart b) :
    fld (writeField o val f) b.hi b.lo = fld o b.hi b.lo := by
  unfold writeField
  cases f.acc <;> simp only [fld_setFld_disjoint _ _ h.symm]

theorem fld_writeFields {n : RegName} (old val : W64) {f : RField} (hf : f ∈ (regInfo n).fields) :
    fld (writeFields n old val) f.hi f.lo = f.acc.written (fld old f.hi f.lo) (fld val f.hi f.lo) :=
  fld_foldl_mem (fld_writeField_apart val) (v := fun o => f.acc.written o (fld val f.hi f.lo))
    (fun o => fld_writeField o val (field_hi_lt n f hf)) _ old (fields_apart n) hf

theorem fld_readFields {n : RegName} (old : W64) {f : RField} (hf : f ∈ (regInfo n).fields) :
    fld (readFields n old) f.hi f.lo = if f.acc = .wo ∨ f.acc = .rsvd then 0 else fld old f.hi f.lo := by
  refine (fld_foldl_mem ?apart (v := fun o => if f.acc = .wo ∨ f.acc = .rsvd then o else fld old f.hi f.lo) ?own _ 0
    (fields_apart n) hf).trans (by rw [fld_zero])
  case apart =>
    intro o a b h
    cases a.acc <;> simp only [fld_setFld_disjoint _ _ h.symm]
  case own =>
    intro o
    have hkept := (fld_setFld_same o (fld old f.hi f.lo) (lo := f.lo) (field_hi_lt n f hf)).trans (Nat.mod_eq_of_lt (fld_lt old f.hi f.lo))
    cases f.acc <;> simp [hkept]

theorem fld_clearedByRead {n : RegName} (old : W64) {f : RField} (hf : f ∈ (regInfo n).fields) :
    fld (clearedByRead n old) f.hi f.lo = if f.acc = .rc then 0 else fld old f.hi f.lo := by
  refine fld_foldl_mem ?apart (v := fun o => if f.acc = .rc then 0 else o) ?own _ old (fields_apart n) hf
  case apart =>
    intro o a b h
    cases a.acc <;> simp only [fld_setFld_disjoint _ _ h.symm]
  case own =>
    intro o
    have hclear := fld_setFld_same o 0 (lo := f.lo) (field_hi_lt n f hf)
    cases f.acc <;> simp [hclear]

theorem getLsbD_writeField_outside {o val : W64} {f : RField} {i : Nat} (h : ¬ (f.lo ≤ i ∧ i ≤ f.hi)) :
    (writeField o val f).getLsbD i = o.getLsbD i := by
  have hbit : ∀ v, (setFld o f.hi f.lo v).getLsbD i = o.getLsbD i := fun v => by
    rw [getLsbD_setFld, if_neg fun hc => h ⟨hc.1, hc.2.1⟩]
  unfold writeField
  cases f.acc <;> simp only [hbit]

theorem getLsbD_writeFields_outside {val : W64} {i : Nat} : ∀ (l : List RField) (o : W64), (∀ f ∈ l, ¬ (f.lo ≤ i ∧ i ≤ f.hi)) →
    (l.foldl (fun o f => writeField o val f) o).getLsbD i = o.getLsbD i
  | [], _, _ => rfl
  | f :: l, _, h => (getLsbD_writeFields_outside l _ fun x hx => h x (List.mem_cons_of_mem _ hx)).trans
      (getLsbD_writeField_outside (h f List.mem_cons_self))

/-- Settles O43: the fields lie apart, so each is what its access type makes of it, and the bits of no field stay. -/
theorem fieldsFollowTheirAccessTypes : Obligations.FieldsFollowTheirAccessTypes := by
  intro n old val
  refine ⟨fun f hf => ⟨(fld_writeFields old val hf).trans ?_, fld_readFields old hf, fld_clearedByRead old hf⟩,
    fun i _ hi => getLsbD_writeFields_outside _ old hi⟩
  rw [fld_and_not old val (field_hi_lt n f hf), fld_or]
  cases f.acc <;> rfl

end Sys2Proof.Machine
end

section
/-!
DMA channels (Chapter 12): the segments of a row, what each operation does with its next segment, and the actions of DMA_CTRL.
-/

namespace Sys2Proof.Machine
open Sys2Proof

/-! ### Segments (R343) -/

section
variable {r : DmaRun} {n : Nat}

theorem advance_within (h : r.byte + n < ddLen r.desc) : r.advance n = { r with byte := r.byte + n } :=
  if_neg (Nat.not_le_of_lt h)

theorem advance_to_end (h : r.byte + n = ddLen r.desc) : r.advance n = { r with row := r.row + 1, byte := 0 } := if_pos h.ge

theorem next_len (r : DmaRun) : r.next.1 = min (ddLen r.desc - r.byte) (128 - r.next.2.2.1 % 128) := rfl

/-- Destinations follow the bytes of a row. -/
theorem next_dst_advance (h : r.byte + n < ddLen r.desc) : (r.advance n).next.2.2.1 = (r.next.2.2.1 + n) % 2 ^ 64 := by
  rw [advance_within h]
  change (ddDst r.desc + r.row * ddDstride r.desc + (r.byte + n)) % 2 ^ 64 =
    ((ddDst r.desc + r.row * ddDstride r.desc + r.byte) % 2 ^ 64 + n) % 2 ^ 64
  rw [Nat.mod_add_mod, Nat.add_assoc _ r.byte n]

end

/-- Settles O38: a segment is cut at the end of its line or of its row, whichever comes first, and the cursor moves on by its length. -/
theorem dmaSegmentsCoverTheirRows : Obligations.DmaSegmentsCoverTheirRows := by
  intro r hr
  have hlen := next_len r
  refine ⟨by omega, by omega, by omega, by omega, fun h => ?within, fun h => ?finish⟩
  case within => exact ⟨by rw [advance_within h], by rw [advance_within h], next_dst_advance h⟩
  case finish => exact ⟨by rw [advance_to_end h], by rw [advance_to_end h]⟩

/-! ### Actions of DMA_CTRL (R339) -/

theorem dmaCtlRow_of_exec {mk : Wr → Instr} {a : Nat} {g : Wr → State → Nat → State} {f : Die → State → Nat → State}
    (he : ∀ w s, exec (mk w) s = done s (s.dmaCtl w (mk w) a (g w))) (hf : ∀ w t ch, g w t ch = f w.die t ch) :
    DmaCtlRow mk a f := by
  intro w s v ch hgate haction
  refine gives_of_done_eq (he w s) ?_
  unfold State.dmaCtl
  dsimp only
  rw [hgate]
  exact (if_neg (not_not_intro haction)).trans (by rw [hf])

/-! ### Segments as they issue (R341-R343) -/

section
variable {s t : State} {d : Die} {ch opc : Nat} {r0 r : DmaRun} {st : Status} {rec : List Nat} {w : Wait}
  {f : State → DmaRun → Except Wait (DmaRun × Status × List Nat × State)} (hfront : s.dmaFront d ch opc = some r0)
include hfront

theorem dmaIssue_answered (hf : f s r0 = .ok (r, st, rec, t)) : s.dmaIssue d ch opc f = segIssued t d ch r st rec := by
  rw [State.dmaIssue, hfront]
  dsimp only
  rw [hf]
  rfl

theorem dmaIssue_waits (hf : f s r0 = .error w) : s.dmaIssue d ch opc f = segWaits s d ch r0 w := by
  rw [State.dmaIssue, hfront]
  dsimp only
  rw [hf]
  rfl

end

section
variable {s s1 t u : State} {d : Die} {ch : Nat} {r0 r : DmaRun} {l : List Byte} {rec rec' : List Nat} {st : Status} {w : Wait}

theorem dmaSeg_ok (h : s.dmaPut d ch r.next.2.2.1 l (ddStrm r.desc) = .ok (st, rec, t)) : s.dmaSeg d ch r l = .ok (r, st, rec, t) := by
  rw [State.dmaSeg, h]

theorem dmaSeg_error (h : s.dmaPut d ch r.next.2.2.1 l (ddStrm r.desc) = .error w) : s.dmaSeg d ch r l = .error w := by
  rw [State.dmaSeg, h]

theorem segWrites_of_exec {i : Instr} {opc : Nat} {g : DmaRun → List Byte}
    (he : exec i s = done s (s.dmaIssue d ch opc fun s r => s.dmaSeg d ch r (g r))) : SegWrites i d ch opc s g := by
  intro r hfront
  exact ⟨fun st rec t h => gives_of_done_eq he (dmaIssue_answered hfront (dmaSeg_ok h)),
    fun w h => gives_of_done_eq he (dmaIssue_waits hfront (dmaSeg_error h))⟩

section
variable (hfront : s.dmaFront d ch 1 = some r0) (hkeep : s.dmaKeep d ch r0 = .ok (r, s1))
include hfront hkeep

theorem dmaCopy_gives (hread : s1.dmaRead d ch r.next.2.1 r.next.1 = .ok (.ok, l, rec, t))
    (hput : { t with free := t.free + 128 }.dmaPut d ch r.next.2.2.1 (overlapBytes r t.free r.next.2.1 r.next.2.2.1 l)
      (ddStrm r.desc) = .ok (st, rec', u)) : Gives (.dmaCopy d ch) s (segIssued u d ch r st rec') := by
  refine gives_of_done_eq rfl (dmaIssue_answered hfront ?_)
  rw [hkeep]
  dsimp only
  rw [hread]
  exact dmaSeg_ok hput

theorem dmaCopy_unread_gives (hread : s1.dmaRead d ch r.next.2.1 r.next.1 = .ok (st, l, rec, t)) (hst : st ≠ .ok) :
    Gives (.dmaCopy d ch) s (segIssued t d ch r st rec) := by
  refine gives_of_done_eq rfl (dmaIssue_answered hfront ?_)
  rw [hkeep]
  dsimp only
  rw [hread]
  cases st with
  | ok => exact absurd rfl hst
  | _ => rfl

theorem dmaCopy_waits_gives (hread : s1.dmaRead d ch r.next.2.1 r.next.1 = .error w) :
    Gives (.dmaCopy d ch) s (segWaits s d ch r0 w) := by
  refine gives_of_done_eq rfl (dmaIssue_waits hfront ?_)
  rw [hkeep]
  dsimp only
  rw [hread]

end

section
variable {k : TileRef} {b : Block}

theorem tolocal_gives (hfront : s.dmaFront d ch 4 = some r)
    (hblock : s.localBlock d ch r.next.2.2.1 (ddLseq r.desc) r.next.1 = (.ok, some (k, b)))
    (hread : s.dmaRead d ch r.next.2.1 r.next.1 = .ok (.ok, l, rec, u)) :
    Gives (.tolocal d ch) s (segIssued (u.setBlock k (b.lwr (r.next.2.2.1 % 2 ^ 32) r.next.1 (leNat l))) d ch r .ok []) := by
  refine gives_of_done_eq rfl (dmaIssue_answered hfront ?_)
  rw [hblock]
  dsimp only
  rw [hread]

theorem fromlocal_gives (hfront : s.dmaFront d ch 5 = some r)
    (hblock : s.localBlock d ch r.next.2.1 (ddLseq r.desc) r.next.1 = (.ok, some (k, b)))
    (hput : s.dmaPut d ch r.next.2.2.1 (leBytes r.next.1 (b.lrd (r.next.2.1 % 2 ^ 32) r.next.1)) (ddStrm r.desc) = .ok (st, rec, u)) :
    Gives (.fromlocal d ch) s (segIssued u d ch r st rec) := by
  refine gives_of_done_eq rfl (dmaIssue_answered hfront ?_)
  rw [hblock]
  exact dmaSeg_ok hput

theorem tolocal_noBlock_gives (hfront : s.dmaFront d ch 4 = some r)
    (hblock : s.localBlock d ch r.next.2.2.1 (ddLseq r.desc) r.next.1 = (st, none)) : Gives (.tolocal d ch) s (segIssued s d ch r st []) := by
  refine gives_of_done_eq rfl (dmaIssue_answered hfront ?_)
  rw [hblock]
  cases st <;> rfl

theorem fromlocal_noBlock_gives (hfront : s.dmaFront d ch 5 = some r)
    (hblock : s.localBlock d ch r.next.2.1 (ddLseq r.desc) r.next.1 = (st, none)) : Gives (.fromlocal d ch) s (segIssued s d ch r st []) := by
  refine gives_of_done_eq rfl (dmaIssue_answered hfront ?_)
  rw [hblock]
  cases st <;> rfl

end

/-- Where a channel's cursor stands once `rest` is in flight: at its oldest segment, or at the next to issue (R345). -/
def DmaRun.oldestOf (r : DmaRun) (rest : List DmaSeg) : Nat × Nat :=
  match rest with
  | h :: _ => (h.row, h.byte)
  | [] => (r.row, r.byte)

/-! ### Descriptors and responses (R342-R345) -/

section
variable (hrun : s.dma? d ch = some r) (hworks : s.dmaWorks d ch = true) (hst : s.dmaSt d ch = 1)
include hrun hworks hst

/-- The channel that reads its descriptor, with what the read says. -/
theorem dmaDescriptorRead_done (hgot : r.got = false) (hstop : r.stop = 0 ∨ r.begun = true)
    (hread : s.dmaRead d ch r.addr 64 = .ok (st, l, rec, t)) :
    exec (.dmaDescriptorRead d ch) s = done s (if st = .ok then
      if t.ddCheck d (leNat l) = true then
        let r1 := { r with desc := leNat l, got := true, row := 0, byte := 0, begun := false }
        ((t.setDma d ch r1).setCursor d ch 0 0).dmaSettle d ch r1
      else t.dmaStop d ch { r with desc := 0 } .perm 0 0 []
    else t.dmaStop d ch r st 0 0 rec) := by
  have hmay : ¬ (!s.dmaWorks d ch || decide (s.dmaSt d ch ≠ 1) || r.got || (decide (r.stop ≠ 0) && !r.begun)) = true := by
    simp [hworks, hst, hgot]
    tauto
  refine congrArg (done s) ?_
  rw [hrun]
  refine (if_neg hmay).trans ?_
  rw [hread]
  cases st <;> rfl

variable {g : DmaSeg} {rest : List DmaSeg} (hsegs : r.segs = g :: rest)
include hsegs

theorem dmaSegmentResponse_done : exec (.dmaSegmentResponse d ch) s = done s (if g.st ≠ .ok then
      if r.begun = true then s else s.dmaStop d ch r g.st g.row g.byte g.report
    else
      let r1 := { r with segs := rest }
      ((s.setDma d ch r1).setCursor d ch (r.oldestOf rest).1 (r.oldestOf rest).2).dmaSettle d ch r1) := by
  refine congrArg (done s) ?_
  rw [hrun]
  refine (if_neg (by simp [hworks, hst])).trans ?_
  rw [hsegs]
  rfl

end

end

/-- Settles O37: each action as its own, each operation by what its accesses answer. -/
theorem dmaOperations : Obligations.DmaOperations := by
  refine ⟨⟨?_, ?_, ?_, ?_, ?_, ?_⟩, ?copy, ?unread, ?waits, fun d ch s => segWrites_of_exec rfl, fun d ch s => segWrites_of_exec rfl,
    ?tolocal, ?fromlocal, ?noBlock, ?descriptor, ?response⟩
  iterate 6 exact dmaCtlRow_of_exec (fun _ _ => rfl) (fun _ _ _ => rfl)
  case copy =>
    intro d ch s s1 t u r0 r l rec rec' st hfront hkeep
    exact dmaCopy_gives hfront hkeep
  case unread =>
    intro d ch s s1 t r0 r l rec st hfront hkeep
    exact dmaCopy_unread_gives hfront hkeep
  case waits =>
    intro d ch s s1 r0 r w hfront hkeep
    exact dmaCopy_waits_gives hfront hkeep
  case tolocal =>
    intro d ch s u r t b l rec
    exact tolocal_gives
  case fromlocal =>
    intro d ch s u r t b rec st
    exact fromlocal_gives
  case noBlock =>
    intro d ch s r st _
    exact ⟨tolocal_noBlock_gives, fromlocal_noBlock_gives⟩
  case descriptor =>
    intro d ch s t r l rec st hrun hworks hst hgot hstop hread
    have hdone := dmaDescriptorRead_done hrun hworks hst hgot hstop hread
    refine ⟨fun h => gives_of_done_eq hdone (if_neg h), fun h hcheck => gives_of_done_eq hdone ?_, fun h hcheck => gives_of_done_eq hdone ?_⟩
    · rw [if_pos h, if_neg (by simp [hcheck])]
    · rw [if_pos h, if_pos hcheck]
  case response =>
    intro d ch s r g rest hrun hworks hst hsegs
    have hdone := dmaSegmentResponse_done hrun hworks hst hsegs
    refine ⟨fun h hb => gives_of_done_eq hdone ?_, fun h hb => gives_of_done_eq hdone ?_, fun h => gives_of_done_eq hdone ?_⟩
    · rw [if_pos h, if_neg (by simp [hb])]
    · rw [if_pos h, if_pos hb]
    · exact if_neg (not_not_intro h)

end Sys2Proof.Machine
end

section
/-!
Command streams (Chapter 12): how a queue takes its front word, and what each well-formed command of Table 12-3 has as its effect.
-/

namespace Sys2Proof.Machine
open Sys2Proof

/-! ### One-bit fields -/

theorem rf_bit_eq_one {s : State} {d : Die} {n : RegName} {i k : Nat} : s.rf d n i k k = 1 ↔ (s.reg d n i).getLsbD k = true := by
  rw [State.rf, fld_bit]
  cases (s.reg d n i).getLsbD k <;> decide

theorem rf_bit_eq_zero {s : State} {d : Die} {n : RegName} {i k : Nat} : s.rf d n i k k = 0 ↔ (s.reg d n i).getLsbD k = false := by
  rw [State.rf, fld_bit]
  cases (s.reg d n i).getLsbD k <;> decide

/-! ### The front of a queue (R348, R349) -/

section
variable {s t : State} {die : Fin 4} {q op : Nat} {w : W64} {ops : List W64} (f : State → Cmd → State)

theorem cqRow_word (hfront : s.cqFront die q = .word w ops t) (hop : cwOp w = op)
    (hformat : cwFormatOk (s.call? die q).isSome w ops = true) :
    s.cqRow die q op f = if t.cqHolds die q w = true then f t (t.cqCmd die q w ops) else t.cqWait die q := by
  rw [State.cqRow, hfront]
  exact (if_pos (by simp [hop])).trans (if_pos hformat)

theorem cqRow_word_bad_format (hfront : s.cqFront die q = .word w ops t) (hmine : cwOp w = op ∨ op = 0 ∧ cwKnown (cwOp w) = false)
    (hformat : cwFormatOk (s.call? die q).isSome w ops = false) : s.cqRow die q op f = t.cqError die q .perm w := by
  rw [State.cqRow, hfront]
  exact (if_pos (by simpa using hmine)).trans (if_neg (by simp [hformat]))

theorem cqRow_bad {st : Status} (hfront : s.cqFront die q = .bad st w t) (hop : cwOp w = op) :
    s.cqRow die q op f = t.cqError die q st w := by
  rw [State.cqRow, hfront]
  exact if_pos (by simp [hop])

theorem cqRow_part (hfront : s.cqFront die q = .part w t) (hop : cwOp w = op) : s.cqRow die q op f = t.cqWait die q := by
  rw [State.cqRow, hfront]
  exact if_pos (by simp [hop])

theorem cqRow_wait {x : Wait} (hfront : s.cqFront die q = .wait x) : s.cqRow die q op f = s.await x := by rw [State.cqRow, hfront]

end

/-- Every row of Table 12-3 takes the front of its queue as the others do. -/
theorem exec_streamRow : ∀ r ∈ streamRows, ∃ f : Fin 4 → Nat → State → Cmd → State,
    ∀ die q s, exec (r.1 die q) s = done s (s.cqRow die q r.2 (f die q)) := by
  simp only [streamRows, List.forall_mem_cons, List.not_mem_nil, false_imp_iff, implies_true, and_true]
  refine ⟨?_, ?_, ?_, ?_, ?_, ?_, ?_, ?_, ?_, ?_, ?_, ?_, ?_, ?_⟩
  all_goals exact ⟨_, fun _ _ _ => rfl⟩

/-- The table's codes are those of its rows, and a word with another code breaks every format. -/
theorem cwKnown_eq_false {op : Nat} (h : ∀ r ∈ streamRows, op ≠ r.2) : cwKnown op = false := by
  simp only [streamRows, List.forall_mem_cons, List.not_mem_nil, false_imp_iff, implies_true, and_true] at h
  simp only [cwKnown, Bool.or_eq_false_iff, decide_eq_false_iff_not]
  omega

theorem cwFormatOk_eq_false {inCall : Bool} {w : W64} {ops : List W64} (h : cwKnown (cwOp w) = false) :
    cwFormatOk inCall w ops = false := by
  simp [cwFormatOk, h]

theorem streamRow_refused : ∀ r ∈ streamRows, ∀ (die : Fin 4) (q : Nat) (s t : State) (w : W64) (ops : List W64) (st : Status),
    (s.cqFront die q = .bad st w t → cwOp w = r.2 → Gives (r.1 die q) s (t.cqError die q st w)) ∧
    (s.cqFront die q = .word w ops t → cwOp w = r.2 → cwFormatOk (s.call? die q).isSome w ops = false →
      Gives (r.1 die q) s (t.cqError die q .perm w)) ∧
    (s.cqFront die q = .word w ops t → (∀ r ∈ streamRows, cwOp w ≠ r.2) → Gives (.cmdNop die q) s (t.cqError die q .perm w)) := by
  intro r hr die q s t w ops st
  obtain ⟨f, hf⟩ := exec_streamRow r hr
  refine ⟨fun hfront hop => gives_of_done_eq (hf die q s) (cqRow_bad _ hfront hop),
    fun hfront hop hformat => gives_of_done_eq (hf die q s) (cqRow_word_bad_format _ hfront (.inl hop) hformat), fun hfront hop => ?_⟩
  have hknown := cwKnown_eq_false hop
  exact gives_of_done_eq rfl (cqRow_word_bad_format _ hfront (.inr ⟨rfl, hknown⟩) (cwFormatOk_eq_false hknown))

theorem streamRow_waits : ∀ r ∈ streamRows, ∀ (die : Fin 4) (q : Nat) (s t : State) (w : Wait) (x : W64),
    (s.cqFront die q = .wait w → Gives (r.1 die q) s (s.await w)) ∧
    (s.cqFront die q = .part x t → cwOp x = r.2 → Gives (r.1 die q) s (t.cqWait die q)) := by
  intro r hr die q s t w x
  obtain ⟨f, hf⟩ := exec_streamRow r hr
  exact ⟨fun hfront => gives_of_done_eq (hf die q s) (cqRow_wait _ hfront),
    fun hfront hop => gives_of_done_eq (hf die q s) (cqRow_part _ hfront hop)⟩

/-! ### A command at the front, and the condition that Table 12-3 states for it -/

section
variable {mk : Fin 4 → Nat → Instr} {op : Nat} {P : Cmd → State → Prop} {f : State → Fin 4 → Nat → Cmd → State}
  {g : Fin 4 → Nat → State → Cmd → State}
  (he : ∀ die q s, exec (mk die q) s = done s (s.cqRow die q op (g die q)))
include he

theorem streamRow_of_holds
    (h : ∀ die q t w ops, cwOp w = op → P (t.cqCmd die q w ops) t →
      t.cqHolds die q w = true ∧ g die q t (t.cqCmd die q w ops) = f t die q (t.cqCmd die q w ops)) : StreamRow mk op P f := by
  intro die q s t w ops hfront hop hformat hP
  obtain ⟨hholds, heq⟩ := h die q t w ops hop hP
  exact gives_of_done_eq (he die q s) ((cqRow_word _ hfront hop hformat).trans ((if_pos hholds).trans heq))

theorem streamRow_of_not_holds
    (h : ∀ die q t w ops, cwOp w = op → P (t.cqCmd die q w ops) t → t.cqHolds die q w = false) :
    StreamRow mk op P fun t die q _ => t.cqWait die q := by
  intro die q s t w ops hfront hop hformat hP
  exact gives_of_done_eq (he die q s) ((cqRow_word _ hfront hop hformat).trans (if_neg (by simp [h die q t w ops hop hP])))

end

section
variable {s : State} {die : Fin 4} {q : Nat} {w : W64}

/-- A command whose row of Table 12-3 states no condition goes on. -/
theorem cqHolds_of_unconditional (h : cwOp w ≠ 3 ∧ cwOp w ≠ 7 ∧ cwOp w ≠ 9 ∧ cwOp w ≠ 11 ∧ cwOp w ≠ 13) : s.cqHolds die q w = true := by
  obtain ⟨h3, h7, h9, h11, h13⟩ := h
  unfold State.cqHolds
  split
  case h_6 => rfl
  all_goals contradiction

/-- A DMA command goes on where its channel is IDLE, or will not take it. -/
theorem cqHolds_dma (h : cwOp w = 3) : s.cqHolds die q w = true ↔
    s.dmaSt (.cd die) (fld w 4 0) = 0 ∨ s.dmaSt (.cd die) (fld w 4 0) = 6 ∨ s.rf (.cd die) .dmaCtx (fld w 4 0) 12 12 = 0 ∨
      s.rf (.cd die) .dmaCtx (fld w 4 0) 11 0 ≠ s.rf (.cd die) .cqCfg q 11 0 := by
  rw [State.cqHolds, h]
  simp only [Bool.or_eq_true, decide_eq_true_eq, Bool.not_eq_true', rf_bit_eq_zero, or_assoc]
  rfl

theorem cqHolds_waitc (h : cwOp w = 7) : s.cqHolds die q w = decide (fld w 47 0 ≤ s.rf (.cd die) .cqCount q 62 0) := by
  rw [State.cqHolds, h]
  rfl

theorem cqHolds_write (h : cwOp w = 9) : s.cqHolds die q w = (!w.getLsbD 1 || s.allEarlier die q) := by
  rw [State.cqHolds, h]
  rfl

theorem cqHolds_fence (h : cwOp w = 11) : s.cqHolds die q w = s.allEarlier die q := by
  rw [State.cqHolds, h]
  rfl

/-- An invalidation goes on where the hub is free, or will refuse it. -/
theorem cqHolds_xltInv (h : cwOp w = 13) : s.cqHolds die q w = (!s.running .hub false ||
    !s.invRight (s.rf (.cd die) .cqCfg q 49 48) (s.rf (.cd die) .cqCfg q 11 0) (fld w 13 12) (fld w 11 0) (fld w 23 16) ||
    s.hubCmd.isNone) := by
  rw [State.cqHolds, h]
  rfl

end

/-! ### LAUNCH (R351) -/

theorem streamRow_launch_retired : StreamRow Instr.launch 1 (fun c t => ∃ i ∈ launchTiles c, t.tileRetired c.die i = true)
    (fun t die q c => t.cqError die q .unav c.word) :=
  streamRow_of_holds (fun _ _ _ => rfl) fun _ _ _ _ _ hop hP =>
    ⟨cqHolds_of_unconditional (by omega), if_pos (List.any_eq_true.2 hP)⟩

theorem not_any_retired {c : Cmd} {t : State} (h : ∀ i ∈ launchTiles c, t.tileRetired c.die i = false) :
    ¬ (launchTiles c).any (t.tileRetired c.die) = true := by
  rw [List.any_eq_true]
  rintro ⟨i, hi, hr⟩
  exact absurd (h i hi) (by simp [hr])

theorem launchFits_iff (c : Cmd) (t : State) : launchFits c t ↔ ¬ (!fitsWith [] c.word || decide (lwRegs c.word < 16) ||
    (launchTiles c).isEmpty || (launchTiles c).any (fun i => decide (8 * t.nTiles c.die.val ≤ i))) = true := by
  simp [launchFits, and_assoc]

theorem streamRow_launch_perm : StreamRow Instr.launch 1
    (fun c t => ¬ launchFits c t ∧ ∀ i ∈ launchTiles c, t.tileRetired c.die i = false) (fun t die q c => t.cqError die q .perm c.word) :=
  streamRow_of_holds (fun _ _ _ => rfl) fun _ _ _ _ _ hop hP =>
    ⟨cqHolds_of_unconditional (by omega),
      (if_neg (not_any_retired hP.2)).trans (if_pos (not_not.1 (mt (launchFits_iff _ _).2 hP.1)))⟩

theorem streamRow_launch_taken : StreamRow Instr.launch 1
    (fun c t => launchFits c t ∧ ∀ i ∈ launchTiles c, t.tileRetired c.die i = false) (fun t die q c =>
      let seq := (aGet t.nextLaunch 0 die.val).toNat
      { t with
        launches := t.launches ++ [(⟨die, q, c.head, seq, c.ctx, c.pl, c.word, c.ops, launchTiles c, [], .ok⟩ : Launch)]
        nextLaunch := aSet t.nextLaunch die.val (BitVec.ofNat 32 (seq + 1)) }.cmdBegin { c with info := seq }) :=
  streamRow_of_holds (fun _ _ _ => rfl) fun _ _ _ _ _ hop hP =>
    ⟨cqHolds_of_unconditional (by omega), (if_neg (not_any_retired hP.2)).trans (if_neg ((launchFits_iff _ _).1 hP.1))⟩

/-! ### DMA (R336, R338) -/

theorem rf_bit_cases (s : State) (d : Die) (n : RegName) (i k : Nat) : s.rf d n i k k = 0 ∨ s.rf d n i k k = 1 := by
  rw [rf_bit_eq_zero, rf_bit_eq_one]
  exact (Bool.dichotomy _)

/-- A command's channel is enabled for another context, or not at all. -/
theorem dma_refuses_iff {c : Cmd} {t : State} {d : Die} {ch : Nat} :
    (!(t.reg d .dmaCtx ch).getLsbD 12 || decide (fld (t.reg d .dmaCtx ch) 11 0 ≠ c.ctx)) = true ↔
      t.rf d .dmaCtx ch 12 12 = 0 ∨ t.rf d .dmaCtx ch 11 0 ≠ c.ctx := by
  simp only [Bool.or_eq_true, decide_eq_true_eq, Bool.not_eq_true', rf_bit_eq_zero]
  rfl

theorem streamRow_dma_taken : StreamRow Instr.cmdDma 3 (fun c t => t.dmaSt (.cd c.die) (fld c.word 4 0) = 0 ∧
      t.rf (.cd c.die) .dmaCtx (fld c.word 4 0) 12 12 = 1 ∧ t.rf (.cd c.die) .dmaCtx (fld c.word 4 0) 11 0 = c.ctx) (fun t die q c =>
    let va := (c.opnd 0).toNat / 64 * 64
    ((t.cmdRun c).setReg (.cd die) .dmaChain (fld c.word 4 0) (BitVec.ofNat 64 (va % 2 ^ 57))).dmaStart
      (.cd die) (fld c.word 4 0) va (some c.id) q) := by
  refine streamRow_of_holds (fun _ _ _ => rfl) fun die q t w ops hop hP => ?_
  obtain ⟨hidle, hen, hctx⟩ := hP
  have hrefuses : ¬ (t.rf (.cd die) .dmaCtx (fld w 4 0) 12 12 = 0 ∨
      t.rf (.cd die) .dmaCtx (fld w 4 0) 11 0 ≠ (t.cqCmd die q w ops).ctx) := by
    rintro (h | h)
    · exact absurd (hen.symm.trans h) (by decide)
    · exact h hctx
  exact ⟨(cqHolds_dma hop).2 (.inl hidle),
    (if_neg fun h : t.dmaSt (.cd die) (fld w 4 0) = 6 => absurd (hidle.symm.trans h) (by decide)).trans
      (if_neg (mt dma_refuses_iff.1 hrefuses))⟩

theorem streamRow_dma_perm : StreamRow Instr.cmdDma 3 (fun c t => t.dmaSt (.cd c.die) (fld c.word 4 0) ≠ 6 ∧
      (t.rf (.cd c.die) .dmaCtx (fld c.word 4 0) 12 12 = 0 ∨ t.rf (.cd c.die) .dmaCtx (fld c.word 4 0) 11 0 ≠ c.ctx))
    (fun t _ _ c => startedWith t c .perm 0) :=
  streamRow_of_holds (fun _ _ _ => rfl) fun _ _ _ _ _ hop hP =>
    ⟨(cqHolds_dma hop).2 (.inr (.inr hP.2)), (if_neg hP.1).trans (if_pos (dma_refuses_iff.2 hP.2))⟩

theorem streamRow_dma_unav : StreamRow Instr.cmdDma 3 (fun c t => t.dmaSt (.cd c.die) (fld c.word 4 0) = 6)
    (fun t _ _ c => startedWith t c .unav 0) :=
  streamRow_of_holds (fun _ _ _ => rfl) fun _ _ _ _ _ hop hP => ⟨(cqHolds_dma hop).2 (.inr (.inl hP)), if_pos hP⟩

theorem streamRow_dma_waits : StreamRow Instr.cmdDma 3 (fun c t => t.dmaSt (.cd c.die) (fld c.word 4 0) ≠ 0 ∧
      t.dmaSt (.cd c.die) (fld c.word 4 0) ≠ 6 ∧ t.rf (.cd c.die) .dmaCtx (fld c.word 4 0) 12 12 = 1 ∧
      t.rf (.cd c.die) .dmaCtx (fld c.word 4 0) 11 0 = c.ctx) (fun t die q _ => t.cqWait die q) := by
  refine streamRow_of_not_holds (fun _ _ _ => rfl) fun die q t w ops hop hP => Bool.eq_false_iff.2 (mt (cqHolds_dma hop).1 ?_)
  obtain ⟨hidle, hretired, hen, hctx⟩ := hP
  rintro (h | h | h | h)
  · exact hidle h
  · exact hretired h
  · exact absurd (hen.symm.trans h) (by decide)
  · exact h hctx

/-! ### BURR (R218) and FEED (R222) -/

/-- A Burr that the mask names is disabled or retired. -/
theorem any_burGone {l : List BurrRef} {t : State} : l.any (fun b => t.burGone b) = true ↔ ∃ b ∈ l, t.burGone b = true := by
  rw [List.any_eq_true]

theorem not_any_burGone {l : List BurrRef} {t : State} (h : ∀ b ∈ l, t.burGone b = false) : ¬ l.any (fun b => t.burGone b) = true := by
  rw [any_burGone]
  rintro ⟨b, hb, hgone⟩
  exact absurd (h b hb) (by simp [hgone])

/-- A mask is empty where its word is. -/
theorem toNat_eq_zero_iff {x : W64} : x.toNat = 0 ↔ x = 0 := by
  rw [← BitVec.toNat_inj]
  rfl

theorem streamRow_burr_perm : StreamRow Instr.cmdBurr 4 (fun c t => (c.opnd 1 = 0 ∨ (c.opnd 0).toNat % 64 ≠ 0) ∧
      ∀ b ∈ burrsOf c.die (c.opnd 1).toNat, t.burGone b = false) (fun t _ _ c => startedWith t c .perm 0) := by
  refine streamRow_of_holds (fun _ _ _ => rfl) fun die q t w ops hop hP => ⟨cqHolds_of_unconditional (by omega), ?_⟩
  obtain ⟨hbad, hgone⟩ := hP
  dsimp only
  rw [if_pos (hbad.imp_left toNat_eq_zero_iff.2)]
  exact congrArg (startedWith t (t.cqCmd die q w ops) · 0) (congrArg (Status.first · .perm) (if_neg (not_any_burGone hgone)))

theorem streamRow_burr_unav : StreamRow Instr.cmdBurr 4 (fun c t => (c.opnd 0).toNat % 64 ≠ 0 ∧
      ∃ b ∈ burrsOf c.die (c.opnd 1).toNat, t.burGone b = true) (fun t _ _ c => startedWith t c .unav 0) := by
  refine streamRow_of_holds (fun _ _ _ => rfl) fun die q t w ops hop hP => ⟨cqHolds_of_unconditional (by omega), ?_⟩
  obtain ⟨hbad, hgone⟩ := hP
  dsimp only
  rw [if_pos (.inr hbad)]
  exact congrArg (startedWith t (t.cqCmd die q w ops) · 0) (congrArg (Status.first · .perm) (if_pos (any_burGone.2 hgone)))

theorem cmdBurr_taken_gives {die : Fin 4} {q : Nat} {s t u v : State} {w : W64} {ops : List W64} {l m : List Byte} {c : Cmd}
    (hc : c = t.cqCmd die q w ops) (hfront : s.cqFront die q = .word w ops t) (hop : cwOp w = 4)
    (hformat : cwFormatOk (s.call? die q).isSome w ops = true) (hmask : c.opnd 1 ≠ 0) (haligned : (c.opnd 0).toNat % 64 = 0)
    (hheader : t.vaSpan (.cp die) c.ctx c.pl (c.opnd 0).toNat 64 = .ok (.ok, l, u))
    (hgone : ∀ b ∈ burrsOf die (c.opnd 1).toNat, t.burGone b = false) (hok : u.burrHeaderOk die (leNat l) = true)
    (hread : u.vaSpan (.cp die) c.ctx c.pl ((c.opnd 0).toNat + 64) (32 * bhNops (leNat l)) = .ok (.ok, m, v))
    (hops : burrOpsOk (leNat l) (opsList (bhNops (leNat l)) m) = true) :
    Gives (.cmdBurr die q) s ({ v with blaunches := v.blaunches ++
      [(⟨c.id, die, c.ctx, c.pl, leNat l, opsList (bhNops (leNat l)) m, (c.opnd 1).toNat, (c.opnd 1).toNat, 0, .ok, false⟩ : BLaunch)] }.cmdBegin c) := by
  subst hc
  refine gives_of_done_eq rfl ((cqRow_word _ hfront hop hformat).trans ((if_pos (cqHolds_of_unconditional (by omega))).trans ?_))
  dsimp only
  rw [if_neg (not_or.2 ⟨mt toNat_eq_zero_iff.1 hmask, not_not_intro haligned⟩), hheader]
  dsimp only
  rw [if_neg (not_any_burGone hgone), if_neg (by decide), if_neg (by simp [hok]), hread]
  dsimp only
  rw [if_neg (by simp [hops])]

theorem feed_bad_iff (c : Cmd) : ((c.opnd 1).toNat = 0 ∨ fld c.word 31 16 < 4 ∨ 49152 < fld c.word 31 16 ∨ fld c.word 31 16 % 4 ≠ 0 ∨
    fld c.word 47 32 % 4 ≠ 0 ∨ 65536 < fld c.word 47 32 + fld c.word 31 16) ↔ ¬ feedOk c := by
  have hmask : c.opnd 1 ≠ 0 ↔ (c.opnd 1).toNat ≠ 0 := not_congr toNat_eq_zero_iff.symm
  unfold feedOk
  dsimp only
  rw [hmask]
  omega

theorem streamRow_feed_perm : StreamRow Instr.feed 5 (fun c t => ¬ feedOk c ∧ ∀ b ∈ burrsOf c.die (c.opnd 1).toNat, t.burGone b = false)
    (fun t _ _ c => startedWith t c .perm 0) :=
  streamRow_of_holds (fun _ _ _ => rfl) fun _ _ _ _ _ hop hP =>
    ⟨cqHolds_of_unconditional (by omega), (if_neg (not_any_burGone hP.2)).trans (if_pos ((feed_bad_iff _).2 hP.1))⟩

theorem streamRow_feed_unav : StreamRow Instr.feed 5 (fun c t => ∃ b ∈ burrsOf c.die (c.opnd 1).toNat, t.burGone b = true)
    (fun t _ _ c => startedWith t c .unav 0) :=
  streamRow_of_holds (fun _ _ _ => rfl) fun _ _ _ _ _ hop hP =>
    ⟨cqHolds_of_unconditional (by omega), if_pos (any_burGone.2 hP)⟩

theorem streamRow_feed_taken : StreamRow Instr.feed 5 (fun c t => feedOk c ∧ ∀ b ∈ burrsOf c.die (c.opnd 1).toNat, t.burGone b = false)
    (fun t die _ c => { t with feeds := t.feeds ++
      [(⟨c.id, die, c.ctx, c.pl, c.opnd 0, fld c.word 47 32, fld c.word 31 16, c.opnd 2, (c.opnd 1).toNat, .ok⟩ : Feed)] }.cmdRun c) :=
  streamRow_of_holds (fun _ _ _ => rfl) fun _ _ _ _ _ hop hP =>
    ⟨cqHolds_of_unconditional (by omega), (if_neg (not_any_burGone hP.2)).trans (if_neg (mt (feed_bad_iff _).1 (not_not_intro hP.1)))⟩

/-! ### Commands that need nothing more, waits and writes (R350) -/

/-- A row of Table 12-3 with no condition, whose effect is `f`. -/
theorem streamRow_of_unconditional {mk : Fin 4 → Nat → Instr} {op : Nat} {f : State → Fin 4 → Nat → Cmd → State}
    (he : ∀ die q s, exec (mk die q) s = done s (s.cqRow die q op fun t c => f t die q c))
    (hop : op ≠ 3 ∧ op ≠ 7 ∧ op ≠ 9 ∧ op ≠ 11 ∧ op ≠ 13) : StreamRow mk op (fun _ _ => True) f :=
  streamRow_of_holds he fun _ _ _ _ _ h _ => ⟨cqHolds_of_unconditional (by rwa [h]), rfl⟩

theorem streamRow_waitc_reached : StreamRow Instr.waitc 7 (fun c t => fld c.word 47 0 ≤ t.rf (.cd c.die) .cqCount c.queue 62 0)
    (fun t _ _ c => t.cmdNow c .ok) :=
  streamRow_of_holds (fun _ _ _ => rfl) fun _ _ _ _ _ hop hP => ⟨(cqHolds_waitc hop).trans (decide_eq_true hP), rfl⟩

theorem streamRow_waitc_waits : StreamRow Instr.waitc 7 (fun c t => t.rf (.cd c.die) .cqCount c.queue 62 0 < fld c.word 47 0)
    (fun t die q _ => t.cqWait die q) :=
  streamRow_of_not_holds (fun _ _ _ => rfl) fun _ _ _ _ _ hop hP =>
    (cqHolds_waitc hop).trans (decide_eq_false (Nat.not_le_of_lt hP))

theorem streamRow_fence_clear : StreamRow Instr.cmdFence 11 (fun c t => t.allEarlier c.die c.queue = true)
    (fun t _ _ c => t.cmdNow c .ok) :=
  streamRow_of_holds (fun _ _ _ => rfl) fun _ _ _ _ _ hop hP => ⟨(cqHolds_fence hop).trans hP, rfl⟩

theorem streamRow_fence_waits : StreamRow Instr.cmdFence 11 (fun c t => t.allEarlier c.die c.queue = false)
    (fun t die q _ => t.cqWait die q) :=
  streamRow_of_not_holds (fun _ _ _ => rfl) fun _ _ _ _ _ hop hP => (cqHolds_fence hop).trans hP

section
variable {die : Fin 4} {q : Nat} {s t u : State} {w : W64} {ops : List W64} {st : Status}
  (hfront : s.cqFront die q = .word w ops t) (hformat : cwFormatOk (s.call? die q).isSome w ops = true)
include hfront hformat

theorem cmdWrite_gives (hop : cwOp w = 9) (hearlier : w.getLsbD 1 = true → t.allEarlier die q = true)
    (hput : t.vaPut (.cp die) (t.cqCmd die q w ops).ctx (t.cqCmd die q w ops).pl ((t.cqCmd die q w ops).opnd 0).toNat
      (leBytes 8 ((t.cqCmd die q w ops).opnd 1).toNat) = .ok (st, u)) :
    Gives (.cmdWrite die q) s (u.cmdNow (t.cqCmd die q w ops) st) := by
  have hholds : t.cqHolds die q w = true := by
    rw [cqHolds_write hop]
    cases hbit : w.getLsbD 1
    · rfl
    · simp [hearlier hbit]
  refine gives_of_done_eq rfl ((cqRow_word _ hfront hop hformat).trans ((if_pos hholds).trans ?_))
  rw [hput]

theorem cmdWrite_waits_gives (hop : cwOp w = 9) (hfence : w.getLsbD 1 = true) (hearlier : t.allEarlier die q = false) :
    Gives (.cmdWrite die q) s (t.cqWait die q) := by
  refine gives_of_done_eq rfl ((cqRow_word _ hfront hop hformat).trans (if_neg ?_))
  rw [cqHolds_write hop, hfence, hearlier]
  decide

theorem cmdTime_gives (hop : cwOp w = 10)
    (hput : t.vaPut (.cp die) (t.cqCmd die q w ops).ctx (t.cqCmd die q w ops).pl ((t.cqCmd die q w ops).opnd 0).toNat
      (leBytes 8 t.now.toNat) = .ok (st, u)) : Gives (.cmdTime die q) s (u.cmdNow (t.cqCmd die q w ops) st) := by
  refine gives_of_done_eq rfl ((cqRow_word _ hfront hop hformat).trans ((if_pos (cqHolds_of_unconditional (by omega))).trans ?_))
  rw [hput]

end

/-! ### XLT_INV (R323, R332) -/

theorem streamRow_xltInv_taken : StreamRow Instr.cmdXltInv 13 (fun c t => t.running .hub false = true ∧ t.hubCmd = none ∧
      t.invRight c.pl c.ctx (fld c.word 13 12) (fld c.word 11 0) (fld c.word 23 16) = true) (fun t die _ c =>
    ({ t with hubCmd := some ⟨16, 2, fld c.word 11 0, 0, fld c.word 13 12, fld c.word 23 16, c.opnd 0, die.val, c.id, true,
        t.drains (t.invCtx (fld c.word 13 12) (fld c.word 11 0) (fld c.word 23 16))⟩ }.invalidate
      (fld c.word 13 12) (fld c.word 11 0) (fld c.word 23 16) (c.opnd 0)).cmdRun c) := by
  refine streamRow_of_holds (fun _ _ _ => rfl) fun die q t w ops hop hP => ?_
  obtain ⟨hrun, hidle, hright⟩ := hP
  exact ⟨by rw [cqHolds_xltInv hop, hidle]; exact Bool.or_true _,
    (if_neg (by simp [hrun])).trans (if_neg (by rw [Bool.not_eq_true', hright]; decide))⟩

theorem streamRow_xltInv_perm : StreamRow Instr.cmdXltInv 13 (fun c t => t.running .hub false = true ∧
      t.invRight c.pl c.ctx (fld c.word 13 12) (fld c.word 11 0) (fld c.word 23 16) = false) (fun t _ _ c => startedWith t c .perm 0) := by
  refine streamRow_of_holds (fun _ _ _ => rfl) fun die q t w ops hop hP => ?_
  obtain ⟨hrun, hright⟩ := hP
  refine ⟨?_, (if_neg (by simp [hrun])).trans (if_pos (by rw [Bool.not_eq_true', hright]))⟩
  rw [cqHolds_xltInv hop]
  exact (congrArg (fun b => !t.running .hub false || !b || t.hubCmd.isNone) hright).trans (by simp)

theorem streamRow_xltInv_waits : StreamRow Instr.cmdXltInv 13 (fun c t => t.running .hub false = true ∧ t.hubCmd ≠ none ∧
      t.invRight c.pl c.ctx (fld c.word 13 12) (fld c.word 11 0) (fld c.word 23 16) = true) (fun t die q _ => t.cqWait die q) := by
  refine streamRow_of_not_holds (fun _ _ _ => rfl) fun die q t w ops hop hP => ?_
  obtain ⟨hrun, hbusy, hright⟩ := hP
  rw [cqHolds_xltInv hop]
  exact (congrArg (fun b => !t.running .hub false || !b || t.hubCmd.isNone) hright).trans
    (by simp [hrun, Option.isNone_eq_false_iff, Option.isSome_iff_ne_none, hbusy])

theorem streamRow_xltInv_unav : StreamRow Instr.cmdXltInv 13 (fun _ t => t.running .hub false = false)
    (fun t _ _ c => startedWith t c .unav 0) :=
  streamRow_of_holds (fun _ _ _ => rfl) fun _ _ _ _ _ hop hP => ⟨by rw [cqHolds_xltInv hop, hP]; rfl, if_pos (by simp [hP])⟩

/-! ### Waits on memory (R350, R352) -/

section
variable {die : Fin 4} {q : Nat} {s t : State} {c : Cmd} {st : Status} {hit : Bool} (hwait : s.waitm die q = some c)
  (hread : s.waitmRead c = .ok (st, hit, t))
include hwait hread

theorem waitmPoll_gives : Gives (.waitmPoll die q) s (if hit then t.cmdOver c st else t) := by
  refine gives_of_done_eq rfl ?_
  rw [hwait]
  dsimp only
  rw [hread]

theorem waitmTimeout_gives (hlimit : fld c.word 31 16 ≠ 0) :
    Gives (.waitmTimeout die q) s (t.cmdOver c (if hit then st else .tout)) := by
  refine gives_of_done_eq rfl ?_
  rw [hwait]
  refine (if_neg hlimit).trans ?_
  rw [hread]

omit hread in
theorem waitmTimeout_unlimited_gives (hlimit : fld c.word 31 16 = 0) : Gives (.waitmTimeout die q) s s := by
  refine gives_of_done_eq rfl ?_
  rw [hwait]
  exact if_pos hlimit

end

/-- The conditions of WAITM: equal, different, at least. -/
theorem waitmRead_hit {s t : State} {c : Cmd} {l : List Byte}
    (hread : s.vaSpan (.cp c.die) c.ctx c.pl (c.opnd 0).toNat 8 = .ok (.ok, l, t)) :
    ∃ hit, s.waitmRead c = .ok (.ok, hit, t) ∧
      (hit = true ↔ if fld c.word 1 0 = 0 then leNat l = (c.opnd 1).toNat
        else if fld c.word 1 0 = 1 then leNat l ≠ (c.opnd 1).toNat else (c.opnd 1).toNat ≤ leNat l) := by
  refine ⟨_, by rw [State.waitmRead, hread], ?_⟩
  split
  next h => simp [h]
  next h => simp [h]
  next h0 h1 => rw [if_neg h0, if_neg h1, decide_eq_true_eq]

/-! ### Completions (R350, R351) -/

section
variable {die : Fin 4} {id : Nat} {s : State} {c : Cmd} (hcmd : s.cmd? die id = some c) (hrun : s.running (.cd die) true = true)
  (hheld : s.prodHeld (.cd die) 0 = false) (hstarted : c.started = true)
include hcmd hrun hheld hstarted

theorem commandComplete_finished_done {st : Status} (hfin : c.fin = some st) : exec (.commandComplete die id) s =
    done s ((if cwOp c.word = 6 then s.sampleOver c st else s.completeCmd c st).cqSettle die c.queue) := by
  refine congrArg (done s) ?_
  rw [hcmd]
  refine (if_neg (by simp [hrun, hheld, hstarted])).trans ?_
  rw [hfin]

theorem commandComplete_unfinished_gives (hfin : c.fin = none) (hop : cwOp c.word ≠ 1) : Gives (.commandComplete die id) s s := by
  refine gives_of_done_eq rfl ?_
  rw [hcmd]
  refine (if_neg (by simp [hrun, hheld, hstarted])).trans ?_
  rw [hfin]
  exact if_pos hop

theorem commandComplete_launch_done {l : Launch} (hfin : c.fin = none) (hop : cwOp c.word = 1)
    (hl : s.launches.find? (fun l => decide (l.die = die) && decide (l.seq = c.info)) = some l) :
    exec (.commandComplete die id) s = done s (if l.todo = [] ∧ l.live = [] then
      ({ s with launches := s.launches.filter fun x => decide (¬ (x.die = die ∧ x.seq = c.info)) }.completeCmd c l.st).cqSettle die c.queue
    else s) := by
  refine congrArg (done s) ?_
  rw [hcmd]
  refine (if_neg (by simp [hrun, hheld, hstarted])).trans ?_
  rw [hfin]
  refine (if_neg (not_not_intro hop)).trans ?_
  rw [hl]

end

/-- A SAMPLE without E leaves no record. -/
theorem sampleOver_of_no_event {s : State} {c : Cmd} {st : Status} (h : cwE c.word = false) : s.sampleOver c st = s.completeCmd c st :=
  if_neg (by simp [h])

/-- With E the command processor records the status under the descriptor's tag, where it has been read. -/
theorem sampleOver_of_event {s : State} {c : Cmd} (st : Status) (h : cwE c.word = true) : ∃ tag, s.sampleOver c st =
    let t := s.completeCmd c st
    t.post (.cd c.die) 0 (t.cqEq c.die c.queue)
      (eventBytes 3 st c.ctx (0x4000 + c.die.val) c.queue tag t.now (smpFail st).bytes) :=
  ⟨_, if_pos h⟩

/-- The command of a number on a die is one of that die. -/
theorem die_of_cmd? {s : State} {die : Fin 4} {id : Nat} {c : Cmd} (h : s.cmd? die id = some c) : c.die = die := by
  have hc := List.find?_some h
  simp only [Bool.and_eq_true, decide_eq_true_eq] at hc
  exact hc.1

/-- Settles O39: the front of a queue is taken alike for every row, and each row's command goes on by its condition. -/
theorem streamCommands : Obligations.StreamCommands := by
  refine ⟨⟨streamRow_refused, ?nop, streamRow_launch_perm, streamRow_launch_retired, streamRow_launch_taken, streamRow_dma_taken,
    streamRow_dma_perm, streamRow_dma_unav, streamRow_dma_waits, streamRow_burr_perm, streamRow_burr_unav, ?burr, streamRow_feed_perm,
    streamRow_feed_unav, streamRow_feed_taken, ?sample, streamRow_waitc_reached, streamRow_waitc_waits, ?waitm, ?writes,
    streamRow_fence_clear, streamRow_fence_waits, ?event, streamRow_xltInv_taken, streamRow_xltInv_perm, streamRow_xltInv_waits,
    streamRow_xltInv_unav, ?call, streamRow_waits⟩, ?polls, fun _ _ _ _ => waitmRead_hit, ?completions⟩
  case nop => exact streamRow_of_unconditional (fun _ _ _ => rfl) (by decide)
  case sample => exact streamRow_of_unconditional (fun _ _ _ => rfl) (by decide)
  case waitm => exact streamRow_of_unconditional (fun _ _ _ => rfl) (by decide)
  case event => exact streamRow_of_unconditional (fun _ _ _ => rfl) (by decide)
  case call => exact streamRow_of_unconditional (fun _ _ _ => rfl) (by decide)
  case burr =>
    intro die q s t u v w ops l m hfront hop hformat c mask
    exact cmdBurr_taken_gives rfl hfront hop hformat
  case writes =>
    intro die q s t u w ops st hfront hformat c
    exact ⟨cmdWrite_gives hfront hformat, cmdWrite_waits_gives hfront hformat, cmdTime_gives hfront hformat⟩
  case polls =>
    intro die q s t c st hit hwait hread
    exact ⟨waitmPoll_gives hwait hread, waitmTimeout_gives hwait hread, waitmTimeout_unlimited_gives hwait⟩
  case completions =>
    intro die id s c hcmd hrun hheld hstarted
    refine ⟨fun st hfin hquiet => ?quiet, fun st hfin hop hevent => ?sampled,
      commandComplete_unfinished_gives hcmd hrun hheld hstarted, fun l hfin hop hl => ?launch⟩
    case quiet =>
      refine gives_of_done_eq (commandComplete_finished_done hcmd hrun hheld hstarted hfin) ?_
      by_cases hop : cwOp c.word = 6
      · rw [if_pos hop, sampleOver_of_no_event (hquiet.resolve_left (not_not_intro hop))]
      · rw [if_neg hop]
    case sampled =>
      obtain ⟨tag, htag⟩ := sampleOver_of_event (s := s) st hevent
      rw [die_of_cmd? hcmd] at htag
      refine ⟨tag, gives_of_done_eq (commandComplete_finished_done hcmd hrun hheld hstarted hfin) ?_⟩
      rw [if_pos hop, htag]
    case launch =>
      have hdone := commandComplete_launch_done hcmd hrun hheld hstarted hfin hop hl
      exact ⟨fun h => gives_of_done_eq hdone (if_pos h), fun h => gives_of_done_eq hdone (if_neg h)⟩

end Sys2Proof.Machine
end

section
/-!
Command and event queues as software sees them (Chapter 12): doorbells, writes of the configuration registers, removals and pushes of
entries, and held events tried again.
-/

namespace Sys2Proof.Machine
open Sys2Proof

/-! ### Doorbells (R348) -/

section
variable {w : Wr} {n : Fin 4} {s : State} (hdie : w.die = .cd n) (hgate : s.gate w.die .cqDoorbell w.pl w.ctx = .ok)

/-- What a doorbell asks of the queue, its context, its level and the new TAIL. -/
def State.cqMayRing (s : State) (w : Wr) (n : Fin 4) : Prop :=
  s.cqSt n (w.idx % 64) ≠ 5 ∧ w.ctx = s.rf w.die .cqCfg (w.idx % 64) 11 0 ∧ w.pl ≤ s.rf w.die .cqCfg (w.idx % 64) 49 48 ∧
    (fld w.val 31 0 + 2 ^ 32 - s.cqTail n (w.idx % 64)) % 2 ^ 32 < 2 ^ 31

include hdie hgate

theorem cqRing_perm (h : ¬ s.cqMayRing w n) : s.cqRing w = s.answer .perm 0 := by
  obtain ⟨die, idx, pl, ctx, val⟩ := w
  obtain rfl : die = .cd n := hdie
  rw [State.cqRing, hgate]
  refine ite_eq_left_iff.2 fun hqueue => ?_
  refine if_pos (Nat.le_of_not_lt fun htail => h ?_)
  simp only [not_or, not_not, Nat.not_lt] at hqueue
  exact ⟨hqueue.1, hqueue.2.1, hqueue.2.2, htail⟩

theorem cqRing_may (h : s.cqMayRing w n) : s.cqRing w =
    if s.cqWords n (w.idx % 64) < (fld w.val 31 0 + 2 ^ 32 - s.cqHead n (w.idx % 64)) % 2 ^ 32 then s.answer .busy 0
    else (((s.setRf w.die .cqPtr (w.idx % 64) 63 32 (fld w.val 31 0)).cqSettle n (w.idx % 64)).wakeIf 2 (w.idx % 64)).answer .ok 0 := by
  obtain ⟨die, idx, pl, ctx, val⟩ := w
  obtain rfl : die = .cd n := hdie
  obtain ⟨hst, hctx, hpl, htail⟩ := h
  rw [State.cqRing, hgate]
  refine (if_neg ?_).trans (if_neg (Nat.not_le_of_lt htail))
  rintro (hc | hc | hc)
  · exact hst hc
  · exact hc hctx
  · exact Nat.not_le_of_lt hc hpl

end

/-! ### Writes of a configuration register (R20, R347, R354, R359) -/

/-- What comes of a register write: `f` where the register has taken it, its status otherwise. -/
def onStored (r : Status × State) (f : State → State) : State :=
  match r with
  | (.ok, t) => f t
  | (e, t) => t.answer e 0

theorem onStored_refused {st : Status} (t : State) (f : State → State) (h : st ≠ .ok) : onStored (st, t) f = t.answer st 0 := by
  cases st with
  | ok => exact absurd rfl h
  | _ => rfl

theorem cfgRow_of_onStored {i : Instr} {w : Wr} {n : RegName} {s v : State} {f : State → State}
    (h : exec i s = done s (onStored (v.ctlStore w.die n 0 w.pl w.ctx w.val) f)) : CfgRow i w n s v f :=
  ⟨fun t ht => gives_of_done_eq h (by rw [ht]; rfl),
    fun st t hst ht => gives_of_done_eq h (by rw [ht]; exact onStored_refused t f hst)⟩

section
variable {w : Wr} {n : Fin 4} {s v : State} {q : Nat} (hv : v = s.touch w.die .cqCfg) (hq : q = v.selUnit w.die w.pl .cq)
  (hdie : w.die = .cd n) (hgate : v.gate w.die .cqCfg w.pl w.ctx = .ok)
include hv hq hdie hgate

theorem cqEnable_row (hoff : v.rf w.die .cqCfg q 12 12 = 0) (hen : w.val.getLsbD 12 = true) :
    CfgRow (.cqEnable w) w .cqCfg s v fun t =>
      if versionOk (v.reg w.die .cqIfVersion 0) (fld w.val 47 32) = true then
        (({ t with calls := aErase t.calls (n.val, q) }.setReg w.die .cqPtr q 0).setCqSt n q 0).answer .ok 0
      else v.answer .busy 0 := by
  subst hv hq
  obtain ⟨die, idx, pl, ctx, val⟩ := w
  obtain rfl : die = .cd n := hdie
  refine cfgRow_of_onStored (congrArg (done s) ?_)
  rw [State.cqOn]
  dsimp only
  rw [hgate]
  refine (if_neg (by simp [hoff, hen])).trans ?_
  congr 1
  funext t
  cases versionOk _ _ <;> rfl

theorem cqDisable_row (hon : v.rf w.die .cqCfg q 12 12 = 1) (hclear : w.val.getLsbD 12 = false) :
    CfgRow (.cqDisable w) w .cqCfg s v fun t =>
      if v.cqSt n q = 1 ∨ v.cqSt n q = 2 ∨ v.cmds.any (fun c => decide (c.die = n) && decide (c.queue = q) && c.started) = true then
        v.answer .busy 0
      else ((t.cqDiscard n q).setCqSt n q 5).answer .ok 0 := by
  subst hv hq
  obtain ⟨die, idx, pl, ctx, val⟩ := w
  obtain rfl : die = .cd n := hdie
  refine cfgRow_of_onStored (congrArg (done s) ?_)
  rw [State.cqOff]
  dsimp only
  rw [hgate]
  exact if_neg (by rw [hon, hclear]; decide)

end

section
variable {w : Wr} {s v : State} {q : Nat} (hv : v = s.touch w.die .eqCfg) (hq : q = v.selUnit w.die w.pl .eq)
  (hgate : v.gate w.die .eqCfg w.pl w.ctx = .ok)
include hv hq hgate

theorem eqEnable_row (hoff : v.rf w.die .eqCfg q 12 12 = 0) (hen : w.val.getLsbD 12 = true) :
    CfgRow (.eqEnable w) w .eqCfg s v fun t =>
      ((((t.setRf w.die .eqStatus q 63 48 0).setRf w.die .eqStatus q 34 32 1).setRf w.die .eqStatus q 23 16 0).setRf
        w.die .eqStatus q 8 0 0).answer .ok 0 := by
  subst hv hq
  refine cfgRow_of_onStored (congrArg (done s) ?_)
  rw [State.eqOn]
  dsimp only
  rw [hgate]
  exact if_neg (by simp [hoff, hen])

theorem eqDisable_row (hon : v.rf w.die .eqCfg q 12 12 = 1) (hclear : w.val.getLsbD 12 = false) :
    CfgRow (.eqDisable w) w .eqCfg s v fun t =>
      if v.rf w.die .eqStatus q 8 0 ≠ 0 ∨ v.heldEv.any (fun h => decide (h.die = w.die) && decide (h.queue = q)) = true then
        v.answer .busy 0
      else (t.setRf w.die .eqStatus q 34 32 0).answer .ok 0 := by
  subst hv hq
  refine cfgRow_of_onStored (congrArg (done s) ?_)
  rw [State.eqOff]
  dsimp only
  rw [hgate]
  exact if_neg (by rw [hon, hclear]; decide)

end

/-! ### Removals and pushes (R355) -/

section
variable {w : Wr} {s v : State} {q : Nat} (hv : v = s.touch w.die .eqOp) (hq : q = v.selUnit w.die w.pl .eq)
  (hgate : v.gate w.die .eqOp w.pl w.ctx = .ok)
include hv hq hgate

theorem eqOpWrite_ok {c : Instr} {f : State → Nat → Except Wait State} {t : State} (hf : f v q = .ok t) :
    s.eqOpWrite w c f = t.answer .ok 0 := by
  subst hv hq
  rw [State.eqOpWrite, hgate]
  dsimp only
  rw [hf]

theorem eqOpWrite_waits {c : Instr} {f : State → Nat → Except Wait State} {e : Wait} (hf : f v q = .error e) :
    s.eqOpWrite w c f = v.await e := by
  subst hv hq
  rw [State.eqOpWrite, hgate]
  dsimp only
  rw [hf]

omit hv hq hgate in
theorem eqSoft_full {t : State} (hfull : t.rf w.die .eqStatus q 34 32 = 0 ∨ (t.rf w.die .eqStatus q 34 32 = 1 ∧ 256 ≤ t.rf w.die .eqStatus q 8 0))
    {u : State} (ht : u.retryQueue w.die q = t) : u.eqSoft w q = .ok (t.setRf w.die .eqStatus q 40 40 1) := by
  subst ht
  rw [State.eqSoft]
  exact if_pos hfull

omit hv hq hgate in
theorem eqSoft_room {t : State} (hroom : ¬ (t.rf w.die .eqStatus q 34 32 = 0 ∨ (t.rf w.die .eqStatus q 34 32 = 1 ∧ 256 ≤ t.rf w.die .eqStatus q 8 0)))
    {u : State} (ht : u.retryQueue w.die q = t) : u.eqSoft w q =
      (t.eqTry w.die q (eventBytes 10 .ok w.ctx 0x6000 0xFF (BitVec.ofNat 64 (fld w.val 63 32)) t.now [])).map Prod.snd := by
  subst ht
  rw [State.eqSoft]
  refine (if_neg hroom).trans ?_
  cases State.eqTry _ _ _ _ <;> rfl

/-- A software push after what comes before it in `f`. -/
theorem softPush_of_eqSoft {i : Instr} {f : State → Nat → Except Wait State} {t u : State}
    (he : exec i s = done s (s.eqOpWrite w i f)) (hf : f v q = u.eqSoft w q) (ht : u.retryQueue w.die q = t) :
    SoftPush i w s v t q := by
  refine ⟨fun hfull => gives_of_done_eq he (eqOpWrite_ok hv hq hgate (hf.trans (eqSoft_full hfull ht))), fun hroom x hx => ⟨?_, ?_⟩⟩
  · rintro r rfl
    exact gives_of_done_eq he (eqOpWrite_ok hv hq hgate (hf.trans ((eqSoft_room hroom ht).trans (congrArg (Except.map Prod.snd) hx))))
  · rintro e rfl
    exact gives_of_done_eq he (eqOpWrite_waits hv hq hgate (hf.trans ((eqSoft_room hroom ht).trans (congrArg (Except.map Prod.snd) hx))))

theorem eqPop_push_row (hn : fld w.val 8 0 ≠ 0) (hpush : w.val.getLsbD 9 = true) :
    SoftPush (.eqPop w) w s v ((v.eqPop w.die q (fld w.val 8 0)).retryQueue w.die q) q :=
  softPush_of_eqSoft hv hq hgate (congrArg (done s) (if_neg fun h => hn h.1)) (if_pos hpush) rfl

theorem eqPush_row (hn : fld w.val 8 0 = 0) (hpush : w.val.getLsbD 9 = true) :
    SoftPush (.eqPush w) w s v (v.retryQueue w.die q) q :=
  softPush_of_eqSoft hv hq hgate (congrArg (done s) (if_neg (by simp [hn, hpush]))) rfl rfl

/-- A write that pushes nothing removes its entries. -/
theorem eqPop_only_gives {e : State} (hpush : w.val.getLsbD 9 = false) (he : v.eqPop w.die q (fld w.val 8 0) = e) :
    Gives (.eqPop w) s (e.answer .ok 0) :=
  gives_of_done_eq (congrArg (done s) (if_neg (by rw [hpush]; exact fun h => absurd h.2 (by decide))))
    (eqOpWrite_ok hv hq hgate ((if_neg (by rw [hpush]; decide)).trans (congrArg Except.ok he)))

end

theorem eqPop_none (s : State) (d : Die) (q : Nat) : s.eqPop d q 0 = s := by
  rw [State.eqPop]
  exact if_pos rfl

section
variable {s : State} {d : Die} {q n : Nat}

theorem eqPop_too_many (h : s.rf d .eqStatus q 8 0 < n) : s.eqPop d q n = s.setRf d .eqStatus q 40 40 1 :=
  (if_neg (Nat.ne_zero_of_lt h)).trans (if_pos h)

theorem eqPop_entries (hn : n ≠ 0) (h : n ≤ s.rf d .eqStatus q 8 0) : s.eqPop d q n =
    let depth := s.rf d .eqStatus q 8 0
    let t := (s.setRf d .eqStatus q 8 0 (depth - n)).setRf d .eqStatus q 23 16 ((s.rf d .eqStatus q 23 16 + n) % 256)
    if depth - n = 0 then t else t.eqInterrupt d q :=
  (if_neg hn).trans (if_neg (Nat.not_lt_of_le h))

end

/-! ### Held events (R355) -/

section
variable {s : State} {d : Die} {prod : Nat} {h : HeldEv}

/-- With nobody before a producer, none is tried before it. -/
theorem retryBelow_of_pushTurn {q : Nat} (hturn : s.pushTurn d q prod = true) : s.retryBelow d q prod = s := by
  have hfree : ∀ p ∈ List.range prod, s.heldFor d p q = false := by
    simpa [State.pushTurn] using hturn
  have hwalk : ∀ l : List Nat, (∀ p ∈ l, s.heldFor d p q = false) →
      l.foldl (fun t p => if t.heldFor d p q then t.retryHeld d p else t) s = s := by
    intro l
    induction l with
    | nil => exact fun _ => rfl
    | cons p l ih =>
      intro hl
      rw [List.foldl_cons, if_neg (by simp [hl p List.mem_cons_self])]
      exact ih fun x hx => hl x (List.mem_cons_of_mem p hx)
  exact hwalk _ hfree

variable (hup : s.ctlUp d true = true) (hfind : s.heldEv.find? (fun h => decide (h.die = d) && decide (h.prod = prod)) = some h)
include hup hfind

theorem eventPushRetry_done : exec (.eventPushRetry d prod) s = done s
    (if (s.retryBelow d h.queue prod).pushTurn d h.queue prod = true then (s.retryBelow d h.queue prod).retryHeld d prod
      else s.retryBelow d h.queue prod) := by
  refine congrArg (done s) ((if_pos hup).trans ?_)
  rw [State.retryProd, hfind]

omit hup in
theorem retryHeld_of_held : s.retryHeld d prod =
    let r := s.eqPush d h.queue h.ev
    if r.1 = true then { r.2 with heldEv := lDrop (fun x => decide (x.die = d) && decide (x.prod = prod)) r.2.heldEv } else r.2 := by
  rw [State.retryHeld, hfind]

end

/-- Settles O40: the doorbell by its refusals, the configuration registers by what they take, the event queue by what a write removes
and pushes. -/
theorem queueRegisters : Obligations.QueueRegisters := by
  refine ⟨?doorbell, ?commandQueues, ?eventQueues, ?operations, ?retries⟩
  case doorbell =>
    intro w n s hdie hgate q T mayRing
    refine ⟨fun hno => gives_of_done_eq rfl (cqRing_perm hdie hgate hno), fun hmay hfull => gives_of_done_eq rfl ?_,
      fun hmay hroom => gives_of_done_eq rfl ?_⟩
    · exact (cqRing_may hdie hgate hmay).trans (if_pos hfull)
    · exact (cqRing_may hdie hgate hmay).trans (if_neg (Nat.not_lt_of_le hroom))
  case commandQueues =>
    intro w n s hdie v q hgate
    exact ⟨cqEnable_row rfl rfl hdie hgate, cqDisable_row rfl rfl hdie hgate⟩
  case eventQueues =>
    intro w s v q hgate
    exact ⟨eqEnable_row rfl rfl hgate, eqDisable_row rfl rfl hgate⟩
  case operations =>
    intro w s v q n d hgate
    refine ⟨fun hn hle hpush => eqPop_only_gives rfl rfl hgate hpush (eqPop_entries hn hle),
      fun hlt hpush => eqPop_only_gives rfl rfl hgate hpush (eqPop_too_many hlt), fun hn hpush => ?_,
      eqPop_push_row rfl rfl hgate, eqPush_row rfl rfl hgate⟩
    exact eqPop_only_gives rfl rfl hgate hpush ((congrArg (v.eqPop w.die q) hn).trans (eqPop_none v w.die q))
  case retries =>
    intro d prod s h hup hfind t
    have hdone := eventPushRetry_done hup hfind
    refine ⟨fun hturn => gives_of_done_eq hdone ?_, fun hturn => gives_of_done_eq hdone (if_pos hturn),
      fun hturn => gives_of_done_eq hdone (if_neg (by simp [t, hturn]))⟩
    rw [retryBelow_of_pushTurn hturn, if_pos hturn]
    exact retryHeld_of_held hfind

end Sys2Proof.Machine
end

section
/-!
The Millrace fabric (Chapter 13): send queues, the operations that they start, and the completion of operations.
-/

namespace Sys2Proof.Machine
open Sys2Proof

/-! ### Doorbells and TAIL (R348, R380) -/

section
variable {s : State} {q n : Nat}

theorem sqTailCheck_backward (h : ¬ (n + 2 ^ 32 - s.sqTail q) % 2 ^ 32 < 2 ^ 31) : s.sqTailCheck q n = .perm :=
  if_pos (Nat.le_of_not_lt h)

theorem sqTailCheck_overflow (hf : (n + 2 ^ 32 - s.sqTail q) % 2 ^ 32 < 2 ^ 31) (h : s.sqSize q < (n + 2 ^ 32 - s.sqHead q) % 2 ^ 32) :
    s.sqTailCheck q n = .busy := (if_neg (Nat.not_le_of_lt hf)).trans (if_pos h)

theorem sqTailCheck_ok (hf : (n + 2 ^ 32 - s.sqTail q) % 2 ^ 32 < 2 ^ 31) (h : (n + 2 ^ 32 - s.sqHead q) % 2 ^ 32 ≤ s.sqSize q) :
    s.sqTailCheck q n = .ok := (if_neg (Nat.not_le_of_lt hf)).trans (if_neg (Nat.not_lt_of_le h))

end

section
variable {w : Wr} {s : State} (hgate : s.gate w.die .mrcSqDoorbell w.pl w.ctx = .ok)
include hgate

theorem mrcSqDoorbell_foreign_gives (h : s.sqSt (w.idx % 64) = 4 ∨ w.ctx ≠ s.sqCtx (w.idx % 64) ∨ s.sqPl (w.idx % 64) < w.pl) :
    Gives (.mrcSqDoorbell w) s (s.answer .perm 0) := by
  refine gives_of_done_eq rfl ?_
  rw [hgate]
  exact if_pos h

variable (h : ¬ (s.sqSt (w.idx % 64) = 4 ∨ w.ctx ≠ s.sqCtx (w.idx % 64) ∨ s.sqPl (w.idx % 64) < w.pl))
include h

theorem mrcSqDoorbell_refused_gives {st : Status} (hst : st ≠ .ok) (hcheck : s.sqTailCheck (w.idx % 64) (fld w.val 31 0) = st) :
    Gives (.mrcSqDoorbell w) s (s.answer st 0) := by
  refine gives_of_done_eq rfl ?_
  rw [hgate]
  refine (if_neg h).trans ?_
  rw [hcheck]
  cases st with
  | ok => exact absurd rfl hst
  | _ => rfl

theorem mrcSqDoorbell_taken_gives (hcheck : s.sqTailCheck (w.idx % 64) (fld w.val 31 0) = .ok) :
    Gives (.mrcSqDoorbell w) s
      ((((s.setRf .hub .mrcSqPtr (w.idx % 64) 63 32 (fld w.val 31 0)).sqSettle (w.idx % 64)).wakeIf 2 (0x80 + w.idx % 64)).answer .ok 0) := by
  refine gives_of_done_eq rfl ?_
  rw [hgate]
  refine (if_neg h).trans ?_
  rw [hcheck]

end

theorem sqTailPoll_done {q : Nat} {s t : State} {l : List Byte} {st : Status} (hrun : s.running .hub false = true) (hq : q < 64)
    (hst : s.sqSt q ≤ 1) (hpoll : s.rf .hub .mrcSqCfg q 49 49 = 1)
    (hread : s.vaSpan (.millrace 0) (s.sqCtx q) (s.sqPl q) (va57 (s.rf .hub .mrcSqTailaddr q 56 0)) 8 = .ok (st, l, t)) :
    exec (.sqTailPoll q) s = done s (if st ≠ .ok then t.sqError q st
      else if t.sqTailCheck q (leNat l % 2 ^ 32) = .ok then (t.setRf .hub .mrcSqPtr q 63 32 (leNat l % 2 ^ 32)).sqSettle q else t) := by
  refine congrArg (done s) ((if_neg ?_).trans ?_)
  · simp only [hrun, hpoll, Bool.true_eq_false, Nat.one_ne_zero, false_or, or_false]
    omega
  · rw [hread]
    cases st with
    | ok => exact (if_neg (not_not_intro rfl)).symm
    | _ => exact (if_pos nofun).symm

/-! ### Writes of MRC_SQ_CFG (R347, R359, R380) -/

section
variable {w : Wr} {s : State} {q : Nat} (hq : q = s.selUnit w.die w.pl .sq) (hgate : s.gate w.die .mrcSqCfg w.pl w.ctx = .ok)
include hq hgate

theorem sqEnable_row (hoff : s.rf .hub .mrcSqCfg q 12 12 = 0) (hen : w.val.getLsbD 12 = true) :
    CfgRow (.sqEnable w) w .mrcSqCfg s s fun t =>
      if versionOk (s.reg .hub .mrcIfVersion 0) (fld w.val 47 32) = true then ((t.setReg .hub .mrcSqPtr q 0).setSqSt q 0).answer .ok 0
      else s.answer .busy 0 := by
  subst hq
  refine cfgRow_of_onStored (congrArg (done s) ?_)
  rw [hgate]
  refine (if_neg (by rw [hoff, hen]; decide)).trans ?_
  congr 1
  funext t
  cases versionOk _ _ <;> rfl

theorem sqDisable_row (hon : s.rf .hub .mrcSqCfg q 12 12 = 1) (hclear : w.val.getLsbD 12 = false) :
    CfgRow (.sqDisable w) w .mrcSqCfg s s fun t =>
      if s.sqSt q = 1 ∨ s.mops.any (fun o => decide (o.q = q)) = true then s.answer .busy 0 else (t.setSqSt q 4).answer .ok 0 := by
  subst hq
  refine cfgRow_of_onStored (congrArg (done s) ?_)
  rw [hgate]
  exact if_neg (by rw [hon, hclear]; decide)

end

/-! ### The next descriptor of a queue (R380) -/

/-- A queue after its descriptor's operation has begun, or where it has to wait. -/
def State.sqBegun (s : State) (q : Nat) (x : Except Wait State) : State :=
  match x with
  | .error w => s.await w
  | .ok u => (u.setRf .hub .mrcSqPtr q 31 0 ((u.sqHead q + 1) % 2 ^ 32)).sqSettle q

section
variable {s t : State} {q : Nat} {l : List Byte} {st : Status} {w : Wait} (mine : Nat → Bool)

theorem sqReads_guard {r : Except Wait (Status × List Byte × State)} (h : SqReads s q r) :
    ¬ (s.running .hub false = false ∨ 64 ≤ q ∨ s.sqSt q ≠ 1 ∨ s.sqHead q = s.sqTail q ∨ s.prodHeld .hub (128 + q) = true) := by
  obtain ⟨hrun, hq, hst, hleft, hheld, -⟩ := h
  rw [hrun, hheld]
  simp only [Bool.true_eq_false, Bool.false_eq_true, or_false, false_or]
  omega

theorem sqStart_waits (h : SqReads s q (.error w)) : s.sqStart q mine = s.await w := by
  obtain ⟨-, -, -, -, -, hread⟩ := id h
  refine (if_neg (sqReads_guard h)).trans ?_
  dsimp only
  rw [hread]

theorem sqStart_unread (h : SqReads s q (.ok (st, l, t))) (hst : st ≠ .ok) : s.sqStart q mine = t.sqError q st := by
  obtain ⟨-, -, -, -, -, hread⟩ := id h
  refine (if_neg (sqReads_guard h)).trans ?_
  dsimp only
  rw [hread]
  cases st with
  | ok => exact absurd rfl hst
  | _ => rfl

theorem sqStart_read (h : SqReads s q (.ok (.ok, l, t))) : s.sqStart q mine =
    if (!mine (mdOpc (leNat l)) || (mdFence (leNat l) && s.mops.any (fun o => decide (o.q = q)))) = true then s
    else s.sqBegun q (t.mrcBegin q (leNat l) (s.sqCtx q) (s.sqPl q) none) := by
  obtain ⟨-, -, -, -, -, hread⟩ := id h
  refine (if_neg (sqReads_guard h)).trans ?_
  dsimp only
  rw [hread]
  rfl

end

theorem sqRow_of_exec {mk : Nat → Instr} {mine : Nat → Prop} [DecidablePred mine]
    (he : ∀ q s, exec (mk q) s = done s (s.sqStart q fun c => decide (mine c))) : SqRow mk mine := by
  intro q s t l st
  refine ⟨fun w h => gives_of_done_eq (he q s) (sqStart_waits _ h), fun h hst => gives_of_done_eq (he q s) (sqStart_unread _ h hst),
    fun h hmine hfence => ?starts, fun h hmine hfence hopen => gives_of_done_eq (he q s) ?_⟩
  case starts =>
    have hstart : s.sqStart q (fun c => decide (mine c)) = s.sqBegun q (t.mrcBegin q (leNat l) (s.sqCtx q) (s.sqPl q) none) := by
      refine (sqStart_read _ h).trans (if_neg ?_)
      simpa [hmine] using hfence
    exact ⟨fun u hu => gives_of_done_eq (he q s) (hstart.trans (congrArg (s.sqBegun q) hu)),
      fun w hw => gives_of_done_eq (he q s) (hstart.trans (congrArg (s.sqBegun q) hw))⟩
  · obtain ⟨o, ho, hq⟩ := hopen
    refine (sqStart_read _ h).trans (if_pos ?_)
    simpa [hmine, hfence] using ⟨o, ho, hq⟩

/-! ### The start of operations by kind (R375, R381, R382) -/

section
variable {s : State} {q d ctx pl : Nat} {parent : Option Nat}

theorem mrcBegin_unlicensed (hfl : s.fl = false) : s.mrcBegin q d ctx pl parent =
    .ok (withOp s s.mrcNext { opAt s q d ctx pl parent with isOver := true, st := .unav }) := if_pos (by simp [hfl])

variable (hfl : s.fl = true)
include hfl

theorem mrcBegin_malformed (hok : s.mdOk d parent.isSome = false) : s.mrcBegin q d ctx pl parent =
    .ok (withOp s s.mrcNext { opAt s q d ctx pl parent with isOver := true, st := .perm }) :=
  (if_neg (by simp [hfl])).trans (if_pos (by simp [hok]))

variable (hok : s.mdOk d parent.isSome = true)
include hok

theorem mrcBegin_waitin (hopc : mdOpc d = 6) : s.mrcBegin q d ctx pl parent = .ok (withOp s s.mrcNext (opAt s q d ctx pl parent)) :=
  (if_neg (by simp [hfl])).trans ((if_neg (by simp [hok])).trans (if_pos hopc))

theorem mrcBegin_coll (hopc : mdOpc d = 5) : s.mrcBegin q d ctx pl parent = .ok (withOp s s.mrcNext
    { opAt s q d ctx pl parent with entries := upFrom (mdOpnd d % 2 ^ 16) (mdOpnd d / 2 ^ 16 % 2 ^ 16) }) :=
  (if_neg (by simp [hfl])).trans ((if_neg (by simp [hok])).trans ((if_neg (by omega)).trans (if_pos hopc)))

/-- The conditions that stand before the route of an operation that sends. -/
theorem mrcBegin_guards {a b c e f g : Except Wait State} (hopc : mdOpc d ≤ 4) (hstation : s.station ≠ 0xFFFF) :
    (if (!s.fl) = true then a else if (!s.mdOk d parent.isSome) = true then b else if mdOpc d = 6 then c
      else if mdOpc d = 5 then e else if s.station = 0xFFFF then f else g) = g := by
  rw [if_neg (by simp [hfl]), if_neg (by simp [hok]), if_neg (by omega), if_neg (by omega), if_neg hstation]

/-- A package without a station number, or with no way to the station, sends nothing. -/
theorem mrcBegin_unrouted (hopc : mdOpc d ≤ 4) (h : s.station = 0xFFFF ∨ s.route (mdDst d) = none) : s.mrcBegin q d ctx pl parent =
    .ok (withOp s s.mrcNext { opAt s q d ctx pl parent with isOver := true, st := .unav }) := by
  refine (if_neg (by simp [hfl])).trans ((if_neg (by simp [hok])).trans ((if_neg (by omega)).trans ((if_neg (by omega)).trans ?_)))
  refine ite_eq_left_iff.2 fun hstation => ?_
  rw [h.resolve_left hstation]

variable {port : Nat} (hstation : s.station ≠ 0xFFFF) (hroute : s.route (mdDst d) = some port)
include hstation hroute

/-- The record of an operation that sends units by a port. -/
def State.opBy (s : State) (q d ctx pl : Nat) (parent : Option Nat) (port : Nat) : MrcOp :=
  { opAt s q d ctx pl parent with
    port := port, units := List.range (unitLens (mdLen d)).length, isOver := decide (unitLens (mdLen d) = []) }

theorem mrcBegin_put_read {l : List Byte} {t : State} (hkind : mdOpc d = 1 ∨ mdOpc d = 4)
    (hread : s.vaSpan (.millrace port) ctx pl (mdLaddr d) (mdLen d) = .ok (.ok, l, t)) :
    s.mrcBegin q d ctx pl parent = .ok (withOp (sendAll t port ((withIdx (unitLens (mdLen d))).flatMap fun e =>
      unitPkts (if mdOpc d = 1 then 1 else 6) d s.mrcNext ctx e.1 (unitLens (mdLen d)).length (mdRaddr d + unitSize * e.1)
        ((l.drop (unitSize * e.1)).take e.2))) s.mrcNext (s.opBy q d ctx pl parent port)) := by
  refine (mrcBegin_guards hfl hok (by omega) hstation).trans ?_
  rw [hroute]
  refine (if_pos hkind).trans ?_
  rw [hread]
  rfl

theorem mrcBegin_put_unread {st : Status} {l : List Byte} {t : State} (hkind : mdOpc d = 1 ∨ mdOpc d = 4)
    (hread : s.vaSpan (.millrace port) ctx pl (mdLaddr d) (mdLen d) = .ok (st, l, t)) (hst : st ≠ .ok) :
    s.mrcBegin q d ctx pl parent = .ok (withOp t s.mrcNext { s.opBy q d ctx pl parent port with isOver := true, st := st }) := by
  refine (mrcBegin_guards hfl hok (by omega) hstation).trans ?_
  rw [hroute]
  refine (if_pos hkind).trans ?_
  rw [hread]
  cases st with
  | ok => exact absurd rfl hst
  | _ => rfl

theorem mrcBegin_get (hkind : mdOpc d = 2) : s.mrcBegin q d ctx pl parent =
    .ok (withOp (sendAll s port ((withIdx (unitLens (mdLen d))).map fun e =>
      { txPkt 2 (mdVl d) (mdDst d) ctx s.mrcNext e.1 with
        fence := mdFence d, addr := mdRaddr d + unitSize * e.1, len := 8, data := e.2, units := (unitLens (mdLen d)).length }))
      s.mrcNext (s.opBy q d ctx pl parent port)) := by
  refine (mrcBegin_guards hfl hok (by omega) hstation).trans ?_
  rw [hroute]
  exact (if_neg (by omega)).trans (if_pos hkind)

theorem mrcBegin_atomic (hkind : mdOpc d = 3) : s.mrcBegin q d ctx pl parent =
    .ok (withOp (s.sendPkt port { txPkt 4 (mdVl d) (mdDst d) ctx s.mrcNext 0 with
        fence := mdFence d, arg := mdArg d, addr := mdRaddr d, len := 16, data := mdOpnd d + mdOpnd2 d * 2 ^ 64 })
      s.mrcNext { s.opBy q d ctx pl parent port with units := [0] }) := by
  refine (mrcBegin_guards hfl hok (by omega) hstation).trans ?_
  rw [hroute]
  exact (if_neg (by omega)).trans (if_neg (by omega))

end

/-! ### Completion (R381, R382) -/

section
variable {s : State} {o : MrcOp} (hmop : s.mop? o.id = some o) (hrun : s.running .hub false = true)
  (hheld : s.prodHeld .hub (128 + o.q) = false)
include hmop hrun hheld

omit hmop in
theorem mrcOpComplete_guard : ¬ (s.running .hub false = false ∨ s.prodHeld .hub (128 + o.q) = true) := by
  rw [hrun, hheld]
  decide

theorem mrcOpComplete_over_done (hover : o.isOver = true) : exec (.mrcOpComplete o.id) s = done s (orStay s (s.mrcFinish o)) := by
  refine congrArg (done s) ?_
  rw [hmop]
  exact (if_neg (mrcOpComplete_guard hrun hheld)).trans (if_pos hover)

variable (hover : o.isOver = false)
include hover

section
variable (hopc : mdOpc o.desc = 6)
include hopc

theorem mrcOpComplete_waitin_waits_gives {w : Wait}
    (hread : s.vaSpan (.millrace o.port) o.ctx o.pl (mdLaddr o.desc) 8 = .error w) : Gives (.mrcOpComplete o.id) s (s.await w) := by
  refine gives_of_done_eq rfl ?_
  rw [hmop]
  refine (if_neg (mrcOpComplete_guard hrun hheld)).trans ((if_neg (by simp [hover])).trans ((if_pos hopc).trans ?_))
  rw [hread]

theorem mrcOpComplete_waitin_done {st : Status} {l : List Byte} {t : State}
    (hread : s.vaSpan (.millrace o.port) o.ctx o.pl (mdLaddr o.desc) 8 = .ok (st, l, t)) :
    exec (.mrcOpComplete o.id) s = done s (if st ≠ .ok then orStay s (t.mrcFinish { o with isOver := true, st := st })
      else if mdOpnd o.desc ≤ leNat l then orStay s (t.mrcFinish { o with isOver := true }) else t) := by
  refine congrArg (done s) ?_
  rw [hmop]
  refine (if_neg (mrcOpComplete_guard hrun hheld)).trans ((if_neg (by simp [hover])).trans ((if_pos hopc).trans ?_))
  rw [hread]
  cases st with
  | ok => exact (if_neg (not_not_intro rfl)).symm
  | _ => exact (if_pos nofun).symm

end

section
variable (hopc : mdOpc o.desc = 5)
include hopc

theorem mrcOpComplete_coll_ended_done (hentries : o.entries = []) :
    exec (.mrcOpComplete o.id) s = done s (orStay s (s.mrcFinish { o with isOver := true })) := by
  refine congrArg (done s) ?_
  rw [hmop]
  refine (if_neg (mrcOpComplete_guard hrun hheld)).trans ((if_neg (by simp [hover])).trans
    ((if_neg (by omega)).trans ((if_pos hopc).trans ?_)))
  rw [hentries]

/-- The entry of a schedule as its COLL starts it, with the COLL's own offsets added to its addresses (R381). -/
def State.collEntry (s : State) (o : MrcOp) (e : Nat) : Nat :=
  let d := aGet s.tables.collTab 0 e
  d - mdLaddr d * 2 ^ 128 - mdRaddr d * 2 ^ 192 + (mdLaddr d + mdLaddr o.desc) % 2 ^ 64 * 2 ^ 128
    + (mdRaddr d + mdRaddr o.desc) % 2 ^ 64 * 2 ^ 192

theorem mrcOpComplete_coll_done {e : Nat} {r : List Nat} (hentries : o.entries = e :: r) :
    exec (.mrcOpComplete o.id) s = done s (if s.mops.any (fun x => decide (x.parent = some o.id)) = true then s
      else orStay s (s.mrcBegin o.q (s.collEntry o e) o.ctx o.pl (some o.id))) := by
  refine congrArg (done s) ?_
  rw [hmop]
  refine (if_neg (mrcOpComplete_guard hrun hheld)).trans ((if_neg (by simp [hover])).trans
    ((if_neg (by omega)).trans ((if_pos hopc).trans ?_)))
  rw [hentries]
  rfl

end

theorem mrcOpComplete_open_gives (hopc : mdOpc o.desc < 5) : Gives (.mrcOpComplete o.id) s s := by
  refine gives_of_done_eq rfl ?_
  rw [hmop]
  exact (if_neg (mrcOpComplete_guard hrun hheld)).trans ((if_neg (by simp [hover])).trans
    ((if_neg (by omega)).trans (if_neg (by omega))))

end

/-- Settles O47: send queues by what their registers and rings say, the start of an operation by its kind, its completion by what it
waits for. -/
theorem millraceOperations : Obligations.MillraceOperations := by
  refine ⟨⟨?doorbell, ?poll, ?configs, sqRow_of_exec fun _ _ => rfl, sqRow_of_exec fun _ _ => rfl, sqRow_of_exec fun _ _ => rfl,
    sqRow_of_exec fun _ _ => rfl, sqRow_of_exec fun _ _ => rfl, sqRow_of_exec fun _ _ => rfl, ?starts⟩, ?completions⟩
  case doorbell =>
    intro w s hgate q T may
    have hforeign (h : may) : ¬ (s.sqSt q = 4 ∨ w.ctx ≠ s.sqCtx q ∨ s.sqPl q < w.pl) := by
      obtain ⟨hst, hctx, hpl, -⟩ := h
      exact not_or.2 ⟨hst, not_or.2 ⟨not_not_intro hctx, Nat.not_lt_of_le hpl⟩⟩
    refine ⟨fun hno => ?_, fun hmay hfull => ?_, fun hmay hroom => ?_⟩
    · by_cases h : s.sqSt q = 4 ∨ w.ctx ≠ s.sqCtx q ∨ s.sqPl q < w.pl
      · exact mrcSqDoorbell_foreign_gives hgate h
      · refine mrcSqDoorbell_refused_gives hgate h nofun (sqTailCheck_backward fun hforward => hno ?_)
        simp only [not_or, not_not, Nat.not_lt] at h
        exact ⟨h.1, h.2.1, h.2.2, hforward⟩
    · exact mrcSqDoorbell_refused_gives hgate (hforeign hmay) nofun (sqTailCheck_overflow hmay.2.2.2 hfull)
    · exact mrcSqDoorbell_taken_gives hgate (hforeign hmay) (sqTailCheck_ok hmay.2.2.2 hroom)
  case poll =>
    intro q s t l st hrun hq hst hpoll hread
    have hdone := sqTailPoll_done hrun hq hst hpoll hread
    exact ⟨fun h => gives_of_done_eq hdone (if_pos h),
      fun h hcheck => gives_of_done_eq hdone ((if_neg (not_not_intro h)).trans (if_pos hcheck)),
      fun h hcheck => gives_of_done_eq hdone ((if_neg (not_not_intro h)).trans (if_neg hcheck))⟩
  case configs =>
    intro w s hgate q
    exact ⟨sqEnable_row rfl hgate, sqDisable_row rfl hgate⟩
  case starts =>
    intro s q d ctx pl parent o ends
    refine ⟨mrcBegin_unlicensed, mrcBegin_malformed, fun hfl hok => ⟨mrcBegin_waitin hfl hok, mrcBegin_coll hfl hok,
      mrcBegin_unrouted hfl hok, fun port hstation hroute => ⟨fun hkind st l t hread => ⟨?read, ?unread⟩,
      mrcBegin_get hfl hok hstation hroute, mrcBegin_atomic hfl hok hstation hroute⟩⟩⟩
    case read =>
      rintro rfl
      exact mrcBegin_put_read hfl hok hstation hroute hkind hread
    case unread => exact mrcBegin_put_unread hfl hok hstation hroute hkind hread
  case completions =>
    intro s o hmop hrun hheld by_ fin
    have hby (x : Except Wait State) (h : exec (.mrcOpComplete o.id) s = done s (orStay s x)) : by_ x := by
      cases x <;> exact h
    refine ⟨fun hover => hby _ (mrcOpComplete_over_done hmop hrun hheld hover), fun hover hopc => ?waitin,
      fun hover hopc hentries => hby _ (mrcOpComplete_coll_ended_done hmop hrun hheld hover hopc hentries),
      fun e r hover hopc hentries => ?coll, mrcOpComplete_open_gives hmop hrun hheld⟩
    case waitin =>
      split
      next w hread => exact mrcOpComplete_waitin_waits_gives hmop hrun hheld hover hopc hread
      next st l t hread =>
        have hdone := mrcOpComplete_waitin_done hmop hrun hheld hover hopc hread
        exact ⟨fun h => hby _ (hdone.trans (congrArg (done s) (if_pos h))),
          fun h hreached => hby _ (hdone.trans (congrArg (done s) ((if_neg (not_not_intro h)).trans (if_pos hreached)))),
          fun h hshort => gives_of_done_eq hdone ((if_neg (not_not_intro h)).trans (if_neg (Nat.not_le_of_lt hshort)))⟩
    case coll =>
      have hdone := mrcOpComplete_coll_done hmop hrun hheld hover hopc hentries
      refine ⟨fun h => gives_of_done_eq hdone (if_pos (by simpa using h)), fun h => hby _ (hdone.trans (congrArg (done s) (if_neg ?_)))⟩
      simpa using h

end Sys2Proof.Machine
end

section
/-!
Millrace packets (Chapter 13): what a packet does where it arrives, by its kind.
-/

namespace Sys2Proof.Machine
open Sys2Proof

/-! ### A packet at its port (R377, R378) -/

section
variable {s : State} {p : Pkt} {lane : Bool} {f : State → State}

theorem takePkt_port_down (h : s.mrcUp p.port = false) : s.takePkt p lane f = s := if_pos (by simp [h])

theorem takePkt_dropped (hup : s.mrcUp p.port = true) (h : ¬ Arrives s p lane) :
    s.takePkt p lane f = { s with mrcDrops := aSet s.mrcDrops p.port (aGet s.mrcDrops 0 p.port + 1) } := by
  refine (if_neg (by simp [hup])).trans (if_pos ?_)
  by_contra hc
  simp only [not_or, not_not, Bool.not_eq_false] at hc
  exact h ⟨hup, hc.1, hc.2⟩

theorem takePkt_arrived (h : Arrives s p lane) : s.takePkt p lane f =
    (if p.ctx = 0 ∧ p.vl ≠ 7 ∧ p.onReq = false then (heard s p).inLog p 1 else f (heard s p)).wakeIf 3 p.port := by
  obtain ⟨hup, hmajor, hlane⟩ := h
  exact (if_neg (by simp [hup])).trans (if_neg (by simp [hmajor, hlane]))

end

theorem pktRow_of_exec {mk : Pkt → Instr} {lane : Pkt → Bool} {f : Pkt → State → State → State → Prop} {g : Pkt → State → State → State}
    (he : ∀ p s, exec (mk p) s = done s (s.takePkt p (lane p) (g p s))) (hg : ∀ p s u t, f p s u t → g p s u = t) : PktRow mk lane f := by
  intro p s refused
  refine ⟨fun harrives htaken t ht => gives_of_done_eq (he p s) ?_, fun harrives hrefused => gives_of_done_eq (he p s) ?_,
    fun hup hdropped => gives_of_done_eq (he p s) (takePkt_dropped hup hdropped),
    fun hdown => gives_of_done_eq (he p s) (takePkt_port_down hdown)⟩
  · rw [takePkt_arrived harrives, if_neg htaken, hg p s _ t ht]
  · rw [takePkt_arrived harrives, if_pos hrefused]

/-! ### The kinds of packets (R376-R379) -/

theorem putData_row : ∀ r ∈ [(Instr.putData, 1), (Instr.rputData, 6)], PktRow r.1 (fun p => p.onReq) fun p _ u t =>
    t = if u.inRefused p then (u.inLog p 1).stage p r.2 p.ctx 3 p.addr .perm else u.stage p r.2 p.ctx 3 p.addr .ok := by
  simp only [List.forall_mem_cons, List.not_mem_nil, false_imp_iff, implies_true, and_true]
  exact ⟨pktRow_of_exec (fun _ _ => rfl) fun _ _ _ _ h => h.symm, pktRow_of_exec (fun _ _ => rfl) fun _ _ _ _ h => h.symm⟩

theorem getReq_row : PktRow Instr.getReq (fun p => p.onReq) (fun p s u t =>
    let no (v : State) (st : Status) : State :=
      v.reply p.port { txPkt 3 (p.vl + 1) p.src p.ctx p.opid p.unit with st := st, addr := p.addr, units := p.units }
    let r := u.vaSpan (.millrace p.port) p.ctx 3 p.addr (min p.data unitSize)
    (u.inRefused p = true ∧ t = no (u.inLog p 0) .perm) ∨
    (u.inRefused p = false ∧ ((∃ w, r = .error w ∧ t = s.await w) ∨ ∃ st l v, r = .ok (st, l, v) ∧
      ((st ≠ .ok ∧ t = no v (if st = .xlat then .perm else st)) ∨
       (st = .ok ∧ t = (List.range (cdiv l.length 4096)).foldl (fun x k =>
          let c := (l.drop (4096 * k)).take 4096
          x.reply p.port { txPkt 3 (p.vl + 1) p.src p.ctx p.opid p.unit with
            seq := k, last := decide (k + 1 = cdiv l.length 4096), addr := p.addr + 4096 * k, len := c.length, data := leNat c,
            units := p.units }) v))))) := by
  refine pktRow_of_exec (fun _ _ => rfl) fun p s u t => ?_
  rintro (⟨hrefused, rfl⟩ | ⟨hmay, ⟨w, hread, rfl⟩ | ⟨st, l, v, hread, hans⟩⟩)
  · exact if_pos hrefused
  · refine (if_neg (by simp [hmay])).trans ?_
    rw [hread]
  · refine (if_neg (by simp [hmay])).trans ?_
    rw [hread]
    obtain ⟨hst, rfl⟩ | ⟨rfl, rfl⟩ := hans
    · cases st with
      | ok => exact absurd rfl hst
      | _ => rfl
    · rfl

theorem atomic_row : PktRow Instr.atomic (fun p => p.onReq) (fun p s u t =>
    let ans (v : State) (st : Status) (x : Nat) : State :=
      v.reply p.port { txPkt 5 (p.vl + 1) p.src p.ctx p.opid p.unit with st := st, arg := p.arg, addr := p.addr, len := 8, data := x }
    let r := u.vaAtomic (.millrace p.port) p.ctx 3 p.addr (mrcAtOp p.arg p.data)
    (u.inRefused p = true ∧ t = ans (u.inLog p 2) .perm 0) ∨ (u.inRefused p = false ∧ 5 < p.arg ∧ t = ans u .perm 0) ∨
    (u.inRefused p = false ∧ p.arg ≤ 5 ∧ ((∃ w, r = .error w ∧ t = s.await w) ∨
      ∃ st x v, r = .ok (st, x, v) ∧ t = ans v (if st = .xlat then .perm else st) (if st = .ok then x else 0)))) := by
  refine pktRow_of_exec (fun _ _ => rfl) fun p s u t => ?_
  rintro (⟨hrefused, rfl⟩ | ⟨hmay, harg, rfl⟩ | ⟨hmay, harg, ⟨w, hread, rfl⟩ | ⟨st, x, v, hread, rfl⟩⟩)
  · exact if_pos hrefused
  · exact (if_neg (by simp [hmay])).trans (if_pos harg)
  · refine (if_neg (by simp [hmay])).trans ((if_neg (Nat.not_lt_of_le harg)).trans ?_)
    rw [hread]
  · refine (if_neg (by simp [hmay])).trans ((if_neg (Nat.not_lt_of_le harg)).trans ?_)
    rw [hread]

theorem getData_row : PktRow Instr.getData (fun p => p.onRsp) (fun p _ u t => (u.openOp p [2] = none ∧ t = u) ∨
    ∃ o, u.openOp p [2] = some o ∧
      t = if p.st = .ok then u.stage p 3 o.ctx o.pl (mdLaddr o.desc + unitSize * p.unit) .ok else u.unitOver o p.unit p.st) := by
  refine pktRow_of_exec (fun _ _ => rfl) fun p s u t => ?_
  rintro (⟨hnone, rfl⟩ | ⟨o, hopen, rfl⟩)
  · rw [hnone]
  · rw [hopen]
    exact ite_not _ _ _

theorem mrcAck_row : PktRow Instr.mrcAck (fun p => p.onRsp) (fun p _ u t => (u.openOp p [1, 4] = none ∧ t = u) ∨
    ∃ o, u.openOp p [1, 4] = some o ∧ t = u.unitOver o p.unit p.st) := by
  refine pktRow_of_exec (fun _ _ => rfl) fun p s u t => ?_
  rintro (⟨hnone, rfl⟩ | ⟨o, hopen, rfl⟩)
  · rw [hnone]
  · rw [hopen]

theorem atomicRsp_row : PktRow Instr.atomicRsp (fun p => p.onRsp) (fun p s u t => (u.openOp p [3] = none ∧ t = u) ∨
    ∃ o, u.openOp p [3] = some o ∧ ((p.st ≠ .ok ∧ t = u.unitOver o p.unit p.st) ∨ (p.st = .ok ∧
      ((∃ w, u.vaPut (.millrace p.port) o.ctx o.pl (mdLaddr o.desc) (leBytes 8 p.data) = .error w ∧ t = s.await w) ∨
       ∃ st v, u.vaPut (.millrace p.port) o.ctx o.pl (mdLaddr o.desc) (leBytes 8 p.data) = .ok (st, v) ∧ t = v.unitOver o p.unit st)))) := by
  refine pktRow_of_exec (fun _ _ => rfl) fun p s u t => ?_
  rintro (⟨hnone, rfl⟩ | ⟨o, hopen, ⟨hst, rfl⟩ | ⟨hst, ⟨w, hput, rfl⟩ | ⟨st, v, hput, rfl⟩⟩⟩)
  · rw [hnone]
  · rw [hopen]
    exact if_pos hst
  · rw [hopen]
    refine (if_neg (not_not_intro hst)).trans ?_
    rw [hput]
  · rw [hopen]
    refine (if_neg (not_not_intro hst)).trans ?_
    rw [hput]

/-- A management packet from a station that may send there reaches the management cores. -/
theorem mgmt_gives {p : Pkt} {s : State} (harrives : Arrives s p (decide (p.vl = 7))) (hfl : s.fl = true)
    (hstation : (s.ep p.src).getLsbD 0 = true) (hmay : (s.ep p.src).getLsbD 12 = true) :
    Gives (.mgmt p) s ((({ heard s p with vl7 := (heard s p).vl7 ++ [p.src] } : State).emit .mctp [2, p.src, p.len, p.data]).wakeIf 3 p.port) := by
  obtain ⟨hup, hmajor, hlane⟩ := harrives
  have hvl : p.vl = 7 := of_decide_eq_true hlane
  refine gives_of_done_eq rfl ((takePkt_arrived ⟨hup, hmajor, ?_⟩).trans ?_)
  · rw [hlane, hfl, hstation, hmay]
    rfl
  · rw [if_neg fun h => h.2.1 hvl]

/-- Settles O48: each kind of packet is taken by its port alike, and does what its station's rights and its data let it. -/
theorem packetsAtTheirTargets : Obligations.PacketsAtTheirTargets := by
  refine ⟨putData_row, getReq_row, atomic_row, getData_row, mrcAck_row, atomicRsp_row, ?live, fun _ _ => mgmt_gives, ?slack⟩
  case live => exact pktRow_of_exec (fun _ _ => rfl) fun _ _ _ _ h => h.symm
  case slack => exact pktRow_of_exec (fun _ _ => rfl) fun _ _ _ _ h => h.symm

end Sys2Proof.Machine
end

section
/-!
Millrace units, peers, snapshots and management messages (Chapter 13): the commit of a whole unit, the liveness of a station, the slots of
the snapshot area, and what the management cores make of a message.
-/

namespace Sys2Proof.Machine
open Sys2Proof

/-! ### Commit of a unit (R383) -/

theorem unitKey_eq (src opid unit : Nat) : unitKey src opid unit =
    fun u => decide (u.src = src) && decide (u.opid = opid) && decide (u.unit = unit) && u.whole := rfl

section
variable {src opid unit : Nat} {s t : State} {u : RxUnit} {st0 : Status}

/-- The state with a unit of this package's own GET over, where its operation is still open. -/
def State.getUnitOver (t : State) (src opid unit : Nat) (st : Status) : State :=
  match t.mops.find? (fun o => decide (o.id = opid) && decide (mdDst o.desc = src) && !o.isOver) with
  | some o => t.unitOver o unit st
  | none => t

/-- The end of an inbound unit: its operation's record, and the arrival word where it was the last of an operation with all committed. -/
def State.rxUnitOver (t : State) (u : RxUnit) (src opid unit : Nat) (st : Status) (left : State) : State :=
  if ((t.rxCount u st).1 && decide (u.arrive ≠ 0)) = true then
    match (t.rxCount u st).2.bumpWord (.millrace u.port) u.ctx u.pl u.arrive with
    | .error w => left.await w
    | .ok (_, v) => ackUnit v u src opid unit st
  else ackUnit (t.rxCount u st).2 u src opid unit st

variable (hfind : s.rxUnits.find? (unitKey src opid unit) = some u) (hrun : s.running .hub false = true) (hturn : s.unitTurn u = true)
include hfind hrun hturn

theorem unitCommitted_waits_gives {w : Wait} {v : State} (hcommit : s.commitUnit u (unitKey src opid unit) = .error (w, v)) :
    Gives (.unitCommitted src opid unit) s (v.await w) := by
  rw [unitKey_eq] at hfind hcommit
  refine gives_of_done_eq rfl ?_
  dsimp only
  rw [hfind]
  refine (if_neg (by simp [hrun, hturn])).trans ?_
  rw [hcommit]

theorem unitCommitted_done (hcommit : s.commitUnit u (unitKey src opid unit) = .ok (st0, t)) :
    exec (.unitCommitted src opid unit) s = done s
      (let t1 : State := { t with rxUnits := lDrop (unitKey src opid unit) t.rxUnits }
       let st := if st0 = .xlat then .perm else st0
       if u.kind = 3 then t1.getUnitOver src opid unit st
       else t1.rxUnitOver u src opid unit st { s with rxUnits := t.rxUnits }) := by
  rw [unitKey_eq] at hfind hcommit ⊢
  refine congrArg (done s) ?_
  dsimp only
  rw [hfind]
  refine (if_neg (by simp [hrun, hturn])).trans ?_
  rw [hcommit]
  rfl

end

section
variable {s t : State} {u : RxUnit} {src opid unit : Nat} {st : Status} {left : State}

/-- Units of the operation that have been seen, this one included. -/
def State.rxSeen (s : State) (u : RxUnit) : Nat :=
  (match s.rxOps.find? fun r => decide (r.src = u.src) && decide (r.opid = u.opid) with | some r => r.got | none => 0) + 1
/-- Whether a unit of the operation was not committed. -/
def State.rxBad (s : State) (u : RxUnit) (st : Status) : Bool :=
  (match s.rxOps.find? fun r => decide (r.src = u.src) && decide (r.opid = u.opid) with | some r => r.bad | none => false) || decide (st ≠ .ok)
/-- The record of an inbound operation after one of its units. -/
def State.rxCounted (s : State) (u : RxUnit) (st : Status) : State :=
  let rest := s.rxOps.filter fun r => !(decide (r.src = u.src) && decide (r.opid = u.opid))
  { s with rxOps := if u.lost = false ∧ s.rxSeen u < u.units then rest ++ [⟨u.src, u.opid, u.port, u.ctx, s.rxSeen u, s.rxBad u st⟩] else rest }

/-- A unit is the last of an operation whose units have all been committed. -/
def State.rxAll (s : State) (u : RxUnit) (st : Status) : Prop := u.lost = false ∧ u.units ≤ s.rxSeen u ∧ s.rxBad u st = false

theorem rxCount_snd (s : State) (u : RxUnit) (st : Status) : (s.rxCount u st).2 = s.rxCounted u st := by
  unfold State.rxCounted
  dsimp only
  cases hlost : u.lost with
  | false =>
    by_cases hn : s.rxSeen u < u.units
    · rw [if_pos (⟨rfl, hn⟩ : false = false ∧ _)]
      exact congrArg Prod.snd ((if_neg (by simp [hlost])).trans (if_pos hn))
    · rw [if_neg fun h : false = false ∧ _ => hn h.2]
      exact congrArg Prod.snd ((if_neg (by simp [hlost])).trans (if_neg hn))
  | true =>
    rw [if_neg fun h : true = false ∧ _ => absurd h.1 (by decide)]
    exact congrArg Prod.snd (if_pos hlost)

theorem rxCount_fst (s : State) (u : RxUnit) (st : Status) : (s.rxCount u st).1 = true ↔ s.rxAll u st := by
  cases hlost : u.lost
  · by_cases hn : s.rxSeen u < u.units
    · have hfst : (s.rxCount u st).1 = false := congrArg Prod.fst ((if_neg (by simp [hlost])).trans (if_pos hn))
      simp [hfst, State.rxAll, hn]
    · have hfst : (s.rxCount u st).1 = !s.rxBad u st := congrArg Prod.fst ((if_neg (by simp [hlost])).trans (if_neg hn))
      simp [hfst, State.rxAll, hlost, Nat.le_of_not_lt hn]
  · have hfst : (s.rxCount u st).1 = false := congrArg Prod.fst (if_pos hlost)
    simp [hfst, State.rxAll, hlost]

theorem rxUnitOver_acked (h : ¬ (t.rxAll u st ∧ u.arrive ≠ 0)) :
    t.rxUnitOver u src opid unit st left = ackUnit (t.rxCounted u st) u src opid unit st := by
  rw [← rxCount_fst] at h
  exact (if_neg (by simpa using h)).trans (by rw [rxCount_snd])

theorem rxUnitOver_bumped (h : t.rxAll u st) (harrive : u.arrive ≠ 0) {r : Status × State}
    (hbump : (t.rxCounted u st).bumpWord (.millrace u.port) u.ctx u.pl u.arrive = .ok r) :
    t.rxUnitOver u src opid unit st left = ackUnit r.2 u src opid unit st := by
  rw [← rxCount_snd] at hbump
  refine (if_pos (by simp [(rxCount_fst t u st).2 h, harrive])).trans ?_
  rw [hbump]

theorem rxUnitOver_waits (h : t.rxAll u st) (harrive : u.arrive ≠ 0) {w : Wait}
    (hbump : (t.rxCounted u st).bumpWord (.millrace u.port) u.ctx u.pl u.arrive = .error w) :
    t.rxUnitOver u src opid unit st left = left.await w := by
  rw [← rxCount_snd] at hbump
  refine (if_pos (by simp [(rxCount_fst t u st).2 h, harrive])).trans ?_
  rw [hbump]

end

/-! ### Liveness of peers (R384) -/

section
variable {station port : Nat} {s : State} {e : Nat × Nat × Nat} {l : List (Nat × Nat × Nat)} (hrun : s.running .hub false = true)
  (hopen : s.openOnes station = e :: l)
include hrun hopen

theorem liveSend_gives (hquiet : 1000 ≤ (s.now - (s.peer station).2.1).toNat) (hroute : s.route station = some port) :
    Gives (.liveSend station) s (s.sendPkt port (txPkt 8 6 station e.2.1 0 0)) := by
  refine gives_of_done_eq rfl ?_
  rw [hopen]
  refine (if_pos (by rw [hrun, Bool.true_and]; exact decide_eq_true hquiet)).trans ?_
  rw [hroute]

/-- The tables of operations without those of a station that is lost. -/
def State.stationLost (s : State) (station : Nat) : State :=
  { s with
    mops := s.mops.map fun o => if o ∈ s.opsWith station then s.mopLost o else o
    rxUnits := (s.rxUnits.filter fun u => decide (u.src ≠ station) || u.whole).map fun u =>
      if u.src = station then { u with lost := true } else u
    rxOps := s.rxOps.filter fun r => decide (r.src ≠ station)
    peers := aErase s.peers station }

/-- MRC_PEER_LOG after a loss: it counts, and keeps the first until it is cleared (Table 13-5). -/
def peerLogged (r : W64) (station port : Nat) : W64 :=
  let r1 := setFld r 55 40 (min 65535 (fld r 55 40 + 1))
  if r.getLsbD 63 = true then setFld r1 62 62 1 else setFld (setFld (setFld r1 63 63 1) 39 24 station) 23 20 port

theorem peerLost_gives (hlate : 100 * s.rf .hub .mrcCfg 0 47 36 ≤ (s.now - (s.peer station).1).toNat)
    (hport : port = if aFind s.peers station = none then e.1 else (s.peer station).2.2) :
    Gives (.peerLost station) s (((s.stationLost station).setReg .hub .mrcPeerLog 0 (peerLogged (s.reg .hub .mrcPeerLog 0) station port)).post
      .hub 127 (s.rf .hub .mrcCfg 0 35 32)
      (eventBytes 12 .peer 0 (0x9000 + port) 0xFF (BitVec.ofNat 64 station) s.now (natBytes 4 port ++ natBytes 4 e.2.2))) := by
  have hport' : port = if (aFind s.peers station).isSome = true then (s.peer station).2.2 else e.1 := by
    rw [hport]
    cases aFind s.peers station <;> rfl
  refine gives_of_done_eq rfl ?_
  dsimp only
  rw [hopen]
  refine (if_neg (by rw [hrun, decide_eq_false (Nat.not_lt_of_le hlate)]; decide)).trans ?_
  rw [← hport']
  unfold State.stationLost peerLogged
  simp only [List.contains_iff_mem]
  rfl

end

/-! ### Snapshots (R385) -/

section
variable {w : Wr} {s t : State} {op : Nat} {f : State → W64 → Except Wait (Status × Option Nat × State)} (hop : fld w.val 55 52 = op)
  (hst : s.ctlStore w.die .mrcSnapCmd 0 w.pl w.ctx w.val = (.ok, t))

/-- What a command of the snapshot area gives before its status is shown. -/
def State.snapResult (t : State) (f : State → W64 → Except Wait (Status × Option Nat × State)) : Except Wait (Status × Option Nat × State) :=
  let h := t.reg .hub .mrcSnapHandle 0
  if !t.fl then .ok (.unav, none, t) else if h = 0 then .ok (.perm, none, t) else f t h

/-- The status, the slot and the slots in use, shown in MRC_SNAP_CMD. -/
def snapShown (r : Status × Option Nat × State) : State :=
  let u := r.2.2.setRf .hub .mrcSnapCmd 0 59 56 r.1.code
  let v := match r.2.1 with | some k => u.setRf .hub .mrcSnapCmd 0 19 16 k | none => u
  (v.setRf .hub .mrcSnapCmd 0 15 0 (maskOf (v.snapH.map fun e => e.1))).answer .ok 0

include hop hst in
theorem snapWrite_waits {e : Wait} (hres : t.snapResult f = .error e) : s.snapWrite w op f = s.await e := by
  refine (if_neg (not_not.2 hop)).trans ?_
  rw [hst]
  unfold State.snapResult at hres
  dsimp only at hres ⊢
  rw [hres]

include hop hst in
theorem snapWrite_shown {r : Status × Option Nat × State} (hres : t.snapResult f = .ok r) : s.snapWrite w op f = snapShown r := by
  refine (if_neg (not_not.2 hop)).trans ?_
  rw [hst]
  unfold State.snapResult at hres
  dsimp only at hres ⊢
  rw [hres]
  rfl

/-- The result of a command that the area refuses or takes, in the cases in which `SnapRow` says it (R385). -/
theorem snapResult_cases {g : State → W64 → Except Wait (Status × Option Nat × State) → Prop} {x : Except Wait (Status × Option Nat × State)}
    (hfg : ∀ h, g t h x → x = f t h)
    (hx : (t.fl = false ∧ x = .ok (.unav, none, t)) ∨ (t.fl = true ∧ t.reg .hub .mrcSnapHandle 0 = 0 ∧ x = .ok (.perm, none, t)) ∨
      (t.fl = true ∧ t.reg .hub .mrcSnapHandle 0 ≠ 0 ∧ g t (t.reg .hub .mrcSnapHandle 0) x)) : t.snapResult f = x := by
  unfold State.snapResult
  dsimp only
  obtain ⟨hfl, rfl⟩ | ⟨hfl, hzero, rfl⟩ | ⟨hfl, hhandle, hg⟩ := hx
  · exact if_pos (by rw [hfl]; rfl)
  · exact (if_neg (by simp [hfl])).trans (if_pos hzero)
  · exact (if_neg (by simp [hfl])).trans ((if_neg hhandle).trans (hfg _ hg).symm)

end

theorem snapRow_of_exec {mk : Wr → Instr} {op : Nat} {f : State → W64 → Except Wait (Status × Option Nat × State)}
    {g : State → W64 → Except Wait (Status × Option Nat × State) → Prop} (hexec : ∀ w s, exec (mk w) s = done s (s.snapWrite w op f))
    (hfg : ∀ t h x, g t h x → x = f t h) : SnapRow mk op g := by
  intro w s t hop hst h x hx
  have hres : t.snapResult f = x := snapResult_cases (fun h => hfg t h x) hx
  cases x with
  | error e => exact gives_of_done_eq (hexec w s) (snapWrite_waits hop hst hres)
  | ok r => exact gives_of_done_eq (hexec w s) (snapWrite_shown hop hst hres)

/-- What a SAVE gives with a slot, where `write` writes the area. -/
def saveResult (write : List (Nat × Nat) → Nat → Except Wait (Status × State)) (bytes : Nat) (t : State) (h : W64) (slot : Option Nat) :
    Except Wait (Status × Option Nat × State) :=
  match slot with
  | none => .ok (.busy, none, t)
  | some k =>
    match write (snapPieces (t.slotPa k)) bytes with
    | .error e => .error e
    | .ok (.ok, u) => .ok (.ok, some k, { u with snapH := aSet u.snapH k h })
    | .ok (e, u) => .ok (e, some k, { u with snapH := aErase u.snapH k })

section
variable {write : List (Nat × Nat) → Nat → Except Wait (Status × State)} {bytes : Nat} {t : State} {h : W64}

theorem saveResult_waits {k : Nat} {e : Wait} (hwrite : write (snapPieces (t.slotPa k)) bytes = .error e) :
    saveResult write bytes t h (some k) = .error e := by
  unfold saveResult
  dsimp only
  rw [hwrite]

theorem saveResult_written {k : Nat} {st : Status} {u : State} (hwrite : write (snapPieces (t.slotPa k)) bytes = .ok (st, u)) :
    saveResult write bytes t h (some k) =
      .ok (st, some k, { u with snapH := if st = .ok then aSet u.snapH k h else aErase u.snapH k }) := by
  unfold saveResult
  dsimp only
  rw [hwrite]
  cases st <;> rfl

end

theorem snapSave_row : SnapRow Instr.snapSave 1 (fun t h x => (saveSlot t h = none ∧ x = .ok (.busy, none, t)) ∨ ∃ k, saveSlot t h = some k ∧
      let r := t.paWrites 0x6000 0 0 (snapPieces (t.slotPa k)) (leNat t.tableBytes)
      ((∃ e, r = .error e ∧ x = .error e) ∨ ∃ st u, r = .ok (st, u) ∧
        x = .ok (st, some k, { u with snapH := if st = .ok then aSet u.snapH k h else aErase u.snapH k }))) := by
  refine snapRow_of_exec (fun w s => rfl) fun t h x => ?_
  generalize t.paWrites 0x6000 0 0 = write
  generalize leNat t.tableBytes = bytes
  -- A lemma over every `write`: the kernel would carry out those of the area to compare two forms of the branch.
  as_aux_lemma =>
    intro hx
    have hresult : x = saveResult write bytes t h (saveSlot t h) := by
      obtain ⟨hslot, rfl⟩ | ⟨k, hslot, ⟨e, hwrite, rfl⟩ | ⟨st, u, hwrite, rfl⟩⟩ := hx
      · rw [hslot]
        rfl
      · rw [hslot]
        exact (saveResult_waits hwrite).symm
      · rw [hslot]
        exact (saveResult_written hwrite).symm
    exact hresult

/-- A snapshot is loaded only where no operation and no send queue runs. -/
theorem snapBusy_iff (t : State) : (!t.mops.isEmpty || (List.range 64).any (fun q => decide (t.sqSt q = 1))) = true ↔
    t.mops ≠ [] ∨ ∃ q, q < 64 ∧ t.sqSt q = 1 := by
  simp

theorem snapRestore_row : SnapRow Instr.snapRestore 2 (fun t h x => (t.slotOf h = none ∧ x = .ok (.unav, none, t)) ∨ ∃ k, t.slotOf h = some k ∧
      let busy := t.mops ≠ [] ∨ ∃ q, q < 64 ∧ t.sqSt q = 1
      let r := t.paReads 0x6000 0 0 (snapPieces (t.slotPa k))
      ((busy ∧ x = .ok (.busy, some k, t)) ∨ (¬ busy ∧ ∃ e, r = .error e ∧ x = .error e) ∨
        (¬ busy ∧ ∃ st l u, r = .ok (st, l, u) ∧ x = .ok (st, some k, if st = .ok then u.loadTables l else u)))) := by
  refine snapRow_of_exec (fun w s => rfl) fun t h x hx => ?_
  obtain ⟨hnone, rfl⟩ | ⟨k, hk, hx⟩ := hx
  · rw [hnone]
  rw [hk]
  dsimp only at hx ⊢
  rw [← snapBusy_iff] at hx
  obtain ⟨hbusy, rfl⟩ | ⟨hfree, e, hr, rfl⟩ | ⟨hfree, st, l, u, hr, rfl⟩ := hx
  · exact (if_pos hbusy).symm
  · rw [if_neg hfree, hr]
  · rw [if_neg hfree, hr]
    cases st <;> rfl

theorem snapDrop_row : SnapRow Instr.snapDrop 3 (fun t h x => (t.slotOf h = none ∧ x = .ok (.unav, none, t)) ∨ ∃ k, t.slotOf h = some k ∧
      x = .ok (.ok, some k, { t with snapH := aErase t.snapH k })) := by
  refine snapRow_of_exec (fun w s => rfl) fun t h x hx => ?_
  obtain ⟨hnone, rfl⟩ | ⟨k, hk, rfl⟩ := hx
  · rw [hnone]
  · rw [hk]

/-! ### Management messages (R386, R460) -/

section
variable {transport typ data : Nat} {s : State}

/-- The state in which a management message is taken: a VL7 message of the station at the front leaves its queue. -/
def State.vl7Taken (s : State) (transport : Nat) : State :=
  if transport = 2 then { s with vl7 := s.vl7.filter fun x => decide (some x ≠ s.vl7.head?) } else s

/-- A management message that the running firmware takes. -/
def State.mctpTaken (v : State) (transport typ data : Nat) : State :=
  if typ = 0x7E then v.mailIn transport data
  else if typ = 0 ∨ (transport < 2 ∧ (typ = 1 ∨ typ = 5)) then
    (if typ = 1 ∧ pldmData data = true ∧ (v.fwRuns || v.recovering) = true then v.pldmWrite v.otherImg else v).emit .mctp [transport, typ, data, 0]
  else v.emit .mctp [transport, typ, data, 1]

theorem mctp_hubDown_gives (hdown : s.running .hub false = false) :
    Gives (.mctpMessage transport typ data) s (if transport < 2 ∧ s.pwrState = 4 then s.wakeIf 4 transport else s) :=
  gives_of_done_eq rfl (if_pos hdown)

section
variable (hrun : s.running .hub false = true) (hcarried : transport = 2 → s.fl = true ∧ s.vl7 ≠ [])
include hrun hcarried

theorem mctp_taken_gives :
    Gives (.mctpMessage transport typ data) s (((s.vl7Taken transport).mctpTaken transport typ data).wakeIf 4 transport) := by
  have hnot : ¬ (transport = 2 ∧ (s.fl = false ∨ s.vl7 = [])) := by
    rintro ⟨htwo, hfl | hempty⟩
    · simp [hfl] at hcarried
      exact hcarried htwo
    · exact (hcarried htwo).2 hempty
  exact gives_of_done_eq rfl ((if_neg (by simp [hrun])).trans (if_neg hnot))

end

variable {v : State}

theorem mctpTaken_mail : v.mctpTaken transport 0x7E data = v.mailIn transport data := if_pos rfl

theorem mctpTaken_plain (hmail : typ ≠ 0x7E) (hknown : typ = 0 ∨ (transport < 2 ∧ (typ = 1 ∨ typ = 5)))
    (hplain : ¬ (typ = 1 ∧ pldmData data = true ∧ (v.fwRuns = true ∨ v.recovering = true))) :
    v.mctpTaken transport typ data = v.emit .mctp [transport, typ, data, 0] := by
  refine (if_neg hmail).trans ((if_pos hknown).trans ?_)
  rw [← Bool.or_eq_true] at hplain
  rw [if_neg hplain]

theorem mctpTaken_pldm (htransport : transport < 2) (hdata : pldmData data = true) (hup : v.fwRuns = true ∨ v.recovering = true) :
    v.mctpTaken transport 1 data = (v.pldmWrite v.otherImg).emit .mctp [transport, 1, data, 0] := by
  refine (if_neg (by decide)).trans ((if_pos (.inr ⟨htransport, .inl rfl⟩)).trans ?_)
  rw [← Bool.or_eq_true] at hup
  rw [if_pos ⟨rfl, hdata, hup⟩]

theorem mctpTaken_unknown (hmail : typ ≠ 0x7E) (hunknown : ¬ (typ = 0 ∨ (transport < 2 ∧ (typ = 1 ∨ typ = 5)))) :
    v.mctpTaken transport typ data = v.emit .mctp [transport, typ, data, 1] :=
  (if_neg hmail).trans (if_neg hunknown)

end

/-- Settles O49: each command of these rules, by the lemma for it above. -/
theorem commitPeersAndSnapshots : Obligations.CommitPeersAndSnapshots := by
  unfold Obligations.CommitPeersAndSnapshots
  refine ⟨?_, ?_, ?_, snapSave_row, snapRestore_row, snapDrop_row, ?_⟩
  · intro src opid unit s u hfind hrun hturn
    refine ⟨fun w v => unitCommitted_waits_gives hfind hrun hturn, fun st0 t hcommit => ?_⟩
    have hdone := unitCommitted_done hfind hrun hturn hcommit
    intro st t1 same was n bad rest bumps t2
    refine ⟨fun hget => gives_of_done_eq hdone (if_pos hget), fun hput hacked => ?_, fun hput hbumps => ?_⟩
    · exact gives_of_done_eq hdone ((if_neg hput).trans (rxUnitOver_acked fun ⟨⟨hkept, hall, hgood⟩, harrive⟩ =>
        hacked ⟨hkept, hall, hgood, harrive⟩))
    · obtain ⟨hkept, hall, hgood, harrive⟩ := hbumps
      cases hbump : t2.bumpWord (.millrace u.port) u.ctx u.pl u.arrive with
      | ok r => exact gives_of_done_eq hdone ((if_neg hput).trans (rxUnitOver_bumped ⟨hkept, hall, hgood⟩ harrive hbump))
      | error w => exact gives_of_done_eq hdone ((if_neg hput).trans (rxUnitOver_waits ⟨hkept, hall, hgood⟩ harrive hbump))
  · intro station port s e l hrun hopen hquiet hroute
    exact liveSend_gives hrun hopen hquiet hroute
  · intro station s e l hrun hopen hlate mine port
    exact peerLost_gives hrun hopen hlate rfl
  · intro transport typ data s
    refine ⟨mctp_hubDown_gives, fun hrun hcarried => ?_⟩
    have htaken : Gives (.mctpMessage transport typ data) s _ := mctp_taken_gives hrun hcarried
    rw [State.vl7Taken] at htaken
    intro v
    refine ⟨?_, fun hmail hknown hplain => ?_, ?_, fun hmail hunknown => ?_⟩
    · rintro rfl
      rwa [mctpTaken_mail] at htaken
    · rwa [mctpTaken_plain hmail hknown hplain] at htaken
    · rintro rfl htransport hdata hup
      rwa [mctpTaken_pldm htransport hdata hup] at htaken
    · rwa [mctpTaken_unknown hmail hunknown] at htaken

end Sys2Proof.Machine
end

section
/-!
The host's ports (Chapter 13): requests to PCIe and from it, the interrupt window, the two windows of the Sluice, the wake doorbell, and
ordered mode.
-/

namespace Sys2Proof.Machine
open Sys2Proof

/-! ### Outbound requests (R362) -/

section
variable {who : PcieWho} {r : Tlp} {e : PcieEnd} {d : Nat} {s : State} (hregion : s.region r.pa = .pcie) (hrun : s.running .hub false = true)
include hregion hrun

theorem pcieOutbound_refused (h : s.outboundMay who = false ∨ inIntWindow r.pa = true) : Gives (.pcieOutbound who r e d) s (s.answer .perm 0) :=
  gives_of_done_eq rfl ((if_neg (by simp [hregion, hrun])).trans (if_pos (by simpa using h)))

variable (hwin : inIntWindow r.pa = false) (hmay : s.outboundMay who = true)
include hwin hmay

theorem pcieOutbound_portDown (hdown : s.rpUp r.pa = false) : Gives (.pcieOutbound who r e d) s (s.answer .unav 0) :=
  gives_of_done_eq rfl ((if_neg (by simp [hregion, hrun])).trans ((if_neg (by simp [hwin, hmay])).trans (if_pos (by simp [hdown]))))

/-- A request as PCIe carries it. -/
def State.tlpSent (s : State) (r : Tlp) : State := s.emit .tlp (if r.wr then [1, r.pa, r.len, r.data] else [0, r.pa, r.len])
/-- Data of a request's end. -/
def endData (r : Tlp) (e : PcieEnd) (d : Nat) : Nat := if r.wr = true ∨ e ≠ .ok then 0 else d % 2 ^ (8 * r.len)

variable (hup : s.rpUp r.pa = true)
include hup

theorem pcieOutbound_sent (hwho : ∀ ch, who ≠ .dma ch) :
    Gives (.pcieOutbound who r e d) s ((s.tlpSent r).answer e.status (BitVec.ofNat 64 (endData r e d % 2 ^ 64))) := by
  refine gives_of_done_eq rfl ((if_neg (by simp [hregion, hrun])).trans ((if_neg (by simp [hwin, hmay])).trans ((if_neg (by simp [hup])).trans ?_)))
  cases who with
  | dma ch => exact absurd rfl (hwho ch)
  | _ => rfl

end

theorem exec_pcieOutbound_dma {ch : Nat} {r : Tlp} {e : PcieEnd} {d : Nat} {s : State} (hregion : s.region r.pa = .pcie)
    (hrun : s.running .hub false = true) (hwin : inIntWindow r.pa = false) (hmay : s.outboundMay (.dma ch) = true) (hup : s.rpUp r.pa = true) :
    exec (.pcieOutbound (.dma ch) r e d) s = done s
      (let l := s.io.outb.map fun o => o.ending (s.reqId (.dma .hub ch)) r e.status (endData r e d)
       (if l = s.io.outb then s.tlpSent r else { s with io := { s.io with outb := l } }).answer e.status
         (BitVec.ofNat 64 (endData r e d % 2 ^ 64))) :=
  congrArg (done s) ((if_neg (by simp [hregion, hrun])).trans ((if_neg (by simp [hwin, hmay])).trans (if_neg (by simp [hup]))))

/-! ### A TLP that a port takes (R371) -/

section
variable {s : State} {x : HubTlp} {i : Instr}

/-- A TLP kept behind the earlier ones of its port. -/
def State.tlpKept (v : State) (x : HubTlp) : State := { v with io := { v.io with tlps := v.io.tlps ++ [x] } }
/-- A TLP that its port tries: done, or kept until what it waits for. -/
def State.tlpTried (v : State) (x : HubTlp) : State :=
  match v.tlpTry x with
  | .ok t => t
  | .error w => (v.tlpKept x).await w

theorem tlpRun_refused {why : Nat} (hwhy : why ≠ 0) : s.tlpRun x why = tlpRefused (s.newWork .hub 11) x why := if_pos hwhy

/-- The course of a TLP that nothing refuses. -/
theorem tlpRun_taken : s.tlpRun x 0 =
    if ((s.newWork .hub 11).io.tlps.any fun y => decide (y.port = x.port)) = true then (s.newWork .hub 11).tlpKept x
    else (s.newWork .hub 11).tlpTried x := rfl

theorem tlpRun_behind (h : ∃ y ∈ (s.newWork .hub 11).io.tlps, y.port = x.port) : s.tlpRun x 0 = (s.newWork .hub 11).tlpKept x :=
  tlpRun_taken.trans (if_pos (by simpa using h))

theorem tlpRun_first (h : ∀ y ∈ (s.newWork .hub 11).io.tlps, y.port ≠ x.port) : s.tlpRun x 0 = (s.newWork .hub 11).tlpTried x :=
  tlpRun_taken.trans (if_neg (by simpa using h))

theorem tlpRun_done (h : ∀ y ∈ (s.newWork .hub 11).io.tlps, y.port ≠ x.port) {t : State} (htry : (s.newWork .hub 11).tlpTry x = .ok t) :
    s.tlpRun x 0 = t := by
  rw [tlpRun_first h, State.tlpTried, htry]

theorem tlpRun_waits (h : ∀ y ∈ (s.newWork .hub 11).io.tlps, y.port ≠ x.port) {w : Wait} (htry : (s.newWork .hub 11).tlpTry x = .error w) :
    s.tlpRun x 0 = ((s.newWork .hub 11).tlpKept x).await w := by
  rw [tlpRun_first h, State.tlpTried, htry]

theorem tlpActs_of_exec {f : State → State} (hexec : exec i s = done s (s.tlpRun x 0)) (htry : ∀ v : State, v.tlpTry x = .ok (f v)) :
    TlpActs i s x f :=
  ⟨fun h => gives_of_done_eq hexec (tlpRun_behind h), fun h => gives_of_done_eq hexec (tlpRun_done h (htry _))⟩

theorem tlpMem_write (hwr : x.wr = true) {st : Status} {t : State}
    (h : s.paWrites x.rid x.ctx x.pl (linePieces x.pa (x.len / 128 + 2) x.len) x.data = .ok (st, t)) :
    s.tlpMem x = .ok (if st = .ok then t else tlpRefused t x (s.tlpWhy x)) := by
  refine (if_pos hwr).trans ?_
  rw [h]
  cases st <;> rfl

theorem tlpMem_write_waits (hwr : x.wr = true) {w : Wait}
    (h : s.paWrites x.rid x.ctx x.pl (linePieces x.pa (x.len / 128 + 2) x.len) x.data = .error w) : s.tlpMem x = .error w := by
  refine (if_pos hwr).trans ?_
  rw [h]

theorem tlpMem_read (hwr : x.wr = false) {st : Status} {l : List Byte} {t : State}
    (h : s.paReads x.rid x.ctx x.pl (linePieces x.pa (x.len / 128 + 2) x.len) = .ok (st, l, t)) :
    s.tlpMem x = .ok (if st = .ok then t.emit .tlp [2, x.port, 0, leNat l] else tlpRefused t x (s.tlpWhy x)) := by
  refine (if_neg (by simp [hwr])).trans ?_
  rw [h]
  cases st <;> rfl

theorem tlpMem_read_waits (hwr : x.wr = false) {w : Wait}
    (h : s.paReads x.rid x.ctx x.pl (linePieces x.pa (x.len / 128 + 2) x.len) = .error w) : s.tlpMem x = .error w := by
  refine (if_neg (by simp [hwr])).trans ?_
  rw [h]

theorem tlpRuns_of_exec (hexec : exec i s = done s (s.tlpRun x 0)) (hkind : x.kind = .mem) : TlpRuns i s x := by
  have htry (v : State) : v.tlpTry x = v.tlpMem x := by rw [State.tlpTry, hkind]
  refine ⟨fun h => gives_of_done_eq hexec (tlpRun_behind h), fun h => ⟨fun hwr => ?_, fun hwr => ?_⟩⟩
  · split
    next hpa => exact gives_of_done_eq hexec (tlpRun_done h ((htry _).trans (tlpMem_write hwr hpa)))
    next hpa => exact gives_of_done_eq hexec (tlpRun_waits h ((htry _).trans (tlpMem_write_waits hwr hpa)))
  · split
    next hpa => exact gives_of_done_eq hexec (tlpRun_done h ((htry _).trans (tlpMem_read hwr hpa)))
    next hpa => exact gives_of_done_eq hexec (tlpRun_waits h ((htry _).trans (tlpMem_read_waits hwr hpa)))

end

/-! ### Requests of devices and of the external host (R363, R367-R369, R373, R405) -/

section
variable {r : Tlp} {s : State}

/-- A root-port request as the hub holds it. -/
def rootPortTlp (r : Tlp) : HubTlp := ⟨.mem, r.port, r.wr, r.pa, r.len, r.data, 0x8000 + r.port, 0, 0⟩

theorem exec_rootPortRequest (hport : s.portIo r.port = true) (hwin : inIntWindow r.pa = false) :
    exec (.rootPortRequest r) s = done s (s.tlpRun (rootPortTlp r) (rootPortReason s r)) := by
  refine congrArg (done s) ((if_neg (by simp [hport, hwin])).trans ?_)
  unfold rootPortReason
  simp only [Bool.not_eq_true', Bool.and_eq_false_iff, decide_eq_false_iff_not, not_and_or, Bool.not_eq_true, or_assoc]
  rfl

/-- A TLP of a port in the interrupt window. -/
def irqTlp (r : Tlp) : HubTlp := ⟨.irq, r.port, r.wr, r.pa, r.len, r.data, 0x8000 + r.port, 0, 0⟩

theorem exec_interruptWindowWrite (hport : s.portIo r.port = true) (hwin : inIntWindow r.pa = true) :
    exec (.interruptWindowWrite r) s = done s (s.tlpRun (irqTlp r) 0) :=
  congrArg (done s) (if_neg (by simp [hport, hwin]))

theorem interruptWindowWrite_fits (hport : s.portIo r.port = true) (hwin : inIntWindow r.pa = true)
    (hfits : r.wr = true ∧ r.len = 4 ∧ r.pa / 2 ^ 6 % 2 ^ 7 < 96) :
    TlpActs (.interruptWindowWrite r) s (irqTlp r) fun v => v.emit .interrupt [r.pa / 2 ^ 6 % 2 ^ 7, r.data % 256] := by
  exact tlpActs_of_exec (exec_interruptWindowWrite hport hwin) fun v => congrArg Except.ok
    (if_pos (by rwa [Bool.and_eq_true, Bool.and_eq_true, decide_eq_true_iff, decide_eq_true_iff, and_assoc]))

theorem interruptWindowWrite_other (hport : s.portIo r.port = true) (hwin : inIntWindow r.pa = true)
    (hother : ¬ (r.wr = true ∧ r.len = 4 ∧ r.pa / 2 ^ 6 % 2 ^ 7 < 96)) :
    TlpActs (.interruptWindowWrite r) s (irqTlp r) fun v => v.violate .hub r.pa 0 (if r.wr then 1 else 0) 8 2 (0x8000 + r.port) 0 :=
  tlpActs_of_exec (exec_interruptWindowWrite hport hwin) fun v =>
    congrArg Except.ok (if_neg (by rwa [Bool.and_eq_true, Bool.and_eq_true, decide_eq_true_iff, decide_eq_true_iff, and_assoc]))

section
variable (hport : s.portMode r.port 1 = true)
include hport

section
variable (hpa : r.pa + r.len ≤ 2 ^ 28)
include hpa

/-- What the Sluice window makes of an access (R367). -/
theorem exec_sluiceAccess_bar0 : exec (.sluiceAccess ⟨false, r⟩) s = done s
    (let c := s.reg .hub .hubSluiceCtrl 0
     if !c.getLsbD 63 then (if r.wr then s else s.emit .tlp [2, r.port, 1])
     else
       let pa := fld c 51 28 * 2 ^ 28 + r.pa
       s.tlpRun ⟨.mem, r.port, r.wr, pa, r.len, r.data, 0x7000 + r.port, fld c 11 0, fld c 62 61⟩
         (if s.region pa = .cxl then 0 else s.protReason 4 (fld c 11 0) (fld c 62 61) (b2n r.wr) 0 pa)) := by
  refine congrArg (done s) ((if_neg (by simp [hport]; omega)).trans ((if_neg Bool.false_ne_true).trans ?_))
  dsimp only
  split
  · rfl
  · split
    next hregion => rw [if_pos hregion]
    next hregion => rw [if_neg hregion]

end

theorem exec_sluiceAccess_bar2 (hpa : r.pa + r.len ≤ 2 ^ 16) : exec (.sluiceAccess ⟨true, r⟩) s = done s
    (s.tlpRun ⟨.bar2, r.port, r.wr, r.pa, r.len, r.data, 0x7000 + r.port, 0, 0⟩ 0) :=
  congrArg (done s) ((if_neg (by simp [hport]; omega)).trans (if_pos rfl))

end

theorem sluiceCtrlWrite_gives {w : Wr} {t : State} {st : Status} (hst : s.ctlStore w.die .hubSluiceCtrl 0 w.pl w.ctx w.val = (st, t)) :
    Gives (.sluiceCtrlWrite w) s (if st = .ok then
      let r := t.reg .hub .hubSluiceCtrl 0
      let r1 := if fld r 62 61 = 0 then setFld r 62 61 1 else r
      (t.setReg .hub .hubSluiceCtrl 0 (if fld r1 11 0 = 0 then setFld r1 11 0 1 else r1)).answer .ok 0
      else t.answer st 0) := by
  refine gives_of_done_eq rfl ?_
  rw [hst]
  cases st <;> rfl

theorem orderedModeEnter_gives (hrun : s.running .hub false = true) (hroutes : s.rf .hub .hubOrderStatus 0 2 0 ≠ 0)
    (hfree : (s.reg .hub .hubOrderStatus 0).getLsbD 31 = false) :
    Gives .orderedModeEnter s (s.setReg .hub .hubOrderStatus 0 (setFld (setFld (s.reg .hub .hubOrderStatus 0) 31 31 1) 30 30 0)) := by
  refine gives_of_done_eq rfl (if_pos ?_)
  rw [hrun, hfree, Bool.true_and, Bool.not_false, Bool.and_true]
  exact decide_eq_true hroutes

theorem endpointWakeDoorbell_gives (hport : s.portMode r.port 1 = true) :
    Gives (.endpointWakeDoorbell r) s (if r.wr = true ∧ r.pa = 0x3000 ∧ r.len = 4 then s.wakeIf 2 255 else s) := by
  refine gives_of_done_eq rfl (if_congr ?_ rfl rfl)
  rw [hport, Bool.and_true, Bool.and_eq_true, Bool.and_eq_true, decide_eq_true_iff, decide_eq_true_iff, and_assoc]

end

/-- Settles O46: each command of these rules, by the lemma for it above. -/
theorem ioOperations : Obligations.IoOperations := by
  unfold Obligations.IoOperations
  refine ⟨?_, ?_, ⟨rfl, rfl, rfl, rfl, rfl⟩, ?_, ?_, ?_, ?_, ?_, ?_, ?_⟩
  · intro who r e d s hregion hwin hrun
    exact pcieOutbound_refused hregion hrun (.inr hwin)
  · intro who r e d s hregion hwin hrun
    refine ⟨fun hmay => pcieOutbound_refused hregion hrun (.inl hmay), fun hmay hdown => pcieOutbound_portDown hregion hrun hwin hmay hdown,
      fun hmay hup hwho => pcieOutbound_sent hregion hrun hwin hmay hup hwho, ?_⟩
    rintro ch rfl hmay hup
    have hexec := exec_pcieOutbound_dma (e := e) (d := d) hregion hrun hwin hmay hup
    exact ⟨fun hsame => gives_of_done_eq hexec (congrArg (State.answer · _ _) (if_pos hsame)),
      fun hnew => gives_of_done_eq hexec (congrArg (State.answer · _ _) (if_neg hnew))⟩
  · intro r s hport hwin x
    refine ⟨fun hwhy => gives_of_done_eq (exec_rootPortRequest hport hwin) (tlpRun_refused hwhy), fun hwhy => ?_⟩
    exact tlpRuns_of_exec (hwhy ▸ exec_rootPortRequest hport hwin) rfl
  · intro r s hport hwin
    exact ⟨interruptWindowWrite_fits hport hwin, interruptWindowWrite_other hport hwin⟩
  · intro r s hport hpa
    have hexec := exec_sluiceAccess_bar0 hport hpa
    intro c pa x why
    refine ⟨fun hoff hwr => ?_, fun hoff hwr => ?_, fun hon hwhy => ?_, fun hon hwhy => ?_⟩
    · exact gives_of_done_eq hexec ((if_pos (by rw [hoff]; decide)).trans (if_pos hwr))
    · exact gives_of_done_eq hexec ((if_pos (by rw [hoff]; decide)).trans (if_neg (by simp [hwr])))
    · exact gives_of_done_eq hexec ((if_neg (by rw [hon]; decide)).trans (tlpRun_refused hwhy))
    · exact tlpRuns_of_exec (hexec.trans (congrArg (done s) ((if_neg (by rw [hon]; decide)).trans (congrArg (s.tlpRun x) hwhy)))) rfl
  · intro r s hport hpa x
    refine ⟨fun hwr => ?_, fun hwr => ?_⟩
    · exact tlpActs_of_exec (exec_sluiceAccess_bar2 hport hpa) fun v => congrArg Except.ok (if_pos (by simp [x, hwr]))
    · exact tlpActs_of_exec (exec_sluiceAccess_bar2 hport hpa) fun v => congrArg Except.ok (if_neg (by simp [x, hwr]))
  · intro w s t st hst
    have hgives := sluiceCtrlWrite_gives hst
    exact ⟨fun hok => by rwa [if_pos hok] at hgives, fun hbad => by rwa [if_neg hbad] at hgives⟩
  · intro s
    exact orderedModeEnter_gives
  · intro r s hport _
    have hgives := endpointWakeDoorbell_gives hport
    exact ⟨fun h => by rwa [if_pos h] at hgives, fun h => by rwa [if_neg h] at hgives⟩

end Sys2Proof.Machine
end

section
/-!
Shares of the package's power and duties of the throttled clocks (R391, R392, R394, R396). With the limit exceeded, each die's share lies
on or below the line from its floor that leads all of them together to what the hub leaves.
-/

namespace Sys2Proof.Machine
open Sys2Proof

/-! ### Shares of the limit (R391) -/

section
variable {limit : Nat} {l : List (Nat × Nat)} {d : Nat}

/-- What the hub leaves of a limit. -/
def leftOf (limit : Nat) (l : List (Nat × Nat)) : Nat := limit - min (drawOf l 0) 90000
/-- What the throttled dies ask for together. -/
def wantSum (l : List (Nat × Nat)) : Nat := (throttled.map (wantOf l)).sum
/-- What the floors come to. -/
def floorSum : Nat := (throttled.map dieFloor).sum

theorem foldl_add_map {α β : Type} [AddCommMonoid α] (f : β → α) (l : List β) : l.foldl (fun a i => a + f i) 0 = (l.map f).sum := by
  rw [List.sum_eq_foldl, List.foldl_map]

theorem shareOf_eq : shareOf limit l d =
    if wantSum l ≤ leftOf limit l ∨ wantOf l d ≤ dieFloor d then (wantOf l d, 1)
    else (dieFloor d * (wantSum l - floorSum) + (wantOf l d - dieFloor d) * (leftOf limit l - floorSum), wantSum l - floorSum) := by
  unfold shareOf wantSum floorSum
  rw [← foldl_add_map, ← foldl_add_map]
  rfl

theorem wantOf_le_dieCeil : wantOf l d ≤ dieCeil d := Nat.min_le_right _ _

theorem shareMw_of_want (h : wantSum l ≤ leftOf limit l ∨ wantOf l d ≤ dieFloor d) : shareMw limit l d = wantOf l d := by
  simp [shareMw, shareOf_eq, h]

/-- The part of the asking above the floors that can be had. -/
def cutRatio (limit : Nat) (l : List (Nat × Nat)) : Rat := ((leftOf limit l : Rat) - floorSum) / ((wantSum l : Rat) - floorSum)
/-- The line that a die's share follows above its floor. -/
def shareLine (limit : Nat) (l : List (Nat × Nat)) (d : Nat) : Rat := dieFloor d + ((wantOf l d : Rat) - dieFloor d) * cutRatio limit l

section
variable (hfloors : floorSum ≤ leftOf limit l) (hshort : leftOf limit l < wantSum l)
include hfloors hshort

theorem shortfall_pos : (0 : Rat) < (wantSum l : Rat) - floorSum := by
  have : (floorSum : Rat) < wantSum l := by exact_mod_cast Nat.lt_of_le_of_lt hfloors hshort
  linarith

theorem cutRatio_nonneg : 0 ≤ cutRatio limit l :=
  div_nonneg (sub_nonneg.2 (by exact_mod_cast hfloors)) (shortfall_pos hfloors hshort).le

theorem cutRatio_le_one : cutRatio limit l ≤ 1 := by
  have : (leftOf limit l : Rat) ≤ wantSum l := by exact_mod_cast hshort.le
  exact (div_le_one (shortfall_pos hfloors hshort)).2 (by linarith)

theorem shareMw_of_cut (hwant : dieFloor d < wantOf l d) : shareMw limit l d = shareLine limit l d := by
  have hpos := shortfall_pos hfloors hshort
  have hsum : floorSum ≤ wantSum l := hfloors.trans hshort.le
  unfold shareMw shareLine cutRatio
  rw [shareOf_eq, if_neg (by omega)]
  push_cast [Nat.cast_sub hsum, Nat.cast_sub hfloors, Nat.cast_sub hwant.le]
  field_simp

theorem shareMw_le_shareLine : shareMw limit l d ≤ shareLine limit l d := by
  rcases Nat.lt_or_ge (dieFloor d) (wantOf l d) with hwant | hwant
  · exact (shareMw_of_cut hfloors hshort hwant).le
  · have hle : (wantOf l d : Rat) ≤ dieFloor d := by exact_mod_cast hwant
    have hone := cutRatio_le_one hfloors hshort
    rw [shareMw_of_want (.inr hwant), shareLine]
    linarith [mul_nonneg (sub_nonneg.2 hle) (sub_nonneg.2 hone)]

end

theorem sum_shareLine (ds : List Nat) : (ds.map (shareLine limit l)).sum =
    ((ds.map dieFloor).sum : Nat) + (((ds.map (wantOf l)).sum : Nat) - ((ds.map dieFloor).sum : Nat) : Rat) * cutRatio limit l := by
  induction ds with
  | nil => simp
  | cons d ds ih =>
    simp only [List.map_cons, List.sum_cons, ih, shareLine]
    push_cast
    ring

theorem shareMw_le_want (hfloors : floorSum ≤ leftOf limit l) : shareMw limit l d ≤ (wantOf l d : Nat) := by
  by_cases h : wantSum l ≤ leftOf limit l ∨ wantOf l d ≤ dieFloor d
  · exact (shareMw_of_want h).le
  · obtain ⟨hshort, hwant⟩ : leftOf limit l < wantSum l ∧ dieFloor d < wantOf l d := by omega
    have hle : (dieFloor d : Rat) ≤ wantOf l d := by exact_mod_cast hwant.le
    have hone := cutRatio_le_one hfloors hshort
    rw [shareMw_of_cut hfloors hshort hwant, shareLine]
    linarith [mul_nonneg (sub_nonneg.2 hle) (sub_nonneg.2 hone)]

theorem floor_le_shareMw (hfloors : floorSum ≤ leftOf limit l) : ((min (wantOf l d) (dieFloor d) : Nat) : Rat) ≤ shareMw limit l d := by
  by_cases h : wantSum l ≤ leftOf limit l ∨ wantOf l d ≤ dieFloor d
  · rw [shareMw_of_want h]
    exact_mod_cast Nat.min_le_left _ _
  · obtain ⟨hshort, hwant⟩ : leftOf limit l < wantSum l ∧ dieFloor d < wantOf l d := by omega
    have hle : (dieFloor d : Rat) ≤ wantOf l d := by exact_mod_cast hwant.le
    have hratio := cutRatio_nonneg hfloors hshort
    rw [shareMw_of_cut hfloors hshort hwant, shareLine, Nat.min_eq_right hwant.le]
    linarith [mul_nonneg (sub_nonneg.2 hle) hratio]

theorem sum_shareMw_le (hfloors : floorSum ≤ leftOf limit l) : (throttled.map (shareMw limit l)).sum ≤ (leftOf limit l : Rat) := by
  rcases Nat.lt_or_ge (leftOf limit l) (wantSum l) with hshort | hroom
  · have hpos := shortfall_pos hfloors hshort
    calc (throttled.map (shareMw limit l)).sum ≤ (throttled.map (shareLine limit l)).sum :=
          List.sum_le_sum fun d _ => shareMw_le_shareLine hfloors hshort
      _ = (floorSum : Rat) + ((wantSum l : Rat) - floorSum) * cutRatio limit l := sum_shareLine _
      _ = leftOf limit l := by
          rw [cutRatio, mul_div_cancel₀ _ hpos.ne']
          ring
  · have hwant : throttled.map (shareMw limit l) = (throttled.map (wantOf l)).map Nat.cast := by
      rw [List.map_map]
      exact List.map_congr_left fun d _ => shareMw_of_want (.inl hroom)
    rw [hwant, ← Nat.cast_list_sum]
    exact_mod_cast hroom

theorem floorSum_le_leftOf (hlimit : 800000 ≤ limit) : floorSum ≤ leftOf limit l := by
  have hfloors : floorSum = 396000 := by decide
  unfold leftOf
  omega

end

/-- Settles O50: the floors fit into any limit that can be configured, so every share lies between floor and demand, and on or below
the line that sums to what the hub leaves. -/
theorem allocationsStayWithinTheLimit : Obligations.AllocationsStayWithinTheLimit := by
  unfold Obligations.AllocationsStayWithinTheLimit
  intro limit l hlimit
  have hfloors : floorSum ≤ leftOf limit l := floorSum_le_leftOf hlimit
  refine ⟨fun d _ => ⟨shareMw_le_want hfloors, floor_le_shareMw hfloors, wantOf_le_dieCeil⟩, ?_⟩
  rw [← List.sum_eq_foldl]
  exact sum_shareMw_le hfloors

/-! ### Duties (R392, R394) -/

section
variable {s : State} {d : Nat}

theorem nextDuty_mem (duty p : Nat) (a : Nat × Nat) : 16 ≤ nextDuty duty a p ∧ nextDuty duty a p ≤ 256 := by
  unfold nextDuty
  omega

theorem dutyOf_zero : s.dutyOf 0 = 256 := rfl

/-- The duty in force of a throttled die: the loop's, with a droop hold and a junction hold put on it. -/
theorem dutyOf_of_ne_zero (hd : d ≠ 0) : s.dutyOf d =
    min (if d ∈ s.hotHold then 32 else s.loopDuty d) (min (if s.drooping d = true then 128 else s.loopDuty d) (s.loopDuty d)) := by
  unfold State.dutyOf
  rw [if_neg hd]
  by_cases hdroop : s.drooping d = true <;> by_cases hhot : d ∈ s.hotHold <;> simp [hdroop, hhot]

theorem dutyOf_le_loopDuty (hd : d ≠ 0) : s.dutyOf d ≤ s.loopDuty d := by
  rw [dutyOf_of_ne_zero hd]
  omega

theorem dutyOf_le_of_drooping (hd : d ≠ 0) (hdroop : s.drooping d = true) : s.dutyOf d ≤ 128 := by
  rw [dutyOf_of_ne_zero hd, if_pos hdroop]
  omega

theorem dutyOf_le_of_hotHold (hd : d ≠ 0) (hhot : d ∈ s.hotHold) : s.dutyOf d ≤ 32 := by
  rw [dutyOf_of_ne_zero hd, if_pos hhot]
  omega

theorem dutyOf_le_max : s.dutyOf d ≤ max 256 (s.loopDuty d) := by
  by_cases hd : d = 0
  · subst hd
    rw [dutyOf_zero]
    omega
  · have := dutyOf_le_loopDuty (s := s) hd
    omega

end

theorem issuedIn_window (duty : Nat) : issuedIn duty 0 256 = duty := by
  unfold issuedIn
  omega

theorem issuedIn_one_le {duty n : Nat} (hduty : duty ≤ 256) : issuedIn duty n 1 ≤ 1 := by
  unfold issuedIn
  rw [Nat.add_mul]
  omega

/-- Settles O51: a hold only puts a smaller duty below the loop's. -/
theorem dutiesStayInRange : Obligations.DutiesStayInRange := by
  unfold Obligations.DutiesStayInRange
  refine ⟨nextDuty_mem, fun s d => ⟨dutyOf_le_max, dutyOf_le_loopDuty, dutyOf_le_of_drooping, dutyOf_le_of_hotHold⟩, fun duty n hduty => ?_⟩
  exact ⟨issuedIn_window duty, issuedIn_one_le hduty⟩

end Sys2Proof.Machine
end

section
/-!
Power commands (Chapter 14): limits, samples, droops, heat, slack and snapshots; requests, handshakes, entries and exits of power states;
the clock's alarm, rails and PLLs.
-/

namespace Sys2Proof.Machine
open Sys2Proof

/-! ### The package limit, samples, droops and heat (R389, R394-R396) -/

section
variable {w : Wr} {s : State}

theorem exec_targetWrite (hgate : s.gate .hub .pwrLimit w.pl w.ctx = .ok) : exec (.targetWrite w) s = done s
    ((if w.pl = 0 then (s.setTarget (fld w.val 7 0)).setRf .hub .pwrLimit 0 15 8 (clampLimit (fld w.val 15 8))
      else s.setTarget (fld w.val 7 0)).answer .ok 0) := by
  refine congrArg (done s) ?_
  rw [hgate]

variable (hrun : s.running .hub false = true)
include hrun

theorem limitSample_gives : Gives .limitSample s { s with limSample := min (s.rf .hub .pwrLimit 0 7 0) (s.rf .hub .pwrLimit 0 15 8) } :=
  gives_of_done_eq rfl (if_pos hrun)

theorem limitRampStep_up (h : s.limitNow < s.limSample) : Gives .limitRampStep s (s.setRf .hub .pwrLimit 0 23 16 (s.limitNow + 1)) :=
  gives_of_done_eq rfl ((if_neg (by simp [hrun, h.ne])).trans (congrArg (s.setRf .hub .pwrLimit 0 23 16) (if_pos h)))

theorem limitRampStep_down (h : s.limSample < s.limitNow) : Gives .limitRampStep s (s.setRf .hub .pwrLimit 0 23 16 (s.limitNow - 1)) :=
  gives_of_done_eq rfl ((if_neg (by simp [hrun, h.ne'])).trans (congrArg (s.setRf .hub .pwrLimit 0 23 16) (if_neg (by omega))))

omit hrun in
theorem limitRampStep_there (h : s.limSample = s.limitNow) : Gives .limitRampStep s s :=
  gives_of_done_eq rfl (if_pos (.inr h.symm))

omit hrun in
/-- The excursion's cut as a sample leaves it. -/
theorem excurCut_sampled (s : State) (isOver : Bool) :
    (if isOver = true then s else { s with excurCut := false }) = { s with excurCut := s.excurCut && isOver } := by
  cases isOver
  · rw [Bool.and_false]
    rfl
  · rw [Bool.and_true]
    rfl

theorem powerSample_gives (draws : List (Nat × Nat)) (shares : List Share) :
    let total := (List.range 15).foldl (fun a d => a + drawOf draws d) 0
    let isOver : Bool := decide (s.limitNow * 25000 < total)
    let s1 : State := { s with excurCut := s.excurCut && isOver }
    let s2 := (List.range 15).foldl (State.chargeDie draws shares) ((List.range 15).foldl (State.sampleDie draws) s1)
    let s3 := ((s2.setRf .hub .pwrStatus 0 63 48 (min 65535 (total / 1000))).setRf .hub .pwrStatus 0 35 35 (if isOver then 1 else 0)).setRf
      .hub .pwrStatus 0 10 0 (if isOver then min 2047 (s.rf .hub .pwrStatus 0 10 0 + 1) else 0)
    Gives (.powerSample draws shares) s { s3 with fan := { s3.fan with draw := s3.fan.draw + total, samples := s3.fan.samples + 1 } } := by
  intro total isOver s1 s2 s3
  refine gives_of_done_eq rfl ((if_neg (by simp [hrun])).trans ?_)
  dsimp only
  rw [excurCut_sampled]
  rfl

theorem droop_gives {d : Nat} (hd : d < 15) : Gives (.droop d) s (drooped s d) := gives_of_done_eq rfl (if_pos (by simp [hd, hrun]))

omit hrun in
theorem droopRelease_gives {d : Nat} (hd : d < 15) (hdroop : s.drooping d = true) :
    Gives (.droopRelease d) s (dutyShown (s.setRf .hub .pwrDie d 0 0 0) d) :=
  gives_of_done_eq rfl (if_pos (by simp [hd, hdroop]))

theorem packageOvercurrent_gives : Gives .packageOvercurrent s (throttled.foldl drooped s) := gives_of_done_eq rfl (if_pos hrun)

omit hrun in
theorem excursionLimit_gives (hlong : 1900 ≤ s.rf .hub .pwrStatus 0 10 0) (hcut : s.excurCut = false) : Gives .excursionLimit s
    (({ s with excurCut := true, mgmtWork := s.mgmtWork ++ [1] } : State).setReg .hub .pwrExcurCnt 0 (cntAdd (s.reg .hub .pwrExcurCnt 0) 1) |>.raise
      .hub 6 (s.rf .hub .pwrStatus 0 10 0)) :=
  gives_of_done_eq rfl (if_neg (by simp [hcut, Nat.not_lt_of_le hlong]))

section
variable {d tj : Nat} (hd : d < 15) (htj : tj < 256)
include hd htj

/-- A sample of a junction as it changes the holds (R396). -/
theorem exec_thermalSample : exec (.thermalSample d tj) s = done s
    (let t := s.setRf .hub .pwrDie d 31 24 tj
     let v := if d = 0 then t
        else if 100 ≤ tj ∧ s.hotHold.contains d = false then ({ t with hotHold := t.hotHold ++ [d] } : State).raise .hub 0x04 (d * 256 + tj)
        else if tj < 99 then { t with hotHold := t.hotHold.filter fun x => decide (x ≠ d) }
        else t
     (dutyShown v d).thermalView) :=
  congrArg (done s) (if_neg (by simp [hrun, hd, htj]))

theorem thermalSample_hot (hzero : d ≠ 0) (hhot : 100 ≤ tj) (hnew : d ∉ s.hotHold) :
    let t := s.setRf .hub .pwrDie d 31 24 tj
    Gives (.thermalSample d tj) s
      (dutyShown (({ t with hotHold := t.hotHold ++ [d] } : State).raise .hub 4 (d * 256 + tj)) d).thermalView := by
  refine gives_of_done_eq (exec_thermalSample hrun hd htj) ?_
  dsimp only
  rw [if_neg hzero, if_pos ⟨hhot, by simpa using hnew⟩]

theorem thermalSample_cool (hzero : d ≠ 0) (hcool : tj < 99) :
    let t := s.setRf .hub .pwrDie d 31 24 tj
    Gives (.thermalSample d tj) s (dutyShown { t with hotHold := t.hotHold.filter fun x => decide (x ≠ d) } d).thermalView := by
  refine gives_of_done_eq (exec_thermalSample hrun hd htj) ?_
  dsimp only
  rw [if_neg hzero, if_neg fun h => Nat.not_le_of_lt hcool (by omega), if_pos hcool]

theorem thermalSample_same (hsame : d = 0 ∨ tj = 99 ∨ (100 ≤ tj ∧ d ∈ s.hotHold)) :
    Gives (.thermalSample d tj) s (dutyShown (s.setRf .hub .pwrDie d 31 24 tj) d).thermalView := by
  refine gives_of_done_eq (exec_thermalSample hrun hd htj) ?_
  dsimp only
  by_cases hzero : d = 0
  · rw [if_pos hzero]
  · obtain rfl | ⟨hhot, hheld⟩ := hsame.resolve_left hzero
    · rw [if_neg hzero, if_neg fun h => absurd h.1 (by decide), if_neg (by decide)]
    · rw [if_neg hzero, if_neg (by simp [hheld]), if_neg (by omega)]

theorem thermalTrip_gives (htrip : 110 ≤ tj) : Gives (.thermalTrip d tj) s (s.raise .hub 5 (d * 256 + tj)) :=
  gives_of_done_eq rfl (if_pos ⟨hd, htrip, htj, hrun⟩)

end

/-! ### Slack and snapshots (R398, R402) -/

theorem slackReport_gives {port : Nat} (hon : s.fanOn = true) (hover : 100000 * s.rf .hub .pwrFanCfg 0 15 8 ≤ (s.now - s.fan.since).toNat)
    (hroute : s.route (s.rf .hub .pwrFanCfg 0 47 32) = some port) :
    Gives .slackReport s { s.sendPkt port { txPkt 9 6 (s.rf .hub .pwrFanCfg 0 47 32) (s.rf .hub .pwrFanCfg 0 59 48) 0 0 with
      len := 32, data := leNat s.slackBytes } with fan := ⟨s.now, 0, 0, 0, 0, 0, (s.fan.seq + 1) % 2 ^ 32⟩ } := by
  have hnot : ¬ (s.fanOn = false ∨ s.running .hub false = false ∨ (s.now - s.fan.since).toNat < 100000 * s.rf .hub .pwrFanCfg 0 15 8) := by
    rw [hon, hrun]
    exact fun h => h.elim (by decide) fun h => h.elim (by decide) (Nat.not_lt_of_le hover)
  have hsend : s.route (fld (s.reg .hub .pwrFanCfg 0) 47 32) = some port := hroute
  refine gives_of_done_eq rfl ((if_neg hnot).trans ?_)
  dsimp only
  rw [hsend]
  rfl

end

theorem pwrSnapTake_gives {w : Wr} {s : State} (hgate : s.gate .hub .pwrSnap w.pl w.ctx = .ok) (htake : w.val.getLsbD 63 = true) :
    let live := (s.regs.filter fun e => decide (e.1.die = .hub) && pwrCounter e.1.name).map fun e => ((e.1.name, e.1.idx), e.2)
    Gives (.pwrSnapTake w) s
      (({ s with pwrSnaps := aSet s.pwrSnaps w.pl live }.setReg .hub .pwrSnap w.pl (BitVec.ofNat 64 (fld s.now 62 0))).answer .ok 0) := by
  refine gives_of_done_eq rfl ?_
  rw [hgate]
  exact if_neg (by rw [htake]; decide)

/-! ### Requests of power states (R404) -/

section
variable {w : Wr} {s : State}

theorem pwrQuiet_iff : s.pwrQuiet = true ↔ s.pwrTry = none ∧ s.pwrTarget = s.pwrState ∧ s.wakeDue = none := by
  simp [State.pwrQuiet, and_assoc]

theorem pwrState_ctrlStore (val : W64) : (s.ctrlStore val).pwrState = s.pwrState :=
  congrArg (fld · 31 28) (State.reg_setReg_ne _ _ (by decide))

theorem requestRow_of_exec {mk : Wr → Instr} {target latency : Nat} (hexec : ∀ w s, exec (mk w) s = done s (s.pwrRequest w target))
    (hlatency : exitLatency target = latency) : RequestRow mk target latency := by
  subst hlatency
  intro w s hgate htarget slow busy
  have hrequest : exec (mk w) s = done s _ := (hexec w s).trans (congrArg (done s) (by rw [State.pwrRequest, hgate]))
  have hbusy : busy ↔ (s.pwrQuiet = false ∨ target ≤ s.pwrState) := by
    rw [← Bool.not_eq_true, pwrQuiet_iff]
    simp only [busy, not_and_or, or_assoc]
  refine ⟨fun hslow => ?_, fun hslow h => ?_, fun hslow h => ?_⟩
  · exact gives_of_done_eq hrequest ((if_neg (not_not.2 htarget)).trans (if_pos hslow))
  · exact gives_of_done_eq hrequest ((if_neg (not_not.2 htarget)).trans ((if_neg hslow).trans (if_pos (hbusy.1 h))))
  · refine gives_of_done_eq hrequest ((if_neg (not_not.2 htarget)).trans ((if_neg hslow).trans ((if_neg (mt hbusy.2 h)).trans ?_)))
    refine congrArg (State.answer · .ok 0) ?_
    unfold State.latLowered
    rw [show ((s.ctrlStore w.val).tryBegin target false).pwrState = s.pwrState from pwrState_ctrlStore _]
    rfl

theorem lattolWrite_gives (hgate : s.gate .hub .pwrStateCtrl w.pl w.ctx = .ok) (hplain : fld w.val 6 4 = 0) :
    let t := s.setReg .hub .pwrStateCtrl 0 (writeFields .pwrStateCtrl (s.reg .hub .pwrStateCtrl 0) w.val)
    let due := fld w.val 63 32 < s.rf .hub .pwrStateCtrl 0 63 32 ∧ fld w.val 63 32 < exitLatency s.pwrState
    (due → Gives (.lattolWrite w) s ((t.wakeIf 5 0).answer .ok 0)) ∧ (¬ due → Gives (.lattolWrite w) s (t.answer .ok 0)) := by
  intro t due
  have hexec : exec (.lattolWrite w) s = done s ((if due then t.wakeIf 5 0 else t).answer .ok 0) := by
    refine congrArg (done s) ?_
    rw [hgate]
    refine (if_neg (not_not.2 hplain)).trans (congrArg (State.answer · .ok 0) ?_)
    unfold State.latLowered
    rw [pwrState_ctrlStore]
    rfl
  exact ⟨fun h => gives_of_done_eq hexec (by rw [if_pos h]), fun h => gives_of_done_eq hexec (by rw [if_neg h])⟩

section
variable (hrun : s.running .hub false = true) (hawake : s.inN0 = true) (hquiet : s.pwrQuiet = true) (hauto : s.rf .hub .pwrStateCtrl 0 1 1 = 1)
  (hidle : ∀ e ∈ s.tiles, e.2.blocks = [])
include hrun hawake hquiet hauto hidle

theorem exec_idleholdExpire : exec .idleholdExpire s = done s
    (if s.rf .hub .pwrStateCtrl 0 63 32 < 2 then s
     else { s with pwrTry := some ⟨if s.rf .hub .pwrStateCtrl 0 63 32 < 150 then 1 else 2, true, [], [], 0⟩ }) := by
  have hblocks : (s.tiles.any fun e => !e.2.blocks.isEmpty) = false := by
    rw [List.any_eq_false]
    intro e he
    simp [hidle e he]
  refine congrArg (done s) (if_congr ?_ rfl rfl)
  simp [hrun, hawake, hquiet, hauto, hblocks]

theorem idleholdExpire_low (hlat : s.rf .hub .pwrStateCtrl 0 63 32 < 2) : Gives .idleholdExpire s s :=
  gives_of_done_eq (exec_idleholdExpire hrun hawake hquiet hauto hidle) (if_pos hlat)

theorem idleholdExpire_n1 (htwo : 2 ≤ s.rf .hub .pwrStateCtrl 0 63 32) (hlat : s.rf .hub .pwrStateCtrl 0 63 32 < 150) :
    Gives .idleholdExpire s { s with pwrTry := some ⟨1, true, [], [], 0⟩ } := by
  refine gives_of_done_eq (exec_idleholdExpire hrun hawake hquiet hauto hidle) ?_
  rw [if_neg (Nat.not_lt_of_le htwo), if_pos hlat]

theorem idleholdExpire_n2 (hlat : 150 ≤ s.rf .hub .pwrStateCtrl 0 63 32) :
    Gives .idleholdExpire s { s with pwrTry := some ⟨2, true, [], [], 0⟩ } := by
  refine gives_of_done_eq (exec_idleholdExpire hrun hawake hquiet hauto hidle) ?_
  rw [if_neg (by omega), if_neg (Nat.not_lt_of_le hlat)]

end

end

/-! ### Handshakes (R405, R406) -/

section
variable {die block us : Nat} {good : Bool} {s : State} {t : PwrTry} (htry : s.pwrTry = some t)
include htry

section
variable (hblock : (die, block) ∈ s.hsBlocks) (hnew : (die, block) ∉ t.accepted) (hfirst : ∀ e ∈ t.deferring, e.1 ≠ (die, block))
include hblock hnew hfirst

omit htry in
theorem handshakeAnswer_awaited :
    ¬ (!s.hsBlocks.contains (die, block) || t.accepted.contains (die, block) || t.deferring.any (fun e => decide (e.1 = (die, block)))) = true := by
  have hdefer : t.deferring.any (fun e => decide (e.1 = (die, block))) = false := by
    rw [List.any_eq_false]
    exact fun e he => by simpa using hfirst e he
  rw [hdefer]
  simp [hblock, hnew]

theorem handshakeAnswer_refused (hans : s.hsAnswer t.target die block good us = .refuse) :
    Gives (.handshakeAnswer die block good us) s (s.tryRefused t die block .busy) := by
  refine gives_of_done_eq rfl ?_
  rw [htry]
  refine (if_neg (handshakeAnswer_awaited hblock hnew hfirst)).trans ?_
  rw [hans]

theorem handshakeAnswer_deferred {n : Nat} (hans : s.hsAnswer t.target die block good us = .defer n) :
    Gives (.handshakeAnswer die block good us) s { s with pwrTry := some { t with deferring := t.deferring ++ [((die, block), n)] } } := by
  refine gives_of_done_eq rfl ?_
  rw [htry]
  refine (if_neg (handshakeAnswer_awaited hblock hnew hfirst)).trans ?_
  rw [hans]

theorem exec_handshakeAnswer_accept (hans : s.hsAnswer t.target die block good us = .accept) :
    exec (.handshakeAnswer die block good us) s = done s
      (let t1 := { t with accepted := t.accepted ++ [(die, block)] }
       if ∀ b ∈ s.hsBlocks, b ∈ t1.accepted then s.tryCommit t1 else { s with pwrTry := some t1 }) := by
  refine congrArg (done s) ?_
  rw [htry]
  refine (if_neg (handshakeAnswer_awaited hblock hnew hfirst)).trans ?_
  rw [hans]
  exact if_congr (by simp only [List.all_eq_true, List.contains_iff_mem]) rfl rfl

end

theorem handshakeDeferExpire_gives (hall : s.hsMissing t = none) (hdefer : t.deferring ≠ []) (htime : t.spent + t.longest < 10000) :
    Gives .handshakeDeferExpire s { s with pwrTry := some { t with accepted := [], deferring := [], spent := t.spent + t.longest } } := by
  refine gives_of_done_eq rfl ?_
  rw [htry]
  exact if_neg (by simp [hall, hdefer, Nat.not_le_of_lt htime])

theorem handshakeTimeout_missing {b : Nat × Nat} (hmissing : s.hsMissing t = some b) :
    Gives .handshakeTimeout s ((s.tryRefused t b.1 b.2 .tout).raise .hub 3 (b.1 * 256 + b.2)) := by
  refine gives_of_done_eq rfl ?_
  rw [htry]
  dsimp only
  rw [hmissing]

theorem handshakeTimeout_deferred (hall : s.hsMissing t = none) (hdefer : t.deferring ≠ []) (htime : 10000 ≤ t.spent + t.longest) :
    Gives .handshakeTimeout s (s.tryOver .tout) := by
  refine gives_of_done_eq rfl ?_
  rw [htry]
  dsimp only
  rw [hall]
  exact if_pos ⟨hdefer, htime⟩

end

/-! ### Entries and exits (R403, R406-R408) -/

section
variable {s : State}

/-- PWR_STATE_STATUS with a state entered. -/
def State.entered (s t : State) : State :=
  ({ t with wakeDue := s.wakeDue }.setRf .hub .pwrStateStatus 0 31 28 s.pwrTarget).setRf .hub .pwrStateStatus 0 23 20 0

section
variable (hfree : s.pwrTry = none) (hdown : s.pwrState < s.pwrTarget)
include hfree hdown

theorem powerStateEntered_guard : ¬ (s.pwrTarget ≤ s.pwrState ∨ s.pwrTry.isSome = true) := by
  rw [hfree]
  exact fun h => h.elim (Nat.not_le_of_lt hdown) (by simp)

theorem powerStateEntered_n1 (htgt : s.pwrTarget = 1) : Gives .powerStateEntered s (s.entered s) := by
  refine gives_of_done_eq rfl ((if_neg (powerStateEntered_guard hfree hdown)).trans ?_)
  rw [if_pos htgt]
  exact if_neg (by omega)

theorem powerStateEntered_n2 (htgt : s.pwrTarget = 2) {t : State} (henter : s.enterN2 = some t) : Gives .powerStateEntered s (s.entered t) := by
  refine gives_of_done_eq rfl ((if_neg (powerStateEntered_guard hfree hdown)).trans ?_)
  rw [if_neg (by omega), if_pos htgt, henter]
  exact if_neg (by omega)

theorem powerStateEntered_n3 (htgt : s.pwrTarget = 3) {t : State} (henter : s.enterN3 = some t) : Gives .powerStateEntered s (s.entered t) := by
  refine gives_of_done_eq rfl ((if_neg (powerStateEntered_guard hfree hdown)).trans ?_)
  rw [if_neg (by omega), if_neg (by omega), if_pos htgt, henter]
  exact if_neg (by omega)

theorem powerStateEntered_n4 (htgt : s.pwrTarget = 4) {t : State} (henter : s.enterN4 = some t) :
    Gives .powerStateEntered s (if t.hubEn = true then t else s.entered t) := by
  refine gives_of_done_eq rfl ((if_neg (powerStateEntered_guard hfree hdown)).trans ?_)
  rw [if_neg (by omega), if_neg (by omega), if_neg (by omega), henter]
  exact if_congr (and_iff_right htgt) rfl rfl

theorem powerStateEntered_removing (htgt : s.pwrTarget = 4) (hrails : s.rdown ≠ []) : Gives .powerStateEntered s s := by
  refine gives_of_done_eq rfl ((if_neg (powerStateEntered_guard hfree hdown)).trans ?_)
  rw [if_neg (by omega), if_neg (by omega), if_neg (by omega), State.enterN4, if_pos hrails]

end

theorem wake_gives {src detail : Nat} (hdue : s.wakeDue = some (src, detail)) (hstate : 1 ≤ s.pwrState) (hthere : s.pwrTarget = s.pwrState)
    (hfree : s.pwrTry = none) :
    let time := if s.pwrState = 4 then (s.reg .hub .pwrRtcCount 0).toNat else s.now.toNat
    Gives .wake s (({ s with wakeDue := none }.setReg .hub .pwrWakeRec 0 (BitVec.ofNat 64 (2 ^ 63 + s.pwrState * 2 ^ 60 + src % 16 * 2 ^ 56
      + detail % 256 * 2 ^ 48 + time % 2 ^ 48))).setRf .hub .pwrStateStatus 0 27 24 0).exitBegin := by
  refine gives_of_done_eq rfl ?_
  rw [hdue]
  refine if_neg ?_
  rw [hfree]
  rintro (hzero | hmoves | hnone)
  · omega
  · exact hmoves hthere
  · simp at hnone

section
variable (htgt : s.pwrTarget = 0)
include htgt

theorem powerStateExited_n1 (hstate : s.pwrState = 1) : Gives .powerStateExited s s.awake :=
  gives_of_done_eq rfl ((if_neg (by omega)).trans (if_pos hstate))

theorem powerStateExited_n2 (hstate : s.pwrState = 2) (hup : ∀ u ∈ s.pups, u.tile = false) : Gives .powerStateExited s
    ((allCds.foldl (fun x n => if x.dom (.cd n) true = 3 then (x.setDom (.cd n) true 2).setReady (36 + n.val) 1 else x) s).marksUp
      tileAgents).awake := by
  have htiles : (s.pups.any fun u => u.tile) = false := by simpa using hup
  exact gives_of_done_eq rfl ((if_neg (by omega)).trans ((if_neg (by omega)).trans ((if_pos hstate).trans (if_neg (by simp [htiles])))))

theorem powerStateExited_n3 (hstate : s.pwrState = 3) (hsettled : ∀ d ∈ farDies, s.dom d false = 2 ∨ s.dom d false = 4)
    (hlinks : ∀ n : Fin 4, s.dom (.cd n) false = 2 → s.linkUp (4 + n.val) = true) : Gives .powerStateExited s
      (((allCds.foldl (fun x n => if x.dom (.cd n) false = 2 then (x.pchBack (2 * n.val)).pchBack (2 * n.val + 1) else x) s).marksUp
        (List.range 34)).awake.recoverySettle) := by
  have hall : (farDies.all fun d => decide (s.dom d false = 2 ∨ s.dom d false = 4)) = true := by
    rw [List.all_eq_true]
    exact fun d hd => decide_eq_true (hsettled d hd)
  have hnone : (allCds.any fun n => decide (s.dom (.cd n) false = 2) && !s.linkUp (4 + n.val)) = false := by
    rw [List.any_eq_false]
    intro n _ h
    rw [Bool.and_eq_true, decide_eq_true_iff] at h
    rw [hlinks n h.1] at h
    exact absurd h.2 (by decide)
  refine gives_of_done_eq rfl ((if_neg (by omega)).trans ((if_neg (by omega)).trans ((if_neg (by omega)).trans ((if_pos hstate).trans ?_))))
  dsimp only
  rw [hall, hnone]
  rfl

theorem powerStateExited_n4 (hstate : s.pwrState = 4) (hboot : s.boot = 9 ∨ s.boot = 10) : Gives .powerStateExited s s.awake :=
  gives_of_done_eq rfl ((if_neg (by omega)).trans ((if_neg (by omega)).trans ((if_neg (by omega)).trans ((if_neg (by omega)).trans (if_pos hboot)))))

end

/-! ### The clock's alarm, rails and PLLs (R407, R409) -/

theorem rtcTick_off (hoff : s.aonUp = false) : Gives .rtcTick s s := gives_of_done_eq rfl (if_pos hoff)

theorem rtcTick_gives (hon : s.aonUp = true) :
    let t := { s with xtal := true }.setReg .hub .pwrRtcCount 0 (s.reg .hub .pwrRtcCount 0 + 1)
    Gives .rtcTick s (t.alarmIf fun k => decide (k = (t.reg .hub .pwrRtcCount 0).toNat) ||
      (!s.xtal && decide (k ≤ (t.reg .hub .pwrRtcCount 0).toNat))) :=
  gives_of_done_eq rfl (if_neg (by simp [hon]))

/-- An alarm at a count or before it. -/
theorem decide_eq_or_le (k n : Nat) : (decide (k = n) || decide (k ≤ n)) = decide (k ≤ n) := by
  rw [← Bool.decide_or]
  exact decide_eq_decide.2 ⟨fun h => h.elim Nat.le_of_eq id, .inr⟩

theorem rail_gives {rail : Nat} {u : PUp} (hup : s.pupAt rail = some u) (hrail : rail < 34) :
    Gives (.railPg rail) s (({ s with rails := s.rails ++ [rail] } : State).pupWith u (u.todo.drop 1)) ∧
    Gives (.railPgTimeout rail) s (s.stepTimeout u 1) := by
  refine ⟨gives_of_done_eq rfl ?_, gives_of_done_eq rfl ?_⟩ <;> rw [hup] <;> exact if_pos hrail

theorem pll_gives {d : Die} {u : PUp} (hup : s.pllAt d = some u) :
    Gives (.pllLockAcquired d) s (s.pupWith u (u.todo.drop 1)) ∧ Gives (.pllLockTimeout d) s (s.stepTimeout u 2) := by
  refine ⟨gives_of_done_eq rfl ?_, gives_of_done_eq rfl ?_⟩ <;> rw [hup]

end

/-- Settles O52: each command of these rules, by the lemma for it above. -/
theorem powerCommands : Obligations.PowerCommands := by
  unfold Obligations.PowerCommands
  refine ⟨⟨?_, ?_, ?_, ?_, ?_, ?_, ?_, ?_⟩, requestRow_of_exec (fun _ _ => rfl) rfl, requestRow_of_exec (fun _ _ => rfl) rfl,
    ?_, ?_, ?_, ?_, ?_, ?_, ?_, ?_, ?_, ?_⟩
  · intro w s hgate t
    have hexec := exec_targetWrite hgate
    exact ⟨fun h => gives_of_done_eq hexec (by rw [if_pos h]; rfl), fun h => gives_of_done_eq hexec (by rw [if_neg h]; rfl)⟩
  · intro s hrun
    exact ⟨limitSample_gives hrun, limitRampStep_up hrun, limitRampStep_down hrun, limitRampStep_there⟩
  · intro draws shares s hrun
    exact powerSample_gives hrun draws shares
  · intro d s hd
    exact ⟨fun hrun => droop_gives hrun hd, droopRelease_gives hd⟩
  · intro s
    exact ⟨packageOvercurrent_gives, excursionLimit_gives⟩
  · intro d tj s hd htj hrun t
    exact ⟨thermalSample_hot hrun hd htj, thermalSample_cool hrun hd htj, thermalSample_same hrun hd htj, thermalTrip_gives hrun hd htj⟩
  · intro s port hon hrun hover _ hroute
    exact slackReport_gives hrun hon hover hroute
  · intro w s hgate htake
    exact pwrSnapTake_gives hgate htake
  · intro w s hgate hplain
    exact lattolWrite_gives hgate hplain
  · intro s hrun hawake hquiet hauto hidle lat
    exact ⟨idleholdExpire_low hrun hawake hquiet hauto hidle, idleholdExpire_n1 hrun hawake hquiet hauto hidle,
      idleholdExpire_n2 hrun hawake hquiet hauto hidle⟩
  · intro die block us good s t htry hblock hnew hfirst
    refine ⟨handshakeAnswer_refused htry hblock hnew hfirst, fun n => handshakeAnswer_deferred htry hblock hnew hfirst, fun hans => ?_⟩
    have hexec := exec_handshakeAnswer_accept htry hblock hnew hfirst hans
    refine ⟨fun ⟨b, hb, hmissing⟩ => gives_of_done_eq hexec (if_neg fun h => hmissing (h b hb)), fun h => gives_of_done_eq hexec (if_pos h)⟩
  · intro s t htry
    exact ⟨handshakeDeferExpire_gives htry, fun b => handshakeTimeout_missing htry, handshakeTimeout_deferred htry⟩
  · intro s hfree hdown shown
    exact ⟨powerStateEntered_n1 hfree hdown, fun htgt t => powerStateEntered_n2 hfree hdown htgt, fun htgt t => powerStateEntered_n3 hfree hdown htgt,
      powerStateEntered_removing hfree hdown, fun htgt t => powerStateEntered_n4 hfree hdown htgt⟩
  · intro s src detail hdue hstate hthere hfree
    exact wake_gives hdue hstate hthere hfree
  · intro s htgt back
    exact ⟨powerStateExited_n1 htgt, powerStateExited_n2 htgt, powerStateExited_n4 htgt, powerStateExited_n3 htgt⟩
  · intro s t
    refine ⟨rtcTick_off, fun hon hxtal => ?_, fun hon hxtal => ?_⟩
    · have htick := rtcTick_gives hon
      simpa only [hxtal, Bool.not_true, Bool.false_and, Bool.or_false] using htick
    · have htick := rtcTick_gives hon
      simpa only [hxtal, Bool.not_false, Bool.true_and, decide_eq_or_le] using htick
  · intro rail s u hup hrail
    exact rail_gives hup hrail
  · intro d s u hup
    exact pll_gives hup

end Sys2Proof.Machine
end

section
/-!
Faults (Chapter 15): the records of the collectors and of the package, which keep the first report until they are cleared, and the
commands of reports, records, forcing, on-die errors, ALIVE_OUT, the watchdog, clocks and rails.
-/

namespace Sys2Proof.Machine
open Sys2Proof

/-! ### Records (R412, R414) -/

theorem getLsbD_setFld_in {x : W64} {a v : Nat} (ha : a < 64) : (setFld x a a v).getLsbD a = v.testBit 0 := by
  rw [getLsbD_setFld_bit x v a ha, if_pos rfl]

theorem getLsbD_setFld_out {x : W64} {hi lo v i : Nat} (h : i < lo ∨ hi < i) : (setFld x hi lo v).getLsbD i = x.getLsbD i := by
  rw [getLsbD_setFld, if_neg (by omega)]

theorem testBit_b2n (b : Bool) : (b2n b).testBit 0 = b := by cases b <;> rfl

theorem Die.idx_lt (d : Die) : d.idx < 16 := by
  cases d with
  | hub => decide
  | hd k => exact Nat.lt_of_lt_of_le (Nat.add_lt_add_left k.isLt 1) (by decide)
  | cd n => exact Nat.lt_of_lt_of_le (Nat.add_lt_add_left n.isLt 3) (by decide)

section
variable {s : State} {r : Report} {time : W64}

/-- A collector's record with one more report counted. -/
def recordCounted (f : W64) : W64 := setFld (setFld f 62 62 1) 47 32 (min 65535 (fld f 47 32 + 1))
/-- A collector's record of its first report. -/
def recordTaken (f : W64) (r : Report) : W64 := setFld (setFld (setFld f 63 63 1) 61 61 (b2n r.forced)) 7 0 r.src
/-- The package's record with one more report counted. -/
def pkgCounted (f : W64) : W64 := setFld (setFld f 62 62 1) 48 33 (min 65535 (fld f 48 33 + 1))
/-- The package's record of its first report. -/
def pkgTaken (f : W64) (r : Report) : W64 :=
  setFld (setFld (setFld (setFld (setFld f 63 63 1) 61 61 (b2n r.forced)) 60 57 r.die.idx) 56 49 r.src) 31 0 r.info.toNat

theorem latch_held (h : (s.reg r.die .fltFirst 0).getLsbD 63 = true) :
    s.latch r = s.setReg r.die .fltFirst 0 (recordCounted (s.reg r.die .fltFirst 0)) := if_pos h

theorem latch_empty (h : (s.reg r.die .fltFirst 0).getLsbD 63 = false) :
    s.latch r = ((s.setReg r.die .fltFirst 0 (recordTaken (s.reg r.die .fltFirst 0) r)).setReg r.die .fltFirstTime 0 s.now).setReg
      r.die .fltFirstInfo 0 (r.info.zeroExtend 64) := if_neg (by rw [h]; decide)

theorem latchPkg_held (h : (s.reg .hub .fltPkgFirst 0).getLsbD 63 = true) :
    s.latchPkg r time = s.setReg .hub .fltPkgFirst 0 (pkgCounted (s.reg .hub .fltPkgFirst 0)) := if_pos h

theorem latchPkg_empty (h : (s.reg .hub .fltPkgFirst 0).getLsbD 63 = false) :
    s.latchPkg r time = (s.setReg .hub .fltPkgFirst 0 (pkgTaken (s.reg .hub .fltPkgFirst 0) r)).setReg .hub .fltPkgTime 0 time :=
  if_neg (by rw [h]; decide)

/-- A held record keeps its source, and counts. -/
theorem recordCounted_fields (f : W64) : (recordCounted f).getLsbD 63 = f.getLsbD 63 ∧ fld (recordCounted f) 7 0 = fld f 7 0 ∧
    (recordCounted f).getLsbD 61 = f.getLsbD 61 ∧ (recordCounted f).getLsbD 62 = true ∧
    fld (recordCounted f) 47 32 = min 65535 (fld f 47 32 + 1) := by
  unfold recordCounted
  refine ⟨?_, ?_, ?_, ?_, ?_⟩
  · rw [getLsbD_setFld_out (by decide), getLsbD_setFld_out (by decide)]
  · rw [fld_setFld_disjoint _ _ (by decide), fld_setFld_disjoint _ _ (by decide)]
  · rw [getLsbD_setFld_out (by decide), getLsbD_setFld_out (by decide)]
  · rw [getLsbD_setFld_out (by decide), getLsbD_setFld_in (by decide)]
    rfl
  · rw [fld_setFld_same _ _ (by decide)]
    exact Nat.mod_eq_of_lt (by omega)

/-- An empty record takes its source. -/
theorem recordTaken_fields (f : W64) (hsrc : r.src < 256) : (recordTaken f r).getLsbD 63 = true ∧ fld (recordTaken f r) 7 0 = r.src ∧
    (recordTaken f r).getLsbD 61 = r.forced ∧ (recordTaken f r).getLsbD 62 = f.getLsbD 62 ∧ fld (recordTaken f r) 47 32 = fld f 47 32 := by
  unfold recordTaken
  refine ⟨?_, ?_, ?_, ?_, ?_⟩
  · rw [getLsbD_setFld_out (by decide), getLsbD_setFld_out (by decide), getLsbD_setFld_in (by decide)]
    rfl
  · rw [fld_setFld_same _ _ (by decide)]
    exact Nat.mod_eq_of_lt hsrc
  · rw [getLsbD_setFld_out (by decide), getLsbD_setFld_in (by decide), testBit_b2n]
  · rw [getLsbD_setFld_out (by decide), getLsbD_setFld_out (by decide), getLsbD_setFld_out (by decide)]
  · rw [fld_setFld_disjoint _ _ (by decide), fld_setFld_disjoint _ _ (by decide), fld_setFld_disjoint _ _ (by decide)]

/-- The package's held record keeps its die, source and information, and counts. -/
theorem pkgCounted_fields (f : W64) : fld (pkgCounted f) 60 57 = fld f 60 57 ∧ fld (pkgCounted f) 56 49 = fld f 56 49 ∧
    fld (pkgCounted f) 31 0 = fld f 31 0 ∧ (pkgCounted f).getLsbD 62 = true ∧ fld (pkgCounted f) 48 33 = min 65535 (fld f 48 33 + 1) := by
  unfold pkgCounted
  refine ⟨?_, ?_, ?_, ?_, ?_⟩
  · rw [fld_setFld_disjoint _ _ (by decide), fld_setFld_disjoint _ _ (by decide)]
  · rw [fld_setFld_disjoint _ _ (by decide), fld_setFld_disjoint _ _ (by decide)]
  · rw [fld_setFld_disjoint _ _ (by decide), fld_setFld_disjoint _ _ (by decide)]
  · rw [getLsbD_setFld_out (by decide), getLsbD_setFld_in (by decide)]
    rfl
  · rw [fld_setFld_same _ _ (by decide)]
    exact Nat.mod_eq_of_lt (by omega)

/-- The package's empty record takes a report's die, source and information. -/
theorem pkgTaken_fields (f : W64) (hsrc : r.src < 256) : (pkgTaken f r).getLsbD 63 = true ∧ (pkgTaken f r).getLsbD 61 = r.forced ∧
    fld (pkgTaken f r) 60 57 = r.die.idx ∧ fld (pkgTaken f r) 56 49 = r.src ∧ fld (pkgTaken f r) 31 0 = r.info.toNat := by
  unfold pkgTaken
  refine ⟨?_, ?_, ?_, ?_, ?_⟩
  · rw [getLsbD_setFld_out (by decide), getLsbD_setFld_out (by decide), getLsbD_setFld_out (by decide), getLsbD_setFld_out (by decide),
      getLsbD_setFld_in (by decide)]
    rfl
  · rw [getLsbD_setFld_out (by decide), getLsbD_setFld_out (by decide), getLsbD_setFld_out (by decide), getLsbD_setFld_in (by decide),
      testBit_b2n]
  · rw [fld_setFld_disjoint _ _ (by decide), fld_setFld_disjoint _ _ (by decide), fld_setFld_same _ _ (by decide)]
    exact Nat.mod_eq_of_lt (Die.idx_lt _)
  · rw [fld_setFld_disjoint _ _ (by decide), fld_setFld_same _ _ (by decide)]
    exact Nat.mod_eq_of_lt hsrc
  · rw [fld_setFld_same _ _ (by decide)]
    exact Nat.mod_eq_of_lt r.info.isLt

end

/-- Settles O53: a held record is only counted in, an empty one takes the report. -/
theorem firstFaultIsKept : Obligations.FirstFaultIsKept := by
  unfold Obligations.FirstFaultIsKept
  refine ⟨fun s r hheld => ?_, fun s r hempty hsrc => ?_, fun s r time hheld => ?_, fun s r time hempty hsrc => ?_⟩
  · rw [latch_held hheld, State.reg_setReg_same, State.reg_setReg_ne _ _ (by simp), State.reg_setReg_ne _ _ (by simp)]
    obtain ⟨hvalid, hsource, hforced, hmore, hcount⟩ := recordCounted_fields (s.reg r.die .fltFirst 0)
    exact ⟨hvalid.trans hheld, hsource, hforced, hmore, hcount, rfl, rfl⟩
  · rw [latch_empty hempty, State.reg_setReg_ne _ _ (by simp), State.reg_setReg_ne _ _ (by simp), State.reg_setReg_same,
      State.reg_setReg_ne _ _ (by simp), State.reg_setReg_same, State.reg_setReg_same]
    obtain ⟨hvalid, hsource, hforced, hmore, hcount⟩ := recordTaken_fields (s.reg r.die .fltFirst 0) hsrc
    exact ⟨hvalid, hsource, hforced, hmore, hcount, rfl, rfl⟩
  · rw [latchPkg_held hheld, State.reg_setReg_same, State.reg_setReg_ne _ _ (by simp)]
    obtain ⟨hdie, hsource, hinfo, hmore, hcount⟩ := pkgCounted_fields (s.reg .hub .fltPkgFirst 0)
    exact ⟨hdie, hsource, hinfo, hmore, hcount, rfl⟩
  · rw [latchPkg_empty hempty, State.reg_setReg_ne _ _ (by simp), State.reg_setReg_same, State.reg_setReg_same]
    obtain ⟨hvalid, hforced, hdie, hsource, hinfo⟩ := pkgTaken_fields (s.reg .hub .fltPkgFirst 0) hsrc
    exact ⟨hvalid, hforced, hdie, hsource, hinfo, rfl⟩

end Sys2Proof.Machine
end

section
/-!
Commands of fault handling (Chapter 15): reports, records, forcing, on-die errors, ALIVE_OUT and the watchdog, clocks and rails.
-/

namespace Sys2Proof.Machine
open Sys2Proof

/-! ### Reports and records (R411, R412, R414, R417) -/

section
variable {d : Die} {n : Nat} {w : Wr} {s : State}

theorem faultReport_gives (hup : s.collects d = true) (hsome : (s.raised.filter fun r => decide (r.die = d)).take n ≠ []) :
    Gives (.faultReport d n) s
      ((bySource ((s.raised.filter fun r => decide (r.die = d)).take n)).foldl State.takeReport { s with raised := dropOf d n s.raised }) :=
  gives_of_done_eq rfl (if_neg (by simpa [hup] using hsome))

theorem faultForward_gives (hrun : s.running .hub false = true) (hsome : (s.forwards.filter fun x => s.reach x.1.die .hub).take n ≠ []) :
    let joined := s.forwards.filter fun x => s.reach x.1.die .hub
    let cut := s.forwards.filter fun x => !s.reach x.1.die .hub
    Gives (.faultForward n) s
      (([0, 1, 2, 3, 4, 5, 6].flatMap fun i => (joined.take n).filter fun x => decide (x.1.die.idx = i)).foldl
        (fun t x => t.latchPkg x.1 x.2) { s with forwards := cut ++ joined.drop n }) :=
  gives_of_done_eq rfl (if_neg (by rw [hrun]; exact fun h => h.elim (by decide) hsome))

theorem fltClear_of_bit {bit : Nat} (hgate : s.gate w.die .fltCtrl w.pl w.ctx = .ok) (hbit : w.val.getLsbD bit = true) :
    s.fltClear w bit = (cleared w s).answer .ok 0 := by
  unfold State.fltClear cleared
  rw [hgate]
  refine (if_neg (by rw [hbit]; decide)).trans ?_
  simp only [Bool.and_eq_true, decide_eq_true_iff]

theorem faultForce_gives (hgate : s.gate w.die .fltForce w.pl w.ctx = .ok) :
    let l := (List.range 64).filter fun j => w.val.getLsbD j && decide (defaultReact w.die (64 * (w.idx % 4) + j) ≠ 0)
    Gives (.faultForce w) s
      (({ s with raised := s.raised ++ l.map fun j => Report.mk w.die (64 * (w.idx % 4) + j) 0xFFFFFFFF#32 true } : State).answer .ok 0) := by
  refine gives_of_done_eq rfl ?_
  rw [hgate]

/-! ### Errors of on-die storage (R422, R425) -/

theorem exec_ondieUncorrectable_dma {ch : Nat} (hch : ch < unitCount d .dma) : exec (.ondieUncorrectable (.dma d ch)) s = done s
    (let u := s.upset (1, d.idx, ch)
     let v := match u.2.dma? d ch with
       | some r => if u.1 then u.2 else u.2.dmaStop d ch r .pois r.row r.byte []
       | none => u.2
     if u.1 then (v.dmaEnd d ch .pois 6).retireChan d ch else v) := congrArg (done s) (if_neg (Nat.not_le_of_lt hch))

theorem retireChan_eq (t : State) (d : Die) (ch : Nat) : t.retireChan d ch =
    ({ t with dmaDead := if t.dmaDead.contains (d, ch) then t.dmaDead else (d, ch) :: t.dmaDead }.setRf d .dmaStatus ch 2 0 6).raise d
      (if d = Die.hub then 0x4A else 0x34) ch := by
  cases d <;> rfl

theorem ondieUncorrectable_gives {x : OnDie} (hreal : onDieReal s x) : Gives (.ondieUncorrectable x) s (onDieEffect x s) := by
  cases x with
  | tile t arr =>
    obtain ⟨hrun, ht⟩ := hreal
    exact gives_of_done_eq rfl (if_neg (by simp [hrun, ht]))
  | l2data a set way half => exact gives_of_done_eq rfl (if_neg (Nat.not_le_of_lt hreal))
  | l2tag a set way => exact gives_of_done_eq rfl (if_neg (Nat.not_le_of_lt hreal))
  | burr b => exact gives_of_done_eq rfl (if_neg (Nat.not_le_of_lt hreal))
  | sampler u => exact gives_of_done_eq rfl (if_neg (Nat.not_le_of_lt hreal))
  | dma d ch =>
    refine gives_of_done_eq (exec_ondieUncorrectable_dma hreal) ?_
    unfold onDieEffect
    dsimp only
    cases hagain : (s.upset (1, d.idx, ch)).1 with
    | true => cases hdma : (s.upset (1, d.idx, ch)).2.dma? d ch <;> exact retireChan_eq _ d ch
    | false => cases hdma : (s.upset (1, d.idx, ch)).2.dma? d ch <;> rfl
  | core k c => exact gives_of_done_eq rfl (if_pos hreal)
  | _ => exact gives_of_done_eq rfl rfl

/-! ### ALIVE_OUT and the watchdog (R423, R424, R458) -/

theorem aliveToggle_on (hon : s.rf .hub .fltAlive 0 31 31 = 1) :
    Gives .aliveToggle s (s.setRf .hub .fltAlive 0 30 30 (1 - s.rf .hub .fltAlive 0 30 30)) := gives_of_done_eq rfl (if_pos hon)

theorem aliveToggle_off (hoff : s.rf .hub .fltAlive 0 31 31 = 0) : Gives .aliveToggle s s := gives_of_done_eq rfl (if_neg (by omega))

theorem exec_aliveRestart (hgate : s.gate .hub .fltAlive w.pl w.ctx = .ok) (hbit : w.val.getLsbD 0 = true) : exec (.aliveRestart w) s = done s
    ((if s.rf .hub .fltWdt 0 29 29 = 0 ∧ s.epinStands = false ∧ s.wdtRuns = true then
      (s.setRf .hub .fltAlive 0 31 31 1).setRf .hub .fltAlive 0 29 28 0 else s).answer .ok 0) := by
  refine congrArg (done s) ?_
  rw [hgate]
  exact if_neg (by rw [hbit]; decide)

theorem wdtWrite_of_bit {bit : Nat} (hgate : s.gate .hub .fltWdt w.pl w.ctx = .ok) (hbit : w.val.getLsbD bit = true) :
    s.wdtWrite w bit = (wdtWritten w s).answer .ok 0 := by
  unfold State.wdtWrite wdtWritten
  rw [hgate]
  refine (if_neg (by rw [hbit]; decide)).trans ?_
  simp only [Bool.and_eq_true, Bool.not_eq_true']

theorem wdtExpire_gives (hrun : s.running .hub false = true) (hen : s.rf .hub .fltWdt 0 31 31 = 1) (hfirst : s.rf .hub .fltWdt 0 29 29 = 0)
    (hlate : 100000 * s.rf .hub .fltWdt 0 15 0 ≤ (s.now - s.kicked).toNat) :
    Gives .wdtExpire s (((({ s with wdtRuns := true } : State).setRf .hub .fltWdt 0 29 29 1).aliveStop 2).raise .hub 7 0) := by
  refine gives_of_done_eq rfl (if_neg ?_)
  rintro (hdown | hdis | hdone | hsoon)
  · rw [hrun] at hdown
    exact absurd hdown (by decide)
  · exact absurd (hdis.symm.trans hen) (by decide)
  · exact absurd (hfirst.symm.trans hdone) (by decide)
  · exact Nat.not_lt_of_le hlate hsoon

theorem tileRetire_gives {m : Fin 4} (hdie : w.die = .cd m) (hgate : s.gate w.die .fltTileRetire w.pl w.ctx = .ok) :
    Gives (.tileRetire w) s ((((List.range 64).filter fun j => w.val.getLsbD j).foldl
      (fun t j => t.retireTile m (64 * (w.idx % 2) + j)) s).answer .ok 0) := by
  refine gives_of_done_eq rfl ?_
  rw [hgate, hdie]

/-! ### Clocks, rails and PCIe links (R37, R362, R419, R467) -/

section
variable (hup : s.dom d false = 2) (hlocked : d ∉ s.unlocked)
include hup hlocked

theorem exec_pllLock : exec (.pllLock d) s = done s
    (if d = .hub then s.raise .hub 1 0 else ({ s with unlocked := d :: s.unlocked } : State).raise d 0 0) :=
  congrArg (done s) (if_neg (by simp [hup, hlocked]))

end

theorem refLoss_gives (hrun : s.running .hub false = true) : Gives .refLoss s (s.raise .hub 0 0) := gives_of_done_eq rfl (if_pos hrun)

theorem railPgFall_removed {rail : Nat} {e : List Nat × W64} (he : s.rdown.find? (fun e => decide (e.1.headD 100 = rail)) = some e) :
    Gives (.railPgFall rail) s (s.railNext e) := by
  refine gives_of_done_eq rfl ?_
  rw [he]

section
variable {rail : Nat} (hrail : rail < 34) (hthere : rail ∈ s.rails) (hkept : ∀ e ∈ s.rdown, e.1.headD 100 ≠ rail)
include hrail hthere hkept

/-- A rail that falls while it is enabled. -/
theorem exec_railPgFall : exec (.railPgFall rail) s = done s
    (let t : State := { s with rails := s.rails.filter fun r => decide (r ≠ rail) }
     match railStack rail with
     | some k => if s.dom (.cd (cdOf (k / 2))) false = 2 then (t.stackOff k).raise .hub 0x02 ((7 + k) * 256 + 1) else t
     | none =>
       if s.dom (railDie rail) (decide (rail < 4)) = 2 then (t.dieLose (railDie rail)).raise .hub 0x02 ((railDie rail).idx * 256 + 1) else t) := by
  have hnone : s.rdown.find? (fun e => decide (e.1.headD 100 = rail)) = none := by
    rw [List.find?_eq_none]
    exact fun e he => by simpa using hkept e he
  refine congrArg (done s) ?_
  rw [hnone]
  exact if_neg (by simp [hthere, hrail])

end

theorem exec_pcieLinkDown {p : Nat} {loss : LinkLoss} (hp : p < 4) (hrun : s.running .hub false = true)
    (hup : s.rf .hub .hubPcieCfg p 19 19 = 1) : exec (.pcieLinkDown p loss) s = done s
    ((if loss.down then ((s.setRf .hub .hubPcieCfg p 19 19 0).setReady (14 + p) 0).outbDown p else s).raise .hub (0x40 + p) loss.aer) :=
  congrArg (done s) (if_neg (by simp [hrun, hup, hp]))

end

/-- Settles O54: each command of these rules, by the lemma for it above. -/
theorem faultCommands : Obligations.FaultCommands := by
  unfold Obligations.FaultCommands
  refine ⟨?_, ?_, ?_, ?_, ?_, ?_, ?_, ?_, ?_, ?_, ?_, ?_, ?_, ?_, ?_⟩
  · intro d n s hup l hsome
    exact faultReport_gives hup hsome
  · intro n s hrun joined cut hsome
    exact faultForward_gives hrun hsome
  · intro w s hgate
    exact ⟨fun hbit => gives_of_done_eq rfl (fltClear_of_bit hgate hbit), fun hbit => gives_of_done_eq rfl (fltClear_of_bit hgate hbit)⟩
  · intro w s hgate
    exact faultForce_gives hgate
  · intro x s hreal
    exact ondieUncorrectable_gives hreal
  · intro s
    exact ⟨aliveToggle_on, aliveToggle_off⟩
  · intro w s hgate hbit may
    have hexec := exec_aliveRestart hgate hbit
    exact ⟨fun h => gives_of_done_eq hexec (by rw [if_pos h]), fun h => gives_of_done_eq hexec (by rw [if_neg h])⟩
  · intro w s hgate
    exact ⟨fun hbit => gives_of_done_eq rfl (wdtWrite_of_bit hgate hbit), fun hbit => gives_of_done_eq rfl (wdtWrite_of_bit hgate hbit)⟩
  · intro s hrun hen hfirst hlate
    exact wdtExpire_gives hrun hen hfirst hlate
  · intro w n s hdie hgate
    exact tileRetire_gives hdie hgate
  · intro d s hup hlocked
    have hexec := exec_pllLock hup hlocked
    exact ⟨fun h => gives_of_done_eq hexec (if_pos h), fun h => gives_of_done_eq hexec (if_neg h)⟩
  · intro s hrun
    exact refLoss_gives hrun
  · intro rail s hrail hthere hkept t
    have hexec := exec_railPgFall hrail hthere hkept
    refine ⟨fun k hk hup => gives_of_done_eq hexec ?_, fun hk hup => gives_of_done_eq hexec ?_, fun hstack hdie => gives_of_done_eq hexec ?_⟩
    · rw [hk]
      exact if_pos hup
    · rw [hk]
      exact if_pos hup
    · cases hk : railStack rail with
      | some k => exact if_neg (hstack k hk)
      | none => exact if_neg (hdie hk)
  · intro rail s e he
    exact railPgFall_removed he
  · intro p aer s hp hrun hup
    exact ⟨gives_of_done_eq (exec_pcieLinkDown hp hrun hup) rfl, gives_of_done_eq (exec_pcieLinkDown hp hrun hup) rfl⟩

end Sys2Proof.Machine
end

section
/-!
The order of the topology check and of a licence's conditions (R444, R445, R447): each gives the lowest number of its table that a test
accepts. The life of the running firmware image (R454, R457-R459).
-/

namespace Sys2Proof.Machine
open Sys2Proof

/-! ### The lowest number that a test accepts -/

section
variable {p : Nat → Bool} {a n : Nat}

theorem find?_upFrom_eq_none : (upFrom a n).find? p = none ↔ ∀ k, a ≤ k → k < a + n → p k = false := by
  simp only [upFrom, List.find?_eq_none, List.mem_map, List.mem_range, Bool.not_eq_true]
  refine ⟨fun h k hlow hhigh => h k ⟨k - a, by omega, by omega⟩, ?_⟩
  rintro h k ⟨j, hj, rfl⟩
  exact h _ (by omega) (by omega)

theorem find?_upFrom_eq_some {r : Nat} (h : (upFrom a n).find? p = some r) :
    a ≤ r ∧ r < a + n ∧ p r = true ∧ ∀ k, a ≤ k → k < r → p k = false := by
  rw [upFrom, List.find?_map, Option.map_eq_some_iff] at h
  obtain ⟨j, hj, rfl⟩ := h
  obtain ⟨hp, hmem, hlow⟩ := List.find?_range_eq_some.1 hj
  refine ⟨by omega, Nat.add_lt_add_left (List.mem_range.1 hmem) a, hp, fun k hak hkj => ?_⟩
  have hnot : p (a + (k - a)) = false := by simpa using hlow (k - a) (by omega)
  rwa [show a + (k - a) = k by omega] at hnot

end

/-! ### The topology check (R444, R445) -/

section
variable {s : State} {ids heights : List (Nat × Nat)}

/-- The lowest rule of Table 16-4 that matches. -/
def State.topoHit (s : State) (ids heights : List (Nat × Nat)) : Option Nat := (upFrom 1 10).find? fun k => s.topoRule ids heights k

theorem topoResult_ready (h : s.topoHit ids heights = none) : s.topoResult ids heights = (1, 0) := by
  unfold State.topoHit at h
  rw [← List.head?_filter, List.head?_eq_none_iff] at h
  unfold State.topoResult
  rw [h]

theorem topoResult_hit {r : Nat} (h : s.topoHit ids heights = some r) : s.topoResult ids heights =
    (if r ≤ 5 ∧ s.rf .hub .hubReady 0 63 62 ≠ 1 ∧ s.rf .hub .hubReady 0 63 62 ≠ 2 then 3 else 2, r) := by
  unfold State.topoHit at h
  rw [← List.head?_filter, List.head?_eq_some_iff] at h
  obtain ⟨rest, hfilter⟩ := h
  unfold State.topoResult
  rw [hfilter]

end

/-! ### Conditions of a licence (R447) -/

section
variable {s : State} {l : Nat}

/-- Condition `k` of Table 16-6. -/
def State.licOk (s : State) (l : Nat) : Nat → Bool
  | 1 => licFormat l
  | 2 => s.fuse.licKey l
  | 3 => licSigned l
  | 4 => decide (licFld l 0x10 16 = s.fuse.uid.toNat)
  | 5 => decide (licFld l 0x05 1 = if s.fuse.high16 = true then 1 else 2)
  | 6 => !(s.licensed && decide (licFld l 0x08 4 ≤ s.rf .hub .licStatus 0 63 32))
  | _ => !(s.licensed && (decide (licTiles l < s.rf .hub .licStatus 0 15 2) || (s.fl && decide (licFeat l = 2))))

theorem find?_not_cons (ok : Nat → Bool) (k : Nat) (ks : List Nat) : ((k :: ks).find? fun k => !ok k).getD 0 =
    if ok k = false then k else (ks.find? fun k => !ok k).getD 0 := by
  cases h : ok k <;> simp [h]

theorem find?_seven (ok : Nat → Bool) : ((upFrom 1 7).find? fun k => !ok k).getD 0 =
    if ok 1 = false then 1 else if ok 2 = false then 2 else if ok 3 = false then 3 else if ok 4 = false then 4
    else if ok 5 = false then 5 else if ok 6 = false then 6 else if ok 7 = false then 7 else 0 := by
  rw [show upFrom 1 7 = [1, 2, 3, 4, 5, 6, 7] from rfl]
  simp only [find?_not_cons]
  rfl

theorem licReason_eq : s.licReason l = ((upFrom 1 7).find? fun k => !s.licOk l k).getD 0 := by
  rw [find?_seven]
  unfold State.licReason
  simp only [State.licOk, decide_eq_false_iff_not, Bool.not_eq_false', ne_eq]

theorem licReason_eq_zero_iff : s.licReason l = 0 ↔ ∀ k, 1 ≤ k → k ≤ 7 → s.licOk l k = true := by
  rw [licReason_eq]
  cases hfind : (upFrom 1 7).find? fun k => !s.licOk l k with
  | none =>
    have hall := find?_upFrom_eq_none.1 hfind
    exact iff_of_true rfl fun k hlow hhigh => by simpa using hall k hlow (by omega)
  | some r =>
    obtain ⟨hlow, hhigh, hbad, -⟩ := find?_upFrom_eq_some hfind
    refine iff_of_false (by simp only [Option.getD_some]; omega) fun h => ?_
    rw [h r hlow (by omega)] at hbad
    exact absurd hbad (by decide)

theorem licReason_spec (h : s.licReason l ≠ 0) : 1 ≤ s.licReason l ∧ s.licReason l ≤ 7 ∧ s.licOk l (s.licReason l) = false ∧
    ∀ k, 1 ≤ k → k < s.licReason l → s.licOk l k = true := by
  rw [licReason_eq] at h ⊢
  cases hfind : (upFrom 1 7).find? fun k => !s.licOk l k with
  | none =>
    rw [hfind] at h
    exact absurd rfl h
  | some r =>
    obtain ⟨hlow, hhigh, hbad, hgood⟩ := find?_upFrom_eq_some hfind
    exact ⟨hlow, Nat.le_of_lt_succ hhigh, by simpa using hbad, fun k hk hkr => by simpa using hgood k hk hkr⟩

end

/-- Settles O57: both are the lowest number of their table that fails. -/
theorem topologyAndLicenceOrder : Obligations.TopologyAndLicenceOrder := by
  unfold Obligations.TopologyAndLicenceOrder
  refine ⟨fun s ids heights => ?_, fun s l => ?_⟩
  · dsimp only
    cases hhit : s.topoHit ids heights with
    | none =>
      rw [topoResult_ready hhit]
      have hall := find?_upFrom_eq_none.1 hhit
      exact ⟨iff_of_true rfl fun k hlow hhigh => hall k hlow (by omega), by simp, by simp, fun _ => rfl, .inl rfl⟩
    | some r =>
      rw [topoResult_hit hhit]
      obtain ⟨hlow, hhigh, hmatch, hfirst⟩ := find?_upFrom_eq_some hhit
      have hsome : ¬ ∀ k, 1 ≤ k → k ≤ 10 → s.topoRule ids heights k = false := fun h => by
        rw [h r hlow (by omega)] at hmatch
        exact absurd hmatch (by decide)
      refine ⟨iff_of_false ?_ hsome, fun _ => ⟨hlow, Nat.le_of_lt_succ hhigh, hmatch, hfirst⟩, ?_, ?_, ?_⟩
      all_goals split <;> simp_all
  · intro ok
    have hok (k : Nat) (hlow : 1 ≤ k) (hhigh : k ≤ 7) : ok k ↔ s.licOk l k = true := by
      interval_cases k <;> simp [ok, State.licOk, imp_iff_not_or]
    refine ⟨licReason_eq_zero_iff.trans (forall_congr' fun k => forall₂_congr fun hlow hhigh => (hok k hlow hhigh).symm), fun h => ?_⟩
    obtain ⟨hlow, hhigh, hbad, hgood⟩ := licReason_spec h
    refine ⟨hhigh, ?_, fun k hk hkr => (hok k hk (by omega)).2 (hgood k hk hkr)⟩
    rw [hok _ hlow hhigh, hbad]
    decide

end Sys2Proof.Machine
end

section
/-!
The life of the running firmware image (R454, R457-R459): its confirmation, the two timeouts, after which the previous image runs again, and
the kick of the root of trust.
-/

namespace Sys2Proof.Machine
open Sys2Proof

/-! ### The boot record (R452) -/

theorem bootRec_putBoot (s : State) (r : BootRec) : (s.putBoot r).bootRec = { r with seq := s.bootRec.seq + 1 } := by
  by_cases hnewer : s.bootLog.a.seq < s.bootLog.b.seq <;> simp [State.putBoot, State.bootRec, hnewer]

/-! ### The previous image runs again (R454, R459) -/

section
variable {s : State} {h : ImgHdr} {ev : Nat}

theorem fwActive_cases (s : State) : s.fwActive = 0 ∨ s.fwActive = 1 := rf_bit_cases s _ _ _ _

/-- The boot record with the running image refused and the other one active. -/
def State.refusedRec (s : State) : BootRec :=
  let b := s.bootRec
  { b with
    active := 1 - s.fwActive
    trial := false
    refused := if b.refused.contains s.fwActive then b.refused else s.fwActive :: b.refused }
/-- The running image refused, and nothing awaited of it. -/
def State.fwRefused (s : State) : State := { s.putBoot s.refusedRec with trialWait := false, liveWait := false }

theorem bootRec_fwRefused (s : State) : s.fwRefused.bootRec = { s.refusedRec with seq := s.bootRec.seq + 1 } := bootRec_putBoot s s.refusedRec

theorem refused_fwRefused (s : State) : s.fwRefused.bootRec.refused =
    if s.bootRec.refused.contains s.fwActive then s.bootRec.refused else s.fwActive :: s.bootRec.refused := by
  rw [bootRec_fwRefused]
  rfl

theorem refused_contains_fwActive (s : State) : s.fwRefused.bootRec.refused.contains s.fwActive = true := by
  rw [refused_fwRefused]
  split
  next hwas => exact hwas
  next => simp

theorem refused_contains_other (s : State) : s.fwRefused.bootRec.refused.contains (1 - s.fwActive) = s.bootRec.refused.contains (1 - s.fwActive) := by
  have hother : 1 - s.fwActive ≠ s.fwActive := by
    have := fwActive_cases s
    omega
  rw [refused_fwRefused]
  split
  · rfl
  · simp [hother]

theorem imgOk_fwRefused (x : Option ImgHdr) : s.fwRefused.imgOk (1 - s.fwActive) x = s.imgOk (1 - s.fwActive) x := by
  cases x with
  | none => rfl
  | some x =>
    unfold State.imgOk
    rw [refused_contains_other]
    rfl

/-- The state that an accepted previous image comes back in. -/
theorem fwBack_runs (hfound : aFind s.hdrs (1 - s.fwActive) = some (some h)) (hok : s.imgOk (1 - s.fwActive) (some h) = true)
    (hreads : readsSchema h s.settingsNow = true) :
    s.fwBack ev = ((s.fwRefused.fwRun (1 - s.fwActive) h false false).fwEvent ev).freeTraps := by
  have himg : s.fwRefused.imgFind (1 - s.fwActive) none = some h := congrArg (Option.getD · none) hfound
  have haccepted : s.fwRefused.imgOk (1 - s.fwActive) (some h) = true := (imgOk_fwRefused _).trans hok
  have hschema : readsSchema h s.fwRefused.settingsNow = true := hreads
  unfold State.fwRefused State.refusedRec at himg haccepted hschema ⊢
  unfold State.fwBack
  dsimp only at himg haccepted hschema ⊢
  rw [himg]
  dsimp only
  rw [if_pos haccepted, if_pos hschema]

theorem fwRun_bootRec (i : Nat) (trial live : Bool) (hreads : readsSchema h s.settingsNow = true) :
    (s.fwRun i h trial live).bootRec = { s.bootRec with handover := 0, seq := s.bootRec.seq + 1 } := by
  unfold State.fwRun
  dsimp only
  rw [if_pos hreads]
  exact bootRec_putBoot _ _

theorem fwRun_waits (i : Nat) (trial live : Bool) : (s.fwRun i h trial live).trialWait = s.trialWait ∧ (s.fwRun i h trial live).liveWait = s.liveWait := by
  unfold State.fwRun
  dsimp only
  split <;> exact ⟨rfl, rfl⟩

theorem fwEvent_keeps (s : State) (ev : Nat) : (s.fwEvent ev).bootRec = s.bootRec ∧ (s.fwEvent ev).trialWait = s.trialWait ∧
    (s.fwEvent ev).liveWait = s.liveWait := ⟨rfl, rfl, rfl⟩

theorem freeTraps_keeps (s : State) : s.freeTraps.bootRec = s.bootRec ∧ s.freeTraps.trialWait = s.trialWait ∧ s.freeTraps.liveWait = s.liveWait ∧
    s.freeTraps.heldTraps = [] := by
  have hkeep (l : List (Nat × Nat)) (t : State) : (l.foldl (fun t x => t.trapOut x.1 x.2) t).bootRec = t.bootRec ∧
      (l.foldl (fun t x => t.trapOut x.1 x.2) t).trialWait = t.trialWait ∧ (l.foldl (fun t x => t.trapOut x.1 x.2) t).liveWait = t.liveWait := by
    induction l generalizing t with
    | nil => exact ⟨rfl, rfl, rfl⟩
    | cons x l ih => exact ih (t.trapOut x.1 x.2)
  obtain ⟨hrec, htrial, hlive⟩ := hkeep s.heldTraps s
  exact ⟨hrec, htrial, hlive, rfl⟩

end

/-! ### Confirmation and the kick (R457-R459) -/

section
variable {w : Wr} {s : State}

theorem exec_fwConfirm (hgate : s.gate .hub .fwStatus w.pl w.ctx = .ok) (hbit : w.val.getLsbD 0 = true) : exec (.fwConfirm w) s = done s
    (if w.pl ≠ 0 then s.answer .ok 0
     else
      let t := s.setReg .hub .fwStatus 0 (setFld (setFld (setFld (s.reg .hub .fwStatus 0) 3 3 0) 2 2 0) 0 0 1)
      let u := if s.bootRec.active % 2 = s.fwActive then t.putBoot { s.bootRec with trial := false } else t
      ({ u with trialWait := false, liveWait := false } : State).answer .ok 0) := by
  refine congrArg (done s) ?_
  rw [hgate]
  exact if_neg (by rw [hbit]; decide)

theorem exec_rootOfTrustKick : exec .rootOfTrustKick s = done s (if s.liveNext = true ∨ s.liveWait = true then s.kick else s) :=
  congrArg (done s) (if_congr (Bool.or_eq_true _ _ ▸ Iff.rfl) rfl rfl)

end

/-- Settles O58: each command by its lemma, and after a timeout the boot record as the previous image leaves it. -/
theorem firmwareLifeCommands : Obligations.FirmwareLifeCommands := by
  unfold Obligations.FirmwareLifeCommands
  refine ⟨fun w s hgate hbit => ?_, fun s h => ?_, fun s h => ?_, fun s h => ?_, fun s h => ?_, fun s h => ?_, fun s hnext hwait => ?_,
    bootRec_putBoot, fun s ev h hfound hok hreads => ?_⟩
  · have hexec := exec_fwConfirm hgate hbit
    exact ⟨fun hpl => hexec.trans (congrArg (done s) (if_neg (not_not.2 hpl))), fun hpl => hexec.trans (congrArg (done s) (if_pos hpl))⟩
  · exact congrArg (done s) (if_pos h)
  · exact congrArg (done s) (if_neg (by simp [h]))
  · exact congrArg (done s) (if_pos h)
  · exact congrArg (done s) (if_neg (by simp [h]))
  · exact exec_rootOfTrustKick.trans (congrArg (done s) (if_pos h))
  · exact exec_rootOfTrustKick.trans (congrArg (done s) (if_neg (by simp [hnext, hwait])))
  · rw [fwBack_runs hfound hok hreads]
    dsimp only
    obtain ⟨hrec, htrial, hlive, htraps⟩ := freeTraps_keeps ((s.fwRefused.fwRun (1 - s.fwActive) h false false).fwEvent ev)
    obtain ⟨hevrec, hevtrial, hevlive⟩ := fwEvent_keeps (s.fwRefused.fwRun (1 - s.fwActive) h false false) ev
    obtain ⟨hruntrial, hrunlive⟩ := fwRun_waits (s := s.fwRefused) (h := h) (1 - s.fwActive) false false
    rw [hrec, hevrec, fwRun_bootRec (s := s.fwRefused) _ _ _ hreads, htrial, hevtrial, hruntrial, hlive, hevlive, hrunlive]
    exact ⟨congrArg BootRec.active (bootRec_fwRefused s), congrArg BootRec.trial (bootRec_fwRefused s), refused_contains_fwActive s, rfl, rfl, htraps⟩

end Sys2Proof.Machine
end

section
/-!
The mailbox (R399, R447-R449, R456, R460, R461): requests in service, with the bytes of the flash and the record of the settings that they
read and write.
-/

namespace Sys2Proof.Machine
open Sys2Proof

/-! ### Requests in service (R460, R461) -/

section
variable {s : State} {m : Mbx} {rest : List Mbx} {cmd : Nat} (hfront : s.mbox = m :: rest) (hcmd : m.cmd = cmd) (hserved : Served s)
include hfront hcmd hserved

theorem mailTake_served (f : State → Mbx → State) : s.mailTake cmd f =
    let t : State := { s with mbox := rest }
    if s.rf .hub .fwStatus 0 4 4 = 1 ∧ cmd ≠ 0x0B then t.mailOut m.path m.cmd m.tag .unav 0 0 else f t m := by
  obtain ⟨hup, hlive, hwork⟩ := hserved
  unfold State.mailTake
  rw [hfront]
  refine if_neg ?_
  rintro (hother | hdown | hgoing | hbusy)
  · exact hother hcmd
  · rw [← Bool.or_eq_true, hdown] at hup
    exact absurd hup (by decide)
  · exact absurd (hlive.symm.trans hgoing) (by decide)
  · exact hbusy hwork

theorem mailTake_done (f : State → Mbx → State) (h : s.rf .hub .fwStatus 0 4 4 = 0 ∨ cmd = 0x0B) :
    s.mailTake cmd f = f { s with mbox := rest } m := by
  rw [mailTake_served hfront hcmd hserved]
  exact if_neg fun hdef => h.elim (fun hzero => absurd (hzero.symm.trans hdef.1) (by decide)) hdef.2

theorem mailTake_defaults (f : State → Mbx → State) (hdef : s.rf .hub .fwStatus 0 4 4 = 1) (hreset : cmd ≠ 0x0B) :
    s.mailTake cmd f = ({ s with mbox := rest } : State).mailOut m.path m.cmd m.tag .unav 0 0 := by
  rw [mailTake_served hfront hcmd hserved]
  exact if_pos ⟨hdef, hreset⟩

end

theorem mailRow_of_exec {i : Instr} {cmd : Nat} {f : State → Mbx → Status × Nat × State}
    (hexec : ∀ s, exec i s = done s (s.mailServe cmd f)) : MailRow i cmd f := by
  intro s m rest hfront hcmd hserved t u
  exact ⟨fun h => (hexec s).trans (congrArg (done s) (mailTake_done hfront hcmd hserved _ h)),
    fun hdef hreset => (hexec s).trans (congrArg (done s) (mailTake_defaults hfront hcmd hserved _ hdef hreset))⟩

/-- What a licence leaves behind that has been written to its slot. -/
def State.licWritten (t : State) (m : Mbx) (flips : List (Nat × Nat)) : State :=
  { flips.foldl (fun x e => if e.1 < 256 then x.flashPut (licBase t.licFree + e.1) [BitVec.ofNat 8 e.2] else x)
      (t.flashPut (licBase t.licFree) (leBytes 256 m.data)) with licWait := some (m, t.licFree) }

theorem exec_licenceInstall (flips : List (Nat × Nat)) (s : State) : exec (.licenceInstall flips) s = done s
    (s.mailTake 5 fun t m => if t.licWait.isSome then t.mailBusy m.path m.cmd m.tag else t.licWritten m flips) := rfl

/-! ### Bytes of the flash (Table 16-9) -/

section
variable {s : State} {base a : Nat} {l : List Byte}

theorem aFind_foldl_aSet_of_ne {κ α β : Type} [DecidableEq κ] (key : β → κ) (val : β → α) (es : List β) (m : AMap κ α) {i : κ}
    (h : ∀ e ∈ es, key e ≠ i) : aFind (es.foldl (fun f e => aSet f (key e) (val e)) m) i = aFind m i := by
  induction es generalizing m with
  | nil => rfl
  | cons e es ih =>
    rw [List.foldl_cons, ih _ fun x hx => h x (List.mem_cons_of_mem _ hx), aFind_aSet, if_neg (h e List.mem_cons_self)]

theorem aFind_foldl_aSet_of_mem {κ α β : Type} [DecidableEq κ] (key : β → κ) (val : β → α) (es : List β) (m : AMap κ α)
    (hkeys : es.Pairwise fun x y => key x ≠ key y) {e : β} (he : e ∈ es) :
    aFind (es.foldl (fun f e => aSet f (key e) (val e)) m) (key e) = some (val e) := by
  induction es generalizing m with
  | nil => cases he
  | cons x es ih =>
    obtain ⟨hx, hrest⟩ := List.pairwise_cons.1 hkeys
    obtain rfl | hmem := List.mem_cons.1 he
    · rw [List.foldl_cons, aFind_foldl_aSet_of_ne key val es _ fun y hy => (hx y hy).symm, aFind_aSet, if_pos rfl]
    · exact ih _ hrest hmem

theorem withIdx_pairwise {α : Type} (l : List α) : (withIdx l).Pairwise fun x y => x.1 ≠ y.1 := by
  rw [← List.pairwise_map (f := Prod.fst) (R := (· ≠ ·))]
  unfold withIdx
  rw [List.map_fst_zip (by simp)]
  exact List.nodup_range

theorem flash_flashPut_in {j : Nat} {b : Byte} (h : l[j]? = some b) : aFind (s.flashPut base l).flash (base + j) = some b := by
  have hmem : (j, b) ∈ withIdx l := List.mem_of_getElem? (i := j) (by rw [withIdx_getElem?, h]; rfl)
  exact aFind_foldl_aSet_of_mem (fun e : Nat × Byte => base + e.1) (fun e => e.2) _ _
    ((withIdx_pairwise l).imp fun hne heq => hne (Nat.add_left_cancel heq)) hmem

theorem flash_flashPut_out (h : a < base ∨ base + l.length ≤ a) : aFind (s.flashPut base l).flash a = aFind s.flash a := by
  refine aFind_foldl_aSet_of_ne (fun e : Nat × Byte => base + e.1) (fun e => e.2) _ _ fun e he => ?_
  have hlt : e.1 < l.length := List.mem_range.1 (List.of_mem_zip he).1
  omega

theorem flashByte_of_flash {b : Byte} (h : aFind s.flash a = some b) : s.flashByte a = b := by
  unfold State.flashByte
  rw [h]

theorem flashByte_flashPut_out (h : a < base ∨ base + l.length ≤ a) : (s.flashPut base l).flashByte a = s.flashByte a := by
  unfold State.flashByte
  rw [flash_flashPut_out h]
  rfl

end

theorem imgVoid_eq (s : State) (i : Nat) : s.imgVoid i =
    ({ s with hdrs := aErase s.hdrs i } : State).putBoot { s.bootRec with refused := s.bootRec.refused.filter fun x => decide (x ≠ i) } := rfl

theorem imgVoid_spec (s : State) (i : Nat) : aFind (s.imgVoid i).hdrs i = none ∧ (s.imgVoid i).bootRec.refused.contains i = false ∧
    (s.imgVoid i).bootRec.active = s.bootRec.active ∧ (s.imgVoid i).flash = s.flash := by
  have hrec := bootRec_putBoot ({ s with hdrs := aErase s.hdrs i } : State)
    { s.bootRec with refused := s.bootRec.refused.filter fun x => decide (x ≠ i) }
  rw [← imgVoid_eq] at hrec
  refine ⟨(aFind_aErase s.hdrs i i).trans (if_pos rfl), ?_, ?_, rfl⟩
  · rw [hrec]
    simp
  · rw [hrec]

/-! ### The settings in force (R455) -/

section
variable {s : State}

/-- The later of two records: the one kept so far, and the next of the journal where it is valid. -/
def laterRec (m : Option SetRec) (r : SetRec) : Option SetRec :=
  if r.valid = false then m
  else match m with | some b => if b.seq.toNat < r.seq.toNat then some r else m | none => some r

theorem settingsNow_eq (s : State) : s.settingsNow = s.settings.all.foldl laterRec none := rfl

theorem laterRec_invalid {m : Option SetRec} {r : SetRec} (h : r.valid = false) : laterRec m r = m := if_pos h
theorem laterRec_first {r : SetRec} (h : r.valid = true) : laterRec none r = some r := if_neg (by simp [h])
theorem laterRec_some {b r : SetRec} (h : r.valid = true) : laterRec (some b) r = if b.seq.toNat < r.seq.toNat then some r else some b :=
  if_neg (by simp [h])

theorem foldl_laterRec_none (l : List SetRec) (m : Option SetRec) : l.foldl laterRec m = none ↔ m = none ∧ ∀ x ∈ l, x.valid = false := by
  induction l generalizing m with
  | nil => simp
  | cons r l ih =>
    rw [List.foldl_cons, ih, List.forall_mem_cons]
    cases hvalid : r.valid with
    | false => simp [laterRec_invalid hvalid]
    | true =>
      cases m with
      | none => simp [laterRec_first hvalid]
      | some b =>
        rw [laterRec_some hvalid]
        split <;> simp

/-- A record kept from a journal is one of it that is valid, or the one before it, and none is later. -/
theorem foldl_laterRec_some (l : List SetRec) (m : Option SetRec) {r : SetRec} (h : l.foldl laterRec m = some r) :
    (m = some r ∨ (r ∈ l ∧ r.valid = true)) ∧ (∀ b, m = some b → b.seq.toNat ≤ r.seq.toNat) ∧
      ∀ x ∈ l, x.valid = true → x.seq.toNat ≤ r.seq.toNat := by
  induction l generalizing m with
  | nil =>
    have hm : m = some r := h
    refine ⟨.inl hm, fun b hb => ?_, by simp⟩
    rw [hm] at hb
    cases hb
    exact Nat.le_refl _
  | cons y l ih =>
    obtain ⟨hfrom, hkept, hrest⟩ := ih _ h
    cases hvalid : y.valid with
    | false =>
      rw [laterRec_invalid hvalid] at hfrom hkept
      refine ⟨hfrom.imp_right fun ⟨hmem, hr⟩ => ⟨List.mem_cons_of_mem _ hmem, hr⟩, hkept, ?_⟩
      rintro x hx hxv
      obtain rfl | hx := List.mem_cons.1 hx
      · rw [hvalid] at hxv
        cases hxv
      · exact hrest x hx hxv
    | true =>
      have hlater : ∃ b, laterRec m y = some b ∧ (b = y ∨ m = some b) ∧ y.seq.toNat ≤ b.seq.toNat ∧
          ∀ c, m = some c → c.seq.toNat ≤ b.seq.toNat := by
        cases m with
        | none => exact ⟨y, laterRec_first hvalid, .inl rfl, Nat.le_refl _, by simp⟩
        | some c =>
          rw [laterRec_some hvalid]
          split
          next hlt => exact ⟨y, rfl, .inl rfl, Nat.le_refl _, by simpa using hlt.le⟩
          next hge => exact ⟨c, rfl, .inr rfl, Nat.le_of_not_lt hge, by simp⟩
      obtain ⟨b, hb, hsource, hy, hm⟩ := hlater
      rw [hb] at hfrom hkept
      have hbr : b.seq.toNat ≤ r.seq.toNat := hkept b rfl
      refine ⟨?_, fun c hc => (hm c hc).trans hbr, ?_⟩
      · obtain hbeq | ⟨hmem, hr⟩ := hfrom
        · cases hbeq
          exact hsource.symm.imp_right fun heq => by rw [heq]; exact ⟨List.mem_cons_self, hvalid⟩
        · exact .inr ⟨List.mem_cons_of_mem _ hmem, hr⟩
      · rintro x hx hxv
        obtain rfl | hx := List.mem_cons.1 hx
        · exact hy.trans hbr
        · exact hrest x hx hxv

theorem settingsNow_spec {r : SetRec} (h : s.settingsNow = some r) :
    r ∈ s.settings.all ∧ r.valid = true ∧ ∀ x ∈ s.settings.all, x.valid = true → x.seq.toNat ≤ r.seq.toNat := by
  obtain ⟨hfrom, -, hlast⟩ := foldl_laterRec_some s.settings.all none ((settingsNow_eq s).symm.trans h)
  obtain ⟨hmem, hvalid⟩ := hfrom.resolve_left (by simp)
  exact ⟨hmem, hvalid, hlast⟩

theorem settingsNow_none : s.settingsNow = none ↔ ∀ x ∈ s.settings.all, x.valid = false := by
  rw [settingsNow_eq, foldl_laterRec_none]
  exact and_iff_right rfl

end

/-- Settles O59: each command serves its request as its lemma says, on the flash and the settings as the laws above describe them. -/
theorem mailboxCommands : Obligations.MailboxCommands := by
  unfold Obligations.MailboxCommands
  refine ⟨mailRow_of_exec fun _ => rfl, fun v => mailRow_of_exec fun _ => rfl, fun age => mailRow_of_exec fun _ => rfl,
    mailRow_of_exec fun _ => rfl, ?_, fun off len => mailRow_of_exec fun _ => rfl,
    fun s base l a => ⟨fun j b hj => flashByte_of_flash (flash_flashPut_in hj), flashByte_flashPut_out⟩, imgVoid_spec,
    fun x => mailRow_of_exec fun _ => rfl, fun live => mailRow_of_exec fun _ => rfl, fun s r => settingsNow_spec, fun s => settingsNow_none,
    ?_, fun modes good => mailRow_of_exec fun _ => rfl, mailRow_of_exec fun _ => rfl⟩
  · intro flips s m rest hfront hcmd hserved t k
    refine ⟨fun hdef => ?_, fun hzero hwait => ?_, fun hzero hfree => ?_⟩ <;> refine (exec_licenceInstall flips s).trans (congrArg (done s) ?_)
    · exact mailTake_defaults hfront hcmd hserved _ hdef (by decide)
    · rw [mailTake_done hfront hcmd hserved _ (.inl hzero)]
      exact if_pos (Option.isSome_iff_ne_none.2 hwait)
    · rw [mailTake_done hfront hcmd hserved _ (.inl hzero)]
      exact if_neg (by simp [hfree])
  · refine mailRow_of_exec fun s => congrArg (fun f => done s (s.mailServe 9 f)) ?_
    funext t m
    cases t.settingsNow <;> rfl

end Sys2Proof.Machine
end

section
/-!
Low-speed pins and the test access port (Chapter 17): the functions of the pins and their levels, the pads, and the scans of the test
registers.
-/

namespace Sys2Proof.Machine
open Sys2Proof

/-! ### Pin functions (R475-R477) -/

section
variable {w : Wr} {k : Nat} {s : State}

/-- The value of PIN_MUX that a write gives. -/
def muxNew (w : Wr) : W64 := setFld (setFld (setFld 0 7 6 (fld w.val 7 6)) 5 4 (fld w.val 5 4)) 1 0 (fld w.val 1 0)
/-- Whether a write of PIN_MUX asks for what the pin can do. -/
def MuxLegal (w : Wr) : Prop := fld w.val 1 0 ∈ pinFuncs (w.idx % 32) ∧ fld w.val 5 4 ≠ 3 ∧ fld w.val 7 6 ≠ 3

section
variable (hgate : s.gate .hub .pinMux w.pl w.ctx = .ok)
include hgate

theorem pinMuxWrite_illegal (h : ¬ MuxLegal w) : Gives (.pinMuxWrite w) s (s.answer .perm 0) := by
  refine gives_of_done_eq rfl ?_
  rw [hgate]
  refine if_pos ?_
  simpa [MuxLegal, imp_iff_not_or] using h

variable (hlegal : MuxLegal w)
include hlegal

theorem exec_pinMuxWrite : exec (.pinMuxWrite w) s = done s
    (if s.switching (w.idx % 32) = true then s.answer .busy 0
     else (if s.pinFunc (w.idx % 32) = fld w.val 1 0 then s.setReg .hub .pinMux (w.idx % 32) (muxNew w)
       else ({ s with pinHold := aSet s.pinHold (w.idx % 32) (s.holdLevel (w.idx % 32)) } : State).setReg .hub .pinMux (w.idx % 32)
         (setFld (muxNew w) 31 31 1)).answer .ok 0) := by
  obtain ⟨hfunc, hpull, hdrive⟩ := hlegal
  refine congrArg (done s) ?_
  rw [hgate]
  exact if_neg (by simp [hfunc, hpull, hdrive])

end

theorem pinSwitchDone_over (hk : k < 32) (hrun : s.running .hub false = true) (h : s.switching k = true) :
    Gives (.pinSwitchDone k) s (({ s with pinHold := aErase s.pinHold k } : State).setRf .hub .pinMux k 31 31 0) :=
  gives_of_done_eq rfl (if_neg (by simp [hk, hrun, h]))

theorem pinSwitchDone_none (h : s.switching k = false) : Gives (.pinSwitchDone k) s s := gives_of_done_eq rfl (if_pos (.inr (.inl h)))

theorem gpioInput_gives {level : Bool} (hk : k < 32) : Gives (.gpioInput k level) s { s with pins := aSet s.pins k level } :=
  gives_of_done_eq rfl (if_neg (Nat.not_le_of_lt hk))

theorem pinLevel_switching (h : s.switching k = true) : s.pinLevel k = aGet s.pinHold false k := if_pos h

theorem pinLevel_gpio (h : s.switching k = false) (hfunc : s.pinFunc k = 0) (hout : (s.reg .hub .pinGpioCtrl 0).getLsbD (32 + k) = true) :
    s.pinLevel k = (s.reg .hub .pinGpioCtrl 0).getLsbD k :=
  (if_neg (by simp [h])).trans (if_pos (by rw [State.gpioDrives, hfunc, hout]; rfl))

theorem pinLevel_listening (h : s.switching k = false) (hfunc : s.pinFunc k ≠ 0) (hout : funcOutput k (s.pinFunc k) = false) :
    s.pinLevel k = aGet s.pins false k := by
  have hgpio : s.gpioDrives k = false := by simp [State.gpioDrives, hfunc]
  exact (if_neg (by simp [h])).trans ((if_neg (by simp [hgpio])).trans (if_neg (by simp [hout])))

theorem funcSees_connected {f : Nat} (hfunc : s.pinFunc k = f) (h : s.switching k = false) : s.funcSees k f = s.pinLevel k := if_pos ⟨hfunc, h⟩

theorem funcSees_apart {f : Nat} (h : s.pinFunc k ≠ f ∨ s.switching k = true) :
    s.funcSees k f = true ↔ (k, f) ∈ [(1, 1), (3, 1), (5, 1), (4, 2), (5, 2)] := by
  have happart : s.funcSees k f = inactiveLevel k f := if_neg fun ⟨hfunc, hstill⟩ => by simp [hfunc, hstill] at h
  rw [happart, inactiveLevel, List.contains_iff_mem]
  simp only [List.mem_cons]
  tauto

end

/-! ### Bits of a captured register -/

section
variable {g : Nat → Bool} {n i : Nat}

/-- The number with bits `g 0` to `g (n - 1)`. -/
def bitSum (g : Nat → Bool) (n : Nat) : Nat := ((List.range n).map fun i => b2n (g i) * 2 ^ i).sum

theorem bitSum_succ (g : Nat → Bool) (n : Nat) : bitSum g (n + 1) = bitSum g n + b2n (g n) * 2 ^ n := by
  simp [bitSum, List.range_succ]

theorem bitSum_lt (g : Nat → Bool) (n : Nat) : bitSum g n < 2 ^ n := by
  induction n with
  | zero => exact Nat.one_pos
  | succ n ih =>
    have hbit : b2n (g n) * 2 ^ n ≤ 1 * 2 ^ n := Nat.mul_le_mul_right _ (by cases g n <;> decide)
    rw [bitSum_succ, Nat.pow_succ]
    omega

theorem testBit_bitSum (g : Nat → Bool) (n i : Nat) : (bitSum g n).testBit i = (decide (i < n) && g i) := by
  induction n with
  | zero => simp [bitSum]
  | succ n ih =>
    rw [bitSum_succ, Nat.add_comm, Nat.mul_comm, Nat.testBit_two_pow_mul_add _ (bitSum_lt g n)]
    by_cases hlow : i < n
    · rw [if_pos hlow, ih]
      simp [hlow, Nat.lt_succ_of_lt hlow]
    · rw [if_neg hlow]
      by_cases heq : i = n
      · subst heq
        rw [Nat.sub_self, testBit_b2n]
        simp
      · obtain ⟨j, hj⟩ : ∃ j, i - n = j + 1 := ⟨i - n - 1, by omega⟩
        have hnot : ¬ i < n + 1 := by omega
        rw [hj]
        cases g n <;> simp [b2n, hnot, Nat.testBit_succ]

end

theorem lsLevels_eq (s : State) : s.lsLevels = bitSum s.pinLevel 32 := foldl_add_map (fun k => b2n (s.pinLevel k) * 2 ^ k) _

theorem boundary_eq (s : State) : s.boundary = bitSum (fun i => (boundaryPads[i]?).elim false s.padLevel) boundaryLen := by
  have hbits : (withIdx boundaryPads).map (fun e => b2n (s.padLevel e.2) * 2 ^ e.1) =
      (List.range boundaryPads.length).map fun i => b2n ((boundaryPads[i]?).elim false s.padLevel) * 2 ^ i := by
    generalize boundaryPads = pads
    refine List.ext_getElem? fun i => ?_
    rw [List.getElem?_map, List.getElem?_map, withIdx_getElem?]
    by_cases hi : i < pads.length
    · simp [hi]
    · simp [List.getElem?_eq_none (Nat.le_of_not_lt hi), List.getElem?_eq_none (l := List.range pads.length) (i := i) (by simpa using hi)]
  exact (foldl_add_map (fun e : Nat × Pad => b2n (s.padLevel e.2) * 2 ^ e.1) _).trans (congrArg List.sum hbits)

theorem boundary_testBit {s : State} {i : Nat} {p : Pad} (h : boundaryPads[i]? = some p) : s.boundary.testBit i = s.padLevel p := by
  have hlt : i < boundaryLen := (List.getElem?_eq_some_iff.1 h).1
  rw [boundary_eq, testBit_bitSum, h, decide_eq_true hlt]
  rfl

theorem gpioIn_getLsbD {s : State} {k : Nat} (pl : Nat) (hk : k < 32) : (s.regView .hub .pinGpioIn 0 pl).getLsbD k = s.pinLevel k := by
  have hview : s.regView .hub .pinGpioIn 0 pl = BitVec.ofNat 64 s.lsLevels := rfl
  rw [hview, BitVec.getLsbD_ofNat, lsLevels_eq, testBit_bitSum, decide_eq_true hk, decide_eq_true (show k < 64 by omega)]
  rfl

/-! ### Pads (R464, R474) -/

section
variable {s : State} (hextest : s.tapHolds 2 = false) (hclamp : s.tapHolds 4 = false)
include hextest hclamp

theorem pad_of_not_driven (p : Pad) : s.pad p = if (p.drives && s.tapHolds 5) = true then .highZ else s.padFunc p :=
  if_neg (by simp [hextest, hclamp])

omit hextest hclamp in
theorem padLevel_ls_of_driven {k : Nat} (h : ∀ v, s.pad (.ls k) = .driven v → v = s.pinLevel k) : s.padLevel (.ls k) = s.pinLevel k := by
  unfold State.padLevel
  cases hpad : s.pad (.ls k) with
  | driven v => exact h v hpad
  | _ => rfl

omit hextest hclamp in
theorem padFunc_ls_driven {k : Nat} {v : Bool} (h : s.padFunc (.ls k) = .driven v) : v = s.pinLevel k := by
  unfold State.padFunc at h
  dsimp only at h
  split at h
  next hswitch =>
    cases h
    exact (pinLevel_switching hswitch).symm
  next =>
    split at h
    · cases h
      rfl
    · split at h
      · cases h
      · split at h <;> cases h

theorem padLevel_ls (k : Nat) : s.padLevel (.ls k) = s.pinLevel k := by
  refine padLevel_ls_of_driven fun v h => ?_
  rw [pad_of_not_driven hextest hclamp] at h
  split at h
  · cases h
  · exact padFunc_ls_driven h

variable (hhighz : s.tapHolds 5 = false) (hdark : s.hubLit = false)
include hhighz hdark

theorem pads_dark : (∀ i, s.pad (.railEn i) = .driven false) ∧ s.pad .qspiCsN = .driven true ∧ s.pad .tdo = .highZ := by
  have hfunc (p : Pad) : s.pad p = s.padFunc p := (pad_of_not_driven hextest hclamp p).trans (if_neg (by simp [hhighz]))
  refine ⟨fun i => ?_, ?_, hfunc .tdo⟩
  · rw [hfunc, State.padFunc, hdark]
    rfl
  · rw [hfunc, State.padFunc, hdark]
    rfl

end

/-! ### The test access port (R479) -/

section
variable {ir : Nat} {x : Scan} {s : State}

theorem scan_eq (s : State) (ir acts tdo : Nat) : s.scan ir acts tdo = scanned s ir acts tdo := rfl

theorem scanBypass_eq (s : State) (ir acts : Nat) (x : Scan) : s.scanBypass ir acts x = scanned s ir acts (oneLater x) := by
  have hout : (scanShift x 1 0).1 = oneLater x := by
    unfold scanShift oneLater
    dsimp only
    rw [Nat.zero_add, Nat.pow_one, Nat.mul_comm]
  unfold State.scanBypass
  rw [hout, scan_eq]

theorem scanBoundary_eq (s : State) (ir : Nat) (x : Scan) : s.scanBoundary ir x = bsrScanned s ir x := rfl

theorem reset_asserted_scans (h : s.rstIn = true) :
    Gives (.extest x) s ((bsrScanned s 2 x).emit .pin [2, through s x / 2 ^ x.len % 2 ^ boundaryLen]) ∧
    Gives (.clamp x) s ((scanned s 4 4 (oneLater x)).emit .pin [4, s.jtag.bsr]) ∧
    Gives (.highz x) s ((scanned s 5 5 (oneLater x)).emit .pin [5]) := by
  refine ⟨gives_of_done_eq rfl (if_pos h), gives_of_done_eq rfl ((if_pos h).trans ?_), gives_of_done_eq rfl ((if_pos h).trans ?_)⟩ <;>
    rw [scanBypass_eq]

theorem reset_released_scans (h : s.rstIn = false) : Gives (.extest x) s (scanned s 2 0xFF (oneLater x)) ∧
    Gives (.clamp x) s (scanned s 4 0xFF (oneLater x)) ∧ Gives (.highz x) s (scanned s 5 0xFF (oneLater x)) := by
  have hnot : ¬ s.rstIn = true := by simp [h]
  exact ⟨gives_of_done_eq rfl ((if_neg hnot).trans (scanBypass_eq s 2 0xFF x)), gives_of_done_eq rfl ((if_neg hnot).trans (scanBypass_eq s 4 0xFF x)),
    gives_of_done_eq rfl ((if_neg hnot).trans (scanBypass_eq s 5 0xFF x))⟩

theorem idcode_fields (s : State) : s.idcode % 2 = 1 ∧ s.idcode / 2 % 2 ^ 11 = 0x433 ∧ s.idcode / 2 ^ 12 % 2 ^ 16 = 0xA4E3 ∧
    s.idcode / 2 ^ 28 = (s.fuse.ids.headD 0).toNat % 16 := by
  unfold State.idcode
  generalize (s.fuse.ids.headD 0).toNat % 16 = stepping
  omega

end

/-- Settles O60: each command by its lemma, each pad and pin by its level's. -/
theorem pinCommands : Obligations.PinCommands := by
  unfold Obligations.PinCommands
  refine ⟨⟨?_, ?_, ?_, ?_⟩, ?_, ?_, fun s i p => boundary_testBit, fun s k hextest hclamp => padLevel_ls hextest hclamp k,
    fun s => pads_dark, fun s k pl => gpioIn_getLsbD pl, idcode_fields⟩
  · intro w s hgate k legal new
    refine ⟨pinMuxWrite_illegal hgate, fun hlegal hswitch => ?_, fun hstill hlegal hsame => ?_, fun hstill hlegal hother => ?_⟩
    · exact gives_of_done_eq (exec_pinMuxWrite hgate hlegal) (if_pos hswitch)
    · refine gives_of_done_eq (exec_pinMuxWrite hgate hlegal) ((if_neg (by simp [k, hstill] : ¬ s.switching k = true)).trans ?_)
      rw [if_pos hsame.symm]
      rfl
    · refine gives_of_done_eq (exec_pinMuxWrite hgate hlegal) ((if_neg (by simp [k, hstill] : ¬ s.switching k = true)).trans ?_)
      rw [if_neg (Ne.symm hother)]
      rfl
  · intro k s hk hrun
    exact ⟨pinSwitchDone_over hk hrun, pinSwitchDone_none⟩
  · intro k level s hk
    exact gpioInput_gives hk
  · intro ir x s
    exact ⟨rfl, rfl, gives_of_done_eq rfl (scanBypass_eq s ir 0xFF x), rfl, reset_asserted_scans, reset_released_scans⟩
  · intro s k
    exact ⟨pinLevel_switching, pinLevel_gpio, pinLevel_listening⟩
  · intro s k f
    exact ⟨funcSees_connected, funcSees_apart⟩

end Sys2Proof.Machine
end
